-- ==== Sys2Proof/Word.lean ====
section
/-! DEFINITION. Word types of the Falhel TC3 tile core. -/

namespace Sys2Proof

/-- A byte of local memory. -/
abbrev Byte := BitVec 8

/-- A 16-bit field. -/
abbrev Half := BitVec 16

/-- A 32-bit register of the register window, an instruction word, a binary32 code. -/
abbrev Word := BitVec 32

/-- A 64-bit scalar register (R72). -/
abbrev Dword := BitVec 64

/-- A local address (R171). -/
abbrev Addr := BitVec 21

/-- Code of a scalar register s0 to s31 (R72). -/
abbrev SReg := BitVec 5

end Sys2Proof
end

