-- ==== Sys2Proof/Syntax.lean ====
section
/-! DEFINITION. The commands of the block: one constructor of Instr per row of spec/opcode_table.json, with the row's operands. Instruction words of the control core carry the fields of their format (R74). -/

namespace Sys2Proof

/-- Form R (R74): X, D, A, B and F[9:6]; F[5:0] is the mnemonic (Table 4). -/
structure RForm where
  x : Bool
  d : SReg
  a : SReg
  b : SReg
  f96 : BitVec 4
deriving DecidableEq, Repr

/-- Form I (R74): the extension word when X = 1, D, A and imm[14:0]. -/
structure IForm where
  ext : Option Word
  d : SReg
  a : SReg
  imm : BitVec 15
deriving DecidableEq, Repr

/-- Form B (R74): the extension word when X = 1, COND, A, B and OFF[9:0]. -/
structure BForm where
  ext : Option Word
  cond : BitVec 5
  a : SReg
  b : SReg
  off : BitVec 10
deriving DecidableEq, Repr

/-- Form J (R74): X, D and OFF[19:0]. -/
structure JForm where
  x : Bool
  d : SReg
  off : BitVec 20
deriving DecidableEq, Repr

/-- Form E (R74): the extension word of Table 8 when X = 1, D, A, B, FN and SUB. -/
structure EForm where
  ext : Option Word
  d : SReg
  a : SReg
  b : SReg
  fn : BitVec 4
  sub : BitVec 6
deriving DecidableEq, Repr

/-- Form C (R74): the extension word when X = 1, D, A, B and F. -/
structure CForm where
  ext : Option Word
  d : SReg
  a : SReg
  b : SReg
  f : BitVec 10
deriving DecidableEq, Repr

/-- What the SYNC port carries with SYNC_REL (17 R404): zone, epoch and the norm fields. -/
structure ReleaseIn where
  zone : BitVec 2
  epoch : Word
  nrmAll : Bool
  nrmSq : Word
  nrmNf : Bool
  nrmMin : Word
  nrmMax : Word
deriving DecidableEq, Repr

/-- An exchange beat on XCH_IN (17 R404). -/
structure XchBeat where
  data : BitVec 256
  src : BitVec 20
  ent : BitVec 10
  beat : Half
deriving DecidableEq, Repr

/-- A stream packet with a block (13 R325): the header words, the 512 B block and its tag. Byte k of the block is bits 8k+7 to 8k, byte k of the tag likewise. -/
structure StrPacket where
  h0 : Dword
  h1 : Dword
  h2 : Dword
  data : BitVec 4096
  tag : BitVec 128
deriving DecidableEq, Repr

/-- The two register buses (17 R405). -/
inductive Bus where
  | mgmt
  | dbg
deriving DecidableEq, Repr

/-- The commands. -/
inductive Instr where
  /-- R9: When the last arrival condition of R8 is met, the tile asserts SYNC_ARR 2 c-cycles later with its zone. -/
  | syncArrival
  /-- R52: SYNC_REL is sampled: zone and epoch checks, commit or hold, context switch, norm token latch, halts and the start of the exchange lead-in. -/
  | syncRelease (r : ReleaseIn)
  /-- R48: The live-to-shadow copy ends 262 c-cycles after a commit and waiting shadow writes and loads land. -/
  | shadowCopyDone
  /-- R315: At c-cycle r + 64 the slot-store banks swap or not, the itinerary starts and the next image load may begin. -/
  | exchStart
  /-- R317: A send entry reads a beat from its bank and drives it on XCH_OUT at its compiled offset. -/
  | exchSendBeat (off : Word)
  /-- R319: An exchange beat sampled on XCH_IN is checked against the open receive entry and written or rejected. -/
  | exchRecvBeat (off : Word) (x : XchBeat)
  /-- R7: The exchange phase ends, the next compute phase begins and CORE_STAGE increments. -/
  | exchEnd
  /-- R314: An itinerary image load into the inactive slot-store bank completes after its checks, or stops at the first failure. -/
  | itinLoadDone (cyc : Word)
  /-- R25: The surroundings change the root frequency while every tile of the die waits at sync. -/
  | stageOpChange (op : BitVec 3)
  /-- R337: After 16 ticks without a root edge the tile is in SUSPEND. -/
  | suspendEntry
  /-- R26: VR_ALERT_N falls and the root clock of every tile switches to OP-E on the next a-cycle boundary. -/
  | alertFall
  /-- R27: VR_ALERT_N rises and the 10 µs hold at OP-E begins. -/
  | alertRise
  /-- R27: When the 10 µs hold expires, the root clock returns to the recorded point on one die-wide edge and the alert ends. -/
  | alertReturn
  /-- R30: The droop detector trips and starts a stretch of the control and arithmetic clocks. -/
  | droopTrip
  /-- R30: A droop stretch ends on an a-cycle boundary when the detector clears or after 256 t-cycles. -/
  | stretchEnd (limit : Bool)
  /-- R350: The droop detector re-arms 16 or 64 t-cycles after a stretch ends. -/
  | droopRearm (low : Bool)
  /-- R77: ALU ADD writes A + B. -/
  | add (f : RForm)
  /-- R77: ALU SUB writes A − B. -/
  | sub (f : RForm)
  /-- R77: ALU AND writes A AND B. -/
  | and (f : RForm)
  /-- R77: ALU OR writes A OR B. -/
  | or (f : RForm)
  /-- R77: ALU XOR writes A XOR B. -/
  | xor (f : RForm)
  /-- R77: ALU ANDN writes A AND NOT B. -/
  | andn (f : RForm)
  /-- R77: ALU SLL shifts A left by B[5:0]. -/
  | sll (f : RForm)
  /-- R77: ALU SRL shifts A right logically by B[5:0]. -/
  | srl (f : RForm)
  /-- R77: ALU SRA shifts A right arithmetically by B[5:0]. -/
  | sra (f : RForm)
  /-- R77: ALU SLT writes 1 when A < B signed. -/
  | slt (f : RForm)
  /-- R77: ALU SLTU writes 1 when A < B unsigned. -/
  | sltu (f : RForm)
  /-- R77: ALU MIN writes the smaller value, signed. -/
  | min (f : RForm)
  /-- R77: ALU MAX writes the larger value, signed. -/
  | max (f : RForm)
  /-- R77: ALU MINU writes the smaller value, unsigned. -/
  | minu (f : RForm)
  /-- R77: ALU MAXU writes the larger value, unsigned. -/
  | maxu (f : RForm)
  /-- R77: ALU SXW sign-extends A[31:0]. -/
  | sxw (f : RForm)
  /-- R77: ALU ZXW zero-extends A[31:0]. -/
  | zxw (f : RForm)
  /-- R77: ALU DIFW writes (A − B) mod 2³² sign-extended from bit 31. -/
  | difw (f : RForm)
  /-- R77: ALU MUL writes the low 64 bits of A × B. -/
  | mul (f : RForm)
  /-- R77: ALU MULH writes the high 64 bits of the signed product. -/
  | mulh (f : RForm)
  /-- R77: ALU MULHU writes the high 64 bits of the unsigned product. -/
  | mulhu (f : RForm)
  /-- R77: ALU DIV writes the signed quotient truncated toward zero. -/
  | div (f : RForm)
  /-- R77: ALU DIVU writes the unsigned quotient. -/
  | divu (f : RForm)
  /-- R77: ALU REM writes the signed remainder. -/
  | rem (f : RForm)
  /-- R77: ALU REMU writes the unsigned remainder. -/
  | remu (f : RForm)
  /-- R77: ALU CLZ writes the count of leading zeros of A. -/
  | clz (f : RForm)
  /-- R77: ALU POPC writes the count of set bits of A. -/
  | popc (f : RForm)
  /-- R77: ADDI writes A plus the immediate. -/
  | addi (f : IForm)
  /-- R77: ANDI writes A AND the immediate. -/
  | andi (f : IForm)
  /-- R77: ORI writes A OR the immediate. -/
  | ori (f : IForm)
  /-- R77: XORI writes A XOR the immediate. -/
  | xori (f : IForm)
  /-- R77: SLLI shifts A left by imm[5:0]. -/
  | slli (f : IForm)
  /-- R77: SRLI shifts A right logically by imm[5:0]. -/
  | srli (f : IForm)
  /-- R77: SRAI shifts A right arithmetically by imm[5:0]. -/
  | srai (f : IForm)
  /-- R77: SLTI writes 1 when A is below the immediate, signed. -/
  | slti (f : IForm)
  /-- R77: ORHI ORs the extension word shifted left by 32 into A. -/
  | orhi (f : IForm)
  /-- R78: LDD loads 64 bits from local memory after the partition check. -/
  | ldd (f : IForm)
  /-- R78: LDW loads 32 bits sign-extended. -/
  | ldw (f : IForm)
  /-- R78: LDWU loads 32 bits zero-extended. -/
  | ldwu (f : IForm)
  /-- R78: LDS loads 16 bits sign-extended. -/
  | lds (f : IForm)
  /-- R78: LDSU loads 16 bits zero-extended. -/
  | ldsu (f : IForm)
  /-- R78: LDB loads 8 bits sign-extended. -/
  | ldb (f : IForm)
  /-- R78: LDBU loads 8 bits zero-extended. -/
  | ldbu (f : IForm)
  /-- R80: STD stores 64 bits through the store buffer. -/
  | std (f : IForm)
  /-- R80: STW stores D[31:0]. -/
  | stw (f : IForm)
  /-- R80: STS stores D[15:0]. -/
  | sts (f : IForm)
  /-- R80: STB stores D[7:0]. -/
  | stb (f : IForm)
  /-- R75: BR branches by its offset when its condition holds. -/
  | br (f : BForm)
  /-- R75: JAL links and branches by its offset. -/
  | jal (f : JForm)
  /-- R75: JALR links and jumps to A + imm with bits [1:0] cleared. -/
  | jalr (f : IForm)
  /-- R83: The ARR instruction enqueues an array operation, stalling while the queue is full. -/
  | arr (f : EForm)
  /-- R83: The VEC instruction enqueues a vector engine operation. -/
  | vec (f : EForm)
  /-- R83: The FAC instruction enqueues a Factor operation. -/
  | fac (f : EForm)
  /-- R83: The WGH instruction enqueues a weigher operation. -/
  | wgh (f : EForm)
  /-- R83: The STR instruction enqueues a stream port operation. -/
  | str (f : EForm)
  /-- R83: The PST instruction enqueues a post engine operation. -/
  | pst (f : EForm)
  /-- R83: The STH instruction enqueues a stash mover operation. -/
  | sth (f : EForm)
  /-- R87: SYNC ends the compute phase, optionally requests a switch, and stops the control core until the release. -/
  | sync (f : CForm)
  /-- R285: SIG with OP ADD adds 1 or A[31:0] to a sync object. -/
  | sig (f : CForm)
  /-- R287: SIG with OP BAR opens a barrier of N participants. -/
  | sigBar (f : CForm)
  /-- R287: SIG with OP SET sets an object's value and returns it to counter mode. -/
  | sigSet (f : CForm)
  /-- R286: WAIT tests a sync object condition and completes at once or registers a watch in slot 7. -/
  | wait (f : CForm)
  /-- R300: FEW writes an FE word and sets it full, or waits while it is full. -/
  | few (f : CForm)
  /-- R300: FER reads a full FE word and marks it empty, or waits while it is empty. -/
  | fer (f : CForm)
  /-- R292: A change that meets a registered watch delivers a wake and the waiting instruction or queue head proceeds. -/
  | wake (slot : BitVec 5)
  /-- R93: FENCE stalls until the named engines have empty queues and have retired. -/
  | fence (f : CForm)
  /-- R93: A stalled FENCE completes 1 c-cycle after the last retirement it waited for. -/
  | fenceDone
  /-- R89: RNG writes 64 bits of the Philox generator output for the given counter. -/
  | rng (f : CForm)
  /-- R90: PHASE makes a phase pending for the governor after a lead time. -/
  | phase (f : CForm)
  /-- R91: MAN with F[0] = 0 sets the load address and length and starts a manifest load. -/
  | manLoad (f : CForm)
  /-- R91: MAN with F[0] = 1 arms the tile with an epoch. -/
  | manArm (f : CForm)
  /-- R73: MFS reads a special register into a scalar register. -/
  | mfs (f : CForm)
  /-- R73: MTS writes a scratch special register from a scalar register. -/
  | mts (f : CForm)
  /-- R92: CTX sets the next context and the switch request. -/
  | ctx (f : CForm)
  /-- R94: BRK halts the control core when invasive debug is allowed. -/
  | brk (f : CForm)
  /-- R284: An engine operation retires and its SID signal reaches the sync unit. -/
  | engineRetire (q : BitVec 3) (n : Nat)
  /-- R433: After a dispatch failure, a later queue entry is discarded at its first possible dispatch edge with its SID signal. -/
  | queueDiscard (q : BitVec 3)
  /-- R129: ARR.MM dispatches a matrix product, checked and folded onto its string. -/
  | arrMm
  /-- R130: ARR.CONV dispatches a convolution, checked and folded onto its string. -/
  | arrConv
  /-- R162: ARR.CAR joins or opens a caravan on its string. -/
  | arrCar
  /-- R153: ARR.LIST is accepted as a work list for a stealing group. -/
  | arrList
  /-- R166: ARR.FLUSH makes every open caravan depart. -/
  | arrFlush
  /-- R146: A string claims its next item when it begins the item's first product. -/
  | itemClaim (string : BitVec 6)
  /-- R149: An idle string claims the highest unclaimed item of a victim in its stealing group. -/
  | itemSteal (string : BitVec 6)
  /-- R154: An idle string claims the next work-list entry of its group, checked at claim. -/
  | listEntryClaim (string : BitVec 6)
  /-- R163: An open caravan departs when CARAVAN_DL a-cycles have passed since it opened. -/
  | caravanDeadline (string : BitVec 6)
  /-- R137: The drain takes a finished bale, applies derivative and output mode, and puts it in the bale queue or Y. -/
  | baleDrain
  /-- R160: The vector engine reads the presented bale from the bale queue and frees the entry. -/
  | baleRead
  /-- R214: VEC.RUN dispatches a chain preset over the element stream. -/
  | vecRun
  /-- R214: VEC.PROG dispatches an element program from memory. -/
  | vecProg
  /-- R212: VEC.PERM permutes lanes of two registers by an index vector. -/
  | vecPerm
  /-- R212: VEC.SHUF applies a fixed shuffle pattern to registers. -/
  | vecShuf
  /-- R212: VEC.PACK narrows register values and packs them into a register. -/
  | vecPack
  /-- R212: VEC.UNPK unpacks and widens a register into registers. -/
  | vecUnpk
  /-- R212: VEC.VLD loads 256 B into a vector register. -/
  | vecVld
  /-- R212: VEC.VST stores a vector register to memory. -/
  | vecVst
  /-- R212: VEC.BCST broadcasts a scalar into masked lane groups. -/
  | vecBcst
  /-- R212: VEC.RDS reduces a register into a scalar writeback. -/
  | vecRds
  /-- R245: FAC.STEP opens a Factor step, latching configuration and fetching the schedule blocks. -/
  | facStep
  /-- R247: When a group's schedule block lands, the Factor evaluates its curves and constants. -/
  | scheduleGroupEval
  /-- R250: FAC.P1 accumulates the squared unscaled gradients into the partial. -/
  | facP1
  /-- R254: FAC.TOKEN returns norm and clip factor of the latched token. -/
  | facToken
  /-- R255: FAC.P2 decides skip or update and writes the new parameters into the next slot. -/
  | facP2
  /-- R257: FAC.COMMIT advances version and step counter, or does nothing after a skip. -/
  | facCommit
  /-- R261: FAC.CNT returns the context's step counter and state. -/
  | facCnt
  /-- R121: WGH.READ returns a weigher's AMAX, scale, fill and format. -/
  | wghRead
  /-- R116: WGH.STEP updates every enabled weigher's history and scale and the loss scale. -/
  | wghStep
  /-- R121: WGH.LSREAD returns the loss-scale exponent and related flags. -/
  | wghLsread
  /-- R121: WGH.FLAGS returns the sticky weigher flags. -/
  | wghFlags
  /-- R120: WGH.CLR clears the sticky flags named by a mask. -/
  | wghClr
  /-- R322: STR.GET reads region blocks into local memory. -/
  | strGet
  /-- R322: STR.PUT writes local blocks into an external-memory region. -/
  | strPut
  /-- R322: STR.RPUT writes local blocks into a remote tile's local memory. -/
  | strRput
  /-- R326: A pulse of STR_OUT_CRED grants one outbound packet credit. -/
  | streamCredit
  /-- R327: The stream port issues its next outbound packet, after Obtur's write checks and encryption, once a credit and tag are free. -/
  | packetIssue
  /-- R328: A read-data packet is received, its tag checked and the block landed in local memory. -/
  | rdatReceived (p : StrPacket)
  /-- R328: A write acknowledgement arrives and the write slot frees or the operation retires. -/
  | ackReceived (h0 : Dword)
  /-- R329: An inbound remote put is checked, written, acknowledged and may apply an attached signal. -/
  | rputReceived (p : StrPacket)
  /-- R331: PST.SEND reads a 64 B payload and holds it for sending to a target queue. -/
  | pstSend
  /-- R334: PST.ACK adds 1 to a queue's HEAD. -/
  | pstAck
  /-- R334: PST.OPEN sets a queue's OPEN bit. -/
  | pstOpen
  /-- R334: PST.CLOSE clears a queue's OPEN bit. -/
  | pstClose
  /-- R331: A pulse of POST_OUT_CRED grants one message credit. -/
  | postCredit
  /-- R331: A held message is sent as five beats on POST_OUT once it has a credit. -/
  | postTransmit (n : BitVec 2)
  /-- R332: An arriving post message is written into its mailbox or answered FULL or CLOSED. -/
  | inboundMessage (header : Dword) (payload : BitVec 512)
  /-- R331: A post response arrives and retires the SEND or schedules a resend. -/
  | postResponse (header : Dword)
  /-- R331: A message answered FULL is resent 64 c-cycles after the response. -/
  | postResend (n : BitVec 2)
  /-- R224: STH.PUT places a stash entry, evicting older entries as needed. -/
  | sthPut
  /-- R227: STH.GET reads a stash entry to a destination or pins it in place. -/
  | sthGet
  /-- R228: STH.FREE empties an entry or the whole table. -/
  | sthFree
  /-- R229: STH.QUERY returns an entry's state word. -/
  | sthQuery
  /-- R304: When the no-progress count reaches the threshold, the watchman abandons work and forces an arrival. -/
  | watchmanFire
  /-- R306: SYN_OSET_CTRL bit 0 applies SYN_OSET_VAL to the selected object as a hand set. -/
  | handSetVal
  /-- R306: SYN_OSET_CTRL bit 1 applies MODE, N and ARR to the selected object as a hand set. -/
  | handSetState
  /-- R301: SYN_FE_CTRL PUT writes an empty FE word and sets it full. -/
  | fePut
  /-- R301: SYN_FE_CTRL TAKE reads a full FE word and sets it empty. -/
  | feTake
  /-- R301: SYN_FE_CTRL PEEK reads an FE word and its bit without change. -/
  | fePeek
  /-- R301: SYN_FE_CTRL FORCE sets an FE word's full bit. -/
  | feForce (bit : Bool)
  /-- R42: MAN_CTRL_LOAD starts a manifest load from MAN_LOAD_ADDR. -/
  | manCtrlLoad
  /-- R49: MAN_CTRL_ARM arms with MAN_ARM_EPOCH or is refused. -/
  | manCtrlArm
  /-- R49: MAN_CTRL_DISARM clears the armed state. -/
  | manCtrlDisarm
  /-- R55: MAN_CTRL_RESUME lets a held tile leave hold at the next release. -/
  | manCtrlResume
  /-- R46: MAN_CTRL_DISCARD restores the shadow from the live copy or is refused with BUSY. -/
  | manCtrlDiscard
  /-- R42: A manifest load finishes 40 + ⌈L/16⌉ c-cycles after start, passing or failing, and may make the manifest live. -/
  | manifestLoadDone
  /-- R47: A write of an SH field or MAN_CFG_DATA to the shadow is accepted in OPEN or rejected. -/
  | shadowWrite (bus : Bus) (addr : BitVec 22) (val : Word)
  /-- R61: A debug write to the live copy writes both copies in OPEN. -/
  | debugLiveWrite (val : Word)
  /-- R68: An MGMT write of CORE_CTX sets the next context and switch request. -/
  | coreCtxWrite (val : Word)
  /-- R70: A write with a non-zero mask stops the control core, discards queues and begins a context reload. -/
  | coreCtxReload (mask : BitVec 4)
  /-- R70: When dispatched work has drained, the reload resets the named contexts and discards the live manifest. -/
  | reloadDone
  /-- R193: MEM_CTRL_ZERO starts a zeroisation of local memory. -/
  | memCtrlZero
  /-- R193: The zeroisation ends after 1,536 c-cycles and waiting requests proceed. -/
  | zeroisationDone
  /-- R185: Every MEM_SCRUB_INT c-cycles the scrubber reads one word of each bank and corrects or reports errors. -/
  | scrubRead
  /-- R183: A queued corrected word is written back by the scrubber. -/
  | scrubWriteback
  /-- R228: MEM_STH_CTRL_CLEAR acts as STH.FREE 0xFFFF. -/
  | memSthCtrlClear
  /-- R275: JRNL_CTRL_REPLAY arms a replay of the last step or is refused. -/
  | jrnlCtrlReplay
  /-- R277: JRNL_CTRL_CANCEL ends an armed or active replay. -/
  | jrnlCtrlCancel
  /-- R258: FAC_CTRL_ROLLBACK rolls a context back one version or is refused. -/
  | facCtrlRollback (mask : BitVec 4)
  /-- R394: FLT_CTRL_CLEAR empties the fault log and FLT_FIRST. -/
  | fltCtrlClear
  /-- R399: FLT_CTRL_WREST restores the weigher and loss-scale copy in the load window. -/
  | fltCtrlWrest
  /-- R395: FLT_CTRL_INJ raises the code in FLT_INJ_CODE as though a unit raised it. -/
  | fltCtrlInj
  /-- R394: FLT_CTRL_FCLR clears FLT_FATAL when no fatal fault is in force. -/
  | fltCtrlFclr
  /-- R391: A fatal fault stops the core, asserts FAULT_OUT and, when sealed, zeroises. -/
  | fatalFault
  /-- R341: GOV_CTRL_MARK arms an energy marker for the next release. -/
  | govCtrlMark
  /-- R347: GOV_CTRL_TRFCLR clears the tariff table's sample counts. -/
  | govCtrlTrfclr
  /-- R345: A write of GOV_DBG sets the debug issue cap when invasive debug is allowed. -/
  | govDbgWrite (val : Word)
  /-- R338: A PWR_ALLOW_V strobe begins a new allowance window and carries debt from the previous one. -/
  | allowanceStrobe (allow : Half)
  /-- R338: After 12 ticks, then every 10 ticks, without a strobe the governor begins a window with the default allowance. -/
  | defaultWindow
  /-- R343: At every control interval the governor recomputes the budget mask within the slew. -/
  | maskUpdate
  /-- R348: At tick 8 of a window the governor fixes and drives its request for the next window. -/
  | budgetRequest
  /-- R346: A pending phase begins when its lead time elapses and the ended phase updates the tariff table. -/
  | phaseBegin
  /-- R344: A change of PWR_THERM sets the thermal cap and may count a thermal excursion. -/
  | thermalChange (level : BitVec 2)
  /-- R353: Every GOV_MM_INT ticks the margin monitor takes a reading and may change the trim. -/
  | marginReading (reading : Byte)
  /-- R336: A change of OP_CODE or PWR_OPN updates the voltage requests and energy scale. -/
  | operatingPointNotice (opCode opn : BitVec 3)
  /-- R354: On each tick the ledger advances its time and counters and the throttle-reason durations. -/
  | ledgerTick
  /-- R355: LDG_CTRL_SNAP requests a snapshot at the next tick or is refused while saving. -/
  | ldgCtrlSnap
  /-- R355: On the tick after a request, the snapshot record is captured and its CRC computed. -/
  | snapshotCapture
  /-- R355: Every LDG_AUTO ticks the core captures a record and raises its save request. -/
  | autoSnapshot
  /-- R356: LDG_CTRL_RESTORE checks the restore buffer and restores the ledger or records the failure. -/
  | ldgCtrlRestore
  /-- R356: LDG_CTRL_INIT declares a new part and sets LDG_VALID in OPEN. -/
  | ldgCtrlInit
  /-- R354: A write of LDG_WALLOFS sets the wall-time offset on the tick. -/
  | ldgWallofsWrite (val : Dword)
  /-- R429: The save port sends the next snapshot word in a period where LDG_SV_RDY was sampled 1. -/
  | saveWord
  /-- R430: LDG_RS_V writes LDG_RS_D into the restore-buffer word LDG_RS_W. -/
  | restoreWord (w : BitVec 6) (d : Word)
  /-- R430: A pulse of LDG_RS_GO acts as a write of LDG_CTRL_RESTORE. -/
  | restoreGo
  /-- R361: A KEY_LD strobe loads a key in OPEN, seals the tile, rekeys or is ignored. -/
  | keyLd (key : BitVec 256) (id : Word) (sealed : Bool)
  /-- R384: Once the stream port has drained, the current key retires and the new key becomes current. -/
  | rekey
  /-- R361: A KEY_END pulse ends the job: stream stop, zeroisation, reload and zero key. -/
  | keyEnd
  /-- R361: KEY_PERMIT rising moves a SEALED tile to SEALED-DEBUG. -/
  | keyPermitRise
  /-- R361: KEY_PERMIT falling moves SEALED-DEBUG to SEALED and lowers the debug level. -/
  | keyPermitFall
  /-- R370: SEC_CTRL_CODE starts an authenticated code-image load. -/
  | secCtrlCode
  /-- R370: A code load finishes, passing or failing, and sets CODE_OK and SEC_CODE_ERR. -/
  | codeLoadDone
  /-- R364: A write of SEC_DBG_REQ sets the debug level or is an escalation that zeroises. -/
  | secDbgReqWrite (level : BitVec 2)
  /-- R380: A write of SEC_SE_CUR raises the current step epoch in the load window. -/
  | secSeCurWrite (val : BitVec 23)
  /-- R316: XCH_TCTRL_WRITE writes a test itinerary entry after its checks or is refused. -/
  | xchTctrlWrite
  /-- R410: DBG_CTRL_HALT halts the control core after its current instruction or is refused. -/
  | dbgCtrlHalt
  /-- R410: DBG_CTRL_RESUME ends a debug halt. -/
  | dbgCtrlResume
  /-- R410: DBG_CTRL_STEP executes one instruction of the halted context. -/
  | dbgCtrlStep
  /-- R411: DBG_SDATA reads or writes the selected scalar register while halted. -/
  | dbgSdataAccess (bus : Bus) (hi write : Bool) (val : Word)
  /-- R411: DBG_PCSET sets the halted context's program counter. -/
  | dbgPcset (val : Word)
  /-- R405: An MGMT or DBG access to the memory window reads or writes local memory through the debug grants. -/
  | memoryWindowAccess (bus : Bus) (write : Bool) (addr : BitVec 22) (val : Word) (be : BitVec 4)
  /-- R435: A read of a LO register latches the upper half for the HI read. -/
  | wideRegisterRead (bus : Bus) (addr : BitVec 22)
  /-- R435: A HI write is held and the next LO write sets both halves. -/
  | wideRegisterWrite (bus : Bus) (addr : BitVec 22) (val : Word)
  /-- R5: A write to any register without its own row updates its fields by their access codes and restrictions. -/
  | registerWrite (bus : Bus) (addr : BitVec 22) (val : Word) (be : BitVec 4)
  /-- R416: AO_RST_N resets the always-on domain and its release starts the tick counter. -/
  | aoReset
  /-- R416: CORE_RST_N rising samples TILE_ID and starts the power-up zeroisation unless PWR_RET skips it. -/
  | coreReset (tileId : BitVec 20) (pwrRet : Bool)
  /-- R416: CORE_RST_N falling resets the VDD_T domain and engages the clamps. -/
  | coreResetAssert
  /-- R420: ISO_EN rising clamps the outputs to their isolation values. -/
  | isoEngage
  /-- R423: ISO_EN falling lets the core drive its outputs. -/
  | isoRelease
  /-- R426: Wrapper instruction WS_BYPASS selects the 1-bit bypass register. -/
  | wsBypass
  /-- R426: WS_EXTEST lets boundary cells drive outputs and capture inputs. -/
  | wsExtest
  /-- R427: WS_INTEST lets boundary cells drive the core's inputs, after a job end when sealed. -/
  | wsIntest
  /-- R427: SCAN connects the internal scan chains, after a job end when sealed. -/
  | scan
  /-- R428: MBIST_RUN starts a march test of all banks and stores. -/
  | mbistRun
  /-- R428: The march test ends after 30,720 c-cycles with a zeroisation and sets the done bit. -/
  | mbistDone (result : BitVec 40)
  /-- R426: MBIST_RESULT selects the 40-bit result register. -/
  | mbistResult
  /-- R426: CAP sets the test issue cap. -/
  | cap (cap : BitVec 7)
  /-- R426: IDREG captures CORE_ID. -/
  | idreg
  /-- R337: The surroundings restart the root clock after a SUSPEND stop, the tile leaves SUSPEND, and pending bus accesses and escalations are acted on. -/
  | suspendExit
  /-- R76: The control core executes a word with a reserved opcode or reserved ALU function code, which raises ILLEGAL and stops at that instruction. -/
  | reservedOpcode (w : Word)
deriving DecidableEq, Repr

end Sys2Proof
end

