-- ==== Sys2Proof/Decode.lean ====
section
/-! DEFINITION. What words spell: the opcode table gives no bits to any command, and the control core's instruction words follow Tables 2 to 4 of chapter 03. -/

namespace Sys2Proof

/-- The command that a word spells by the table's bits: the table gives none to any row. -/
def decodeTableWord (_nbits _w : Nat) : Option Instr := none

/-- Bits hi to lo of an instruction word. -/
def wordBits (w : Word) (hi lo : Nat) : Nat := (w.toNat >>> lo) % 2 ^ (hi + 1 - lo)

/-- Register fields D, A and B (Table 2). -/
def fD (w : Word) : SReg := BitVec.ofNat 5 (wordBits w 24 20)
def fA (w : Word) : SReg := BitVec.ofNat 5 (wordBits w 19 15)
def fB (w : Word) : SReg := BitVec.ofNat 5 (wordBits w 14 10)

/-- The extension word, present when X = 1. -/
def fX (w ext : Word) : Option Word := if wordBits w 31 31 = 1 then some ext else none

def asR (w : Word) : RForm :=
  { x := decide (wordBits w 31 31 = 1), d := fD w, a := fA w, b := fB w, f96 := BitVec.ofNat 4 (wordBits w 9 6) }
def asI (w ext : Word) : IForm := { ext := fX w ext, d := fD w, a := fA w, imm := w.setWidth 15 }
def asB (w ext : Word) : BForm := { ext := fX w ext, cond := fD w, a := fA w, b := fB w, off := w.setWidth 10 }
def asJ (w : Word) : JForm := { x := decide (wordBits w 31 31 = 1), d := fD w, off := w.setWidth 20 }
def asE (w ext : Word) : EForm :=
  { ext := fX w ext, d := fD w, a := fA w, b := fB w, fn := BitVec.ofNat 4 (wordBits w 9 6), sub := w.setWidth 6 }
def asC (w ext : Word) : CForm := { ext := fX w ext, d := fD w, a := fA w, b := fB w, f := w.setWidth 10 }

/-- ALU functions by F[5:0] (Table 4); codes 0x1B to 0x3F are reserved. -/
def decodeAlu (w : Word) : Instr :=
  match wordBits w 5 0 with
  | 0 => .add (asR w)
  | 1 => .sub (asR w)
  | 2 => .and (asR w)
  | 3 => .or (asR w)
  | 4 => .xor (asR w)
  | 5 => .andn (asR w)
  | 6 => .sll (asR w)
  | 7 => .srl (asR w)
  | 8 => .sra (asR w)
  | 9 => .slt (asR w)
  | 10 => .sltu (asR w)
  | 11 => .min (asR w)
  | 12 => .max (asR w)
  | 13 => .minu (asR w)
  | 14 => .maxu (asR w)
  | 15 => .sxw (asR w)
  | 16 => .zxw (asR w)
  | 17 => .difw (asR w)
  | 18 => .mul (asR w)
  | 19 => .mulh (asR w)
  | 20 => .mulhu (asR w)
  | 21 => .div (asR w)
  | 22 => .divu (asR w)
  | 23 => .rem (asR w)
  | 24 => .remu (asR w)
  | 25 => .clz (asR w)
  | 26 => .popc (asR w)
  | _ => .reservedOpcode w

/-- The instruction that a word at the program counter spells, with the word after it (Table 3). Reserved opcodes give RESERVED_OPCODE. -/
def decodeCore (w ext : Word) : Instr :=
  match wordBits w 30 25 with
  | 0 => decodeAlu w
  | 1 => .addi (asI w ext)
  | 2 => .andi (asI w ext)
  | 3 => .ori (asI w ext)
  | 4 => .xori (asI w ext)
  | 5 => .slli (asI w ext)
  | 6 => .srli (asI w ext)
  | 7 => .srai (asI w ext)
  | 8 => .slti (asI w ext)
  | 9 => .orhi (asI w ext)
  | 16 => .ldd (asI w ext)
  | 17 => .ldw (asI w ext)
  | 18 => .ldwu (asI w ext)
  | 19 => .lds (asI w ext)
  | 20 => .ldsu (asI w ext)
  | 21 => .ldb (asI w ext)
  | 22 => .ldbu (asI w ext)
  | 23 => .std (asI w ext)
  | 24 => .stw (asI w ext)
  | 25 => .sts (asI w ext)
  | 26 => .stb (asI w ext)
  | 30 => .jalr (asI w ext)
  | 28 => .br (asB w ext)
  | 29 => .jal (asJ w)
  | 32 => .arr (asE w ext)
  | 33 => .vec (asE w ext)
  | 34 => .fac (asE w ext)
  | 35 => .wgh (asE w ext)
  | 36 => .str (asE w ext)
  | 37 => .pst (asE w ext)
  | 38 => .sth (asE w ext)
  | 40 => .sync (asC w ext)
  | 42 => .wait (asC w ext)
  | 43 => .few (asC w ext)
  | 44 => .fer (asC w ext)
  | 45 => .rng (asC w ext)
  | 46 => .phase (asC w ext)
  | 48 => .mfs (asC w ext)
  | 49 => .mts (asC w ext)
  | 50 => .fence (asC w ext)
  | 51 => .ctx (asC w ext)
  | 62 => .brk (asC w ext)
  | 41 =>
    match wordBits w 8 7 with
    | 1 => .sigBar (asC w ext)
    | 2 => .sigSet (asC w ext)
    | _ => .sig (asC w ext)
  | 47 => if wordBits w 0 0 = 1 then .manArm (asC w ext) else .manLoad (asC w ext)
  | _ => .reservedOpcode w

/-! Encoding of the control core's instructions (03 Tables 2 to 4). -/

/-- A word of its fields: X, OP, D, A and the low 15 bits. -/
def mkWord (x : Bool) (op : Nat) (d a : SReg) (low : Nat) : Word :=
  BitVec.ofNat 32 ((if x then 2 ^ 31 else 0) + 2 ^ 25 * op + 2 ^ 20 * d.toNat + 2 ^ 15 * a.toNat + low)

def encR (fn : Nat) (f : RForm) : Word := mkWord f.x 0 f.d f.a (2 ^ 10 * f.b.toNat + 2 ^ 6 * f.f96.toNat + fn)
def encI (op : Nat) (f : IForm) : Word := mkWord f.ext.isSome op f.d f.a f.imm.toNat
def encB (op : Nat) (f : BForm) : Word := mkWord f.ext.isSome op f.cond f.a (2 ^ 10 * f.b.toNat + f.off.toNat)
def encJ (op : Nat) (f : JForm) : Word :=
  BitVec.ofNat 32 ((if f.x then 2 ^ 31 else 0) + 2 ^ 25 * op + 2 ^ 20 * f.d.toNat + f.off.toNat)
def encE (op : Nat) (f : EForm) : Word := mkWord f.ext.isSome op f.d f.a (2 ^ 10 * f.b.toNat + 2 ^ 6 * f.fn.toNat + f.sub.toNat)
def encC (op : Nat) (f : CForm) : Word := mkWord f.ext.isSome op f.d f.a (2 ^ 10 * f.b.toNat + f.f.toNat)

/-- The word after the instruction word; 0 where there is none. -/
def extWord (ext : Option Word) : Word := ext.getD 0

/-- The words of an instruction of the control core; none for a command that is no instruction. -/
def encodeCore (i : Instr) : Option (Word × Word) :=
  match i with
  | .syncArrival => none
  | .syncRelease _ => none
  | .shadowCopyDone => none
  | .exchStart => none
  | .exchSendBeat _ => none
  | .exchRecvBeat _ _ => none
  | .exchEnd => none
  | .itinLoadDone _ => none
  | .stageOpChange _ => none
  | .suspendEntry => none
  | .alertFall => none
  | .alertRise => none
  | .alertReturn => none
  | .droopTrip => none
  | .stretchEnd _ => none
  | .droopRearm _ => none
  | .add f => some (encR 0 f, 0)
  | .sub f => some (encR 1 f, 0)
  | .and f => some (encR 2 f, 0)
  | .or f => some (encR 3 f, 0)
  | .xor f => some (encR 4 f, 0)
  | .andn f => some (encR 5 f, 0)
  | .sll f => some (encR 6 f, 0)
  | .srl f => some (encR 7 f, 0)
  | .sra f => some (encR 8 f, 0)
  | .slt f => some (encR 9 f, 0)
  | .sltu f => some (encR 10 f, 0)
  | .min f => some (encR 11 f, 0)
  | .max f => some (encR 12 f, 0)
  | .minu f => some (encR 13 f, 0)
  | .maxu f => some (encR 14 f, 0)
  | .sxw f => some (encR 15 f, 0)
  | .zxw f => some (encR 16 f, 0)
  | .difw f => some (encR 17 f, 0)
  | .mul f => some (encR 18 f, 0)
  | .mulh f => some (encR 19 f, 0)
  | .mulhu f => some (encR 20 f, 0)
  | .div f => some (encR 21 f, 0)
  | .divu f => some (encR 22 f, 0)
  | .rem f => some (encR 23 f, 0)
  | .remu f => some (encR 24 f, 0)
  | .clz f => some (encR 25 f, 0)
  | .popc f => some (encR 26 f, 0)
  | .addi f => some (encI 1 f, extWord f.ext)
  | .andi f => some (encI 2 f, extWord f.ext)
  | .ori f => some (encI 3 f, extWord f.ext)
  | .xori f => some (encI 4 f, extWord f.ext)
  | .slli f => some (encI 5 f, extWord f.ext)
  | .srli f => some (encI 6 f, extWord f.ext)
  | .srai f => some (encI 7 f, extWord f.ext)
  | .slti f => some (encI 8 f, extWord f.ext)
  | .orhi f => some (encI 9 f, extWord f.ext)
  | .ldd f => some (encI 16 f, extWord f.ext)
  | .ldw f => some (encI 17 f, extWord f.ext)
  | .ldwu f => some (encI 18 f, extWord f.ext)
  | .lds f => some (encI 19 f, extWord f.ext)
  | .ldsu f => some (encI 20 f, extWord f.ext)
  | .ldb f => some (encI 21 f, extWord f.ext)
  | .ldbu f => some (encI 22 f, extWord f.ext)
  | .std f => some (encI 23 f, extWord f.ext)
  | .stw f => some (encI 24 f, extWord f.ext)
  | .sts f => some (encI 25 f, extWord f.ext)
  | .stb f => some (encI 26 f, extWord f.ext)
  | .br f => some (encB 28 f, extWord f.ext)
  | .jal f => some (encJ 29 f, 0)
  | .jalr f => some (encI 30 f, extWord f.ext)
  | .arr f => some (encE 32 f, extWord f.ext)
  | .vec f => some (encE 33 f, extWord f.ext)
  | .fac f => some (encE 34 f, extWord f.ext)
  | .wgh f => some (encE 35 f, extWord f.ext)
  | .str f => some (encE 36 f, extWord f.ext)
  | .pst f => some (encE 37 f, extWord f.ext)
  | .sth f => some (encE 38 f, extWord f.ext)
  | .sync f => some (encC 40 f, extWord f.ext)
  | .sig f => some (encC 41 f, extWord f.ext)
  | .sigBar f => some (encC 41 f, extWord f.ext)
  | .sigSet f => some (encC 41 f, extWord f.ext)
  | .wait f => some (encC 42 f, extWord f.ext)
  | .few f => some (encC 43 f, extWord f.ext)
  | .fer f => some (encC 44 f, extWord f.ext)
  | .wake _ => none
  | .fence f => some (encC 50 f, extWord f.ext)
  | .fenceDone => none
  | .rng f => some (encC 45 f, extWord f.ext)
  | .phase f => some (encC 46 f, extWord f.ext)
  | .manLoad f => some (encC 47 f, extWord f.ext)
  | .manArm f => some (encC 47 f, extWord f.ext)
  | .mfs f => some (encC 48 f, extWord f.ext)
  | .mts f => some (encC 49 f, extWord f.ext)
  | .ctx f => some (encC 51 f, extWord f.ext)
  | .brk f => some (encC 62 f, extWord f.ext)
  | .engineRetire _ _ => none
  | .queueDiscard _ => none
  | .arrMm => none
  | .arrConv => none
  | .arrCar => none
  | .arrList => none
  | .arrFlush => none
  | .itemClaim _ => none
  | .itemSteal _ => none
  | .listEntryClaim _ => none
  | .caravanDeadline _ => none
  | .baleDrain => none
  | .baleRead => none
  | .vecRun => none
  | .vecProg => none
  | .vecPerm => none
  | .vecShuf => none
  | .vecPack => none
  | .vecUnpk => none
  | .vecVld => none
  | .vecVst => none
  | .vecBcst => none
  | .vecRds => none
  | .facStep => none
  | .scheduleGroupEval => none
  | .facP1 => none
  | .facToken => none
  | .facP2 => none
  | .facCommit => none
  | .facCnt => none
  | .wghRead => none
  | .wghStep => none
  | .wghLsread => none
  | .wghFlags => none
  | .wghClr => none
  | .strGet => none
  | .strPut => none
  | .strRput => none
  | .streamCredit => none
  | .packetIssue => none
  | .rdatReceived _ => none
  | .ackReceived _ => none
  | .rputReceived _ => none
  | .pstSend => none
  | .pstAck => none
  | .pstOpen => none
  | .pstClose => none
  | .postCredit => none
  | .postTransmit _ => none
  | .inboundMessage _ _ => none
  | .postResponse _ => none
  | .postResend _ => none
  | .sthPut => none
  | .sthGet => none
  | .sthFree => none
  | .sthQuery => none
  | .watchmanFire => none
  | .handSetVal => none
  | .handSetState => none
  | .fePut => none
  | .feTake => none
  | .fePeek => none
  | .feForce _ => none
  | .manCtrlLoad => none
  | .manCtrlArm => none
  | .manCtrlDisarm => none
  | .manCtrlResume => none
  | .manCtrlDiscard => none
  | .manifestLoadDone => none
  | .shadowWrite _ _ _ => none
  | .debugLiveWrite _ => none
  | .coreCtxWrite _ => none
  | .coreCtxReload _ => none
  | .reloadDone => none
  | .memCtrlZero => none
  | .zeroisationDone => none
  | .scrubRead => none
  | .scrubWriteback => none
  | .memSthCtrlClear => none
  | .jrnlCtrlReplay => none
  | .jrnlCtrlCancel => none
  | .facCtrlRollback _ => none
  | .fltCtrlClear => none
  | .fltCtrlWrest => none
  | .fltCtrlInj => none
  | .fltCtrlFclr => none
  | .fatalFault => none
  | .govCtrlMark => none
  | .govCtrlTrfclr => none
  | .govDbgWrite _ => none
  | .allowanceStrobe _ => none
  | .defaultWindow => none
  | .maskUpdate => none
  | .budgetRequest => none
  | .phaseBegin => none
  | .thermalChange _ => none
  | .marginReading _ => none
  | .operatingPointNotice _ _ => none
  | .ledgerTick => none
  | .ldgCtrlSnap => none
  | .snapshotCapture => none
  | .autoSnapshot => none
  | .ldgCtrlRestore => none
  | .ldgCtrlInit => none
  | .ldgWallofsWrite _ => none
  | .saveWord => none
  | .restoreWord _ _ => none
  | .restoreGo => none
  | .keyLd _ _ _ => none
  | .rekey => none
  | .keyEnd => none
  | .keyPermitRise => none
  | .keyPermitFall => none
  | .secCtrlCode => none
  | .codeLoadDone => none
  | .secDbgReqWrite _ => none
  | .secSeCurWrite _ => none
  | .xchTctrlWrite => none
  | .dbgCtrlHalt => none
  | .dbgCtrlResume => none
  | .dbgCtrlStep => none
  | .dbgSdataAccess _ _ _ _ => none
  | .dbgPcset _ => none
  | .memoryWindowAccess _ _ _ _ _ => none
  | .wideRegisterRead _ _ => none
  | .wideRegisterWrite _ _ _ => none
  | .registerWrite _ _ _ _ => none
  | .aoReset => none
  | .coreReset _ _ => none
  | .coreResetAssert => none
  | .isoEngage => none
  | .isoRelease => none
  | .wsBypass => none
  | .wsExtest => none
  | .wsIntest => none
  | .scan => none
  | .mbistRun => none
  | .mbistDone _ => none
  | .mbistResult => none
  | .cap _ => none
  | .idreg => none
  | .suspendExit => none
  | .reservedOpcode w => some (w, 0)

end Sys2Proof
end

