-- ==== Sys2Proof/Config.lean ====
section
/-! DEFINITION. Free values: what the spec leaves open. Each is a constant without a body, so that nothing can be proved of its value. -/

namespace Sys2Proof.Config

/-- 1 / sqrt(-0): Table 3 of chapter 08 states +0 and x < 0 only (log entry 12). -/
opaque rsqrtNegZero : Word

/-- Where a convolution's input element lies in the tensor of X: row × 65,536 + column of (channel, input row, input column), by the rows, the columns and RED of the tensor and for C channels, as chapter 05 names no layout (log entry 13). -/
opaque convInput : Nat × Nat × Bool → Nat → Nat → Nat → Nat → Nat

/-- Where a convolution's weight lies in the tensor of W: row × 65,536 + column of (output channel, input channel, kernel row, kernel column), by the rows, the columns and RED of the tensor and for C channels and R x S (log entry 13). -/
opaque convWeight : Nat × Nat × Bool → Nat × Nat × Nat → Nat → Nat → Nat → Nat → Nat

/-- Where a convolution's output lies in the tensors of Y and of the derivative codes: row × 65,536 + column of (output row, output column, output channel), by the rows, the columns and RED of the tensor and for OW and N (log entry 13). -/
opaque convOutput : Nat × Nat × Bool → Nat → Nat → Nat → Nat → Nat → Nat

/-- Which of the four feed paths reads a codeword of an operand, as chapter 05 does not say: by a count of items and the codeword, taken modulo 4 (log entry 86). -/
opaque feedPath : Nat → Nat → Nat

/-- What a feed path's transposing buffer holds behind an item: by a count of items, path and element (log entry 86). -/
opaque feedElem : Nat → Nat → Nat → Nat

/-- What an accumulator of a cell holds behind an item: by a count of items, cell and accumulator (log entry 86). -/
opaque cellAcc : Nat → Nat → Nat → Word

/-- Which of the free tags the stream port gives its next packet, as chapter 13 names no order: an index taken modulo their number (log entry 23). -/
opaque strTag : Nat → Nat

/-- Code of an element of an MX block that lies outside the tensor or the operation, by address of the block and element number: R111 states the codes of the block's values only (log entry 28). -/
opaque mxAbsent : Nat → Nat → Nat

/-- Local address in the SIN unit of a depot block that is converted into a destination, which lands nowhere as it stands (log entry 29). -/
opaque depotSinAddr : Nat → Nat

/-- What a depot write carries behind the last line of an entry whose size is not a multiple of four lines (log entry 29). -/
opaque depotPad : Nat → Byte

/-- Whether a fraction rounds up when STORE converts a value to an unsigned integer, which R208 does not say (log entry 31). -/
opaque rawRoundUp : Word → Bool

/-- The clip factor when CLIP_MAX / (norm + NORM_EPS) is NaN, by its norm: R253 states no value (log entry 32). -/
opaque clipNaN : Word → Word

/-- What PERM reads from a lane beyond the last element of a beat, by element: R207 names the slot of an element that the operation does not have (log entry 37). -/
opaque permAbsent : Nat → Word

/-- What a LOAD with PRIV reads of an input that has no columns, a bale or a vector register, by element and by the input's own element (log entry 38). -/
opaque privElem : Nat → Word → Word

/-- What XCH_IN carries on a c-cycle without a beat, as XCH_RERR captures it on a MISS: R319 names no value (log entry 40). -/
opaque xchIdle : Nat → BitVec 46

/-- Lost rounds that a bank's arbiter counts while it serves an access, by the energy counted so far and the bank: which requests meet is timing (log entry 85). -/
opaque bankLost : Nat → Nat → Word

/-- Whether an access of the exchange or debug port ends a burst or a read-modify-write on a bank, by the energy counted so far and the bank (log entry 85). -/
opaque preempts : Nat → Nat → Bool

/-- Which of several outstanding messages to one queue number a post response answers, as its header names no target: an index taken modulo their number (log entry 42). -/
opaque postMatch : Nat → Nat

/-- In how many ticks a stage-boundary change holds the root clock over a reference period, so that OP_CHANGE is active (14 R351): the command does not say; taken modulo 12, as the hold lasts at most 10 µs (log entry 46). -/
opaque opHold : Nat → Nat

/-- Which code of class fatal a FATAL_FAULT carries, as the command does not say: an index taken modulo their number (log entry 47). -/
opaque fatalKind : Nat → Nat

/-- SYN_WM_SNAP_CCK of a firing at which the control core stalls in none of the six ways that the field names (log entry 48). -/
opaque snapRunning : Nat → BitVec 3

/-- What a serial load leaves in the wrapper boundary register, by a count of free values: no command carries it (log entry 56). -/
opaque boundary : Nat → Nat

/-- SCAN_SO while SCAN is in force, by a count of free values: the chains of VDD_T are named nowhere (log entry 56). -/
opaque scanOut : Nat → Word

/-- FAC_GVAL while the running context has no open step, or for a group that the step does not have, by group and item (log entry 54). -/
opaque gvalClosed : Nat → Nat → Word

end Sys2Proof.Config
end

