-- ==== Sys2Proof/Machine/Tab.lean ====
section
/-! DEFINITION. Sparse tables with Nat keys in one canonical form: keys strictly rising, no entry equal to the default. They hold local memory, the configuration store, register files and the tables of the units. -/

namespace Sys2Proof.Machine

/-- A sparse table: key and value pairs. -/
abbrev Tab (α : Type) := List (Nat × α)

/-- The value at a key; an unlisted key reads as the default. -/
def tabGet {α : Type} (d : α) : Tab α → Nat → α
  | [], _ => d
  | (k, v) :: t, i => if i = k then v else tabGet d t i

/-- Put a value that is not the default at its place. -/
def tabInsert {α : Type} (i : Nat) (v : α) : Tab α → Tab α
  | [] => [(i, v)]
  | (k, w) :: t =>
    if i < k then (i, v) :: (k, w) :: t
    else if i = k then (i, v) :: t
    else (k, w) :: tabInsert i v t

/-- Write a value at a key; writing the default removes the entry. -/
def tabSet {α : Type} [DecidableEq α] (d : α) (t : Tab α) (i : Nat) (v : α) : Tab α :=
  if v = d then t.filter (fun p => decide (p.1 ≠ i)) else tabInsert i v t

/-- Keys strictly rising. -/
def tabSorted {α : Type} : Tab α → Bool
  | [] => true
  | (k, _) :: t => t.all (fun p => decide (k < p.1)) && tabSorted t

/-- The canonical form. -/
def tabWf {α : Type} [DecidableEq α] (d : α) (t : Tab α) : Bool :=
  tabSorted t && t.all (fun p => decide (p.2 ≠ d))

/-- Change the value at a key. -/
def tabMod {α : Type} [DecidableEq α] (d : α) (t : Tab α) (i : Nat) (f : α → α) : Tab α :=
  tabSet d t i (f (tabGet d t i))

/-- Replace element i of a list (no change when i is beyond its end). -/
def listPut {α : Type} : List α → Nat → α → List α
  | [], _, _ => []
  | _ :: t, 0, v => v :: t
  | h :: t, i + 1, v => h :: listPut t i v

/-- Remove element i of a list. -/
def listDrop {α : Type} : List α → Nat → List α
  | [], _ => []
  | _ :: t, 0 => t
  | h :: t, i + 1 => h :: listDrop t i

/-- Little-endian bytes of a bit vector, n of them. -/
def leBytes (n : Nat) {w : Nat} (v : BitVec w) : List Byte :=
  (List.range n).map (fun i => BitVec.ofNat 8 (v.toNat >>> (8 * i)))

/-- The number that little-endian bytes spell. -/
def leNat : List Byte → Nat
  | [] => 0
  | b :: t => b.toNat + 256 * leNat t

/-- Bytes of memory are a table whose unlisted bytes read 0 (R193: every word is zero after the power-up zeroisation). -/
def memByte (m : List Host.Cell) (a : Nat) : Byte := tabGet 0 m a

/-- n bytes from address a upward. -/
def memBytes (m : List Host.Cell) (a n : Nat) : List Byte :=
  (List.range n).map (fun i => memByte m (a + i))

/-- Little-endian number of n bytes at a (R79). -/
def memNat (m : List Host.Cell) (a n : Nat) : Nat := leNat (memBytes m a n)

/-- Write bytes from address a upward. -/
def memPut (m : List Host.Cell) (a : Nat) : List Byte → List Host.Cell
  | [] => m
  | b :: t => memPut (tabSet 0 m a b) (a + 1) t

/-- The canonical form of memory. -/
def Memory.wf (m : List Host.Cell) : Bool := tabWf (0 : Byte) m

/-- Bits hi down to lo of a number. -/
def bitsOf (v hi lo : Nat) : Nat := (v >>> lo) % 2 ^ (hi + 1 - lo)

/-- Two's complement reading of the low w bits. -/
def signedOf (w v : Nat) : Int := (BitVec.ofNat w v).toInt

end Sys2Proof.Machine
end

