-- ==== Sys2Proof/Machine/Float.lean ====
section
/-! DEFINITION. Exact values, the element formats and their rounding, and binary32 arithmetic (Number Formats, Scaling and Rounding; R99, R105 to R109, R112, R201). -/

namespace Sys2Proof.Machine

/-- A value: NaN, an infinity, or (-1)^neg * man * 2^exp exactly. -/
inductive Fp where
  | nan
  | inf (neg : Bool)
  | fin (neg : Bool) (man : Nat) (exp : Int)
  deriving DecidableEq, Repr

/-- An element format of Table 1 (R99). maxMag is the code of the largest finite magnitude. -/
structure Fmt where
  width : Nat
  mbits : Nat
  bias : Nat
  maxMag : Nat
  infMag : Option Nat
  nanMag : Option Nat
  saturates : Bool
  deriving DecidableEq, Repr

def fmtB32 : Fmt := ⟨32, 23, 127, 0x7F7FFFFF, some 0x7F800000, some 0x7FC00000, false⟩
def fmtB16 : Fmt := ⟨16, 10, 15, 0x7BFF, some 0x7C00, some 0x7E00, false⟩
def fmtBf16 : Fmt := ⟨16, 7, 127, 0x7F7F, some 0x7F80, some 0x7FC0, false⟩
def fmtE4M3 : Fmt := ⟨8, 3, 7, 0x7E, none, some 0x7F, true⟩
def fmtE5M2 : Fmt := ⟨8, 2, 15, 0x7B, some 0x7C, some 0x7E, true⟩
def fmtE3M2 : Fmt := ⟨6, 2, 3, 0x1F, none, none, true⟩
def fmtE2M3 : Fmt := ⟨6, 3, 1, 0x1F, none, none, true⟩
def fmtE2M1 : Fmt := ⟨4, 1, 1, 0x7, none, none, true⟩

/-- Format codes of R40 and R99; codes 11 to 15 are reserved and name no format. -/
def fmtOf : Nat → Option Fmt
  | 0 => some fmtB32
  | 1 => some fmtB16
  | 2 => some fmtBf16
  | 3 => some fmtE4M3
  | 4 => some fmtE5M2
  | 5 => some fmtE4M3
  | 6 => some fmtE5M2
  | 7 => some fmtE3M2
  | 8 => some fmtE2M3
  | 9 => some fmtE2M1
  | 10 => some fmtB16
  | _ => none

/-- E_f of Table 1. -/
def fmtEf : Nat → Int
  | 0 => 127
  | 1 => 15
  | 2 => 127
  | 3 => 8
  | 4 => 15
  | 5 => 8
  | 6 => 15
  | 7 => 4
  | 8 => 2
  | 9 => 2
  | _ => 15

/-- The format is an MX format (codes 5 to 9). -/
def fmtIsMx (c : Nat) : Bool := decide (5 ≤ c) && decide (c ≤ 9)

/-- Element width in bits of a format code. -/
def fmtWidth (c : Nat) : Nat :=
  match fmtOf c with
  | some f => f.width
  | none => 32

/-- The least exponent of a unit in the last place. -/
def Fmt.qmin (f : Fmt) : Int := 1 - (f.bias : Int) - (f.mbits : Int)

/-- The value of a code (R99). -/
def Fmt.decode (f : Fmt) (c : Nat) : Fp :=
  let neg := decide (c / 2 ^ (f.width - 1) % 2 = 1)
  let mag := c % 2 ^ (f.width - 1)
  if f.maxMag < mag then
    if f.infMag = some mag then .inf neg else .nan
  else
    let e := mag / 2 ^ f.mbits
    let m := mag % 2 ^ f.mbits
    if e = 0 then .fin neg m f.qmin
    else .fin neg (m + 2 ^ f.mbits) (f.qmin + (e : Int) - 1)

/-- How a conversion rounds: to nearest, ties to even, or stochastically with a 16-bit random value (R108). -/
inductive Rounding where
  | nearest
  | stochastic (u : Nat)
  deriving DecidableEq, Repr

/-- A magnitude split at the unit in the last place 2^q: n whole units, and rem out of 2^sh of a unit. -/
structure Quant where
  q : Int
  n : Nat
  rem : Nat
  sh : Nat
  deriving DecidableEq, Repr

def quant (mbits : Nat) (qmin : Int) (man : Nat) (exp : Int) : Quant :=
  let q := max ((Nat.log2 man : Int) + exp - (mbits : Int)) qmin
  if q ≤ exp then ⟨q, man * 2 ^ (exp - q).toNat, 0, 0⟩
  else
    let sh := (q - exp).toNat
    ⟨q, man / 2 ^ sh, man % 2 ^ sh, sh⟩

/-- Round up to nearest, ties to even; sticky says that the magnitude lies a little above the given one. -/
def Quant.upNearest (z : Quant) (sticky : Bool) : Bool :=
  decide (2 ^ z.sh < 2 * z.rem) ||
    (decide (2 * z.rem = 2 ^ z.sh) && (sticky || decide (z.n % 2 = 1)))

/-- Round up stochastically: d is the top 16 discarded bits (R108). -/
def Quant.upStochastic (z : Quant) (u : Nat) : Bool :=
  decide (65536 ≤ z.rem * 65536 / 2 ^ z.sh + u)

/-- The magnitude code of n units of 2^q, the carry into the exponent included. -/
def magCode (mbits : Nat) (qmin q : Int) (n : Nat) : Nat :=
  (q - qmin).toNat * 2 ^ mbits + n

/-- Magnitude code of man * 2^exp rounded to nearest, ties to even, before any range rule. -/
def Fmt.nearestMag (f : Fmt) (man : Nat) (exp : Int) (sticky : Bool) : Nat :=
  if man = 0 then 0
  else
    let z := quant f.mbits f.qmin man exp
    magCode f.mbits f.qmin z.q (z.n + if z.upNearest sticky then 1 else 0)

/-- Magnitude code under a rounding; an input above the largest finite value rounds to nearest (R109). -/
def Fmt.roundMag (f : Fmt) (r : Rounding) (man : Nat) (exp : Int) : Nat :=
  match r with
  | .nearest => f.nearestMag man exp false
  | .stochastic u =>
    if man = 0 then 0
    else
      let z := quant f.mbits f.qmin man exp
      let trunc := magCode f.mbits f.qmin z.q z.n
      let above := decide (f.maxMag < trunc) || (decide (trunc = f.maxMag) && decide (z.rem ≠ 0))
      if above then f.nearestMag man exp false
      else magCode f.mbits f.qmin z.q (z.n + if z.upStochastic u then 1 else 0)

/-- Put the sign bit above a magnitude code. -/
def Fmt.withSign (f : Fmt) (neg : Bool) (mag : Nat) : Nat :=
  if neg then mag + 2 ^ (f.width - 1) else mag

/-- What a narrowing gives: the code, and what a weigher sees of it (R115). -/
structure Narrowed where
  code : Nat
  sat : Bool
  toInf : Bool
  deriving DecidableEq, Repr

/-- Narrow an exact value under Table 2 (R106, R107). A format without infinity or NaN codes gets code 0 for them; its block scale is 0xFF (R111). -/
def Fmt.narrow (f : Fmt) (r : Rounding) : Fp → Narrowed
  | .nan => ⟨f.nanMag.getD 0, false, false⟩
  | .inf neg =>
    match f.infMag with
    | some m => ⟨f.withSign neg m, false, false⟩
    | none => ⟨f.nanMag.getD 0, false, false⟩
  | .fin neg man exp =>
    let mag := f.roundMag r man exp
    if f.maxMag < mag then
      if f.saturates then ⟨f.withSign neg f.maxMag, true, false⟩
      else ⟨f.withSign neg (f.infMag.getD 0), false, true⟩
    else ⟨f.withSign neg mag, false, false⟩

/-- Multiply by 2^k. -/
def Fp.scale (k : Int) : Fp → Fp
  | .fin neg man exp => .fin neg man (exp + k)
  | x => x

/-- The exact value of a binary32 code. -/
def f32 (w : Word) : Fp := fmtB32.decode w.toNat

/-- Round a value to binary32, to nearest, ties to even (R112). -/
def toF32 (x : Fp) : Word := BitVec.ofNat 32 (fmtB32.narrow .nearest x).code

/-- Round a magnitude that lies a little above man * 2^exp when sticky is set. -/
def toF32Sticky (neg : Bool) (man : Nat) (exp : Int) (sticky : Bool) : Word :=
  let mag := fmtB32.nearestMag man exp sticky
  BitVec.ofNat 32 (fmtB32.withSign neg (if fmtB32.maxMag < mag then 0x7F800000 else mag))

def f32NaN : Word := 0x7FC00000
def f32Inf : Word := 0x7F800000
def f32NegInf : Word := 0xFF800000
def f32One : Word := 0x3F800000

def f32IsNaN (w : Word) : Bool := decide (0x7F800000 < (w &&& 0x7FFFFFFF).toNat)
def f32IsInf (w : Word) : Bool := w &&& 0x7FFFFFFF == 0x7F800000
def f32IsFinite (w : Word) : Bool := decide ((w &&& 0x7FFFFFFF).toNat < 0x7F800000)
def f32Abs (w : Word) : Word := w &&& 0x7FFFFFFF
def f32Neg (w : Word) : Word := if f32IsNaN w then f32NaN else w ^^^ 0x80000000

/-- Signed integer of a finite value in units of 2^e, e at most its exponent. -/
def finInt (neg : Bool) (man : Nat) (exp e : Int) : Int :=
  let m : Int := (man : Int) * 2 ^ (exp - e).toNat
  if neg then -m else m

/-- Exact sum of two values; the exact zero sum of unlike signs is +0. -/
def Fp.add : Fp → Fp → Fp
  | .nan, _ => .nan
  | _, .nan => .nan
  | .inf a, .inf b => if a = b then .inf a else .nan
  | .inf a, _ => .inf a
  | _, .inf b => .inf b
  | .fin na ma ea, .fin nb mb eb =>
    let e := min ea eb
    let s := finInt na ma ea e + finInt nb mb eb e
    if s = 0 then .fin (na && nb) 0 e else .fin (decide (s < 0)) s.natAbs e

/-- Exact product of two values. -/
def Fp.mul : Fp → Fp → Fp
  | .nan, _ => .nan
  | _, .nan => .nan
  | .inf a, .inf b => .inf (a != b)
  | .inf a, .fin nb mb _ => if mb = 0 then .nan else .inf (a != nb)
  | .fin na ma _, .inf b => if ma = 0 then .nan else .inf (na != b)
  | .fin na ma ea, .fin nb mb eb => .fin (na != nb) (ma * mb) (ea + eb)

def Fp.negate : Fp → Fp
  | .nan => .nan
  | .inf a => .inf (!a)
  | .fin n m e => .fin (!n) m e

def fAdd (a b : Word) : Word := toF32 ((f32 a).add (f32 b))
def fSub (a b : Word) : Word := toF32 ((f32 a).add (f32 b).negate)
def fMul (a b : Word) : Word := toF32 ((f32 a).mul (f32 b))

/-- a * b + c with one rounding. -/
def fFma (a b c : Word) : Word := toF32 (((f32 a).mul (f32 b)).add (f32 c))

/-- -(a * b) + c with one rounding (R200, NEG). -/
def fFnma (a b c : Word) : Word := toF32 (((f32 a).mul (f32 b)).negate.add (f32 c))

/-- Quotient, correctly rounded. -/
def fDiv (a b : Word) : Word :=
  match f32 a, f32 b with
  | .nan, _ => f32NaN
  | _, .nan => f32NaN
  | .inf _, .inf _ => f32NaN
  | .inf x, .fin y _ _ => toF32 (.inf (x != y))
  | .fin x _ _, .inf y => toF32 (.fin (x != y) 0 0)
  | .fin x ma ea, .fin y mb eb =>
    if mb = 0 then (if ma = 0 then f32NaN else toF32 (.inf (x != y)))
    else
      let n := ma * 2 ^ 64
      toF32Sticky (x != y) (n / mb) (ea - eb - 64) (decide (n % mb ≠ 0))

/-- Integer square root by binary digits: k digits below 2^k. -/
def isqrtGo : Nat → Nat → Nat → Nat
  | 0, r, _ => r
  | k + 1, r, n =>
    let t := r + 2 ^ k
    if t * t ≤ n then isqrtGo k t n else isqrtGo k r n

def isqrt (n : Nat) : Nat := isqrtGo (Nat.log2 n / 2 + 1) 0 n

/-- Square root, correctly rounded. -/
def fSqrt (a : Word) : Word :=
  match f32 a with
  | .nan => f32NaN
  | .inf neg => if neg then f32NaN else f32Inf
  | .fin neg m e =>
    if m = 0 then a
    else if neg then f32NaN
    else
      let k : Int := if (e - 64) % 2 = 0 then e - 64 else e - 65
      let n := m * 2 ^ (e - k).toNat
      let r := isqrt n
      toF32Sticky false r (k / 2) (decide (r * r ≠ n))

/-- 1 / sqrt(x), correctly rounded (R201, RSQRT). The spec states no result for -0: a free value (log entry 12). -/
def fRsqrt (a : Word) : Word :=
  match f32 a with
  | .nan => f32NaN
  | .inf neg => if neg then f32NaN else 0
  | .fin neg m e =>
    if m = 0 then (if neg then Config.rsqrtNegZero else f32Inf)
    else if neg then f32NaN
    else
      let k : Int := if e % 2 = 0 then e else e - 1
      let n := m * 2 ^ (e - k).toNat
      let p := 2 ^ 256 / n
      let r := isqrt p
      toF32Sticky false r (-128 - k / 2) (decide (r * r * n ≠ 2 ^ 256))

/-- 1 / x, correctly rounded (R201, RCP). -/
def fRcp (a : Word) : Word := fDiv f32One a

/-- Bits of precision kept by the two transcendental functions before their one rounding. -/
def trPrec : Nat := 288

/-- Product over the set bits of the fraction f / 2^n of the constants 2^(2^-i), each found by a square root of the one before; every value has trPrec fraction bits. -/
def exp2Go : Nat → Nat → Nat → Nat → Nat
  | 0, _, _, acc => acc
  | n + 1, f, c, acc =>
    let c' := isqrt (c * 2 ^ trPrec)
    let bit := f / 2 ^ n % 2
    exp2Go n f c' (if bit = 1 then acc * c' / 2 ^ trPrec else acc)

/-- 2^x for a finite x = whole + f / 2^n. -/
def exp2Fin (whole : Int) (f n : Nat) : Word :=
  if 200 < whole then f32Inf
  else if whole < -200 then 0
  else if f = 0 then toF32 (.fin false 1 whole)
  else toF32Sticky false (exp2Go n f (2 * 2 ^ trPrec) (2 ^ trPrec)) (whole - (trPrec : Int)) true

/-- 2^x of an exact value, correctly rounded (R201, R205). -/
def exp2Fp : Fp → Word
  | .nan => f32NaN
  | .inf neg => if neg then 0 else f32Inf
  | .fin neg m e =>
    if 0 ≤ e then
      let i : Int := (m : Int) * 2 ^ e.toNat
      exp2Fin (if neg then -i else i) 0 0
    else
      let n := (-e).toNat
      let v : Int := if neg then -(m : Int) else (m : Int)
      exp2Fin (v / (2 ^ n : Nat)) ((v % (2 ^ n : Nat)).toNat) n

/-- 2^x, correctly rounded (R201, EXP2). -/
def fExp2 (a : Word) : Word := exp2Fp (f32 a)

/-- Fraction bits of log2 of y in [1, 2), by squaring; y has trPrec fraction bits. -/
def log2Go : Nat → Nat → Nat → Nat
  | 0, _, acc => acc
  | n + 1, y, acc =>
    let z := y * y / 2 ^ trPrec
    if 2 * 2 ^ trPrec ≤ z then log2Go n (z / 2) (2 * acc + 1) else log2Go n z (2 * acc)

/-- log2 x, correctly rounded (R201, LOG2). -/
def fLog2 (a : Word) : Word :=
  match f32 a with
  | .nan => f32NaN
  | .inf neg => if neg then f32NaN else f32Inf
  | .fin neg m e =>
    if m = 0 then f32NegInf
    else if neg then f32NaN
    else
      let l := Nat.log2 m
      let w : Int := e + (l : Int)
      if m = 2 ^ l then toF32 (.fin (decide (w < 0)) w.natAbs 0)
      else
        let fr := log2Go 160 (m * 2 ^ (trPrec - l)) 0
        let v : Int := w * 2 ^ 160 + (fr : Int)
        if v < 0 then toF32Sticky true (v.natAbs - 1) (-160) true
        else toF32Sticky false v.toNat (-160) true

/-- The binary32 nearest to an integer. -/
def fOfNat (n : Nat) : Word := toF32 (.fin false n 0)

/-- floor(log2 h) of a positive finite binary32 (R116). -/
def f32FloorLog2 (w : Word) : Int :=
  match f32 w with
  | .fin _ m e => (Nat.log2 m : Int) + e
  | _ => 128

/-- IEEE 754 comparison of two values that are not NaN: a < b. -/
def Fp.lt : Fp → Fp → Bool
  | .nan, _ => false
  | _, .nan => false
  | .inf a, .inf b => a && !b
  | .inf a, .fin _ _ _ => a
  | .fin _ _ _, .inf b => !b
  | .fin na ma ea, .fin nb mb eb =>
    let e := min ea eb
    decide (finInt na ma ea e < finInt nb mb eb e)

def fLt (a b : Word) : Bool := (f32 a).lt (f32 b)

/-- Numerical equality: false when either is NaN; -0 equals +0. -/
def fEq (a b : Word) : Bool := !f32IsNaN a && !f32IsNaN b && !fLt a b && !fLt b a

/-- Maximum with NaN giving the canonical NaN and +0 larger than -0 (R204). -/
def fMax (a b : Word) : Word :=
  if f32IsNaN a || f32IsNaN b then f32NaN
  else if fLt a b then b
  else if fLt b a then a
  else if a == 0x80000000 then b
  else a

/-- Minimum, as fMax. -/
def fMin (a b : Word) : Word :=
  if f32IsNaN a || f32IsNaN b then f32NaN
  else if fLt a b then a
  else if fLt b a then b
  else if a == 0x80000000 then a
  else if b == 0x80000000 then b
  else a

end Sys2Proof.Machine
end

