-- ==== Sys2Proof/Machine/Formats.lean ====
section
/-! DEFINITION. Layout descriptors, the place of every element, and narrowing and widening of elements and MX blocks (07 R176 to R181, 04 R100 to R111). -/

namespace Sys2Proof.Machine

/-- A layout descriptor as an engine latches it: the fields of Table 3, the format code and SR bit of its class, and its scale S (R103, R176). -/
structure Layout where
  base : Nat := 0
  kind : Nat := 0
  cls : Nat := 0
  linear : Bool := false
  red : Bool := false
  rows : Nat := 0
  cols : Nat := 0
  pitch : Nat := 0
  tensor : Nat := 0
  xplane : Nat := 0
  idxBase : Nat := 0
  idxPitch : Nat := 0
  fmt : Nat := 0
  s : Int := 0
  sr : Bool := false
deriving DecidableEq, Repr, Inhabited

/-- Element width in bits. -/
def Layout.width (l : Layout) : Nat :=
  match l.kind with
  | 0 => fmtWidth l.fmt
  | 1 => 8
  | 2 => 16
  | _ => 32

/-- The tensor holds MX blocks. -/
def Layout.isMx (l : Layout) : Bool := decide (l.kind = 0) && fmtIsMx l.fmt

/-- Bytes of an MX block (R101). -/
def mxBlockBytes (fmt : Nat) : Nat := 4 * fmtWidth fmt

/-- Tile height and width in elements (R177, R178). -/
def Layout.tileRows (l : Layout) : Nat := if l.isMx && l.red then 32 else 8
def Layout.tileCols (l : Layout) : Nat := if l.isMx && !l.red then 32 else 8

/-- Bytes of a tile. -/
def Layout.tileBytes (l : Layout) : Nat :=
  if l.isMx then 8 * mxBlockBytes l.fmt else 8 * l.width

def ceilDiv (a b : Nat) : Nat := (a + b - 1) / b

def Layout.tileRowsN (l : Layout) : Nat := ceilDiv l.rows l.tileRows
def Layout.tileColsN (l : Layout) : Nat := ceilDiv l.cols l.tileCols

/-- BASE with the bits that its order ignores cleared (R177, R179). -/
def Layout.start (l : Layout) : Nat :=
  if l.linear then l.base / (l.width / 8) * (l.width / 8) else l.base / 32 * 32

/-- Address of the tile that holds element (r, c). -/
def Layout.tileAt (l : Layout) (r c : Nat) : Nat :=
  l.start + r / l.tileRows * l.pitch + c / l.tileCols * l.tileBytes

/-- Byte address of element (r, c) of a tensor that is not MX (R177, R179). -/
def Layout.elemAddr (l : Layout) (r c : Nat) : Nat :=
  if l.linear then l.start + r * l.pitch + c * (l.width / 8)
  else l.tileAt r c + (8 * (r % 8) + c % 8) * (l.width / 8)

/-- Number of the MX block in its tile, and of the element in its block (R178). -/
def Layout.mxBlk (l : Layout) (r c : Nat) : Nat := if l.red then c % 8 else r % 8
def Layout.mxElem (l : Layout) (r c : Nat) : Nat := if l.red then r % 32 else c % 32

/-- Address of the MX block that holds element (r, c), and of its scale byte. -/
def Layout.mxAddr (l : Layout) (r c : Nat) : Nat := l.tileAt r c + l.mxBlk r c * mxBlockBytes l.fmt
def Layout.mxScaleAddr (l : Layout) (r c : Nat) : Nat :=
  l.xplane / 8 * 8 + 8 * (r / l.tileRows * l.tileColsN + c / l.tileCols) + l.mxBlk r c

/-- Element index of (r, c) for stochastic rounding (R180). -/
def Layout.index (l : Layout) (r c : Nat) : Nat := (l.idxBase + r * l.idxPitch + c) % 2 ^ 48

/-- The extents of a tensor: start and length in bytes of each (R181). -/
def Layout.extents (l : Layout) : List (Nat × Nat) :=
  if l.linear then [(l.start, (l.rows - 1) * l.pitch + l.cols * (l.width / 8))]
  else
    let main := (l.start, (l.tileRowsN - 1) * l.pitch + l.tileColsN * l.tileBytes)
    if l.isMx then [main, (l.xplane / 8 * 8, 8 * l.tileRowsN * l.tileColsN)] else [main]

/-- Code of element i of an MX block at address a (R101). -/
def mxCode (m : List Host.Cell) (fmt a i : Nat) : Nat :=
  match fmtWidth fmt with
  | 8 => (memByte m (a + i)).toNat
  | 6 => memNat m (a + 3 * (i / 4)) 3 / 2 ^ (6 * (i % 4)) % 64
  | _ => (memByte m (a + i / 2)).toNat / 2 ^ (4 * (i % 2)) % 16

/-- The stored value of element (r, c) before the tensor scale (R99, R100, R199). -/
def Layout.value (l : Layout) (m : List Host.Cell) (r c : Nat) : Fp :=
  if l.isMx then
    let x := (memByte m (l.mxScaleAddr r c)).toNat
    if x = 255 then .nan
    else
      match fmtOf l.fmt with
      | some f => (f.decode (mxCode m l.fmt (l.mxAddr r c) (l.mxElem r c))).scale ((x : Int) - 127)
      | none => .nan
  else
    let code := memNat m (l.elemAddr r c) (l.width / 8)
    if l.kind = 0 then
      match fmtOf l.fmt with
      | some f => f.decode code
      | none => .nan
    else .fin false code 0

/-- Code of element (r, c) of a raw tensor. -/
def Layout.rawCode (l : Layout) (m : List Host.Cell) (r c : Nat) : Nat :=
  memNat m (l.elemAddr r c) (l.width / 8)

/-- The true value of element (r, c): the stored value times 2^(-S) (R102, R104), exactly. -/
def Layout.exact (l : Layout) (m : List Host.Cell) (r c : Nat) : Fp := (l.value m r c).scale (-l.s)

/-- Element (r, c) widened to binary32 (R105). -/
def Layout.widen (l : Layout) (m : List Host.Cell) (r c : Nat) : Word := toF32 (l.exact m r c)

/-- Widen a code of a format with scale S (R105). -/
def widenCode (fmt : Nat) (s : Int) (code : Nat) : Word :=
  match fmtOf fmt with
  | some f => toF32 ((f.decode code).scale (-s))
  | none => f32NaN

/-- Narrow a binary32 value into a format with scale S (R106). -/
def narrowCode (fmt : Nat) (s : Int) (r : Rounding) (v : Word) : Narrowed :=
  match fmtOf fmt with
  | some f => f.narrow r ((f32 v).scale s)
  | none => ⟨0, false, false⟩

/-- What a unit narrowed: the value before the scale, and the outcome that a weigher sees (R115). -/
structure Seen where
  v : Word
  sat : Bool
  toInf : Bool
deriving DecidableEq, Repr, Inhabited

/-- The rounding of element index i under the SR bit; rnd gives the 16 random bits (R110). -/
def roundingOf (sr : Bool) (rnd : Nat → Nat) (i : Nat) : Rounding :=
  if sr then .stochastic (rnd i) else .nearest

/-- Bytes of an element's code. -/
def codeBytes (width code : Nat) : List Byte := leBytes (width / 8) (BitVec.ofNat width code)

/-- Write element (r, c) of a typed tensor that is not MX (R106): the new memory and what was seen. -/
def Layout.store (l : Layout) (rnd : Nat → Nat) (r c : Nat) (v : Word) : List Byte × Seen :=
  let n := narrowCode l.fmt l.s (roundingOf l.sr rnd (l.index r c)) v
  (codeBytes l.width n.code, ⟨v, n.sat, n.toInf⟩)

/-- ⌊log2⌋ of a finite value that is not 0. -/
def Fp.floorLog2 : Fp → Int
  | .fin _ man exp => (Nat.log2 man : Int) + exp
  | _ => 0

def Fp.isZero : Fp → Bool
  | .fin _ man _ => decide (man = 0)
  | _ => false

def Fp.isFinite : Fp → Bool
  | .fin _ _ _ => true
  | _ => false

/-- The block scale X of 32 scaled values (R111). -/
def mxScale (fmt : Nat) (vs : List Fp) : Nat :=
  if vs.any (fun v => !v.isFinite) then 255
  else
    match (vs.filter (fun v => !v.isZero)).map Fp.floorLog2 with
    | [] => 0
    | e :: es =>
      let x := es.foldl max e - fmtEf fmt + 127
      (max 0 (min x 254)).toNat

/-- Narrow a block into an MX format: X and the outcome of each element (R111). -/
def mxNarrow (fmt : Nat) (s : Int) (r : Nat → Rounding) (vs : List Word) : Nat × List Narrowed :=
  let sc := vs.map (fun v => (f32 v).scale s)
  let x := mxScale fmt sc
  let zero : Narrowed := ⟨0, false, false⟩
  match fmtOf fmt with
  | none => (x, vs.map (fun _ => zero))
  | some f =>
    if x = 255 || sc.all Fp.isZero then (x, vs.map (fun _ => zero))
    else (x, sc.mapIdx (fun i v => f.narrow (r i) (v.scale (127 - (x : Int)))))

/-- Pack the codes of an MX block (R101): the block as one little-endian number. -/
def mxPack (fmt : Nat) (codes : List Nat) : Nat :=
  (codes.mapIdx (fun i c => c * 2 ^ (fmtWidth fmt * i))).foldl (· + ·) 0

/-- Bytes of an MX block. -/
def mxBytes (fmt : Nat) (codes : List Nat) : List Byte :=
  leBytes (mxBlockBytes fmt) (BitVec.ofNat (32 * fmtWidth fmt) (mxPack fmt codes))

/-- A writing of local memory: address and bytes, in order. -/
abbrev Writes := List (Nat × List Byte)

/-- Narrow and place the 32 values of the MX block that element (r, c) begins, and its scale byte. -/
def Layout.storeMx (l : Layout) (rnd : Nat → Nat) (r c : Nat) (vs : List Word) : Writes × List Seen :=
  let idx := fun i => if l.red then l.index (r + i) c else l.index r (c + i)
  let n := mxNarrow l.fmt l.s (fun i => roundingOf l.sr rnd (idx i)) vs
  ([(l.mxAddr r c, mxBytes l.fmt (n.2.map (·.code))),
    (l.mxScaleAddr r c, [BitVec.ofNat 8 n.1])],
   List.zipWith (fun v (z : Narrowed) => ⟨v, z.sat, z.toInf⟩) vs n.2)

/-- The fields of Table 3 before the format and the scale are latched: SSRC, SW and SIMM beside the layout. -/
structure RawLayout where
  l : Layout
  ssrc : Nat
  sw : Nat
  simm : Int
deriving DecidableEq, Repr, Inhabited

/-- Read a layout descriptor from its 8 words; the format of each class is given. None when reserved bits or codes are not 0 (R176). -/
def parseLayout (fmtOfClass : Nat → Nat) (w : Nat → Nat) : Option RawLayout :=
  let kind := bitsOf (w 0) 22 21
  let cls := bitsOf (w 0) 25 23
  let order := bitsOf (w 0) 27 26
  let ssrc := bitsOf (w 3) 17 16
  let fmt := fmtOfClass cls
  let bad := bitsOf (w 0) 31 29 ≠ 0 ∨ 2 ≤ order ∨ bitsOf (w 2) 31 21 ≠ 0 ∨ bitsOf (w 3) 23 22 ≠ 0 ∨
    ssrc = 3 ∨ bitsOf (w 4) 31 21 ≠ 0 ∨ bitsOf (w 6) 31 16 ≠ 0 ∨
    (kind = 0 ∧ fmtIsMx fmt = true ∧ order ≠ 0) ∨ (kind ≠ 0 ∧ ssrc ≠ 0)
  if bad then none
  else some {
    l := { base := bitsOf (w 0) 20 0, kind := kind, cls := cls, linear := decide (order = 1),
           red := decide (bitsOf (w 0) 28 28 = 1), rows := bitsOf (w 1) 15 0 + 1,
           cols := bitsOf (w 1) 31 16 + 1, pitch := bitsOf (w 2) 20 0, tensor := bitsOf (w 3) 15 0,
           xplane := bitsOf (w 4) 20 0, idxBase := w 5 + 2 ^ 32 * bitsOf (w 6) 15 0,
           idxPitch := w 7, fmt := fmt },
    ssrc := ssrc, sw := bitsOf (w 3) 21 18, simm := signedOf 8 (bitsOf (w 3) 31 24) }

/-- The layout moved by a base offset, modulo 2^21 (R131). -/
def Layout.shift (l : Layout) (off : Nat) : Layout := { l with base := (l.base + off) % 2 ^ 21 }

end Sys2Proof.Machine
end

