-- ==== Sys2Proof/Machine/State.lean ====
section
/-! DEFINITION. The state of the tile core: one structure per unit, plain data, each field at its reset value by default, and Fault and Refusal. -/

namespace Sys2Proof.Machine

/-- Reasons the model could stop with a fault. -/
inductive Fault where
  /-- No command raises it: every fault of the spec is a record in State.flt and the command answers a next state. Safe: nothing is concluded from it. -/
  | none
deriving DecidableEq, Repr

/-- Reasons the model could refuse a command. -/
inductive Refusal where
  /-- Raised by exec for a row without a meaning, by mnemonic. Safe: no next state is claimed. -/
  | notModelled (mnemonic : String)
deriving DecidableEq, Repr

/-- Clocks, operating point, alert and droop (01 R20 to R31, 14 R350). -/
structure Clk where
  /-- CORE_OP_CUR (Table 4). -/
  op : BitVec 3 := 4
  /-- CORE_OP_ALERT. -/
  alert : Bool := false
  /-- VR_ALERT_N has risen and the 10 µs hold runs (R27). -/
  alertHold : Bool := false
  /-- Point set by the most recent stage-boundary change (R27). -/
  target : BitVec 3 := 4
  /-- CORE_OP_STRETCH. -/
  stretch : Bool := false
  /-- The droop detector is armed (R350). -/
  armed : Bool := true
  /-- t-cycles until the detector re-arms (R350, R31). -/
  rearm : Nat := 16
  /-- The tile is in SUSPEND (R337). -/
  suspend : Bool := false
  /-- Ticks that a stage-boundary change still holds the root clock (R351). -/
  opWait : Nat := 0
  /-- PWR_OPN, the point announced (R336). -/
  opn : BitVec 3 := 4
  /-- Port-clock cycles since the core reset. -/
  pcyc : Nat := 0
  /-- CCYC: control-clock cycles since the core reset (03 R73). -/
  ccyc : Dword := 0
  /-- TICK: ticks since the always-on reset (03 R73, R416). -/
  ticks : Dword := 0
deriving DecidableEq, Repr, Inhabited

/-- State owned by one context (R64, R65). -/
structure Ctx where
  pc : Addr := 0
  /-- s1 to s31 by number. -/
  regs : Tab Dword := []
  /-- SCR0 to SCR7. -/
  scr : Tab Dword := []
  halted : Bool := false
  /-- It last stopped at a SYNC instruction. -/
  atSync : Bool := false
  /-- It has run since it was last reset or reloaded. -/
  ran : Bool := false
  /-- Zone of its most recent SYNC since it was last reset or reloaded (R95). -/
  zone : Option (BitVec 2) := none
deriving DecidableEq, Repr, Inhabited

/-- What the control core is doing. -/
inductive CoreMode where
  /-- No context runs (R69, R71). -/
  | idle
  /-- It executes instructions. -/
  | run
  /-- It stopped at a SYNC whose close flag is c (R87). -/
  | sync (c : Bool)
  /-- WAIT stalls with its watch in slot 7; D is the destination (R88). -/
  | wait (d : SReg)
  /-- FEW stalls on the full word a with value v. -/
  | few (a : Addr) (v : Dword)
  /-- FER stalls on the empty word a. -/
  | fer (a : Addr) (d : SReg)
  /-- FENCE stalls on the engines of the mask (R93). -/
  | fence (m : BitVec 7)
  /-- An engine issue stalls on its full queue (R81). -/
  | full (i : Instr)
  /-- A contained fault or the watchman stopped it (R95). -/
  | stopped
deriving DecidableEq, Repr, Inhabited

/-- What a SYNC replaced: the switch request, when it made one, and the zone of its context (12 R304). -/
structure PreSync where
  sw : Option (BitVec 2 × Bool) := none
  zone : Option (BitVec 2) := none
deriving DecidableEq, Repr, Inhabited

/-- Control core, stage and phase state (01, 03). -/
structure Core where
  /-- CORE_PHASE_CUR: 0 compute, 1 sync wait, 2 lead-in, 3 exchange. -/
  phase : BitVec 2 := 0
  phaseZone : BitVec 2 := 0
  stage : Dword := 0
  lastWait : Word := 0
  /-- Port cycles since SYNC_ARR rose. -/
  waitCnt : Nat := 0
  exchLen : Word := 0
  /-- SYNC_ARR and SYNC_ZONE as driven (R9, R16, R423). -/
  syncArr : Bool := true
  syncZone : BitVec 2 := 3
  /-- Contexts c0 to c3. -/
  ctxs : Tab Ctx := []
  cur : BitVec 2 := 0
  next : BitVec 2 := 0
  switch : Bool := false
  swrej : Bool := false
  rldBusy : Bool := false
  rldMask : BitVec 4 := 0
  /-- CORE_ENTRY of each context. -/
  entry : Tab Addr := []
  tileId : BitVec 20 := 0
  tileCount : BitVec 21 := 0
  stallQ : Word := 0
  stallArb : Word := 0
  stallWait : Word := 0
  mode : CoreMode := .idle
  /-- What the SYNC at which the core is stopped replaced. -/
  preSync : PreSync := {}
  /-- CORE_RSTAT (17 Table 5). -/
  rstatCause : BitVec 2 := 0
  rstatZskip : Bool := false
deriving DecidableEq, Repr, Inhabited

/-- A shadow write that waits for the live-to-shadow copy (R48). -/
inductive ShadowWr where
  /-- Store word at an offset: the bits of the mask take the value. -/
  | store (off : Nat) (mask val : Word)
  /-- MAN_EPOCH_SHADOW. -/
  | epoch (val : Word)
deriving DecidableEq, Repr, Inhabited

/-- The manifest unit (02). -/
structure Man where
  /-- The live copy, by store byte offset (R32). -/
  live : Tab Byte := []
  /-- The shadow copy. -/
  shadow : Tab Byte := []
  loadSt : BitVec 2 := 0
  /-- The armed epoch; MAN_STATUS_ARMED is whether there is one. -/
  armed : Option Word := none
  syncing : Bool := false
  hold : Bool := false
  isLive : Bool := false
  lwin : Bool := false
  wrej : Bool := false
  err : Bool := false
  loadAddr : Addr := 0
  loadLen : BitVec 17 := 0
  armEpoch : Word := 0
  epochCur : Word := 0
  epochShadow : Word := 0
  errCode : Byte := 0
  errType : Byte := 0
  errOff : Half := 0
  agree : Dword := 0
  commits : Word := 0
  holdEpoch : Word := 0
  cfgAddr : BitVec 14 := 0
  cfgLive : Bool := false
  /-- MAN_CTRL_RESUME written and not yet used (R55). -/
  resume : Bool := false
  /-- The load that runs: address and length (R42). -/
  load : Option (Nat × Nat) := none
  /-- The load that waits on the live-to-shadow copy (R48). -/
  loadWait : Option (Nat × Nat) := none
  /-- Shadow writes that wait on the copy, oldest first (R48). -/
  waiting : List ShadowWr := []
  /-- A manifest was made live since the core reset (04 R437). -/
  everLive : Bool := false
deriving DecidableEq, Repr, Inhabited

/-- Error state of a codeword (R182). -/
inductive EccErr where
  | clean
  | single
  | double
deriving DecidableEq, Repr, Inhabited

/-- The arbiter of one bank (07 R186, R187): the current priority of each indexed requester, and the pointer that settles ties. -/
structure Arb where
  prio : Tab (BitVec 4) := []
  ptr : Nat := 0
deriving DecidableEq, Repr, Inhabited

/-- A request that waits in the arbiter (07 R189, R191): its requester by index of Table 4, and the banks that it waits for, bank b in bit b. -/
structure Want where
  req : Nat
  banks : Nat
deriving DecidableEq, Repr, Inhabited

/-- Local memory (07). -/
structure Mem where
  /-- Bytes 0x00_0000 to 0x17_FFFF in canonical form; unlisted bytes read 0 (R193). -/
  bytes : List Host.Cell := []
  /-- Full bits of the FE partition by word number (R175). -/
  full : Tab Bool := []
  /-- Entries of the full-bit store that hold a parity error (R175). -/
  fullErr : Tab Bool := []
  /-- The bank arbiters, by bank (R187). -/
  arb : Tab Arb := []
  /-- Requests that wait for a zeroisation or for reserved banks. -/
  wants : List Want := []
  /-- Error state of codewords by address / 8 (R182 to R184). -/
  ecc : Tab EccErr := []
  zeroing : Bool := true
  ce : Bool := false
  ue : Bool := false
  wbovf : Bool := false
  /-- Bank reservation in force (R191). -/
  xres : Word := 0
  xph : Bool := false
  scrubInt : Half := 0x0400
  scrubPass : Word := 0
  ceCount : Word := 0
  ceCw : BitVec 18 := 0
  ceReq : BitVec 5 := 0
  ueCw : BitVec 18 := 0
  ueReq : BitVec 5 := 0
  ueFe : Bool := false
  zeroCount : Word := 1
  xunres : Word := 0
  preempt : Word := 0
  bankLost : Tab Word := []
  /-- Row the scrubber reads next, 0 to 1,535 (R185). -/
  scrubRow : Nat := 0
  /-- Codewords that wait for write-back, at most 4 (R183). -/
  wbq : List Nat := []
deriving DecidableEq, Repr, Inhabited

/-- One sync object (12 Table 1). -/
structure SObj where
  val : Word := 0
  mode : Bool := false
  n : Byte := 0
  arr : Byte := 0
  lastSrc : BitVec 4 := 0
  lastCtx : BitVec 2 := 0
deriving DecidableEq, Repr, Inhabited

/-- One watch slot (12 R291). -/
structure Watch where
  obj : Byte := 0
  cond : BitVec 2 := 0
  active : Bool := false
  hit : Bool := false
  en : Bool := false
  tgt : Word := 0
  /-- The wake of the latest change is delivered (slots 0 to 6). -/
  woken : Bool := false
deriving DecidableEq, Repr, Inhabited

/-- A full/empty operation of SYN_FE_CTRL (12 R301). -/
inductive FeOp where
  | put
  | take
  | peek
  | force (bit : Bool)
deriving DecidableEq, Repr, Inhabited

/-- A full/empty operation as it was asked for (12 R301). -/
structure FeReq where
  op : FeOp
  addr : Addr
  data : Dword
deriving DecidableEq, Repr, Inhabited

/-- The sync unit (12). -/
structure Syn where
  objs : Tab SObj := []
  watch : Tab Watch := []
  dlock : Bool := false
  ovf : Bool := false
  attdrop : Bool := false
  hsrej : Bool := false
  wmThresh : Word := 0x00100000
  wmCount : Word := 0
  snapObj : Byte := 0
  snapCcw : Bool := false
  snapCck : BitVec 3 := 0
  snapQw : BitVec 7 := 0
  snapPst : Bool := false
  errObj : Byte := 0
  errSrc : BitVec 4 := 0
  errCtx : BitVec 2 := 0
  sigs : Word := 0
  wakes : Word := 0
  takes : Word := 0
  wmFires : Word := 0
  attDropCnt : Word := 0
  wmPdrop : Word := 0
  waitCyc : Word := 0
  osel : Byte := 0
  osetVal : Word := 0
  osetMode : Bool := false
  osetN : Byte := 0
  osetArr : Byte := 0
  feAddr : Addr := 0
  feDlo : Word := 0
  feDhi : Word := 0
  feDone : Bool := false
  feRefused : Bool := false
  feFull : Bool := false
  /-- The operation that waits for a zeroisation, with the address and the data that it was asked for with; SYN_FE_STAT_BUSY is whether there is one. -/
  fePend : Option FeReq := none
deriving DecidableEq, Repr, Inhabited

/-- An issue-queue entry (R82, R83). -/
structure QEntry where
  ctx : BitVec 2
  fn : BitVec 4
  sub : BitVec 6
  /-- Number of register D. -/
  dreg : SReg
  /-- Values of the registers named by D, A and B. -/
  d : Dword
  a : Dword
  b : Dword
  fs : BitVec 18
  /-- Physical object waited on, when WV is 1. -/
  wv : Option Byte
  /-- Physical object signalled, when SV is 1. -/
  sv : Option Byte
  /-- The logical SID (R299). -/
  sid : BitVec 6
deriving DecidableEq, Repr, Inhabited

/-- An operation dispatched and not retired. -/
structure Infl where
  ent : QEntry
  /-- Links the operation to its engine's state. -/
  id : Nat
  /-- Value its scalar writeback will carry (R85). -/
  wb : Option Dword
  /-- It has done everything but retire. -/
  done : Bool
  /-- It gives no SID signal of its own at retirement (R299). -/
  mute : Bool := false
  /-- What it writes into local memory as it retires: groups of writings that reach the banks together (R98). -/
  wr : List (List (Nat × List Byte)) := []
  /-- Lanes of vector registers that a register operation writes as it retires, by register × 64 + lane (08 R217). -/
  lanes : List (Nat × Word) := []
  /-- FOUT units that it credits as it retires: identity and data (11 R268, R270). -/
  units : List (Nat × List Byte) := []
  /-- The caravan whose contributors retire together (06 R165). -/
  car : Option Nat := none
deriving DecidableEq, Repr, Inhabited

/-- One engine's issue queue and its operations in flight. -/
structure EngQ where
  wait : List QEntry := []
  infl : List Infl := []
  /-- Discarding since a failed dispatch check, until the next release (R433). -/
  failed : Bool := false
deriving DecidableEq, Repr, Inhabited

/-- The fault unit (16). -/
structure FltRec where
  w0 : Word
  w1 : Word
  w2 : Word
  w3 : Word
deriving DecidableEq, Repr, Inhabited

structure Flt where
  cont : Bool := false
  pend : Bool := false
  /-- The context that halts at the next release (R389). -/
  haltCtx : Option (BitVec 2) := none
  fatal : Bool := false
  lovf : Bool := false
  /-- The log, newest first, at most 16 records. -/
  log : List FltRec := []
  first : Option FltRec := none
  /-- FLT_FATAL (VDD_AO). -/
  fatalRec : Option FltRec := none
  seq : Half := 0
  injCode : Byte := 0
  lsel : BitVec 4 := 0
  cntCe : Word := 0
  cntCont : Word := 0
  cntHalt : Word := 0
  /-- Errors that stand in the protected stores and have not been met: 0 configuration, 1 sync objects, 2 control core, 3 always-on state (R388). -/
  stores : Tab EccErr := []
deriving DecidableEq, Repr, Inhabited

/-- State of one region of one context (15 R375). -/
structure RgState where
  e : BitVec 24 := 0
  h : Dword := 0
  lo : Dword := 0
  ue : BitVec 24 := 0
  ueV : Bool := false
  /-- 0 current, 1 retired, 2 none. -/
  k : BitVec 2 := 0
  lock : Bool := false
  exh : Bool := false
  /-- The EPOCH_FLOOR in force when E was last set from it. -/
  floor : BitVec 24 := 0
deriving DecidableEq, Repr, Inhabited

/-- Obtur (15). All but codeOk and the code loader lies in VDD_AO. -/
structure Sec where
  key : BitVec 256 := 0
  keyId : Word := 0
  rkey : BitVec 256 := 0
  rkeyId : Word := 0
  rkeyHeld : Bool := false
  /-- 0 OPEN, 1 SEALED, 2 SEALED-DEBUG. -/
  state : BitVec 2 := 0
  dbgReq : BitVec 2 := 0
  level : BitVec 2 := 0
  permit : Bool := false
  codeOk : Bool := false
  /-- Stream stop in force (R385). -/
  stop : Bool := false
  sexh : Bool := false
  err : Bool := false
  errCause : BitVec 4 := 0
  errRegion : BitVec 6 := 0
  errCtx : BitVec 2 := 0
  errUser : BitVec 2 := 0
  codeAddr : Addr := 0
  codeLen : BitVec 21 := 0
  codeErr : Byte := 0
  codeState : BitVec 2 := 0
  /-- The code load that runs: address and length. -/
  codeLoad : Option (Nat × Nat) := none
  /-- Region state by context × 64 + region. -/
  rg : Tab RgState := []
  seCur : BitVec 23 := 0
  seV : BitVec 23 := 0
  seVKey : BitVec 2 := 0
  seV1 : BitVec 23 := 0
  seV1Key : BitVec 2 := 2
  rselRegion : BitVec 6 := 0
  rselCtx : BitVec 2 := 0
  blkOut : Word := 0
  blkIn : Word := 0
  tagFail : Word := 0
  wRefuse : Word := 0
  rpStale : Word := 0
  escal : Word := 0
  /-- KEY_BUSY (R361). -/
  busy : Bool := false
  /-- The key that a rekey installs once the stream port has drained (R384). -/
  rekey : Option (BitVec 256 × Word) := none
  /-- At the end of the zeroisation both keys clear and the state becomes OPEN (job end, R391). -/
  endJob : Bool := false
deriving DecidableEq, Repr, Inhabited

/-- Debug unit (17 R410). -/
structure Dbg where
  halted : Bool := false
  cause : BitVec 2 := 0
  rej : Bool := false
  ssel : BitVec 5 := 0
  /-- A halt taken while the core stands at an instruction that has not retired. -/
  haltReq : Bool := false
  /-- One instruction of the halted context is being executed (DBG_CTRL_STEP). -/
  stepping : Bool := false
deriving DecidableEq, Repr, Inhabited

/-- One register bus (17 R405, R406). -/
structure BusSt where
  /-- MG_RD or DB_RD of the last read. -/
  rd : Word := 0
  /-- An access that waits for a zeroisation, and those behind it. -/
  waiting : List Instr := []
deriving DecidableEq, Repr, Inhabited

structure Buses where
  mgmt : BusSt := {}
  dbg : BusSt := {}
  /-- Upper halves latched by reads of LO registers, by offset of LO (R435). ARR_MASK_HI reads 0xFFFF_FFFF at reset (05 Table 11). -/
  latch : Tab Word := [(0x180C, 0xFFFFFFFF)]
  /-- HI values held for the next LO write, by offset of LO. -/
  held : Tab (Option Word) := []
deriving DecidableEq, Repr, Inhabited

/-- Ports, isolation and resets (17 R416, R420). -/
structure Pins where
  isoEn : Bool := true
  /-- CORE_RST_N. -/
  coreRst : Bool := true
  /-- PWR_RET as sampled at the last core reset. -/
  pwrRet : Bool := false
  /-- A CORE_RST_N release is the first since AO_RST_N. -/
  firstRst : Bool := false
deriving DecidableEq, Repr, Inhabited

/-- Wrapper instructions (17 Table 8). -/
inductive WsInstr where
  | bypass
  | extest
  | intest
  | scan
  | mbistRun
  | mbistResult
  | cap
  | idreg
deriving DecidableEq, Repr, Inhabited

/-- The test wrapper (17 R426). -/
structure Dft where
  instr : WsInstr := .bypass
  /-- An intrusive instruction since the last core reset (R416, R427). -/
  intrusive : Bool := false
  mbistBusy : Bool := false
  mbistRes : BitVec 40 := 0
  /-- The selected data register as captured. -/
  dr : BitVec 40 := 0
  /-- The boundary register, its cells in chain order (R426). -/
  bnd : Nat := 0
deriving DecidableEq, Repr, Inhabited

/-- What a weigher gathers in one step (04 R115). -/
structure WAcc where
  amax : Word := 0
  nonfin : Bool := false
  cnt : Nat := 0
  fmt : BitVec 4 := 0
deriving DecidableEq, Repr, Inhabited

/-- One weigher (04 R114). -/
structure Weigher where
  acc : WAcc := {}
  obs : Word := 0
  /-- Scale exponent, signed. -/
  s : Byte := 0
  /-- History entries, 0 newest. -/
  hist : Tab Word := []
  fill : BitVec 5 := 0
deriving DecidableEq, Repr, Inhabited

/-- What STEP keeps of one weigher (04 R119). -/
structure WCopy where
  hist : Tab Word := []
  fill : BitVec 5 := 0
  s : Byte := 0
deriving DecidableEq, Repr, Inhabited

/-- The weighers and the loss scale (04). -/
structure Wgh where
  w : Tab Weigher := []
  /-- Observations of the step that follows a STEP in flight (R117). -/
  acc2 : Tab WAcc := []
  /-- A STEP has dispatched and not retired. -/
  stepping : Bool := false
  l : Byte := 0
  good : Half := 0
  nonfin : Half := 0
  sat : Half := 0
  mixed : Half := 0
  nanAny : Bool := false
  infAny : Bool := false
  lsdown : Bool := false
  notoken : Bool := false
  /-- A norm token was latched since the previous STEP, and its non-finite flag (R118). -/
  tok : Bool := false
  tokNf : Bool := false
  /-- Token seen by the STEP in flight. -/
  stepTok : Bool := false
  stepTokNf : Bool := false
  copy : Tab WCopy := []
  copyL : Byte := 0
  copyGood : Half := 0
  hselW : BitVec 4 := 0
  hselE : BitVec 4 := 0
deriving DecidableEq, Repr, Inhabited

/-- An operation descriptor as the array latches it (05 R131, R132). -/
structure ArrDesc where
  conv : Bool := false
  m : Nat := 0
  n : Nat := 0
  /-- K, or C of a convolution. -/
  k : Nat := 0
  tx : Bool := false
  tw : Bool := false
  out : Nat := 0
  deriv : Bool := false
  oh : Nat := 0
  ow : Nat := 0
  r : Nat := 0
  s : Nat := 0
  stride : Nat := 1
  dil : Nat := 1
  padT : Nat := 0
  padL : Nat := 0
  x : Layout := {}
  w : Layout := {}
  y : Layout := {}
  c : Layout := {}
  pmaskV : Bool := false
  /-- The privileged-column bitmap (R140). -/
  pmask : BitVec 256 := 0
  /-- Step field sampled at dispatch (11 R266). -/
  stepField : BitVec 48 := 0
deriving DecidableEq, Repr, Inhabited

/-- Rows of one contributor of a caravan (06 R162). -/
structure CarJoin where
  /-- Operation number of the contributor. -/
  id : Nat
  rows : Nat
  x : Layout
deriving DecidableEq, Repr, Inhabited

/-- An operation that the array has accepted (05 R144, 06 R153, R162). -/
structure ArrOp where
  id : Nat
  /-- The string that holds it; a LIST is held by its group. -/
  string : Nat
  isList : Bool := false
  group : Nat := 0
  /-- A caravan: contributors in join order, and whether it is still open. -/
  joins : List CarJoin := []
  open_ : Bool := false
  descAddr : Nat := 0
  offW : Nat := 0
  capRows : Nat := 0
  tag : Byte := 0
  nosteal : Bool := false
  desc : ArrDesc := {}
  /-- Unclaimed items are lo to hi - 1; of a LIST, entries. -/
  lo : Nat := 0
  hi : Nat := 0
  items : Nat := 0
  /-- Bales that have entered the bale queue or whose writes are done. -/
  drained : Nat := 0
  /-- First sequence position (06 R155). -/
  pos : Nat := 0
  /-- Base offsets A, list address and weigher scales of a LIST, as its dispatch found them (04 R103). -/
  a : Dword := 0
  scales : List Byte := []
  addr : Nat := 0
  ctx : BitVec 2 := 0
  /-- Claims of the LIST that failed a check ended it (06 R154). -/
  ended : Bool := false
deriving DecidableEq, Repr, Inhabited

/-- A bale in a string's buffer (05 R136): in progress while a-cycles are left, finished behind them. -/
structure Bale where
  opId : Nat
  string : Nat
  item : Nat
  tag : Byte
  last : Bool
  pos : Nat
  desc : ArrDesc
  vals : List Word
  /-- a-cycles before the item's first product, and of the item itself, that are still to come (06 R150, R153; 05 R129, R130). -/
  lead : Nat := 0
  left : Nat := 0
  /-- The a-cycle on which it finished (05 R137). -/
  fin : Nat := 0
deriving DecidableEq, Repr, Inhabited

/-- A bale in the bale queue (06 R159): element codes in position order, its record and its position. -/
structure QBale where
  pos : Nat
  rcd : Dword
  codes : List Nat
deriving DecidableEq, Repr, Inhabited

/-- A cell of the array (05 R123): element codes of its row register and standby row register, and its four accumulators. -/
structure Cell where
  row : List Nat := List.replicate 16 0
  standby : List Nat := List.replicate 16 0
  acc : List Word := List.replicate 4 0
deriving DecidableEq, Repr, Inhabited

/-- The transposing buffer of a feed path (05 R135): codes of two 8 x 8 blocks, row by row. -/
structure Feed where
  b0 : List Nat := List.replicate 64 0
  b1 : List Nat := List.replicate 64 0
deriving DecidableEq, Repr, Inhabited

/-- The drover array (05, 06). -/
structure Arr where
  /-- Operations held, in acceptance order. -/
  ops : List ArrOp := []
  /-- Bales not yet drained, in the order of their claims. -/
  bufs : List Bale := []
  bq : List QBale := []
  /-- Next position to assign, and next to release (06 R155, R156). -/
  nextPos : Nat := 0
  relPos : Nat := 0
  derr : Bool := false
  derrAddr : Addr := 0
  derrCause : BitVec 4 := 0
  derrString : BitVec 6 := 0
  derrFn : BitVec 3 := 0
  mac : Dword := 0
  adv : Word := 0
  frzArb : Word := 0
  frzBuf : Word := 0
  frzThr : Word := 0
  bales : Word := 0
  steals : Word := 0
  listEnt : Word := 0
  cardepFull : Word := 0
  cardepDl : Word := 0
  cardepForce : Word := 0
  carRows : Word := 0
  ballast : Word := 0
  robWait : Word := 0
  bqFullw : Word := 0
  /-- Gap count of each drover (06 R167); at its largest where not listed. -/
  gap : Tab Nat := []
  /-- Descriptor address of the last item of each string (06 R153). -/
  lastDesc : Tab (Option Nat) := []
  /-- The 1,024 cells, by cell number (05 R123). -/
  cells : Tab Cell := []
  /-- The four feed paths (05 R135). -/
  feeds : Tab Feed := []
deriving DecidableEq, Repr, Inhabited

/-- State of one running-statistics row (08 R205). -/
structure RunRow where
  m : Word := 0xFF800000
  p : Word := 0xFF800000
  l : Word := 0
  c : Word := 0x3F800000
deriving DecidableEq, Repr, Inhabited

/-- An operand of the vector engine (08 R209, R210). -/
inductive VOperand where
  | none
  | mem (l : Layout)
  | bale (l : Layout)
  | reg (v : Nat)
deriving DecidableEq, Repr, Inhabited

/-- A run descriptor as latched (08 Table 5). -/
structure RunDesc where
  ins : List VOperand := []
  outs : List VOperand := []
  count : Nat := 0
  map : Nat := 0
  mxred : Bool := false
  nb : Nat := 1
  rows : Nat := 0
  cols : Nat := 0
  pmaskV : Bool := false
  /-- The privileged-column bitmap, column n in bit n. -/
  pmask : Nat := 0
deriving DecidableEq, Repr, Inhabited

/-- An element in its beat: number, row, column and slots t0 to t3 (08 R196). -/
structure Lane where
  e : Nat
  row : Nat
  col : Nat
  t : List Word
deriving DecidableEq, Repr, Inhabited

/-- A beat in the chain (08 R214): the a-cycles since it entered, its elements, its bale, and what it has stored and will land. -/
structure VBeat where
  age : Nat := 0
  ls : List Lane
  bale : Option QBale := none
  wr : List (Nat × List Byte) := []
  lanes : List (Nat × Word) := []
deriving DecidableEq, Repr, Inhabited

/-- A RUN or PROG in flight. -/
structure VRun where
  id : Nat
  prog : List Word
  rd : RunDesc
  scal : Dword
  /-- Elements whose beats have entered, and those whose source lets them enter: all, or those of the bales read. -/
  done : Nat
  avail : Nat
  /-- The bale whose elements enter. -/
  bale : Option QBale := none
  /-- a-cycles before the next beat may enter. -/
  wait : Nat
  /-- Beats in the chain, oldest first. -/
  beats : List VBeat := []
  /-- Accumulators of RED micro-ops, by micro-op × 64 + lane; none where nothing was folded. -/
  red : Tab (Option Word)
  /-- Rows that RUNM has touched in this operation. -/
  touched : Tab Bool
  stepField : BitVec 48
deriving DecidableEq, Repr, Inhabited

/-- The vector engine (08). -/
structure Vec where
  /-- Lanes by register × 64 + lane. -/
  v : Tab Word := []
  runm : Tab RunRow := []
  /-- RUN and PROG operations in flight, oldest first. -/
  runs : List VRun := []
  derr : Bool := false
  derrAddr : Addr := 0
  derrCause : BitVec 4 := 0
  derrFn : BitVec 4 := 0
  derrPreset : BitVec 4 := 0
  derrUop : BitVec 4 := 0
  beats : Word := 0
  frzArb : Word := 0
  bqWait : Word := 0
  dt2Extra : Word := 0
  ops : Word := 0
  serWait : Word := 0
  vselReg : BitVec 5 := 0
  vselLane : BitVec 6 := 0
  rmsel : Byte := 0
deriving DecidableEq, Repr, Inhabited

/-- The norm token (10 R253). -/
structure NormTok where
  sq : Word := 0
  nf : Bool := false
  min : Word := 0
  max : Word := 0
  norm : Word := 0
  c : Word := 0
deriving DecidableEq, Repr, Inhabited

/-- Group constants of a step (10 R247): η, λ, β1, β2, a1, a2, k1, k2. -/
structure GroupVal where
  v : List Word := []
deriving DecidableEq, Repr, Inhabited

/-- What FAC.STEP latches (10 R245). -/
structure StepLatch where
  rule : Nat := 0
  skewOk : Bool := false
  groupsM1 : Nat := 0
  clipEn : Bool := false
  schedReg : Nat := 0
  schedOff : Nat := 0
  clipMax : Word := 0
  normEps : Word := 0
  updEps : Word := 0
  l : Byte := 0
  n : Word := 0
  wrapped : Bool := false
  groups : List GroupVal := []
deriving DecidableEq, Repr, Inhabited

/-- Factor state of one context (10 Table 1). -/
structure FacCtx where
  step : Word := 0
  ver : Word := 0
  wrapped : Bool := false
  rollok : Bool := false
  /-- 0 IDLE, 1 OPEN, 2 PASS1, 3 TOKEN, 4 PASS2, 5 SKIPPED. -/
  st : BitVec 3 := 0
  lanes : Tab Word := []
  partNf : Bool := false
  q : Nat := 0
  tok : NormTok := {}
  lat : StepLatch := {}
  skip : BitVec 2 := 0
deriving DecidableEq, Repr, Inhabited

/-- The Factor (10). -/
structure Fac where
  ctxs : Tab FacCtx := []
  derr : Bool := false
  schederr : Bool := false
  p2nonfin : Bool := false
  rbrej : Bool := false
  /-- The latest token and the context that latched it. -/
  tok : NormTok := {}
  tokCtx : BitVec 2 := 0
  derrAddr : Addr := 0
  derrCause : BitVec 4 := 0
  derrFn : BitVec 3 := 0
  params : Dword := 0
  skips : Word := 0
  commits : Word := 0
  frzArb : Word := 0
  gselGroup : Byte := 0
  gselItem : BitVec 3 := 0
  /-- Schedule blocks that have landed for the FAC.STEP in flight, by group: bytes 0 to 1,023. -/
  sched : Tab (List Byte) := []
  /-- SYNC_NRM_V, _SQ, _NF and _STEP as last driven (R251). -/
  nrmV : Bool := false
  nrmSq : Word := 0
  nrmNf : Bool := false
  nrmStep : Word := 0
  /-- The FAC.COMMIT in flight: its context, and whether the step is skipped. -/
  committing : Option (BitVec 2 × Bool) := none
deriving DecidableEq, Repr, Inhabited

/-- State of a stash entry (09 R221). -/
inductive StSt where
  | empty
  | lcl
  | depot
  | dropped
deriving DecidableEq, Repr, Inhabited

/-- One stash entry (09 R221). -/
structure StEnt where
  st : StSt := .empty
  size : BitVec 14 := 0
  line : Nat := 0
  elig : Bool := false
  pinned : Bool := false
  dcopy : Bool := false
  doff : Nat := 0
  mb : Half := 0
  rows : Nat := 0
  cols : Nat := 0
  linear : Bool := false
  red : Bool := false
  kind : Nat := 0
  fmt : Nat := 0
deriving DecidableEq, Repr, Inhabited

/-- A GET whose depot blocks have not all landed: where they go. -/
structure SthRead where
  id : Nat
  ent : Nat
  /-- Destination layout, or none in place. -/
  dst : Option Layout
  data : List (Nat × List Byte) := []
  left : Nat
  /-- Line at which an entry read back in place becomes LOCAL. -/
  line : Nat := 0
  /-- Step field sampled at dispatch (11 R266). -/
  stepField : BitVec 48
deriving DecidableEq, Repr, Inhabited

/-- The stash mover (09). -/
structure Sth where
  ents : Tab StEnt := []
  /-- IDs of LOCAL entries, oldest placement first (R224). -/
  order : List Nat := []
  dptr : Word := 0
  err : Bool := false
  errCause : BitVec 4 := 0
  errFn : BitVec 3 := 0
  errId : BitVec 10 := 0
  hwm : BitVec 14 := 0
  spills : Word := 0
  drops : Word := 0
  dropget : Word := 0
  dblk : Word := 0
  fullCnt : Word := 0
  mbmax : BitVec 25 := 0x1000000
  mbpeak : BitVec 25 := 0
  esel : BitVec 10 := 0
  rd : Option SthRead := none
  /-- MEM_STH_CTRL_CLEAR was written and waits for depot transfers (R228). -/
  clearPend : Bool := false
deriving DecidableEq, Repr, Inhabited

/-- A journal unit: field and the bytes of its identity and data (11 R268). -/
structure JUnit where
  field : BitVec 2
  bytes : List Byte
deriving DecidableEq, Repr, Inhabited

/-- A finished record that waits for a zeroisation: its stage, epoch and digests (11 R271; 07 R193). -/
structure JRec where
  stage : Dword
  epoch : Word
  digests : List Dword
deriving DecidableEq, Repr, Inhabited

/-- The journal (11). -/
structure Jrnl where
  /-- Units credited at the next arrival, at the next arrival with CLOSE = 1, at the next release, and to the stage (R270). -/
  toArr : List JUnit := []
  toClose : List JUnit := []
  toRel : List JUnit := []
  cred : List JUnit := []
  copyBusy : Bool := false
  rparm : Bool := false
  rpact : Bool := false
  rpdiv : Bool := false
  rpdone : Bool := false
  rprej : Bool := false
  copyerr : Bool := false
  wstep : Bool := false
  stopdiv : Bool := false
  /-- A difference was found in the replay that runs. -/
  rpHad : Bool := false
  last : Dword := 0
  lastEpoch : Word := 0
  count : Word := 0
  step : Dword := 0
  commit : Dword := 0
  rpEnd : Dword := 0
  rpStage : Dword := 0
  rpField : BitVec 4 := 0
  rpNdiv : Word := 0
  rpUncmp : Word := 0
  /-- JRNL_RP_NEW of fields 0 to 3. -/
  rpNew : Tab Dword := []
  copyPtr : Word := 0
  /-- Block at which the next copy begins: past those that are sent (R273). -/
  copyNext : Nat := 0
  copies : Word := 0
  wsel : Half := 0
  /-- Stages of the records since the last copy, and the epoch of the first (R273). -/
  sinceCopy : List Dword := []
  firstEpoch : Word := 0
  /-- Ring slots of the records of each copy that is sent, by job number, and the blocks before its first. -/
  copySlots : Tab (List Nat) := []
  /-- No record is written for the stage that runs: comparison ended in it, or the ring changed (R272, R277). -/
  skip : Bool := false
  /-- Records that wait for a zeroisation, oldest first. -/
  recs : List JRec := []
deriving DecidableEq, Repr, Inhabited

/-- An itinerary entry as loaded (13 Table 2), with its SID translated. -/
structure XEnt where
  off : Nat
  beats : Nat
  recv : Bool
  mcast : Bool
  /-- Physical object signalled after the last beat. -/
  syn : Option Byte
  addr : Nat
  route : BitVec 20
  sent : BitVec 10
  /-- Entry number in the image. -/
  num : BitVec 10
  /-- The entry was written through XCH_TCTRL_WRITE (13 R316). -/
  test : Bool := false
  /-- It was written into the active bank when its OFFSET had passed, and does not start (R316). -/
  gone : Bool := false
deriving DecidableEq, Repr, Inhabited

/-- Contents of a slot-store bank (13 R310). -/
inductive BankSt where
  | empty
  | ready
  | failed
deriving DecidableEq, Repr, Inhabited

structure XBank where
  st : BankSt := .empty
  ents : List XEnt := []
  image : BitVec 3 := 0
  exchLen : Word := 0
  next : BitVec 3 := 0
  selV : Bool := false
  selAddr : Addr := 0
deriving DecidableEq, Repr, Inhabited

/-- What the exchange phase does (13 R315, R320). -/
inductive XRun where
  /-- No exchange phase runs, and none has been decided. -/
  | off
  /-- Entries of the active bank run. -/
  | run
  /-- No entry runs, and beats are failures. -/
  | bare
  /-- The empty phase of a switch release: beats are discarded. -/
  | switch
deriving DecidableEq, Repr, Inhabited

/-- A beat on XCH_OUT (17 R404). -/
structure XOut where
  data : BitVec 256
  src : BitVec 20
  ent : BitVec 10
  beat : Half
  rt : BitVec 20
  mc : Bool
deriving DecidableEq, Repr, Inhabited

/-- The exchange port (13 R308 to R321). -/
structure Xch where
  bank0 : XBank := {}
  bank1 : XBank := {}
  act : Bool := false
  /-- The load that runs: context and image (R311). -/
  load : Option (BitVec 2 × BitVec 3) := none
  /-- EXCH_LEN, descriptor word and CORE_TILE_COUNT taken when the load started (R57; 16 Table 7). -/
  loadLen : Word := 0
  loadDesc : Word := 0
  loadTiles : BitVec 21 := 0
  /-- The context's 16 words of the live ITIN section, for a load whose selector word is yet to be read (R311). -/
  loadItin : List Word := []
  /-- The load waits for its selector word, which lies on a reserved bank (R314). -/
  loadSel : Option Addr := none
  /-- A load whose image index the selector word gives failed to be read. -/
  loadBad : Bool := false
  resume : Tab (BitVec 3) := []
  loadCyc : Word := 0
  lerr : Bool := false
  lerrCause : BitVec 3 := 0
  lerrEnt : BitVec 10 := 0
  lerrImg : BitVec 3 := 0
  rerr : Bool := false
  rerrCause : BitVec 2 := 0
  rerrEnt : BitVec 10 := 0
  rerrOff : Word := 0
  rerrSrc : BitVec 20 := 0
  rerrSent : BitVec 10 := 0
  rerrBeat : Half := 0
  coll : Bool := false
  collOff : Word := 0
  late : Bool := false
  trej : Bool := false
  beatsOut : Word := 0
  beatsIn : Word := 0
  rerrs : Word := 0
  inDisc : Word := 0
  skips : Word := 0
  loads : Word := 0
  testEn : Bool := false
  tselEnt : BitVec 10 := 0
  tselBank : Bool := false
  tdata : Tab Word := []
  run : XRun := .off
  /-- EXCH_LEN of the phase that runs. -/
  phaseLen : Word := 0
  /-- A receive check has failed in this stage (R319). -/
  failed : Bool := false
  /-- First offset of the phase that no c-cycle so far was. -/
  seen : Nat := 0
  /-- Faults of c-cycles that are not over, by offset and code: SLOT_UE of an entry, and the collision of a beat with the next c-cycle's read (R321; 16 R388, R394). -/
  due : List (Nat × Nat) := []
  /-- Entries of the active bank that have started, as latched at beat 0, by entry number (R316). -/
  latched : Tab (Option XEnt) := []
  /-- Beat that each entry does next. -/
  nextBeat : Tab Nat := []
  /-- Errors of the slots, by bank × 1024 + entry (16 R388). -/
  slotErr : Tab EccErr := []
  out : Option XOut := none
deriving DecidableEq, Repr, Inhabited

/-- Users of the stream port (13 R324). -/
inductive StrUser where
  | str
  | sth
  | fac
  | jrnl
deriving DecidableEq, Repr, Inhabited

/-- What a stream job moves. -/
inductive StrKind where
  | get
  | put
  | rput
deriving DecidableEq, Repr, Inhabited

/-- A stream transfer in progress (13 R322, R327). -/
structure StrJob where
  /-- Operation number of a STR operation, or the user's own. -/
  id : Nat
  user : StrUser
  kind : StrKind
  ctx : BitVec 2
  region : BitVec 6
  /-- REGION entry values latched at dispatch. -/
  base : Dword
  stepBound : Bool
  /-- First block in the region, local address, blocks. -/
  blk : Nat
  addr : Nat
  n : Nat
  /-- Data of a write that is taken at dispatch (depot, journal); else read from local memory. -/
  data : Option (List Byte) := none
  /-- Attached SID of an RPUT (12 R299). -/
  att : Option (BitVec 6) := none
  issued : Nat := 0
  landed : Nat := 0
  dead : Bool := false
deriving DecidableEq, Repr, Inhabited

/-- An outstanding read: its tag, job and block (13 R327). -/
structure StrRead where
  tag : BitVec 6
  job : Nat
  i : Nat
  ctxIv : BitVec 2
  epoch : BitVec 24
  block : Dword
  retired : Bool
  /-- Context, region and user of the operation, for the checks of its block once it is abandoned (R323, R329). -/
  ctx : BitVec 2
  region : BitVec 6
  user : StrUser
  /-- A stream stop has come since: its data is discarded (15 R385, log entry 91). -/
  lost : Bool := false
deriving DecidableEq, Repr, Inhabited

/-- An unacknowledged write: its tag, job, and whether it is a memory block. -/
structure StrWrite where
  tag : BitVec 6
  job : Nat
  put : Bool
deriving DecidableEq, Repr, Inhabited

/-- A written packet of an attached put: its writer's context, region and epoch, and its block (12 R299; 13 Table 10). -/
structure AttPkt where
  writer : BitVec 32
  block : Word
deriving DecidableEq, Repr, Inhabited

/-- An attached put whose last packet has been written: its last block, its packets and its SID. -/
structure AttPut where
  writer : BitVec 32
  last : Word
  count : BitVec 12
  sid : BitVec 6
deriving DecidableEq, Repr, Inhabited

/-- A packet driven on STR_OUT. -/
structure StrOut where
  h0 : Dword
  h1 : Dword
  h2 : Dword
  data : BitVec 4096
  tag : BitVec 128
deriving DecidableEq, Repr, Inhabited

/-- The stream port (13 R322 to R329). -/
structure Str where
  cred : Nat := 0
  jobs : List StrJob := []
  reads : List StrRead := []
  writes : List StrWrite := []
  /-- ACK packets owed: H0 of each. -/
  acks : List Dword := []
  rr : BitVec 2 := 0
  inbuf : Nat := 4
  /-- Credits of put buffers that are still to be pulsed, and STR_IN_CRED (R326). -/
  inCred : Nat := 4
  inPulse : Bool := false
  /-- Inbound puts that wait for a zeroisation (R329). -/
  waiting : List StrPacket := []
  /-- Packets of attached puts that are written, and puts whose last packet is among them, whose signals are not given yet (12 R299). -/
  attPkts : List AttPkt := []
  attPuts : List AttPut := []
  out : Option StrOut := none
  derr : Bool := false
  derrCause : BitVec 3 := 0
  derrFn : BitVec 2 := 0
  derrRegion : BitVec 6 := 0
  derrCtx : BitVec 2 := 0
  derrUser : BitVec 2 := 0
  resp : Bool := false
  respKind : BitVec 4 := 0
  respStatus : BitVec 2 := 0
  respTag : BitVec 6 := 0
  rdBlk : Word := 0
  wrBlk : Word := 0
  rpOut : Word := 0
  rpIn : Word := 0
  credWait : Word := 0
  tagWait : Word := 0
  nackIn : Word := 0
deriving DecidableEq, Repr, Inhabited

/-- State of a held message (13 R331). -/
inductive MsgSt where
  | held
  | sent
  | retry
deriving DecidableEq, Repr, Inhabited

structure PstMsg where
  id : Nat
  target : BitVec 20
  queue : BitVec 3
  payload : BitVec 512
  st : MsgSt
deriving DecidableEq, Repr, Inhabited

/-- A transfer on POST_OUT: header and, for a message, its payload. -/
structure PstOut where
  header : Dword
  payload : Option (BitVec 512)
deriving DecidableEq, Repr, Inhabited

/-- The post engine (13 R330 to R335). -/
structure Pst where
  msgs : List PstMsg := []
  cred : Nat := 0
  out : Option PstOut := none
  derr : Bool := false
  /-- The MBOX area changed at a commit and its status words are being zeroed (R334). -/
  mbinit : Bool := false
  /-- They are still to be written: within 8 c-cycles, when memory can be reached (R334; 07 R191, R193). -/
  mbclear : Bool := false
  /-- The status words are still to be read as 0 after a core reset that kept the memory (R334). -/
  fresh : Bool := false
  /-- Credits of the message buffer that are still to be pulsed, and POST_IN_CRED (17 R413). -/
  inCred : Nat := 1
  inPulse : Bool := false
  /-- Inbound messages that wait for memory, oldest first: header and payload. -/
  waiting : List (Dword × BitVec 512) := []
  derrCause : BitVec 3 := 0
  derrFn : BitVec 2 := 0
  derrQueue : BitVec 3 := 0
  sent : Word := 0
  closed : Word := 0
  resends : Word := 0
  recv : Word := 0
  inFull : Word := 0
  inClosed : Word := 0
deriving DecidableEq, Repr, Inhabited

/-- One row of the tariff table (14 R347). -/
structure Tariff where
  e : Word := 0
  d : Word := 0
  n : Byte := 0
deriving DecidableEq, Repr, Inhabited

/-- A throttle reason (14 R351). -/
structure Reason where
  dur : Dword := 0
  evt : Dword := 0
  /-- Active now, and active on some reference edge of the running tick. -/
  on : Bool := false
  seen : Bool := false
deriving DecidableEq, Repr, Inhabited

/-- A pending phase (14 R346, R349). -/
structure PhasePend where
  phase : BitVec 6
  /-- Divider count at which it begins. -/
  start : Nat
  /-- The phase is late if it begins in the running window (R349). -/
  lateNow : Bool
  /-- Its PHASE executed in the running window after the next window's request was fixed. -/
  afterReq : Bool
deriving DecidableEq, Repr, Inhabited

/-- The governor (14). -/
structure Gov where
  allowCur : Half := 0
  debt : Half := 0
  allowDflt : Half := 0x1068
  reqLast : Half := 0
  /-- PWR_REQ_V: a request is being driven (R348). -/
  reqV : Bool := false
  /-- A window has begun since the core reset; before, the default allowance applies (R338). -/
  winAny : Bool := false
  phaseCur : BitVec 6 := 0
  pend : Option PhasePend := none
  allowMiss : Word := 0
  /-- Modelled energy since reset in units of 2^-16 fJ (R340, R341). -/
  energy : Nat := 0
  noallow : Bool := false
  therm : BitVec 2 := 0
  markArm : Bool := false
  slew : BitVec 7 := 8
  cap2 : BitVec 7 := 0x20
  cap3 : BitVec 7 := 8
  dbgMask : BitVec 7 := 0x40
  dbgEn : Bool := false
  droopThr : BitVec 4 := 4
  droopEn : Bool := true
  vreqCur : BitVec 6 := 10
  vreqNxt : BitVec 6 := 10
  mmRead : Byte := 0
  mmOp : BitVec 3 := 0
  mmInt : Word := 0x000F4240
  mmLow : Byte := 4
  mmHigh : Byte := 0x0C
  mmLower : Word := 0x00015180
  /-- GOV_COEF, where written; unlisted coefficients hold their reset values (Table 3). -/
  coef : Tab (Option Word) := []
  mB : Nat := 64
  mX : Nat := 64
  /-- Divider count (R342). -/
  acyc : Nat := 0
  /-- Ticks since the window began, ticks since the last strobe, energy at its start, whether the governor began it. -/
  winTick : Nat := 0
  noStrobe : Nat := 0
  winEnergy : Nat := 0
  winOwn : Bool := false
  /-- The part of a tick that has gone since the last tick or window start, in 6,000ths (R343). -/
  tickGone : Nat := 0
  /-- The window's request is fixed (R348). -/
  reqFixed : Bool := false
  /-- A request was fixed for the running window. -/
  curReq : Bool := false
  /-- Control interval: energies at its start, and pd as a fraction in units of 2^-16 fJ per a-cycle (R343). -/
  ivEnergy : Nat := 0
  ivDrover : Nat := 0
  pdNum : Nat := 0
  pdDen : Nat := 1
  /-- Drover energy since reset in units of 2^-16 fJ. -/
  drover : Nat := 0
  /-- Current phase: divider count at its start, normalised energy since then in fJ, late (R347, R349). -/
  phStart : Nat := 0
  phEnergy : Nat := 0
  late : Bool := false
  /-- HINT_LATE stays over the next window's start. -/
  lateHold : Bool := false
  tariff : Tab Tariff := []
  rsn : Tab Reason := []
  markEnergy : Dword := 0
  markPticks : Dword := 0
  /-- Durations (2i) and counts (2i + 1) of the reasons at the marker. -/
  markRsn : Tab Dword := []
  /-- Consecutive readings below the low and at or above the high threshold, and their point (R353). -/
  runLow : Nat := 0
  runHigh : Nat := 0
  runOp : BitVec 3 := 0
deriving DecidableEq, Repr, Inhabited

/-- The ledger (14), in VDD_AO. -/
structure Ldg where
  valid : Bool := false
  snaprdy : Bool := false
  snaprej : Bool := false
  rsterr : Bool := false
  rsterrCause : BitVec 3 := 0
  auto_ : Word := 0
  time : Dword := 0
  wallofs : Dword := 0
  pticks : Dword := 0
  /-- LDG_ACYC of OP-A to OP-E. -/
  acyc : Tab Dword := []
  mac : Dword := 0
  /-- Products below 2^16 not yet counted. -/
  macRem : Nat := 0
  ce : Dword := 0
  thex : Dword := 0
  mmrd : Dword := 0
  mmlow : Dword := 0
  /-- Words of the snapshot and restore buffers. -/
  snap : Tab Word := []
  rbuf : Tab Word := []
  seq : Word := 0
  /-- A snapshot was requested and the next tick captures it. -/
  snapReq : Bool := false
  /-- LDG_SV_REQ, the next word to send, whether the first was sent. -/
  svReq : Bool := false
  svIdx : Nat := 0
  savebusy : Bool := false
  /-- LDG_SV_D of the last word sent. -/
  svD : Word := 0
  /-- LDG_SV_V: a word is being driven. -/
  svV : Bool := false
  /-- Trims of OP-A to OP-E, signed (R353). -/
  trim : Tab (BitVec 5) := []
  lastRead : Byte := 0
deriving DecidableEq, Repr, Inhabited

/-- The state of the block. -/
structure State where
  clk : Clk := {}
  core : Core := {}
  man : Man := {}
  mem : Mem := {}
  syn : Syn := {}
  /-- Issue queues ARR, VEC, FAC, WGH, STR, PST, STH, keys 0 to 6 (R81). -/
  q : Tab EngQ := []
  /-- Number given to the next operation that dispatches. -/
  opId : Nat := 0
  wgh : Wgh := {}
  arr : Arr := {}
  vec : Vec := {}
  fac : Fac := {}
  sth : Sth := {}
  jrnl : Jrnl := {}
  xch : Xch := {}
  str : Str := {}
  pst : Pst := {}
  gov : Gov := {}
  ldg : Ldg := {}
  flt : Flt := {}
  sec : Sec := {}
  dbg : Dbg := {}
  bus : Buses := {}
  pin : Pins := {}
  dft : Dft := {}
  /-- The model's own: the counter that free values are applied to (log entry 4). -/
  free : Nat := 0
  /-- Commands that wait, first in, first out. -/
  pending : List Instr := []
deriving DecidableEq, Repr, Inhabited

/-- The machine right after AO_RST_N and CORE_RST_N have risen: the power-up zeroisation runs, SYNC_ARR is driven with zone 3 and ISO_EN is 1 (17 R416, R423, R425). -/
def State.reset : State := {}

end Sys2Proof.Machine
end

