-- ==== Sys2Proof/Machine/Ops.lean ====
section
/-! DEFINITION. The shared operations: configuration views, partitions, local memory with its ECC, faults, sync objects, scalar registers, issue queues, reload, zeroisation and stream stop. -/

namespace Sys2Proof.Machine

/-- What a command answers. -/
abbrev Res := Host.Outcome State Fault Refusal

/-- Answer t where the command's event can happen, and the state as it stands where it cannot (log entry 1). -/
def whenOn (c : Bool) (s t : State) : Res := .next (if c then t else s)

/-- Requester codes of Table 4 of chapter 07, and the two ports. -/
def rqFETCH : Nat := 0
def rqDATA : Nat := 1
def rqDRAIN : Nat := 6
def rqVRD : Nat := 7
def rqVWR : Nat := 8
def rqFAC : Nat := 9
def rqSTR : Nat := 10
def rqSTH : Nat := 11
def rqITIN : Nat := 12
def rqPST : Nat := 13
def rqOBT : Nat := 14
def rqJRNL : Nat := 15
def rqSCRUB : Nat := 16
def rqXCH : Nat := 17
def rqDBG : Nat := 18

/-- The lowest cause code of the checks that fail, 0 when none does (03 R434). -/
def lowest (l : List (Bool × Nat)) : Nat :=
  ((l.filter (·.1)).map (·.2)).foldl (fun m c => if m = 0 ∨ c < m then c else m) 0

/-! Updates of one unit. -/

def State.modClk (s : State) (f : Clk → Clk) : State := { s with clk := f s.clk }
def State.modCore (s : State) (f : Core → Core) : State := { s with core := f s.core }
def State.modMan (s : State) (f : Man → Man) : State := { s with man := f s.man }
def State.modMem (s : State) (f : Mem → Mem) : State := { s with mem := f s.mem }
def State.modSyn (s : State) (f : Syn → Syn) : State := { s with syn := f s.syn }
def State.modWgh (s : State) (f : Wgh → Wgh) : State := { s with wgh := f s.wgh }
def State.modArr (s : State) (f : Arr → Arr) : State := { s with arr := f s.arr }
def State.modVec (s : State) (f : Vec → Vec) : State := { s with vec := f s.vec }
def State.modFac (s : State) (f : Fac → Fac) : State := { s with fac := f s.fac }
def State.modSth (s : State) (f : Sth → Sth) : State := { s with sth := f s.sth }
def State.modJrnl (s : State) (f : Jrnl → Jrnl) : State := { s with jrnl := f s.jrnl }
def State.modXch (s : State) (f : Xch → Xch) : State := { s with xch := f s.xch }
def State.modStr (s : State) (f : Str → Str) : State := { s with str := f s.str }
def State.modPst (s : State) (f : Pst → Pst) : State := { s with pst := f s.pst }
def State.modGov (s : State) (f : Gov → Gov) : State := { s with gov := f s.gov }
def State.modLdg (s : State) (f : Ldg → Ldg) : State := { s with ldg := f s.ldg }
def State.modFlt (s : State) (f : Flt → Flt) : State := { s with flt := f s.flt }
def State.modSec (s : State) (f : Sec → Sec) : State := { s with sec := f s.sec }
def State.modDbg (s : State) (f : Dbg → Dbg) : State := { s with dbg := f s.dbg }
def State.modBus (s : State) (f : Buses → Buses) : State := { s with bus := f s.bus }
def State.modDft (s : State) (f : Dft → Dft) : State := { s with dft := f s.dft }

/-- The units on the root clock run: no core reset, no fatal fault (R391), no SUSPEND (R337). -/
def unitsOn (s : State) : Bool := s.pin.coreRst && !s.flt.fatal && !s.clk.suspend

/-- Register accesses are served: no core reset and no SUSPEND (17 R409). A tile in the fatal state still answers its buses (log entry 14). -/
def busOn (s : State) : Bool := s.pin.coreRst && !s.clk.suspend

/-! Register accesses (17 R405 to R409). -/

def busOf (s : State) (b : Bus) : BusSt :=
  match b with
  | .mgmt => s.bus.mgmt
  | .dbg => s.bus.dbg

def modBusOf (s : State) (b : Bus) (f : BusSt → BusSt) : State :=
  match b with
  | .mgmt => s.modBus (fun x => { x with mgmt := f x.mgmt })
  | .dbg => s.modBus (fun x => { x with dbg := f x.dbg })

/-- The access waits on its bus, behind those that wait already. -/
def queueAcc (s : State) (b : Bus) (i : Instr) : State := modBusOf s b (fun x => { x with waiting := x.waiting ++ [i] })

/-- A register access on bus b comes to t, or waits: while the core cannot serve it, or behind an access of its bus that waits (R406, R409). An access in the LDG block is served in SUSPEND too; with CORE_RST_N low it stays pending until the reset ends. -/
def regAcc (b : Bus) (ldg : Bool) (i : Instr) (s t : State) : State :=
  if !(if ldg then s.pin.coreRst else busOn s) || !(busOf s b).waiting.isEmpty then queueAcc s b i
  else t

/-- A command that is a write through the management bus. -/
def regCmd (i : Instr) (s t : State) : Res := .next (regAcc .mgmt false i s t)

/-- The same in the LDG block. -/
def ldgCmd (i : Instr) (s t : State) : Res := .next (regAcc .mgmt true i s t)

/-! Configuration views (02 R32, R34). While no manifest is live every live field is 0 (15 R363). -/

/-- Byte of the live copy at a store offset. -/
def liveByte (s : State) (o : Nat) : Byte := if s.man.isLive then tabGet 0 s.man.live o else 0

/-- Little-endian number of n bytes of the live copy. -/
def cfg (s : State) (o n : Nat) : Nat := leNat ((List.range n).map (fun i => liveByte s (o + i)))

/-- Bits of a live 32-bit field. -/
def cfgBits (s : State) (o hi lo : Nat) : Nat := bitsOf (cfg s o 4) hi lo

/-- Store offsets of the sections (02 Table 1). -/
def oPART : Nat := 0x0000
def oFOLD : Nat := 0x0040
def oCHAIN : Nat := 0x0240
def oFMT : Nat := 0x0AC0
def oWEIGH : Nat := 0x0B00
def oCTX : Nat := 0x0C00
def oITIN : Nat := 0x0E00
def oREGION : Nat := 0x0F00
def oFACTOR : Nat := 0x1F00
def oGOV : Nat := 0x1F40
def oSEC : Nat := 0x2040
def oJOURNAL : Nat := 0x2080
def cfgSize : Nat := 0x20C0

/-- Partitions by PART index (02 R39). -/
def pCODE : Nat := 0
def pDATA : Nat := 1
def pSTASH : Nat := 2
def pMBOX : Nat := 3
def pFE : Nat := 4
def pJRNL : Nat := 5

def partBase (s : State) (p : Nat) : Nat := 1024 * cfg s (oPART + 4 * p) 2
def partSize (s : State) (p : Nat) : Nat := 1024 * cfg s (oPART + 4 * p + 2) 2

/-- First address above local memory (R171). -/
def memTop : Nat := 0x180000

/-- Every byte from a to e - 1 lies in one of the intervals. -/
def covered (ivs : List (Nat × Nat)) : Nat → Nat → Nat → Bool
  | 0, a, e => decide (e ≤ a)
  | k + 1, a, e =>
    if e ≤ a then true
    else
      match ivs.find? (fun p => decide (p.1 ≤ a) && decide (a < p.2)) with
      | none => false
      | some p => covered ivs k p.2 e

/-- The partition check of R174: n bytes at a lie below 0x18_0000 and in the partitions ps. -/
def permits (s : State) (ps : List Nat) (a n : Nat) : Bool :=
  decide (a + n ≤ memTop) &&
    covered (ps.map (fun p => (partBase s p, partBase s p + partSize s p))) (ps.length + 1) a (a + n)

/-- Every extent passes the check. -/
def permitsAll (s : State) (ps : List Nat) (es : List (Nat × Nat)) : Bool :=
  es.all (fun e => permits s ps e.1 e.2)

/-- Context c exists in the live CTX section. -/
def ctxPresent (s : State) (c : Nat) : Bool := decide (bitsOf (cfg s (oCTX + 80 * c + 0x48) 4) 0 0 = 1)
def ctxAttached (s : State) (c : Nat) : Bool := decide (bitsOf (cfg s (oCTX + 80 * c + 0x48) 4) 1 1 = 1)

/-- Logical sync ID i of context c to its physical object (12 R283). -/
def mapId (s : State) (c i : Nat) : Option Byte :=
  if (cfg s (oCTX + 80 * c) 8).testBit i then some (liveByte s (oCTX + 80 * c + 8 + i)) else none

/-- Attached ordering is in force for context c (12 R298). -/
def attachedOn (s : State) (c : Nat) : Bool :=
  ctxAttached s c && (decide (s.sec.state = 0) || decide (cfgBits s oSEC 2 2 = 1))

/-- Format code of an operand class, and its SR bit (02 R39). -/
def classFmt (s : State) (k : Nat) : Nat := bitsOf (liveByte s (oFMT + k)).toNat 3 0
def classSr (s : State) (k : Nat) : Bool := decide (bitsOf (liveByte s (oFMT + k)).toNat 4 4 = 1)

/-! Contexts and scalar registers (03 R64, R72). -/

def ctxOf (s : State) (c : BitVec 2) : Ctx := tabGet {} s.core.ctxs c.toNat
def setCtx (s : State) (c : BitVec 2) (x : Ctx) : State :=
  s.modCore (fun k => { k with ctxs := tabSet {} k.ctxs c.toNat x })
def modCtx (s : State) (c : BitVec 2) (f : Ctx → Ctx) : State := setCtx s c (f (ctxOf s c))

/-- The running context. -/
def curCtx (s : State) : Ctx := ctxOf s s.core.cur

/-- Value of a scalar register; s0 reads 0. -/
def Ctx.reg (x : Ctx) (r : SReg) : Dword := if r = 0 then 0 else tabGet 0 x.regs r.toNat
/-- Write a scalar register; writes to s0 are discarded. -/
def Ctx.setReg (x : Ctx) (r : SReg) (v : Dword) : Ctx :=
  if r = 0 then x else { x with regs := tabSet 0 x.regs r.toNat v }

/-- Register r of the running context. -/
def rd (s : State) (r : SReg) : Dword := (curCtx s).reg r
/-- Write register r of context c. -/
def wrReg (s : State) (c : BitVec 2) (r : SReg) (v : Dword) : State := modCtx s c (fun x => x.setReg r v)

/-- A context runs: the control core is not idle and the tile does not hold (R54, R69). -/
def ctxRuns (s : State) : Bool := !decide (s.core.mode = .idle) && !s.man.hold

/-! The fault unit (16 R389 to R394). -/

/-- A fault record (R393). -/
def faultRec (s : State) (code cls unit : Nat) (addr : Addr) (detail : Nat) : FltRec where
  w0 := BitVec.ofNat 32 (code + cls * 256 + s.core.cur.toNat * 1024 + unit * 4096 + s.flt.seq.toNat * 65536)
  w1 := BitVec.ofNat 32 (addr.toNat + detail % 256 * 2 ^ 24)
  w2 := s.core.stage.setWidth 32
  w3 := s.ldg.time.setWidth 32

/-- Record a contained fault: the log, FLT_FIRST, CONT and the count. -/
def noteContained (s : State) (code unit : Nat) (addr : Addr) (detail : Nat) : State :=
  let r := faultRec s code 1 unit addr detail
  s.modFlt (fun f => { f with
    cont := true
    seq := f.seq + 1
    lovf := f.lovf || decide (16 ≤ f.log.length)
    log := (r :: f.log).take 16
    first := f.first.or (some r)
    cntCont := f.cntCont + 1 })

/-- The Factor's context c becomes IDLE and loses its partial and token (R389 step 2). -/
def facIdle (s : State) (c : BitVec 2) : State :=
  s.modFac (fun f => { f with ctxs := tabMod {} f.ctxs c.toNat (fun x =>
    { x with st := 0, lanes := [], partNf := false, q := 0, tok := {} }) })

/-- Two gatherings of one step: b is the newer. -/
def WAcc.join (a b : WAcc) : WAcc :=
  { amax := if a.amax.toNat < b.amax.toNat then b.amax else a.amax, nonfin := a.nonfin || b.nonfin
    cnt := a.cnt + b.cnt, fmt := if b.cnt = 0 then a.fmt else b.fmt }

/-- A WGH.STEP in flight is abandoned: it will retire without effect, and what was observed since it dispatched belongs to the step that it did not close (R389, 04 R121). DEDUCED, unsafe for MIXED: merging compares no formats, so an observation that was the first of its gathering sets no MIXED against the step's earlier one (R115; log entry 49). -/
def abandonStep (s : State) : State :=
  if s.wgh.stepping then
    s.modWgh (fun w =>
      let ws := (List.range 16).foldl (fun t k => tabMod {} t k (fun x => { x with acc := x.acc.join (tabGet {} w.acc2 k) })) w.w
      { w with w := ws, acc2 := [], stepping := false, tokNf := if w.tok then w.tokNf else w.stepTokNf, tok := w.tok || w.stepTok })
  else s

/-- Record a contained fault; while a context runs it halts at the next release (R389, R390). -/
def raise (s : State) (code unit : Nat) (addr : Addr) (detail : Nat) : State :=
  let t := noteContained s code unit addr detail
  if ctxRuns s then
    abandonStep (facIdle (t.modFlt (fun f => { f with pend := true, haltCtx := some s.core.cur })) s.core.cur)
  else t

/-- Record a mismatch: the tile is to stop, without a halt, while a context runs; else the fault is only logged (R390). -/
def raiseMismatch (s : State) (code unit : Nat) : State :=
  let t := noteContained s code unit 0 0
  if ctxRuns s then t.modFlt (fun f => { f with pend := true }) else t

/-- Fault codes (16 Table 2). -/
def fcILLEGAL : Nat := 0x10
def fcBOUNDS : Nat := 0x11
def fcMEMUE : Nat := 0x12
def fcZONE : Nat := 0x13
def fcEPOCH : Nat := 0x14
def fcMANAUTH : Nat := 0x15
def fcSTASHFULL : Nat := 0x16
def fcMBLONG : Nat := 0x17
def fcNORMSPLIT : Nat := 0x18
def fcSTEPSKEW : Nat := 0x19
def fcPINCONFLICT : Nat := 0x1A
def fcPARTOVF : Nat := 0x1B
def fcDEADLOCK : Nat := 0x1C
def fcJOURNALDIV : Nat := 0x1D
def fcXCHITIN : Nat := 0x1E
def fcXCHLATE : Nat := 0x1F
def fcXCHRECV : Nat := 0x20
def fcXCHCOLLIDE : Nat := 0x21
def fcSTRREFUSED : Nat := 0x22
def fcSTRRESP : Nat := 0x23
def fcEPOCHEXH : Nat := 0x24
def fcREGIONREWRITE : Nat := 0x25
def fcREGIONORDER : Nat := 0x26
def fcSECTAG : Nat := 0x27
def fcSECESC : Nat := 0x28

/-! The energy model (14 R336, R340). -/

/-- Energy scale of a voltage request in units of 2^-16: (V / 0.72 V)², rounded; the OP-E nominal value is the one that Table 8 of chapter 14 prints (log entry 35). -/
def scale16 (c : BitVec 6) : Nat :=
  if c = 10 then 0x9560
  else (2 * (500 + 5 * c.toNat) * (500 + 5 * c.toNat) * 65536 + 518400) / (2 * 518400)

/-- Reset values of Table 3, fJ. -/
def coefReset : Nat → Word
  | 0 => 480
  | 1 => 250
  | 2 => 130
  | 3 => 7680
  | 4 => 2400
  | 5 => 3000
  | 6 => 4000
  | 7 => 2000
  | 8 => 60000
  | 9 => 60000000
  | _ => 0

def coefOf (s : State) (k : Nat) : Nat := ((tabGet none s.gov.coef k).getD (coefReset k)).toNat

/-- n events of coefficient k are modelled (R340); the drovers' share and that of the phase in force are kept beside the total. -/
def spend (s : State) (k n : Nat) : State :=
  let e := n * coefOf s k
  s.modGov (fun g => { g with
    energy := g.energy + e * scale16 g.vreqCur
    drover := if k ≤ 3 then g.drover + e * scale16 g.vreqCur else g.drover
    phEnergy := g.phEnergy + e })

/-! Local memory (07 R171, R182 to R184, R191). -/

/-- Bank words that n bytes at a touch, and those of them that a write changes only in part of a codeword (R171, R172). -/
def wordsOf (a n : Nat) : Nat := if n = 0 then 0 else (a + n - 1) / 32 - a / 32 + 1
def partWords (a n : Nat) : Nat :=
  if n = 0 then 0
  else
    let f := decide (a % 8 ≠ 0)
    let l := decide ((a + n) % 8 ≠ 0)
    if f && l then (if a / 32 = (a + n - 1) / 32 then 1 else 2) else if f || l then 1 else 0

/-- Banks that n bytes at a touch (R171). -/
def banksOf (a n : Nat) : Nat :=
  if n = 0 then 0
  else if 128 ≤ n then
    (List.range 8).foldl (fun m q =>
      if decide (a / 196608 ≤ q) && decide (q ≤ (a + n - 1) / 196608) then m ||| 15 <<< (4 * q) else m) 0
  else
    (List.range 5).foldl (fun m i =>
      let x := min (a + 32 * i) (a + n - 1)
      m ||| 1 <<< (4 * (x / 196608) + x / 32 % 4)) 0

/-- A request to these bytes waits: a bank is reserved for the exchange phase (R191), or a zeroisation runs (R193). -/
def memWaits (s : State) (a n : Nat) : Bool :=
  s.mem.zeroing || (s.mem.xph && decide (banksOf a n &&& s.mem.xres.toNat ≠ 0))

/-- The debug port waits for a zeroisation only: a bank that is reserved serves it when the exchange port does not use it (R186 rule 2). -/
def dbgWaits (s : State) : Bool := s.mem.zeroing

/-! The bank arbiter (R186 to R188). Which requests meet on a bank on one c-cycle is timing that no command carries: what a meeting adds to the counters is free (log entry 85). -/

/-- ARB_BASE class of a requester (Table 4), and its base priority. -/
def arbClass (req : Nat) : Nat :=
  if req ≤ 1 then 0 else if req ≤ 6 then 1 else if req ≤ 8 then 2 else if req = 9 then 3 else if req ≤ 12 then 4
  else if req = 13 then 5 else if req ≤ 15 then 6 else 7
def arbBase (s : State) (req : Nat) : BitVec 4 :=
  BitVec.ofNat 4 (cfgBits s (oPART + 0x1C) (4 * arbClass req + 3) (4 * arbClass req))

def Arb.prioOf (a : Arb) (r : Nat) : BitVec 4 := tabGet 0 a.prio r

/-- Places from the pointer on to a requester, counting round from 16 to 0. -/
def Arb.turn (a : Arb) (r : Nat) : Nat := (r + 17 - a.ptr) % 17

/-- The request that rule 6 of R186 serves: the highest current priority, and of equal ones the first at or after the pointer. -/
def Arb.winner (a : Arb) : List Nat → Option Nat
  | [] => none
  | r :: t =>
    match a.winner t with
    | none => some r
    | some w =>
      if (a.prioOf w).toNat < (a.prioOf r).toNat ∨ (a.prioOf w = a.prioOf r ∧ a.turn r < a.turn w) then some r else some w

/-- A pending request that is not granted rises by 1, to 15 at most (R187). -/
def Arb.lose (a : Arb) (r : Nat) : Arb := { a with prio := tabMod 0 a.prio r (fun p => if p = 15 then p else p + 1) }

/-- One c-cycle of a free bank: the winner is served and returns to its base, the pointer moves behind it, and the others lose the round. -/
def Arb.round (base : Nat → BitVec 4) (a : Arb) (reqs : List Nat) : Arb :=
  match a.winner reqs with
  | none => a
  | some w =>
    let b := (reqs.filter (fun r => decide (r ≠ w))).foldl Arb.lose a
    { prio := tabSet 0 b.prio w (base w), ptr := (w + 1) % 17 }

/-- Bank b serves a requester. A port outside the classes may end a burst or a read-modify-write there (R188). -/
def serveBank (req : Nat) (s : State) (b : Nat) : State :=
  let base := arbBase s
  s.modMem (fun m => { m with
    bankLost := tabMod 0 m.bankLost b (fun n => n + Config.bankLost s.gov.energy b)
    preempt := if 17 ≤ req then m.preempt + (if Config.preempts s.gov.energy b then 1 else 0) else m.preempt
    arb := if 17 ≤ req then m.arb else tabMod {} m.arb b (fun a => a.round base [req]) })

/-- The banks of n bytes at a serve a requester, which waits no longer. -/
def serve (s : State) (req a n : Nat) : State :=
  let m := banksOf a n
  (((List.range 32).filter m.testBit).foldl (serveBank req) s).modMem
    (fun x => { x with wants := x.wants.filter (fun w => decide (w.req ≠ req)) })

/-- Every priority of every bank takes its base (R187). -/
def rebase (s : State) : State :=
  let p := (List.range 17).foldl (fun t r => tabSet 0 t r (arbBase s r)) ([] : Tab (BitVec 4))
  s.modMem (fun m => { m with arb := (List.range 32).foldl (fun t b => tabMod {} t b (fun a => { a with prio := p })) m.arb })

/-- Spans of bytes of which some cannot be reached now. -/
def spansWait (s : State) (sp : List (Nat × Nat)) : Bool := sp.any (fun p => memWaits s p.1 p.2)

/-- A request for spans stays pending in the arbiter, for those of its banks that do not serve it (R189, R191). -/
def await (s : State) (req : Nat) (sp : List (Nat × Nat)) : State :=
  let all := sp.foldl (fun m p => m ||| banksOf p.1 p.2) 0
  let w : Want := { req := req, banks := if s.mem.zeroing then all else all &&& s.mem.xres.toNat }
  s.modMem (fun m => { m with wants := w :: m.wants.filter (fun x => decide (x.req ≠ req)) })

/-- Requests that still wait, for the banks that still hold them, when a reservation or a zeroisation has changed (R189). -/
def Mem.settled (m : Mem) : Mem :=
  let left := fun (w : Want) => if m.zeroing then w.banks else if m.xph then w.banks &&& m.xres.toNat else 0
  { m with wants := (m.wants.filter (fun w => decide (left w ≠ 0))).map (fun w => { w with banks := left w }) }

/-- An event that reads or writes spans of local memory: it happens where c holds and the spans can be reached, and otherwise its request waits. -/
def whenMem (c : Bool) (req : Nat) (sp : List (Nat × Nat)) (s t : State) : Res :=
  .next (if c then (if spansWait s sp then await s req sp else t) else s)

/-- MEM_UE: the first uncorrectable error is captured, and the fault is raised (R184). -/
def memUe (s : State) (req cw : Nat) (fe : Bool) : State :=
  raise (if s.mem.ue then s else s.modMem (fun m => { m with
      ue := true, ueCw := BitVec.ofNat 18 cw, ueReq := BitVec.ofNat 5 req, ueFe := fe }))
    fcMEMUE 8 (BitVec.ofNat 21 (8 * cw)) 0

/-- A corrected codeword: counts, capture, and the write-back queue of 4 (R183). -/
def memCe (s : State) (req cw : Nat) : State :=
  let full := decide (4 ≤ s.mem.wbq.length) && !s.mem.wbq.contains cw
  (((s.modMem (fun m => { m with
      ce := true
      ceCount := m.ceCount + 1
      ceCw := BitVec.ofNat 18 cw
      ceReq := BitVec.ofNat 5 req
      wbovf := m.wbovf || full
      wbq := if full || m.wbq.contains cw then m.wbq else m.wbq ++ [cw] })).modLdg
    (fun l => { l with ce := l.ce + 1 })).modFlt (fun f => { f with cntCe := f.cntCe + 1 }))

/-- Codewords of n bytes at a that hold an error. -/
def eccIn (s : State) (a n : Nat) : List (Nat × EccErr) :=
  s.mem.ecc.filter (fun p => decide (a < 8 * p.1 + 8) && decide (8 * p.1 < a + n))

/-- A codeword with an error is read: a single error is corrected and counted, a double one raises MEM_UE (R183, R184). -/
def eccRdOne (req : Nat) (s : State) (p : Nat × EccErr) : State :=
  match p.2 with
  | .clean => s
  | .single => memCe s req p.1
  | .double => memUe s req p.1 false

/-- The read side of ECC. -/
def eccRead (s : State) (req a n : Nat) : State := (eccIn s a n).foldl (eccRdOne req) s

/-- Reading n bytes at a: the accesses are modelled and the errors are met (log entry 34). -/
def touchRead (s : State) (req a n : Nat) : State := serve (spend (eccRead s req a n) 4 (wordsOf a n)) req a n

/-- Units of k bytes that some spans touch. -/
def unitsIn (k : Nat) (sp : List (Nat × Nat)) : List Nat :=
  (sp.flatMap (fun p => if p.2 = 0 then [] else (List.range ((p.1 + p.2 - 1) / k - p.1 / k + 1)).map (fun i => p.1 / k + i))).eraseDups

/-- Codewords with an error that some spans touch. -/
def eccSpans (s : State) (sp : List (Nat × Nat)) : List (Nat × EccErr) :=
  s.mem.ecc.filter (fun p => sp.any (fun q => decide (q.1 < 8 * p.1 + 8) && decide (8 * p.1 < q.1 + q.2)))

/-- Reading spans together: each codeword and each bank word is met once. -/
def touchSpans (s : State) (req : Nat) (sp : List (Nat × Nat)) : State :=
  let t := spend ((eccSpans s sp).foldl (eccRdOne req) s) 4 (unitsIn 32 sp).length
  sp.foldl (fun u p => serve u req p.1 p.2) t

/-- Any double error among these bytes. -/
def hasDouble (s : State) (a n : Nat) : Bool := (eccIn s a n).any (fun p => decide (p.2 = .double))

/-- n bytes at a cover the codeword whole. -/
def coversCw (a n cw : Nat) : Bool := decide (a ≤ 8 * cw) && decide (8 * cw + 8 ≤ a + n)

/-- The codeword is error-free again, and no write-back of it is due. -/
def cleanCw (s : State) (cw : Nat) : State :=
  s.modMem (fun m => { m with ecc := tabSet .clean m.ecc cw .clean, wbq := m.wbq.filter (fun c => decide (c ≠ cw)) })

/-- A codeword with an error meets a write: one covered whole becomes clean; a partial write corrects a single error and meets a double one (R172, R183, R184). -/
def eccWrOne (req : Nat) (whole : Nat → Bool) (s : State) (p : Nat × EccErr) : State :=
  if whole p.1 then cleanCw s p.1
  else
    match p.2 with
    | .double => memUe s req p.1 false
    | .single => cleanCw (memCe s req p.1) p.1
    | .clean => s

/-- Write one byte unless its codeword takes none. -/
def putByte (kept : Nat → Bool) (s : State) (p : Nat × Byte) : State :=
  if kept (p.1 / 8) then s else s.modMem (fun m => { m with bytes := memPut m.bytes p.1 [p.2] })

/-- The bytes of a writing, with their addresses. -/
def cellsOf (w : Nat × List Byte) : List (Nat × Byte) := w.2.mapIdx (fun i b => (w.1 + i, b))

/-- Where writings go. -/
def spansOf (ws : Writes) : List (Nat × Nat) := ws.map (fun w => (w.1, w.2.length))

/-- The write side of ECC, for writings that reach the banks together and cover the codewords of a predicate whole: nothing is written into an uncorrectable codeword that they cover in part. -/
def eccWr (s : State) (req : Nat) (whole : Nat → Bool) (ws : Writes) : State :=
  match eccSpans s (spansOf ws) with
  | [] => s.modMem (fun m => { m with bytes := ws.foldl (fun b w => memPut b w.1 w.2) m.bytes })
  | errs =>
    let kept := fun (cw : Nat) => errs.any (fun p => decide (p.1 = cw) && decide (p.2 = .double) && !whole p.1)
    (ws.flatMap cellsOf).foldl (putByte kept) (errs.foldl (eccWrOne req whole) s)

/-- Write bytes at a; no byte lies at or above 0x18_0000 (R171). -/
def memWr (s : State) (req a : Nat) (bs : List Byte) : State :=
  if memTop < a + bs.length then s
  else serve (eccWr (spend s 4 (wordsOf a bs.length + partWords a bs.length)) req (coversCw a bs.length) [(a, bs)]) req a bs.length

/-- Several writings in order. -/
def memWrs (s : State) (req : Nat) (ws : Writes) : State := ws.foldl (fun t w => memWr t req w.1 w.2) s

/-- Runs of adjacent bytes, the latest first; a writing joins the run that it continues, and one that meets bytes of an earlier one comes after it. -/
def joinRun (runs : Writes) (w : Nat × List Byte) : Writes :=
  match runs with
  | [] => [w]
  | r :: t =>
    if w.1 = r.1 + r.2.length then (r.1, r.2 ++ w.2) :: t
    else if w.1 + w.2.length ≤ r.1 then r :: joinRun t w
    else w :: r :: t

/-- Codewords that spans cover in part only. -/
def partCws (sp : List (Nat × Nat)) : List Nat :=
  let ends := (sp.flatMap (fun p =>
    (if p.1 % 8 = 0 then [] else [p.1 / 8]) ++ (if (p.1 + p.2) % 8 = 0 then [] else [(p.1 + p.2) / 8]))).eraseDups
  ends.filter (fun cw => !covered (sp.map (fun p => (p.1, p.1 + p.2))) (sp.length + 1) (8 * cw) (8 * cw + 8))

/-- Writings that reach the banks together: each bank word is written once, and twice where a codeword of it is covered in part (R172; 14 R340). -/
def memWrJoined (s : State) (req : Nat) (ws : Writes) : State :=
  let runs := ((ws.filter (fun w => decide (w.1 + w.2.length ≤ memTop))).foldl joinRun []).reverse
  let sp := spansOf runs
  let part := partCws sp
  let t := spend s 4 ((unitsIn 32 sp).length + ((part.map (fun cw => cw / 4)).eraseDups).length)
  sp.foldl (fun u p => serve u req p.1 p.2) (eccWr t req (fun cw => !part.contains cw) runs)

/-- Little-endian number read from memory. -/
def mNat (s : State) (a n : Nat) : Nat := memNat s.mem.bytes a n

/-! Sync objects (12). -/

def objOf (s : State) (o : Byte) : SObj := tabGet {} s.syn.objs o.toNat

/-- Slots 0 to 6 that watch an object may be woken again by its change (R292). -/
def rearmWatches (o : Byte) (w : Tab Watch) : Tab Watch :=
  (List.range 7).foldl (fun t k => tabMod {} t k (fun x => if x.obj = o then { x with woken := false } else x)) w

def setObj (s : State) (o : Byte) (x : SObj) : State :=
  s.modSyn (fun y => { y with objs := tabSet {} y.objs o.toNat x, watch := rearmWatches o y.watch, wmCount := 0 })

/-- Apply an amount to an object: counter mode adds, barrier mode counts rounds (R285, R288). -/
def SObj.apply (x : SObj) (a : Nat) : SObj :=
  if x.mode && decide (x.n ≠ 0) then
    let total := x.arr.toNat + a
    let n := x.n.toNat
    { x with arr := BitVec.ofNat 8 (total % n), val := x.val + BitVec.ofNat 32 (total / n * n) }
  else { x with arr := if x.mode then 0 else x.arr, val := x.val + BitVec.ofNat 32 a }

/-- The update left VAL above N in barrier mode (R289). -/
def SObj.overflows (x : SObj) : Bool := x.mode && decide (x.n ≠ 0) && decide (x.n.toNat < x.val.toNat)

/-- A signal of amount a, made of cnt signals of one source, reaches an object (R284, R285, R289). -/
def signalAmt (s : State) (src : BitVec 4) (o : Byte) (a cnt : Nat) : State :=
  let y := (objOf s o).apply a
  let t := (setObj s o { y with lastSrc := src, lastCtx := s.core.cur }).modSyn
    (fun z => { z with sigs := z.sigs + BitVec.ofNat 32 cnt })
  if y.overflows then
    raise (if t.syn.ovf then t else t.modSyn (fun z =>
      { z with ovf := true, errObj := o, errSrc := src, errCtx := s.core.cur })) fcPARTOVF 9 0 0
  else t

/-- One signal of amount 1. -/
def signal (s : State) (src : BitVec 4) (o : Byte) : State := signalAmt s src o 1 1

/-- Signals that reach the unit on one c-cycle: those to one object are summed (R293). -/
def signalMany (s : State) (src : BitVec 4) (os : List Byte) : State :=
  os.eraseDups.foldl (fun t o => signalAmt t src o (os.count o) (os.count o)) s

/-- A wait condition (R286); COND 3 is never met. -/
def condHolds (cond : BitVec 2) (val tgt : Word) : Bool :=
  match cond.toNat with
  | 0 => decide ((val - tgt).toNat < 2 ^ 31)
  | 1 => decide (val = tgt)
  | 2 => decide (0 < val.toInt)
  | _ => false

/-- A take of one unit (R286). -/
def take (s : State) (o : Byte) : State :=
  let x := objOf s o
  (setObj s o { x with val := x.val - 1 }).modSyn (fun y => { y with takes := y.takes + 1 })

def watchOf (s : State) (k : Nat) : Watch := tabGet {} s.syn.watch k
def setWatch (s : State) (k : Nat) (w : Watch) : State :=
  s.modSyn (fun y => { y with watch := tabSet {} y.watch k w })

/-- Release a slot of 0 to 7. -/
def dropWatch (s : State) (k : Nat) : State := setWatch s k {}

/-! Issue queues (03 R81 to R85, R433). -/

/-- Engines in queue order; the numbers are those of the watch slots (12 R291). -/
def eARR : Nat := 0
def eVEC : Nat := 1
def eFAC : Nat := 2
def eWGH : Nat := 3
def eSTR : Nat := 4
def ePST : Nat := 5
def eSTH : Nat := 6

/-- Depth of an issue queue (Table 7). -/
def qDepth : Nat → Nat
  | 0 => 16
  | 1 => 16
  | 2 => 4
  | 3 => 4
  | 4 => 8
  | 5 => 4
  | 6 => 4
  | _ => 0

def qOf (s : State) (e : Nat) : EngQ := tabGet {} s.q e
def setQ (s : State) (e : Nat) (x : EngQ) : State := { s with q := tabSet {} s.q e x }
def modQ (s : State) (e : Nat) (f : EngQ → EngQ) : State := setQ s e (f (qOf s e))

/-- Source code of an engine's SID signal (12 Table 2). -/
def srcOf (e : Nat) : BitVec 4 := BitVec.ofNat 4 (e + 2)

/-- The watchman's count restarts on progress (12 R302, R303). -/
def progress (s : State) : State := s.modSyn (fun y => { y with wmCount := 0 })

/-- A dispatch check failed: the operation that left the queue and every entry behind it give their signals, and the queue discards until the next release (R433). -/
def failQueue (s : State) (e : Nat) (own : Option Byte) : State :=
  let q := qOf s e
  signalMany (dropWatch (setQ s e { q with wait := [], failed := true }) e) (srcOf e)
    (own.toList ++ q.wait.filterMap (·.sv))

/-- The head entry leaves its queue at dispatch. -/
def popHead (s : State) (e : Nat) : State :=
  progress (dropWatch (modQ s e (fun q => { q with wait := q.wait.drop 1 })) e)

/-- Put an operation in flight; its number is the state's opId. -/
def putInfl (s : State) (e : Nat) (ent : QEntry) (wb : Option Dword) (done : Bool) : State :=
  { modQ s e (fun q => { q with infl := q.infl ++ [{ ent := ent, id := s.opId, wb := wb, done := done }] }) with
    opId := s.opId + 1 }

/-- Change the operation in flight with this number. -/
def modInfl (s : State) (e id : Nat) (f : Infl → Infl) : State :=
  modQ s e (fun q => { q with infl := q.infl.map (fun x => if x.id = id then f x else x) })

/-- Mark an operation done: it may retire. -/
def markDone (s : State) (e id : Nat) : State := modInfl s e id (fun x => { x with done := true })

/-- An operation has done everything but retire; these writings and lanes come with its retirement. -/
def finishWith (s : State) (e id : Nat) (wr : List Writes) (lanes : List (Nat × Word)) : State :=
  modInfl s e id (fun x => { x with done := true, wr := wr, lanes := lanes })

/-- These writings come with the retirement of an operation, which may have more to do before it. -/
def giveWr (s : State) (e id : Nat) (wr : List Writes) : State := modInfl s e id (fun x => { x with wr := wr })

/-- Give an operation its writeback value. -/
def setWb (s : State) (e id : Nat) (v : Dword) : State := modInfl s e id (fun x => { x with wb := some v })

/-- The engine has an empty queue and has retired every operation (R93). -/
def engIdle (s : State) (e : Nat) : Bool := (qOf s e).wait.isEmpty && (qOf s e).infl.isEmpty

/-! Caravans depart (06 R163, R164). -/

/-- Why a caravan departs (Table 3). -/
inductive DepCause where
  | full
  | force
  | deadline
  /-- CARAVAN_EN is 0 (06 R162); Table 3 counts it nowhere. -/
  | off
deriving DecidableEq, Repr

/-- Rows that a caravan has gathered. -/
def ArrOp.fill (o : ArrOp) : Nat := o.joins.foldl (fun n j => n + j.rows) 0

/-- The open caravan with this operation number departs: it takes its items and its block of positions. -/
def departId (a : Arr) (id : Nat) (why : DepCause) : Arr :=
  match a.ops.find? (fun o => decide (o.id = id) && o.open_) with
  | none => a
  | some o =>
    let n := ceilDiv o.fill 16 * (o.desc.n / 16)
    let o' := { o with open_ := false, lo := 0, hi := n, items := n, pos := a.nextPos }
    { a with
      ops := a.ops.map (fun x => if x.id = id then o' else x)
      nextPos := a.nextPos + n
      cardepFull := a.cardepFull + if why = .full then 1 else 0
      cardepForce := a.cardepForce + if why = .force then 1 else 0
      cardepDl := a.cardepDl + if why = .deadline then 1 else 0
      carRows := a.carRows + BitVec.ofNat 32 o.fill }

/-- Every open caravan departs under FORCE. -/
def departAll (a : Arr) : Arr :=
  (a.ops.filter (·.open_)).foldl (fun b o => departId b o.id .force) a

/-! The control core stops at a faulting instruction (03 R95). -/

/-- The core stops at its instruction, which has no effect; a step in progress ends in the halt (17 R410), and open caravans depart. -/
def stopCore (s : State) : State :=
  ((dropWatch (s.modCore (fun k => { k with mode := .stopped })) 7).modDbg (fun d =>
    { d with stepping := false, cause := if d.stepping then 3 else d.cause })).modArr departAll

/-- A contained fault of the control core at the instruction at its program counter. -/
def coreFault (s : State) (code detail : Nat) : State :=
  stopCore (raise s code 0 (curCtx s).pc detail)

/-! Obtur's levels (15 R363, R366). -/

def ceiling (s : State) : BitVec 2 :=
  match s.sec.state.toNat with
  | 0 => 2
  | 1 => if decide (1 ≤ cfgBits s oSEC 1 0) && decide (cfgBits s oSEC 3 3 = 0) then 1 else 0
  | _ => BitVec.ofNat 2 (min 2 (cfgBits s oSEC 1 0))

/-- A debug halt ends and the control core resumes. -/
def endHalt (s : State) : State := s.modDbg (fun d => { d with halted := false, haltReq := false, stepping := false })

/-- When the ceiling lies below the effective level, the level falls to it (R366). -/
def lowerLevel (s : State) : State :=
  if s.sec.level.toNat ≤ (ceiling s).toNat then s
  else
    let t := s.modSec (fun x => { x with level := ceiling s, dbgReq := ceiling s })
    if t.sec.level.toNat < 2 then endHalt t else t

/-- Invasive operations are allowed (R362). -/
def invasive (s : State) : Bool := decide (s.sec.level = 2)

/-! Zeroisation, reload and stream stop. -/

/-- MAN_ERR keeps the first error (02 R43). -/
def manErr (s : State) (code type off : Nat) : State :=
  if s.man.err then s
  else s.modMan (fun m => { m with err := true, errCode := BitVec.ofNat 8 code, errType := BitVec.ofNat 8 type, errOff := BitVec.ofNat 16 off })

/-- A zeroisation abandons a manifest load (02 R43). -/
def abandonLoad (s : State) : State :=
  match s.man.load with
  | none => s
  | some _ => manErr (s.modMan (fun m => { m with load := none, shadow := m.live, loadSt := 3 })) 0x0C 0 0

/-- A zeroisation abandons a code load (15 R370). -/
def abandonCode (s : State) : State :=
  match s.sec.codeLoad with
  | none => s
  | some _ => s.modSec (fun x => { x with codeLoad := none, codeState := 3, codeErr := 0x0C })

/-- A zeroisation starts, or merges into the running one (07 R193): memory and full bits read 0, CODE_OK falls (15 R371), the vector registers, the rows of RUNM and the accumulators take their reset values (08 R195), the stash empties (09 R232), the journal ring empties (11 R272). -/
def startZero (s : State) : State :=
  abandonCode (abandonLoad (((((s.modMem (fun m => { m with
      bytes := [], full := [], fullErr := [], ecc := [], wbq := [], zeroing := true, zeroCount := m.zeroCount + 1, scrubRow := 0 })).modSec
    (fun x => { x with codeOk := false })).modVec (fun v => { v with v := [], runm := [], runs := v.runs.map (fun r => { r with red := [] }) })).modSth
    (fun h => { h with ents := [], order := [] })).modJrnl (fun j => { j with count := 0, sinceCopy := [] })))

/-- Every entry of these queues that has not been dispatched is discarded. -/
def dropWaiting (s : State) (es : List Nat) : State :=
  es.foldl (fun t e => dropWatch (modQ t e (fun q => { q with wait := [] })) e) s

/-- These requesters ask for no bank any more. -/
def dropWants (s : State) (p : Nat → Bool) : State :=
  s.modMem (fun m => { m with wants := m.wants.filter (fun w => !p w.req) })

/-- A reload begins: the control core stops at once and undispatched entries are discarded (03 R70). A second one while it runs merges its mask (log entry 15). -/
def startReload (s : State) (mask : BitVec 4) : State :=
  let t := dropWants (dropWaiting (s.modArr departAll) [0, 1, 2, 3, 4, 5, 6]) (fun _ => true)
  (dropWatch t 7).modCore (fun k => { k with mode := .idle, rldBusy := true, rldMask := k.rldMask ||| mask })

/-! Fields of H0 (13 Table 10). -/
def h0Kind (h : Dword) : Nat := bitsOf h.toNat 3 0
def h0Tag (h : Dword) : BitVec 6 := BitVec.ofNat 6 (bitsOf h.toNat 9 4)

/-- H0 of a packet (13 Table 10). -/
def strH0 (kind : Nat) (tag : BitVec 6) (status : Nat) (att last : Bool) (c : BitVec 2) (g : BitVec 6) (epoch : BitVec 24) : Dword :=
  BitVec.ofNat 64 (kind + 16 * tag.toNat + 1024 * status + (if att then 4096 else 0) + (if last then 8192 else 0) +
    2 ^ 14 * c.toNat + 2 ^ 16 * g.toNat + 2 ^ 22 * epoch.toNat)

/-- Inbound packets that wait are refused: a put is acknowledged with STATUS 1 and frees its buffer, read data is discarded and frees its tag (15 R385). -/
def Str.refuse (x : Str) (wait : List StrPacket) : Str :=
  let puts := wait.filter (fun p => decide (h0Kind p.h0 = 3))
  let rdats := (wait.filter (fun p => decide (h0Kind p.h0 ≠ 3))).map (fun p => h0Tag p.h0)
  { x with
    waiting := [], inbuf := x.inbuf + puts.length, inCred := x.inCred + puts.length
    acks := x.acks ++ puts.map (fun p => strH0 5 (h0Tag p.h0) 1 false false 0 0 0)
    reads := x.reads.filter (fun r => !rdats.contains r.tag) }

/-- A stream stop: the STR, STH and FAC operations are abandoned without writes or signals, and puts are refused (15 R385). -/
def streamStop (s : State) : State :=
  let t := dropWants ([2, 4, 6].foldl (fun t e => dropWatch (setQ t e { qOf t e with wait := [], infl := [] }) e) s) (fun r => [rqFAC, rqSTR, rqSTH].contains r)
  ((((t.modStr (fun x =>
      let y := x.refuse x.waiting
      { y with jobs := [], reads := y.reads.map (fun r => { r with lost := true }) })).modSth (fun h => { h with rd := none })).modFac (fun f => { f with sched := [], committing := none })).modJrnl
    (fun j => { j with copyBusy := false, copyerr := j.copyerr || j.copyBusy, copyNext := j.copyPtr.toNat })).modSec (fun x => { x with stop := true })

/-- A tag failure in a sealed state: stream stop and zeroisation (15 Table 8). -/
def tagZeroise (s : State) : State :=
  if decide (s.sec.state = 0) then s else startZero (streamStop s)

end Sys2Proof.Machine
end

