-- ==== Sys2Proof/Machine/Operands.lean ====
section
/-! DEFINITION. Operand forms of the control core: immediates, offsets, instruction lengths and the issue fields (03 R74, R75, R82). -/

namespace Sys2Proof.Machine

/-- Immediate of form I: 15 bits, or 47 bits with an extension word, sign-extended (R74, R75). -/
def immOf (ext : Option Word) (imm : BitVec 15) : Dword :=
  match ext with
  | none => imm.signExtend 64
  | some e => (e ++ imm : BitVec 47).signExtend 64

/-- Offset of form B in bytes (R74, R75). -/
def brOffset (ext : Option Word) (off : BitVec 10) : Int :=
  match ext with
  | none => 4 * off.toInt
  | some e => 4 * e.toInt

/-- Length in bytes of an instruction (R74). -/
def lenOf (ext : Option Word) : Nat :=
  match ext with
  | none => 4
  | some _ => 8

/-- The extension word; X = 0 acts as an all-zero one (R74, form E). -/
def extOf (ext : Option Word) : Word := ext.getD 0

/-- WV, WID, SV, SID and FS of an issue's extension word (R82, Table 8). -/
def xWV (e : Word) : Bool := e.getLsbD 31
def xWID (e : Word) : Nat := bitsOf e.toNat 30 25
def xSV (e : Word) : Bool := e.getLsbD 24
def xSID (e : Word) : Nat := bitsOf e.toNat 23 18
def xFS (e : Word) : BitVec 18 := e.setWidth 18

/-- Sign-extension of the low w bits of a number to 64 bits. -/
def sextTo64 (w v : Nat) : Dword := (BitVec.ofNat w v).signExtend 64


end Sys2Proof.Machine
end

