-- ==== Sys2Proof/Machine/CoreOps.lean ====
section
/-! DEFINITION. Execution of one control-core instruction: when the core can execute, fetch checks, completion, loads and stores (03 R62 to R80, R95). -/

namespace Sys2Proof.Machine

/-- The control core can execute instructions of the running context: it runs, the context is not halted and no debug halt holds it (R69, R71, 15 R371, 17 R410). -/
def coreOn (s : State) : Bool :=
  unitsOn s && decide (s.core.mode = .run) && s.man.isLive && !s.man.hold &&
    !(curCtx s).halted && (!s.dbg.halted || s.dbg.stepping) && !s.core.rldBusy

/-- Bits that DBG_STATUS and the stepping flag take when an instruction completes (17 R410). -/
def dbgDone (s : State) : State :=
  s.modDbg (fun d => { d with
    halted := d.halted || d.haltReq
    cause := if d.haltReq then 1 else if d.stepping then 3 else d.cause
    haltReq := false
    stepping := false })

/-- The instruction completes: the program counter takes its next value, the core runs on and the watchman restarts (R302). -/
def complete (s : State) (pc : Addr) : State :=
  progress (dbgDone ((modCtx s s.core.cur (fun x => { x with pc := pc })).modCore (fun k => { k with mode := .run })))

/-- The instruction completes and the next one follows n bytes on. -/
def advance (s : State) (n : Nat) : State := complete s ((curCtx s).pc + BitVec.ofNat 21 n)

/-- The words of the instruction at pc, n bytes, lie in the CODE partition (R78). -/
def fetchOk (s : State) (pc n : Nat) : Bool := permits s [pCODE] pc 4 && permits s [pCODE] (pc + n - 4) 4

/-- Where the words of the instruction at pc lie, when CODE holds them. -/
def fetchSpans (s : State) (pc n : Nat) : List (Nat × Nat) := if fetchOk s pc n then [(pc, n)] else []

/-- Execute an instruction of n bytes. A fetch outside CODE raises BOUNDS, a fetch of an uncorrectable word MEM_UE, an encoding that R76 forbids ILLEGAL; each stops the core at the instruction. The record of the uncorrectable word is that of local memory, unit 8 with the codeword's address, and not the core's with the program counter (R95): DESIGN CHOICE, log entry 95. -/
def instr (s : State) (n : Nat) (legal : Bool) (body : State → State) : Res :=
  let pc := (curCtx s).pc.toNat
  whenMem (coreOn s) rqFETCH (fetchSpans s pc n) s
    (if !fetchOk s pc n then coreFault s fcBOUNDS 0
     else if hasDouble s pc n then stopCore (touchRead s rqFETCH pc n)
     else if !legal then coreFault (touchRead s rqFETCH pc n) fcILLEGAL 0
     else body (touchRead s rqFETCH pc n))

/-- An instruction whose data access may have to wait for a bank (R63): the access is n bytes at a. -/
def instrMem (s : State) (n : Nat) (legal : Bool) (acc : Option (Nat × Nat)) (body : State → State) : Res :=
  match acc with
  | some (a, k) =>
    let pc := (curCtx s).pc.toNat
    if coreOn s && legal && !spansWait s (fetchSpans s pc n) && fetchOk s pc n && memWaits s a k then .next (await s rqDATA [(a, k)])
    else instr s n legal body
  | none => instr s n legal body

/-- Write register D of the running context and go on. -/
def wrAdvance (s : State) (d : SReg) (v : Dword) (n : Nat) : State := advance (wrReg s s.core.cur d v) n

/-- Form R of Table 4: D takes a function of A and B; X and F[9:6] must be 0. -/
def aluR (s : State) (f : RForm) (op : Dword → Dword → Dword) : Res :=
  instr s 4 (!f.x && decide (f.f96 = 0)) (fun t => wrAdvance t f.d (op (rd t f.a) (rd t f.b)) 4)

/-- Form I with an optional extension word: D takes a function of A and the immediate. -/
def aluI (s : State) (f : IForm) (op : Dword → Dword → Dword) : Res :=
  instr s (lenOf f.ext) true (fun t => wrAdvance t f.d (op (rd t f.a) (immOf f.ext f.imm)) (lenOf f.ext))

/-- A shift by imm[5:0]: no extension word, imm[14:6] must be 0. -/
def shiftI (s : State) (f : IForm) (op : Dword → Nat → Dword) : Res :=
  instr s (lenOf f.ext) (f.ext.isNone && decide (f.imm.toNat < 64))
    (fun t => wrAdvance t f.d (op (rd t f.a) (f.imm.toNat % 64)) (lenOf f.ext))

/-- The program counter takes a target. A target above the 21-bit address space is fetched from nowhere: BOUNDS at the target (R78). -/
def jumpTo (s : State) (target : Int) : State :=
  let t := complete s (BitVec.ofInt 21 target)
  if 0 ≤ target ∧ target < 2 ^ 21 then t else coreFault t fcBOUNDS 0

/-- Partitions open to loads and to stores of the control core (Table 6). -/
def loadParts : List Nat := [pCODE, pDATA, pSTASH, pMBOX, pFE, pJRNL]
def storeParts : List Nat := [pDATA, pFE]

/-- Address of a load or store of 2^k bytes: A + imm aligned to the access (R78, R79). -/
def accAddr (s : State) (f : IForm) (k : Nat) : Nat := (rd s f.a + immOf f.ext f.imm).toNat / 2 ^ k * 2 ^ k

/-- A load of 2^k bytes (R78, R79). -/
def load (s : State) (f : IForm) (k : Nat) (ext : Nat → Dword) : Res :=
  let a := accAddr s f k
  let n := 2 ^ k
  let ok := permits s loadParts a n
  instrMem s (lenOf f.ext) true (if ok then some (a, n) else none) (fun t =>
    if !ok then coreFault t fcBOUNDS 0
    else
      let u := touchRead t rqDATA a n
      wrAdvance u f.d (ext (mNat u a n)) (lenOf f.ext))

/-- A store of the low 2^k bytes of D (R78 to R80). -/
def store (s : State) (f : IForm) (k : Nat) : Res :=
  let a := accAddr s f k
  let n := 2 ^ k
  let ok := permits s storeParts a n
  instrMem s (lenOf f.ext) true (if ok then some (a, n) else none) (fun t =>
    if !ok then coreFault t fcBOUNDS 0
    else advance (memWr t rqDATA a (leBytes n (rd t f.d))) (lenOf f.ext))

end Sys2Proof.Machine
end

