-- ==== Sys2Proof/Machine/Alu.lean ====
section
/-! DEFINITION. Scalar arithmetic of the control core: ALU functions and immediates (03 R77, Tables 3 and 4). -/

namespace Sys2Proof.Machine

/-- Signed division: truncates toward zero; by zero every bit is set; -2^63 by -1 is -2^63 (R77). -/
def divS (a b : Dword) : Dword := if b = 0 then BitVec.allOnes 64 else BitVec.ofInt 64 (a.toInt.tdiv b.toInt)
/-- Unsigned division (R77). -/
def divU (a b : Dword) : Dword := if b = 0 then BitVec.allOnes 64 else BitVec.ofNat 64 (a.toNat / b.toNat)
/-- Signed remainder: A for division by zero (R77). -/
def remS (a b : Dword) : Dword := if b = 0 then a else BitVec.ofInt 64 (a.toInt.tmod b.toInt)
/-- Unsigned remainder (R77). -/
def remU (a b : Dword) : Dword := if b = 0 then a else BitVec.ofNat 64 (a.toNat % b.toNat)
/-- Leading zeros, 0 to 64. -/
def leadingZeros (a : Dword) : Nat := if a = 0 then 64 else 63 - Nat.log2 a.toNat
/-- Number of set bits. -/
def setBits (a : Dword) : Nat := ((List.range 64).filter (fun i => a.getLsbD i)).length

/-- ADD: D takes A + B. -/
def execAdd (f : RForm) (s : State) : Res := aluR s f (fun a b => a + b)

/-- SUB: D takes A - B. -/
def execSub (f : RForm) (s : State) : Res := aluR s f (fun a b => a - b)

/-- AND: D takes A AND B. -/
def execAnd (f : RForm) (s : State) : Res := aluR s f (fun a b => a &&& b)

/-- OR: D takes A OR B. -/
def execOr (f : RForm) (s : State) : Res := aluR s f (fun a b => a ||| b)

/-- XOR: D takes A XOR B. -/
def execXor (f : RForm) (s : State) : Res := aluR s f (fun a b => a ^^^ b)

/-- ANDN: D takes A AND NOT B. -/
def execAndn (f : RForm) (s : State) : Res := aluR s f (fun a b => a &&& ~~~b)

/-- SLL: D takes A shifted left by B[5:0]. -/
def execSll (f : RForm) (s : State) : Res := aluR s f (fun a b => a <<< (b.toNat % 64))

/-- SRL: logical right shift by B[5:0]. -/
def execSrl (f : RForm) (s : State) : Res := aluR s f (fun a b => a >>> (b.toNat % 64))

/-- SRA: arithmetic right shift by B[5:0]. -/
def execSra (f : RForm) (s : State) : Res := aluR s f (fun a b => a.sshiftRight (b.toNat % 64))

/-- SLT: 1 if A < B signed, else 0. -/
def execSlt (f : RForm) (s : State) : Res := aluR s f (fun a b => if a.toInt < b.toInt then 1 else 0)

/-- SLTU: 1 if A < B unsigned, else 0. -/
def execSltu (f : RForm) (s : State) : Res := aluR s f (fun a b => if a.toNat < b.toNat then 1 else 0)

/-- MIN: the smaller, signed. -/
def execMin (f : RForm) (s : State) : Res := aluR s f (fun a b => if a.toInt < b.toInt then a else b)

/-- MAX: the larger, signed. -/
def execMax (f : RForm) (s : State) : Res := aluR s f (fun a b => if a.toInt < b.toInt then b else a)

/-- MINU: the smaller, unsigned. -/
def execMinu (f : RForm) (s : State) : Res := aluR s f (fun a b => if a.toNat < b.toNat then a else b)

/-- MAXU: the larger, unsigned. -/
def execMaxu (f : RForm) (s : State) : Res := aluR s f (fun a b => if a.toNat < b.toNat then b else a)

/-- SXW: A[31:0] sign-extended. -/
def execSxw (f : RForm) (s : State) : Res := aluR s f (fun a _ => (a.setWidth 32).signExtend 64)

/-- ZXW: A[31:0] zero-extended. -/
def execZxw (f : RForm) (s : State) : Res := aluR s f (fun a _ => (a.setWidth 32).setWidth 64)

/-- DIFW: (A - B) mod 2^32 sign-extended from bit 31. -/
def execDifw (f : RForm) (s : State) : Res := aluR s f (fun a b => ((a - b).setWidth 32).signExtend 64)

/-- MUL: the low 64 bits of A x B. -/
def execMul (f : RForm) (s : State) : Res := aluR s f (fun a b => a * b)

/-- MULH: the high 64 bits of the signed product. -/
def execMulh (f : RForm) (s : State) : Res := aluR s f (fun a b => BitVec.ofInt 64 (a.toInt * b.toInt / 2 ^ 64))

/-- MULHU: the high 64 bits of the unsigned product. -/
def execMulhu (f : RForm) (s : State) : Res := aluR s f (fun a b => BitVec.ofNat 64 (a.toNat * b.toNat / 2 ^ 64))

/-- DIV: the signed quotient truncated toward zero; every bit set for B = 0. -/
def execDiv (f : RForm) (s : State) : Res := aluR s f (divS)

/-- DIVU: the unsigned quotient; every bit set for B = 0. -/
def execDivu (f : RForm) (s : State) : Res := aluR s f (divU)

/-- REM: the signed remainder; A for B = 0. -/
def execRem (f : RForm) (s : State) : Res := aluR s f (remS)

/-- REMU: the unsigned remainder; A for B = 0. -/
def execRemu (f : RForm) (s : State) : Res := aluR s f (remU)

/-- CLZ: leading zeros of A, 0 to 64. -/
def execClz (f : RForm) (s : State) : Res := aluR s f (fun a _ => BitVec.ofNat 64 (leadingZeros a))

/-- POPC: set bits of A. -/
def execPopc (f : RForm) (s : State) : Res := aluR s f (fun a _ => BitVec.ofNat 64 (setBits a))

/-- ADDI: D takes A + imm. -/
def execAddi (f : IForm) (s : State) : Res := aluI s f (fun a i => a + i)

/-- ANDI: D takes A AND imm. -/
def execAndi (f : IForm) (s : State) : Res := aluI s f (fun a i => a &&& i)

/-- ORI: D takes A OR imm. -/
def execOri (f : IForm) (s : State) : Res := aluI s f (fun a i => a ||| i)

/-- XORI: D takes A XOR imm. -/
def execXori (f : IForm) (s : State) : Res := aluI s f (fun a i => a ^^^ i)

/-- SLLI: D takes A shifted left by imm[5:0]. -/
def execSlli (f : IForm) (s : State) : Res := shiftI s f (fun a n => a <<< n)

/-- SRLI: D takes A shifted right logically by imm[5:0]. -/
def execSrli (f : IForm) (s : State) : Res := shiftI s f (fun a n => a >>> n)

/-- SRAI: D takes A shifted right arithmetically by imm[5:0]. -/
def execSrai (f : IForm) (s : State) : Res := shiftI s f (fun a n => a.sshiftRight n)

/-- SLTI: D takes 1 if A < imm signed, else 0. -/
def execSlti (f : IForm) (s : State) : Res := aluI s f (fun a i => if a.toInt < i.toInt then 1 else 0)

/-- ORHI: D takes A OR the extension word shifted left by 32; the extension word is required and imm[14:0] must be 0. -/
def execOrhi (f : IForm) (s : State) : Res :=
  instr s (lenOf f.ext) (f.ext.isSome && decide (f.imm = 0))
    (fun t => wrAdvance t f.d (rd t f.a ||| ((extOf f.ext).setWidth 64 <<< 32)) (lenOf f.ext))

end Sys2Proof.Machine
end

