-- ==== Sys2Proof/Machine/Rng.lean ====
section
/-! DEFINITION. The generator Philox-4x32-10, its key, counter and step field, and the random bits of stochastic rounding (11 R263 to R266, 04 R110). -/

namespace Sys2Proof.Machine

/-- The four counter words and two key words of a round. -/
structure Philox where
  c0 : Nat
  c1 : Nat
  c2 : Nat
  c3 : Nat
  k0 : Nat
  k1 : Nat
deriving DecidableEq, Repr

/-- One round (R263). -/
def Philox.round (x : Philox) : Philox :=
  let p := 0xD2511F53 * x.c0
  let q := 0xCD9E8D57 * x.c2
  { c0 := q / 2 ^ 32 ^^^ x.c1 ^^^ x.k0, c1 := q % 2 ^ 32, c2 := p / 2 ^ 32 ^^^ x.c3 ^^^ x.k1, c3 := p % 2 ^ 32
    k0 := (x.k0 + 0x9E3779B9) % 2 ^ 32, k1 := (x.k1 + 0xBB67AE85) % 2 ^ 32 }

/-- Ten rounds: the 128-bit output, c0 lowest (R263). -/
def philox (c0 c1 c2 c3 k0 k1 : Nat) : Nat :=
  let y := (List.range 10).foldl (fun x _ => x.round) (Philox.mk c0 c1 c2 c3 k0 k1)
  y.c0 + 2 ^ 32 * y.c1 + 2 ^ 64 * y.c2 + 2 ^ 96 * y.c3

/-- The output for an element index, a tensor ID, a step field and a draw, under the live JOB_SEED (R264). -/
def draw128 (s : State) (idx tensor step drw : Nat) : Nat :=
  philox (idx % 2 ^ 32) (idx / 2 ^ 32 % 2 ^ 16 + 2 ^ 16 * tensor) (step % 2 ^ 32)
    (step / 2 ^ 32 % 2 ^ 16 + 2 ^ 16 * drw) (cfg s (oFMT + 8) 4) (cfg s (oFMT + 12) 4)

def facOf (s : State) (c : BitVec 2) : FacCtx := tabGet {} s.fac.ctxs c.toNat

/-- Step field of a context (R265). -/
def stepField (s : State) (c : BitVec 2) : BitVec 48 :=
  let f := facOf s c
  BitVec.ofNat 48 ((f.step.toNat + 1) % 2 ^ 32 + (if f.wrapped then 2 ^ 32 else 0) + 2 ^ 33 * c.toNat)

/-- The 16 random bits of stochastic rounding for element i of a tensor and class, under a step field (04 R110). -/
def srBits (s : State) (tensor cls : Nat) (step : BitVec 48) (i : Nat) : Nat :=
  draw128 s (i / 8) tensor step.toNat (0xFF00 + cls) / 2 ^ (16 * (i % 8)) % 2 ^ 16

/-- RNG: D takes 64 bits of the output, F[0] selects the half; the tensor ID comes from the extension word (03 R89). -/
def execRng (f : CForm) (s : State) : Res :=
  instr s (lenOf f.ext) true (fun t =>
    let o := draw128 t ((rd t f.a).toNat % 2 ^ 48) ((extOf f.ext).toNat % 2 ^ 16) (stepField t t.core.cur).toNat
      ((rd t f.b).toNat % 2 ^ 16)
    wrAdvance t f.d (BitVec.ofNat 64 (if f.f.getLsbD 0 then o / 2 ^ 64 else o)) (lenOf f.ext))

end Sys2Proof.Machine
end

