-- ==== Sys2Proof/Machine/Flags.lean ====
section
/-! DEFINITION. The weighers: observations and their flags, the step update, the loss scale and the copy (04 R103, R114 to R120). -/

namespace Sys2Proof.Machine

/-- WEIGH entry of weigher k, word 0 (02 Table 3). -/
def wghEntry (s : State) (k : Nat) : Nat := cfg s (oWEIGH + 8 + 8 * k) 4
def wghTensor (s : State) (k : Nat) : Nat := bitsOf (wghEntry s k) 15 0
def wghDepth (s : State) (k : Nat) : Nat := bitsOf (wghEntry s k) 19 16 + 1
def wghEn (s : State) (k : Nat) : Bool := decide (bitsOf (wghEntry s k) 20 20 = 1)
def wghMargin (s : State) (k : Nat) : Int := signedOf 8 (bitsOf (wghEntry s k) 31 24)

/-- A gathering after one observation of a value narrowed into a format (R115). -/
def WAcc.see (a : WAcc) (fmt : Nat) (x : Seen) : WAcc :=
  let fin := f32IsFinite x.v
  { amax := if fin && decide (a.amax.toNat < (f32Abs x.v).toNat) then f32Abs x.v else a.amax
    nonfin := a.nonfin || !fin || x.toInf
    cnt := a.cnt + 1
    fmt := BitVec.ofNat 4 fmt }

/-- Bit k of a mask, when a condition holds. -/
def flagBit (c : Bool) (k : Nat) : Half := if c then 1 <<< k else 0

/-- One observation of weigher k: the sticky flags and the gathering of the step it belongs to (R115, R117). -/
def Wgh.see (w : Wgh) (k fmt : Nat) (x : Seen) : Wgh :=
  let y := tabGet {} w.w k
  let a := if w.stepping then tabGet {} w.acc2 k else y.acc
  let fin := f32IsFinite x.v
  let a' := a.see fmt x
  let y' := { y with obs := y.obs + 1, acc := if w.stepping then y.acc else a' }
  { w with
    w := tabSet {} w.w k y'
    acc2 := if w.stepping then tabSet {} w.acc2 k a' else w.acc2
    nonfin := w.nonfin ||| flagBit (!fin || x.toInf) k
    sat := w.sat ||| flagBit (fin && x.sat) k
    mixed := w.mixed ||| flagBit (decide (a.cnt ≠ 0) && decide (a.fmt.toNat ≠ fmt)) k
    nanAny := w.nanAny || f32IsNaN x.v
    infAny := w.infAny || f32IsInf x.v || x.toInf }

/-- Every enabled weigher bound to a tensor observes what was narrowed into it (R114, R115). -/
def observe (s : State) (tensor fmt : Nat) (xs : List Seen) : State :=
  (List.range 16).foldl (fun t k =>
    if wghEn s k && decide (wghTensor s k = tensor) then t.modWgh (fun w => xs.foldl (fun v x => v.see k fmt x) w) else t) s

/-- Scale exponent of weigher k. -/
def wghScale (s : State) (k : Nat) : Int := (tabGet ({} : Weigher) s.wgh.w k).s.toInt

/-- The scale of a descriptor, latched at dispatch (R103): none, an immediate, or a weigher's. -/
def latchScale (s : State) (r : RawLayout) : Layout :=
  { r.l with s := if r.ssrc = 1 then r.simm else if r.ssrc = 2 then wghScale s r.sw else 0, sr := classSr s r.l.cls }

/-- Largest of the first n history entries. -/
def histMax (t : Tab Word) (n : Nat) : Word := t.foldl (fun h p => if p.1 < n ∧ h.toNat < p.2.toNat then p.2 else h) 0

/-- Push a maximum into a history and keep n entries. -/
def histPush (t : Tab Word) (n : Nat) (v : Word) : Tab Word :=
  tabSet 0 ((t.filter (fun p => decide (p.1 + 1 < n))).map (fun p => (p.1 + 1, p.2))) 0 v

/-- Clamp to a signed 8-bit exponent. -/
def clampS8 (x : Int) : Byte := BitVec.ofInt 8 (max (-128) (min x 127))

/-- The scale that a history gives (R116): 0 for binary32, bfloat16 and MX formats, kept when the history is all zero. -/
def scaleFrom (s : State) (k : Nat) (fmt : Nat) (h : Word) (keep : Byte) : Byte :=
  if fmt = 0 ∨ fmt = 2 ∨ fmtIsMx fmt = true then 0
  else if h = 0 then keep
  else clampS8 (fmtEf fmt - f32FloorLog2 h - 1 - wghMargin s k)

/-- The step update of one weigher; a is what it gathered in the step that follows (R116, R117). -/
def weigherStep (s : State) (k : Nat) (x : Weigher) (a : WAcc) : Weigher :=
  let next := if a.cnt = 0 then { a with fmt := x.acc.fmt } else a
  if x.acc.nonfin || decide (x.acc.cnt = 0) then { x with acc := next }
  else
    let hist := histPush x.hist (wghDepth s k) x.acc.amax
    let fill := min (x.fill.toNat + 1) (wghDepth s k)
    { x with
      acc := next
      hist := hist
      fill := BitVec.ofNat 5 fill
      s := scaleFrom s k x.acc.fmt.toNat (histMax hist fill) x.s }

/-- LS fields of the live WEIGH section. -/
def lsInit (s : State) : Byte := BitVec.ofNat 8 (cfgBits s oWEIGH 7 0)
def lsGrow (s : State) : Nat := cfgBits s oWEIGH 31 16
def lsMax (s : State) : Int := signedOf 8 (cfgBits s (oWEIGH + 4) 7 0)
def lsMin (s : State) : Int := signedOf 8 (cfgBits s (oWEIGH + 4) 15 8)
def lsDyn (s : State) : Bool := decide (cfgBits s (oWEIGH + 4) 16 16 = 1)

/-- The loss scale of a STEP (R118). -/
def lossStep (s : State) (w : Wgh) : Wgh :=
  if !lsDyn s then { w with l := lsInit s }
  else if !w.stepTok then { w with notoken := true }
  else if w.stepTokNf then { w with l := BitVec.ofInt 8 (max (w.l.toInt - 1) (lsMin s)), good := 0, lsdown := true }
  else if (w.good + 1).toNat = lsGrow s then { w with good := 0, l := BitVec.ofInt 8 (min (w.l.toInt + 1) (lsMax s)) }
  else { w with good := w.good + 1 }

/-- STEP acts at its retirement: the copy of the state it replaces, then every enabled weigher, then the loss scale (R116, R118, R119). -/
def wghStepDone (s : State) : State :=
  s.modWgh (fun w =>
    let ws := (List.range 16).foldl (fun t k =>
      if wghEn s k then tabMod {} t k (fun x => weigherStep s k x (tabGet {} w.acc2 k)) else t) w.w
    let cp := (List.range 16).foldl (fun t k =>
      let x := tabGet ({} : Weigher) w.w k
      tabSet {} t k { hist := x.hist, fill := x.fill, s := x.s }) ([] : Tab WCopy)
    { lossStep s w with w := ws, acc2 := [], stepping := false, copy := cp, copyL := w.l, copyGood := w.good })

/-- The copy is restored (R119; 11 R275, 16 R399). -/
def wghRestore (s : State) : State :=
  s.modWgh (fun w =>
    let ws := (List.range 16).foldl (fun t k =>
      let c := tabGet ({} : WCopy) w.copy k
      tabMod {} t k (fun x => { x with hist := c.hist, fill := c.fill, s := c.s })) w.w
    { w with w := ws, l := w.copyL, good := w.copyGood })

/-- FLAGS result (Table 4). -/
def wghFlags (w : Wgh) : Nat :=
  w.nonfin.toNat + 2 ^ 16 * w.sat.toNat + 2 ^ 32 * w.mixed.toNat + (if w.nanAny then 2 ^ 48 else 0) +
    (if w.infAny then 2 ^ 49 else 0) + (if w.lsdown then 2 ^ 50 else 0) + (if w.notoken then 2 ^ 51 else 0)

/-- Clear the flags of a mask in the FLAGS layout (R120). -/
def wghClear (w : Wgh) (m : Dword) : Wgh :=
  { w with
    nonfin := w.nonfin &&& ~~~(m.setWidth 16)
    sat := w.sat &&& ~~~((m >>> 16).setWidth 16)
    mixed := w.mixed &&& ~~~((m >>> 32).setWidth 16)
    nanAny := w.nanAny && !m.getLsbD 48
    infAny := w.infAny && !m.getLsbD 49
    lsdown := w.lsdown && !m.getLsbD 50
    notoken := w.notoken && !m.getLsbD 51 }

end Sys2Proof.Machine
end

