-- ==== Sys2Proof/Machine/Issue.lean ====
section
/-! DEFINITION. Engine issue, the issue queues, dispatch, retirement and the discard of entries (03 R81 to R85, R433; 12 R284, R291). -/

namespace Sys2Proof.Machine

/-- The fields of form E that an issue uses, with its engine and the FN values that Table 9 lists. -/
structure IssueReq where
  e : Nat
  f : EForm
  fns : Nat
deriving DecidableEq, Repr

/-- The issue that an instruction asks for. -/
def issueOf : Instr → Option IssueReq
  | .arr f => some ⟨eARR, f, 5⟩
  | .vec f => some ⟨eVEC, f, 10⟩
  | .fac f => some ⟨eFAC, f, 6⟩
  | .wgh f => some ⟨eWGH, f, 5⟩
  | .str f => some ⟨eSTR, f, 3⟩
  | .pst f => some ⟨ePST, f, 4⟩
  | .sth f => some ⟨eSTH, f, 4⟩
  | _ => none

/-- The head of a queue registers its watch when it waits on an object that does not meet TAKE (12 R291). -/
def armHead (s : State) (e : Nat) : State :=
  let q := qOf s e
  if q.failed then s
  else
    match q.wait.head?.bind (·.wv) with
    | none => s
    | some o =>
      if condHolds 2 (objOf s o).val 0 || (watchOf s e).active then s
      else setWatch s e { obj := o, cond := 2, active := true }

/-- Logical ID of the extension word, when its valid bit is set: mapped, or none where it is unmapped (12 R283). -/
def wantId (s : State) (on : Bool) (i : Nat) : Option (Option Byte) :=
  if on then (mapId s s.core.cur.toNat i).map some else some none

/-- The queue entry of an issue; none when a sync ID is unmapped (R82, R83). -/
def entryOf (s : State) (f : EForm) : Option QEntry :=
  let x := extOf f.ext
  match wantId s (xWV x) (xWID x), wantId s (xSV x) (xSID x) with
  | some w, some v =>
    some { ctx := s.core.cur, fn := f.fn, sub := f.sub, dreg := f.d, d := rd s f.d, a := rd s f.a, b := rd s f.b
           fs := xFS x, wv := w, sv := v, sid := BitVec.ofNat 6 (xSID x) }
  | _, _ => none

/-- Enqueue; the head registers its watch. -/
def enqueue (s : State) (e : Nat) (ent : QEntry) : State :=
  armHead (modQ s e (fun q => { q with wait := q.wait ++ [ent] })) e

def qFull (s : State) (e : Nat) : Bool := decide (qDepth e ≤ (qOf s e).wait.length)

/-- An engine-issue instruction: ILLEGAL for a function that Table 9 does not list or an unmapped ID; it stalls while the queue is full (R81, R86). An issue after the control core waited departs like any other. -/
def issue (s : State) (i : Instr) (r : IssueReq) : Res :=
  instr s (lenOf r.f.ext) (decide (r.f.fn.toNat < r.fns)) (fun t =>
    match entryOf t r.f with
    | none => coreFault t fcILLEGAL 0
    | some ent =>
      if qFull t r.e then t.modCore (fun k => { k with mode := .full i })
      else advance (enqueue t r.e ent) (lenOf r.f.ext))

/-- A stalled issue proceeds when its queue has room (R81). -/
def unstall (s : State) : State :=
  match s.core.mode with
  | .full i =>
    match issueOf i with
    | none => s
    | some r =>
      if qFull s r.e then s
      else
        match entryOf s r.f with
        | none => s
        | some ent => advance (enqueue s r.e ent) (lenOf r.f.ext)
  | _ => s

/-- Fault unit number of an engine (16 Table 3). -/
def unitOf (e : Nat) : Nat := e + 1

/-- While a contained fault waits for its halt, FAC operations of that context and every WGH.STEP are discarded (16 R389). -/
def faultDiscards (s : State) (e : Nat) (ent : QEntry) : Bool :=
  match s.flt.haltCtx with
  | none => false
  | some c => (decide (e = eFAC) && decide (ent.ctx = c)) || (decide (e = eWGH) && decide (ent.fn = 1))

/-- The head of queue e, when it is function fn. -/
def headFn (s : State) (e fn : Nat) : Option QEntry :=
  if unitsOn s && !(qOf s e).failed then ((qOf s e).wait.head?).filter (fun x => decide (x.fn.toNat = fn)) else none

/-- The object on which an entry waits meets its condition. -/
def wvMet (s : State) (ent : QEntry) : Bool :=
  match ent.wv with
  | none => true
  | some o => condHolds 2 (objOf s o).val 0

/-- The head entry leaves queue e, and takes from the object on which it waited (12 R286). -/
def takeHead (s : State) (e : Nat) (ent : QEntry) : State :=
  match ent.wv with
  | none => popHead s e
  | some o => take (popHead s e) o

/-- Dispatch of the head of queue e, when it is function fn and the engine can accept it (R84). A head whose WV object is not met keeps its watch; the take is made at dispatch (12 R286). An operation that R389 of chapter 16 discards leaves without a take. The engine reads the spans as requester req, and waits for them. -/
def dispatchMem (s : State) (e fn : Nat) (can : QEntry → Bool) (req : Nat) (sp : QEntry → List (Nat × Nat))
    (body : QEntry → State → State) : Res :=
  match headFn s e fn with
  | none => .next s
  | some ent =>
    if faultDiscards s e ent then .next (unstall (armHead (signalMany (popHead s e) (srcOf e) ent.sv.toList) e))
    else if !wvMet s ent then .next (armHead s e)
    else if !can ent then .next s
    else if spansWait s (sp ent) then .next (await s req (sp ent))
    else .next (unstall (armHead (body ent (takeHead s e ent)) e))

/-- Dispatch of an operation that makes no access of its own. -/
def dispatch (s : State) (e fn : Nat) (can : QEntry → Bool) (body : QEntry → State → State) : Res :=
  dispatchMem s e fn can 0 (fun _ => []) body

/-- The dispatched operation retires at once, with its signal. -/
def retireNow (s : State) (e : Nat) (ent : QEntry) : State := progress (signalMany s (srcOf e) ent.sv.toList)

/-- The dispatched operation fails a check: the fault, the discards and their signals (R433). -/
def dispatchFail (s : State) (e : Nat) (ent : QEntry) (code : Nat) (addr : Addr) (cause : Nat) : State :=
  failQueue (raise s code (unitOf e) addr cause) e ent.sv

/-- An issue-queue entry enqueued after a failed check is discarded with its signal (R433). A core that stalls on a queue with room goes on (R81). -/
def execQueueDiscard (q : BitVec 3) (s : State) : Res :=
  let e := q.toNat
  match (qOf s e).wait with
  | [] => whenOn (unitsOn s) s (unstall s)
  | ent :: rest =>
    whenOn (unitsOn s && (qOf s e).failed) s
      (unstall (signalMany (dropWatch (modQ s e (fun x => { x with wait := rest })) e) (srcOf e) ent.sv.toList))

end Sys2Proof.Machine
end

