-- ==== Sys2Proof/Machine/Tensor.lean ====
section
/-! DEFINITION. Tensors in local memory: reading descriptors, widening elements, and narrowing with the observation of the weighers (07 R176 to R181, 04 R103 to R115). -/

namespace Sys2Proof.Machine

/-- 32-bit word of memory. -/
def mWord (s : State) (a : Nat) : Nat := mNat s a 4

/-- An aligned address of n bytes in DATA. -/
def dataAt (s : State) (a al n : Nat) : Bool := decide (a % al = 0) && permits s [pDATA] a n

/-- Address of a layout descriptor that an engine can read (R176). -/
def ldescAt (s : State) (a : Nat) : Bool := dataAt s a 32 32

/-- The descriptor at an address, its scale latched; none when reserved bits or codes are not 0. -/
def readLayout (s : State) (a : Nat) : Option Layout :=
  (parseLayout (classFmt s) (fun i => mWord s (a + 4 * i))).map (latchScale s)

/-- Every extent of a tensor lies in the partitions. -/
def inParts (s : State) (ps : List Nat) (l : Layout) : Bool := permitsAll s ps l.extents

/-- Reading a tensor meets the errors of its extents. -/
def touchLayout (s : State) (req : Nat) (l : Layout) : State := touchSpans s req l.extents

/-- Some extent of a tensor waits for its banks. -/
def layoutWaits (s : State) (l : Layout) : Bool := spansWait s l.extents

/-- The descriptor at an address is read: its codeword errors are met (R183, R184). -/
def touchDescr (s : State) (req a : Nat) : State := touchRead s req a 32

/-- Bytes of memory that hold element (r, c): start and length. -/
def Layout.spans (l : Layout) (r c : Nat) : List (Nat × Nat) :=
  if l.isMx then [(l.mxAddr r c, mxBlockBytes l.fmt), (l.mxScaleAddr r c, 1)] else [(l.elemAddr r c, l.width / 8)]

/-- Multiples of 32 from the one at or below a on, below a + n. -/
def chunks32 (a n : Nat) : List Nat := (List.range ((a + n + 31) / 32 - a / 32)).map (fun k => 32 * (a / 32 + k))

/-- Bytes that hold nr rows and nc columns from (r, c) on: the blocks and scales of an MX tensor, and else per row of a linear tensor or of a tile. -/
def Layout.window (l : Layout) (r c nr nc : Nat) : List (Nat × Nat) :=
  if l.isMx then
    if l.red then (chunks32 r nr).flatMap (fun i => (List.range nc).flatMap (fun j => l.spans i (c + j)))
    else (List.range nr).flatMap (fun i => (chunks32 c nc).flatMap (fun j => l.spans (r + i) j))
  else (List.range nr).flatMap (fun i =>
    if l.linear then [(l.elemAddr (r + i) c, nc * (l.width / 8))]
    else (List.range ((c + nc + 7) / 8 - c / 8)).map (fun k =>
      let lo := max c (8 * (c / 8 + k))
      let hi := min (c + nc) (8 * (c / 8 + k) + 8)
      (l.elemAddr (r + i) lo, (hi - lo) * (l.width / 8))))

/-- What an engine operation has done and not yet written: the state without its writings, and the writings, the latest first. They land as it retires (03 R98; 08 R217). -/
structure Emit where
  s : State
  wr : Writes := []
deriving DecidableEq, Repr

def Emit.put (e : Emit) (a : Nat) (bs : List Byte) : Emit := { e with wr := (a, bs) :: e.wr }

/-- The writings in order. -/
def Emit.writes (e : Emit) : Writes := e.wr.reverse

/-- Local memory as it will be when groups of writings have landed. -/
def memWith (mem : List Host.Cell) (ws : List Writes) : List Host.Cell := ws.flatten.foldl (fun m w => memPut m w.1 w.2) mem

/-- Random bits of a tensor's element indices under a step field. -/
def rndOf (s : State) (l : Layout) (step : BitVec 48) (i : Nat) : Nat := srBits s l.tensor l.cls step i

/-- Narrow a value into element (r, c) of a typed tensor that is not MX (R106). -/
def putElem (e : Emit) (l : Layout) (step : BitVec 48) (r c : Nat) (v : Word) : Emit :=
  let x := l.store (rndOf e.s l step) r c v
  { e with s := observe e.s l.tensor l.fmt [x.2] }.put (l.elemAddr r c) x.1

/-- Write the code of element (r, c) of a tensor that is not MX. -/
def putCode (e : Emit) (l : Layout) (r c code : Nat) : Emit := e.put (l.elemAddr r c) (codeBytes l.width code)

/-- A binary32 value converted to an unsigned integer of w bits, saturating; NaN gives 0 (08 R208). The spec names no rounding of a fraction: whether it goes up is free (log entry 31). -/
def toUnsigned (w : Nat) (v : Word) : Nat :=
  match f32 v with
  | .nan => 0
  | .inf neg => if neg then 0 else 2 ^ w - 1
  | .fin neg m e =>
    if neg then 0
    else if 0 ≤ e then min (m * 2 ^ e.toNat) (2 ^ w - 1)
    else
      let sh := (-e).toNat
      min (m / 2 ^ sh + if m % 2 ^ sh = 0 then 0 else if Config.rawRoundUp v then 1 else 0) (2 ^ w - 1)

/-- Narrow the present values of the MX block that element (r, c) begins (R111); codes of absent elements are free (log entry 28). -/
def putBlock (e : Emit) (l : Layout) (step : BitVec 48) (r c : Nat) (vs : List (Option Word)) : Emit :=
  let here := (vs.mapIdx (fun i v => (i, v))).filterMap (fun p => p.2.map (fun v => (p.1, v)))
  let idx := fun i => if l.red then l.index (r + i) c else l.index r (c + i)
  let at_ := fun k => (here.getD k (0, 0)).1
  let n := mxNarrow l.fmt l.s (fun k => roundingOf l.sr (rndOf e.s l step) (idx (at_ k))) (here.map (·.2))
  let a := l.mxAddr r c
  let codes := (List.range 32).map (fun i =>
    match here.findIdx? (fun p => decide (p.1 = i)) with
    | some k => ((n.2[k]?).map (·.code)).getD 0
    | none => Config.mxAbsent a i % 2 ^ fmtWidth l.fmt)
  let t := observe e.s l.tensor l.fmt (List.zipWith (fun (p : Nat × Word) (z : Narrowed) => ⟨p.2, z.sat, z.toInf⟩) here n.2)
  (({ e with s := t }.put a (mxBytes l.fmt codes)).put (l.mxScaleAddr r c) [BitVec.ofNat 8 n.1])

/-- Every (row, column) of a tensor, row by row. -/
def Layout.places (l : Layout) : List (Nat × Nat) :=
  (List.range l.rows).flatMap (fun r => (List.range l.cols).map (fun c => (r, c)))

/-- Narrow a value into every element of a tensor. -/
def putTensor (e : Emit) (l : Layout) (step : BitVec 48) (val : Nat → Nat → Option Word) : Emit :=
  if l.isMx then
    (l.places.filter (fun p => decide ((if l.red then p.1 else p.2) % 32 = 0))).foldl (fun t p =>
      let vs := (List.range 32).map (fun i =>
        let r := if l.red then p.1 + i else p.1
        let c := if l.red then p.2 else p.2 + i
        if r < l.rows ∧ c < l.cols then val r c else none)
      if vs.all Option.isNone then t else putBlock t l step p.1 p.2 vs) e
  else l.places.foldl (fun t p =>
    match val p.1 p.2 with
    | some v => putElem t l step p.1 p.2 v
    | none => t) e

/-- What a bit-for-bit copy of a tensor moves to another place of the same kind, format, order and shape: source, destination and length of each element, or of each block and scale of an MX tensor. -/
def copyPairs (src dst : Layout) : List (Nat × Nat × Nat) :=
  if src.isMx then
    (src.places.filter (fun p => decide ((if src.red then p.1 else p.2) % 32 = 0))).flatMap (fun p =>
      [(src.mxAddr p.1 p.2, dst.mxAddr p.1 p.2, mxBlockBytes src.fmt), (src.mxScaleAddr p.1 p.2, dst.mxScaleAddr p.1 p.2, 1)])
  else src.places.map (fun p => (src.elemAddr p.1 p.2, dst.elemAddr p.1 p.2, src.width / 8))

/-- Copy a tensor bit for bit, as far as its bytes are there. mem holds the source. -/
def copyTensor (e : Emit) (mem : List Host.Cell) (src dst : Layout) (have_ : Nat → Nat → Bool) : Emit :=
  (copyPairs src dst).foldl (fun t p => if have_ p.1 p.2.2 then t.put p.2.1 (memBytes mem p.1 p.2.2) else t) e

/-- Where n bytes at a of a source go, when a copy moves all that lies there by one distance. -/
def copyDest (src dst : Layout) (a n : Nat) : Option Nat :=
  match (copyPairs src dst).filter (fun p => decide (p.1 < a + n) && decide (a < p.1 + p.2.2)) with
  | [] => none
  | p :: t => if t.all (fun q => decide (q.2.1 + p.1 = p.2.1 + q.1)) then some (p.2.1 + a - p.1) else none

/-- Bytes that hold element (r, c) are all there. -/
def Layout.there (l : Layout) (have_ : Nat → Nat → Bool) (r c : Nat) : Bool :=
  if l.isMx then have_ (l.mxAddr r c) (mxBlockBytes l.fmt) && have_ (l.mxScaleAddr r c) 1
  else have_ (l.elemAddr r c) (l.width / 8)

end Sys2Proof.Machine
end

