-- ==== Sys2Proof/Machine/Gov.lean ====
section
/-! DEFINITION. The governor: voltage requests, windows, the issue mask, phases and requests, throttle reasons and markers (14 R336 to R353; 03 R90). -/

namespace Sys2Proof.Machine

/-! Voltage requests and the energy scale (R336). -/

/-- Nominal code of a point (Table 1); a reserved code has none. -/
def nominalCode (op : BitVec 3) : Option Int :=
  match op.toNat with
  | 0 => some 44
  | 1 => some 34
  | 2 => some 24
  | 3 => some 16
  | 4 => some 10
  | _ => none

def trimOf (s : State) (op : BitVec 3) : Int := (tabGet 0 s.ldg.trim op.toNat).toInt

/-- Request of a point: nominal code plus trim, held between 10 and 60. -/
def requestOf (s : State) (op : BitVec 3) (old : BitVec 6) : BitVec 6 :=
  match nominalCode op with
  | none => old
  | some n => BitVec.ofInt 6 (max 10 (min (n + trimOf s op) 60))

/-- The requests follow OP_CODE, PWR_OPN and the trims. -/
def updateReq (s : State) : State :=
  s.modGov (fun g => { g with vreqCur := requestOf s s.clk.op g.vreqCur, vreqNxt := requestOf s s.clk.opn g.vreqNxt })

/-- Sets the point in force. -/
def setOp_ (s : State) (op : BitVec 3) : State := updateReq (s.modClk (fun c => { c with op := op }))

/-- a-cycles in a tick at a point (01 Table 6). -/
def acycTick (op : BitVec 3) : Nat :=
  match op.toNat with
  | 0 => 600
  | 1 => 500
  | 2 => 400
  | 3 => 300
  | _ => 150

/-- Parts of a tick in which time within it is kept, and those that one a-cycle takes: whole at every point. -/
def tickParts : Nat := 6000
def acycParts (op : BitVec 3) : Nat := tickParts / acycTick op

/-! Caps (R342, R344, R345). -/

def mT (s : State) : Nat :=
  match s.gov.therm.toNat with
  | 2 => min s.gov.cap2.toNat 64
  | 3 => min s.gov.cap3.toNat 64
  | _ => 64
def mD (s : State) : Nat := if s.gov.dbgEn then min s.gov.dbgMask.toNat 64 else 64
/-- The effective issue mask. -/
def effMask (s : State) : Nat := min (min s.gov.mB (mT s)) (min (mD s) s.gov.mX)

/-! Throttle reasons (R351, Table 4). -/

/-- Whether reason i is active; reason 4 lies between two commands (log entry 46). -/
def reasonOn (s : State) (i : Nat) : Bool :=
  match i with
  | 0 => decide (s.gov.mB < 64)
  | 1 => decide (mT s < 64)
  | 2 => s.clk.stretch
  | 3 => s.clk.alert
  | 5 => s.gov.late
  | 6 => decide (mD s < 64)
  | 7 => decide (s.gov.mX < 64)
  | _ => false

/-- What a change of its condition does to a reason. -/
def Reason.step (r : Reason) (b : Bool) : Reason :=
  { r with on := b, seen := r.seen || b, evt := r.evt + if b && !r.on then 1 else 0 }

/-- The reasons follow their conditions. -/
def reasons (s : State) : State :=
  s.modGov (fun g =>
    let r := (List.range 8).foldl (fun t i => tabMod {} t i (fun x => x.step (reasonOn s i))) g.rsn
    { g with rsn := r })

/-- A tick in which a reason was active. -/
def Reason.tick (r : Reason) : Reason := { r with dur := r.dur + if r.seen || r.on then 1 else 0, seen := r.on }

/-- A reason that was active and is over within one command. -/
def Reason.pulse (r : Reason) : Reason := { r with evt := r.evt + 1, seen := true }

/-! Energy in nJ, and the marker (R341). -/

/-- Units of the energy count in a nanojoule: 10^6 fJ of 2^16 units. -/
def unitNj : Nat := 65536 * 1000000

def energyNj (s : State) : Dword := BitVec.ofNat 64 (s.gov.energy / unitNj)

/-- An armed marker is captured at a release. -/
def captureMark (s : State) : State :=
  if s.gov.markArm then
    s.modGov (fun g =>
      let m := (List.range 8).foldl (fun t i =>
        let r := tabGet ({} : Reason) g.rsn i
        tabSet 0 (tabSet 0 t (2 * i) r.dur) (2 * i + 1) r.evt) g.markRsn
      { g with markArm := false, markEnergy := energyNj s, markPticks := s.ldg.pticks, markRsn := m })
  else s

/-- GOV_CTRL_MARK arms a marker (R341). -/
def armMark (s : State) : State := s.modGov (fun g => { g with markArm := true })
def execGovCtrlMark (s : State) : Res := regCmd .govCtrlMark s (armMark s)

/-! Windows (R338, R339). -/

/-- Allowance in force, nJ: from reset until the first window the default applies. -/
def allowance (s : State) : Nat := (if s.gov.winAny then s.gov.allowCur else s.gov.allowDflt).toNat

/-- Budget of the running window, nJ. -/
def budgetNj (s : State) : Nat := allowance s - s.gov.debt.toNat

/-- A window begins: the ended one's overspend, in whole nJ (log entry 44), becomes its debt (R339). -/
def beginWindow (s : State) (allow : Half) (own : Bool) : State :=
  let spent := (s.gov.energy - s.gov.winEnergy) / unitNj
  let debt := min (spent - budgetNj s) (allowance s)
  reasons (s.modGov (fun g => { g with
    allowCur := allow
    debt := BitVec.ofNat 16 debt
    winTick := 0
    winEnergy := g.energy
    winOwn := own
    winAny := true
    tickGone := 0
    curReq := g.reqFixed
    reqFixed := false
    late := g.late && (!g.reqFixed || g.lateHold)
    lateHold := g.lateHold && !g.reqFixed
    pend := g.pend.map (fun p => { p with lateNow := p.afterReq, afterReq := false })
    noallow := g.noallow || own
    allowMiss := g.allowMiss + if own then 1 else 0 }))

/-- ALLOWANCE_STROBE begins a window with the sampled allowance. -/
def execAllowanceStrobe (allow : Half) (s : State) : Res :=
  whenOn (unitsOn s) s ((beginWindow s allow false).modGov (fun g => { g with noStrobe := 0 }))

/-- DEFAULT_WINDOW: the governor begins a window itself, 12 ticks after the last strobe and then every 10. -/
def execDefaultWindow (s : State) : Res :=
  whenOn (unitsOn s && decide (12 ≤ s.gov.noStrobe) && (!s.gov.winOwn || decide (10 ≤ s.gov.winTick))) s
    (beginWindow s s.gov.allowDflt true)

/-! The budget mask (R343). -/

/-- Slew in 64ths; 0 acts as 1. -/
def slewOf (s : State) : Nat := max 1 s.gov.slew.toNat

/-- a-cycles left in the window at ten ticks from its start and the current point; 64 when it runs past them. -/
def winLeft (s : State) : Nat :=
  let g := s.gov
  let left := ((10 - g.winTick) * tickParts - g.tickGone) * acycTick s.clk.op / tickParts
  if left = 0 then 64 else left

/-- The target t of a control interval; pn / pd is the drover energy per a-cycle at full issue. -/
def maskTarget (s : State) (pn pd : Nat) : Nat :=
  let g := s.gov
  let r : Int := (budgetNj s * unitNj : Nat) - ((g.energy - g.winEnergy : Nat) : Int)
  let n := winLeft s
  let other : Int := ((g.energy - g.ivEnergy : Nat) : Int) - ((g.drover - g.ivDrover : Nat) : Int)
  if r ≤ 0 then 0
  else if pn = 0 then 64
  else
    -- 64 * (r / n - other / 64) / (pn / pd), floored
    let num : Int := (64 * r - (n : Int) * other) * (pd : Int)
    (max 0 (min (num / ((n * pn : Nat) : Int)) 64)).toNat

/-- MASK_UPDATE: the governor sets m_B within the slew (R343). m_last is the effective mask of the ended interval (log entry 44). -/
def execMaskUpdate (s : State) : Res :=
  let m := effMask s
  let pn := if m = 0 then s.gov.pdNum else s.gov.drover - s.gov.ivDrover
  let pd := if m = 0 then s.gov.pdDen else m
  let t := maskTarget s pn pd
  let b := max (s.gov.mB - slewOf s) (min t (s.gov.mB + slewOf s))
  whenOn (unitsOn s) s
    (reasons (s.modGov (fun g => { g with mB := b, pdNum := pn, pdDen := pd, ivEnergy := g.energy, ivDrover := g.drover })))

/-! Thermal level, debug cap (R344, R345). -/

/-- THERMAL_CHANGE: PWR_THERM as sampled; a change from 0 or 1 to 2 or 3 is one excursion. -/
def execThermalChange (level : BitVec 2) (s : State) : Res :=
  let hot := decide (s.gov.therm.toNat < 2) && decide (2 ≤ level.toNat)
  whenOn (unitsOn s) s
    (reasons ((s.modGov (fun g => { g with therm := level })).modLdg (fun l => { l with thex := l.thex + if hot then 1 else 0 })))

/-- GOV_DBG_WRITE: the debug cap, when invasive debug is allowed. -/
def setDbgCap (s : State) (val : Word) : State :=
  if invasive s then reasons (s.modGov (fun g => { g with dbgMask := val.setWidth 7, dbgEn := val.getLsbD 8 })) else s
def execGovDbgWrite (val : Word) (s : State) : Res := regCmd (.govDbgWrite val) s (setDbgCap s val)

/-! Phases and the tariff table (R346 to R349). -/

def tariffOf (s : State) (p : BitVec 6) : Tariff := tabGet {} s.gov.tariff p.toNat

/-- What a phase of n a-cycles with energy e teaches. -/
def Tariff.learn (x : Tariff) (n e : Nat) : Tariff :=
  if n < 64 then x
  else
    let v := e / n
    let c := BitVec.ofNat 8 (min (x.n.toNat + 1) 255)
    if x.n = 0 then { e := BitVec.ofNat 32 v, d := BitVec.ofNat 32 n, n := c }
    else
      { e := BitVec.ofInt 32 ((x.e.toNat : Int) + ((v : Int) - (x.e.toNat : Int)) / 8)
        d := BitVec.ofInt 32 ((x.d.toNat : Int) + ((n : Int) - (x.d.toNat : Int)) / 8), n := c }

/-- PHASE: phase F[5:0] becomes pending, to begin after the lead time (03 R90; R346). -/
def execPhase (f : CForm) (s : State) : Res :=
  let lead := bitsOf (extOf f.ext).toNat 23 0
  instr s (lenOf f.ext) true (fun t =>
    advance (t.modGov (fun g => { g with
      pend := some { phase := f.f.setWidth 6, start := g.acyc + lead, lateNow := g.curReq, afterReq := g.reqFixed } })) (lenOf f.ext))

/-- PHASE_BEGIN: the pending phase begins and the ended one teaches the table. HINT_LATE of an earlier late phase goes on to its own end (R349). -/
def execPhaseBegin (s : State) : Res :=
  match s.gov.pend with
  | none => .next s
  | some p =>
    whenOn (unitsOn s) s
      (reasons (s.modGov (fun g => { g with
        tariff := tabMod {} g.tariff g.phaseCur.toNat (fun x => x.learn (g.acyc - g.phStart) g.phEnergy)
        phaseCur := p.phase, pend := none, phStart := g.acyc, phEnergy := 0
        late := g.late || p.lateNow, lateHold := g.lateHold || (p.lateNow && p.afterReq) })))

/-- GOV_CTRL_TRFCLR clears every N (R347). -/
def clearTariff (s : State) : State :=
  s.modGov (fun g =>
    let t := (List.range 64).foldl (fun t p => tabMod {} t p (fun x => { x with n := 0 })) g.tariff
    { g with tariff := t })
def execGovCtrlTrfclr (s : State) : Res := regCmd .govCtrlTrfclr s (clearTariff s)

/-- BASE_BUDGET of a phase, nJ. -/
def baseBudget (s : State) (p : BitVec 6) : Nat := cfg s (oGOV + 4 + 2 * p.toNat) 2

/-- A span of n a-cycles of phase p, in units of 1 / (A × 2^16 × 10^6) nJ. -/
def spanCost (s : State) (a n : Nat) (p : BitVec 6) : Nat :=
  let x := tariffOf s p
  if x.n = 0 then baseBudget s p * n * unitNj else x.e.toNat * scale16 s.gov.vreqCur * n * a

/-- The request for the next window (R348): the spans of the current phase, of phase 0 and of the pending one. -/
def nextRequest (s : State) : Nat :=
  let g := s.gov
  let a := 10 * acycTick s.clk.op
  let b := g.acyc + 2 * acycTick s.clk.op
  let clip := fun x => max b (min x (b + a))
  let pend := match g.pend with
    | some p => clip p.start
    | none => b + a
  let cur := min pend (if (tariffOf s g.phaseCur).n = 0 then b + a else clip (g.phStart + (tariffOf s g.phaseCur).d.toNat))
  let cost := spanCost s a (cur - b) g.phaseCur + spanCost s a (pend - cur) 0 +
    (match g.pend with
     | some p => spanCost s a (b + a - pend) p.phase
     | none => 0)
  min 65535 (ceilDiv cost (a * unitNj))

/-- BUDGET_REQUEST: at tick 8 of a window that a strobe began, its request for the next one is fixed and driven. -/
def execBudgetRequest (s : State) : Res :=
  whenOn (unitsOn s && !s.gov.winOwn && !s.gov.reqFixed && decide (8 ≤ s.gov.winTick)) s
    (s.modGov (fun g => { g with reqLast := BitVec.ofNat 16 (nextRequest s), reqV := true, reqFixed := true }))

/-! Margin monitor (R353). -/

/-- The trim of the point in force changes by one step, unless it leaves -8 to 8 or its request 10 to 60. -/
def changeTrim (s : State) (up : Bool) : State :=
  let op := s.clk.op
  let t := trimOf s op + if up then 1 else -1
  match nominalCode op with
  | none => s
  | some n =>
    if t < -8 ∨ 8 < t ∨ n + t < 10 ∨ 60 < n + t then s
    else updateReq (s.modLdg (fun l => { l with trim := tabSet 0 l.trim op.toNat (BitVec.ofInt 5 t) }))

/-- MARGIN_READING: one reading, which may change the trim. -/
def execMarginReading (reading : Byte) (s : State) : Res :=
  let g := s.gov
  let r := reading.toInt
  let low := decide (r < g.mmLow.toInt)
  let high := !low && decide (g.mmHigh.toInt ≤ r)
  let same := decide (g.runOp = s.clk.op)
  let nl := if low then (if same then g.runLow else 0) + 1 else 0
  let nh := if high then (if same then g.runHigh else 0) + 1 else 0
  let up := decide (3 ≤ nl)
  let down := high && decide (g.mmLower.toNat ≤ nh)
  let t := (s.modGov (fun g => { g with
      mmRead := reading, mmOp := s.clk.op, runOp := s.clk.op, runLow := if up then 0 else nl, runHigh := if down then 0 else nh })).modLdg
    (fun l => { l with mmrd := l.mmrd + 1, mmlow := l.mmlow + if low then 1 else 0, lastRead := reading })
  whenOn (unitsOn s && !s.clk.stretch && decide (g.mmInt ≠ 0)) s
    (if up then changeTrim t true else if down then changeTrim t false else t)

/-- OPERATING_POINT_NOTICE: OP_CODE and PWR_OPN as sampled (R336). -/
def execOperatingPointNotice (opCode opn : BitVec 3) (s : State) : Res :=
  whenOn (unitsOn s) s (updateReq (s.modClk (fun c => { c with op := opCode, opn := opn })))

end Sys2Proof.Machine
end

