-- ==== Sys2Proof/Machine/Aes.lean ====
section
/-! DEFINITION. AES-256-GCM with a 96-bit IV and a 128-bit tag, as NIST SP 800-38D and FIPS 197 specify it (15 R369, R372; 02 R37). Blocks are numbers below 2^128, first byte most significant. -/

namespace Sys2Proof.Machine

/-- The S-box: byte x of this number is SubBytes of x. -/
def aesSbox : Nat := 0x16bb54b00f2d99416842e6bf0d89a18cdf2855cee9871e9b948ed9691198f8e19e1dc186b95735610ef6034866b53e708a8bbd4b1f74dde8c6b4a61c2e2578ba08ae7a65eaf4566ca94ed58d6d37c8e779e4959162acd3c25c2406490a3a32e0db0b5ede14b8ee4688902a22dc4f816073195d643d7ea7c41744975fec130ccdd2f3ff1021dab6bcf5389d928f40a351a89f3c507f02f94585334d43fbaaefd0cf584c4a39becb6a5bb1fc20ed00d153842fe329b3d63b52a05a6e1b1a2c830975b227ebe28012079a059618c323c7041531d871f1e5a534ccf73f362693fdb7c072a49cafa2d4adf04759fa7dc982ca76abd7fe2b670130c56f6bf27b777c63

def subByte (x : Nat) : Nat := aesSbox / 256 ^ x % 256

/-- Multiplication by x in GF(2^8). -/
def xtime (a : Nat) : Nat := if a < 128 then 2 * a else (2 * a - 256) ^^^ 0x1B

/-- Big-endian number of bytes. -/
def beNat (bs : List Nat) : Nat := bs.foldl (fun n b => 256 * n + b) 0

/-- n big-endian bytes of a number. -/
def beBytes (n v : Nat) : List Nat := (List.range n).map (fun i => v / 256 ^ (n - 1 - i) % 256)

/-- One word of the key schedule: i is the word's number, 8 or above, t the word before and p the word 8 before, each of 4 bytes. -/
def keyWord (i rcon : Nat) (t p : List Nat) : List Nat :=
  let u :=
    if i % 8 = 0 then
      match t with
      | [a, b, c, d] => [subByte b ^^^ rcon, subByte c, subByte d, subByte a]
      | _ => t
    else if i % 8 = 4 then t.map subByte
    else t
  List.zipWith (fun a b => a ^^^ b) u p

/-- Key schedule: words newest first. -/
def keyGo : Nat → Nat → Nat → List (List Nat) → List (List Nat)
  | 0, _, _, ws => ws
  | k + 1, i, rcon, ws =>
    keyGo k (i + 1) (if i % 8 = 0 then xtime rcon else rcon) (keyWord i rcon (ws.getD 0 []) (ws.getD 7 []) :: ws)

/-- The 15 round keys of 16 bytes. KEY_K[255:248] is the first key byte (log entry 16). -/
def roundKeys (key : BitVec 256) : List (List Nat) :=
  let b := beBytes 32 key.toNat
  let first := (List.range 8).map (fun i => (b.drop (4 * i)).take 4)
  let ws := (keyGo 52 8 1 first.reverse).reverse
  (List.range 15).map (fun r => ((ws.drop (4 * r)).take 4).flatten)

/-- ShiftRows: byte i of the new state is byte shiftRow i of the old. -/
def shiftRow (i : Nat) : Nat := i % 4 + 4 * ((i / 4 + i % 4) % 4)

/-- MixColumns on one column. -/
def mixCol : List Nat → List Nat
  | [a, b, c, d] =>
    [xtime a ^^^ xtime b ^^^ b ^^^ c ^^^ d, a ^^^ xtime b ^^^ xtime c ^^^ c ^^^ d,
     a ^^^ b ^^^ xtime c ^^^ xtime d ^^^ d, xtime a ^^^ a ^^^ b ^^^ c ^^^ xtime d]
  | x => x

def addKey (s k : List Nat) : List Nat := List.zipWith (fun a b => a ^^^ b) s k

def subShift (s : List Nat) : List Nat := (List.range 16).map (fun i => subByte (s.getD (shiftRow i) 0))

/-- The rounds after the first key addition. -/
def aesRounds : List (List Nat) → List Nat → List Nat
  | [], s => s
  | [k], s => addKey (subShift s) k
  | k :: ks, s =>
    let t := subShift s
    aesRounds ks (addKey (((List.range 4).map (fun c => mixCol ((t.drop (4 * c)).take 4))).flatten) k)

/-- The cipher on one block. -/
def aesBlock (rk : List (List Nat)) (b : Nat) : Nat :=
  match rk with
  | [] => b
  | k :: ks => beNat (aesRounds ks (addKey (beBytes 16 b) k))

/-- Product in GF(2^128), bit 0 the most significant (SP 800-38D, 6.3): z gathers v where the bits of x below 2^n are set. -/
def gfMulGo : Nat → Nat → Nat → Nat → Nat
  | 0, _, z, _ => z
  | n + 1, x, z, v =>
    gfMulGo n x (if x.testBit n then z ^^^ v else z)
      (if v % 2 = 1 then v / 2 ^^^ 0xE1000000000000000000000000000000 else v / 2)

def gfMul (x y : Nat) : Nat := gfMulGo 128 x 0 y

/-- The 16-byte blocks of a string, the last padded with zeros; n bounds their number. -/
def gcmBlocks : Nat → List Byte → List Nat
  | 0, _ => []
  | n + 1, bs =>
    match bs with
    | [] => []
    | _ => beNat (((bs.take 16).map (·.toNat)) ++ List.replicate (16 - (bs.take 16).length) 0) :: gcmBlocks n (bs.drop 16)

def blocksOf (bs : List Byte) : List Nat := gcmBlocks bs.length bs

/-- GHASH over the additional data, the ciphertext and their lengths. -/
def ghash (h : Nat) (aad c : List Byte) : Nat :=
  (blocksOf aad ++ blocksOf c ++ [8 * aad.length * 2 ^ 64 + 8 * c.length]).foldl (fun y b => gfMul (y ^^^ b) h) 0

/-- Counter mode from counter block cb on. -/
def gctr (rk : List (List Nat)) : Nat → Nat → List Byte → List Byte
  | 0, _, _ => []
  | n + 1, cb, bs =>
    match bs with
    | [] => []
    | _ =>
      List.zipWith (fun (a : Byte) k => a ^^^ BitVec.ofNat 8 k) (bs.take 16) (beBytes 16 (aesBlock rk cb)) ++
        gctr rk n (cb / 2 ^ 32 * 2 ^ 32 + (cb + 1) % 2 ^ 32) (bs.drop 16)

/-- What GCM gives for a string under a key and a 96-bit IV: the string through counter mode, and the tag over a ciphertext. -/
def gcmCrypt (key : BitVec 256) (iv : BitVec 96) (bs : List Byte) : List Byte :=
  gctr (roundKeys key) bs.length (iv.toNat * 2 ^ 32 + 2) bs

/-- The 16 tag bytes of a ciphertext. -/
def gcmTag (key : BitVec 256) (iv : BitVec 96) (aad c : List Byte) : List Byte :=
  let rk := roundKeys key
  let s := ghash (aesBlock rk 0) aad c
  (beBytes 16 (s ^^^ aesBlock rk (iv.toNat * 2 ^ 32 + 1))).map (fun n => BitVec.ofNat 8 n)

/-- Decryption: none when the tag fails. -/
def gcmOpen (key : BitVec 256) (iv : BitVec 96) (aad c tag : List Byte) : Option (List Byte) :=
  if gcmTag key iv aad c = tag then some (gcmCrypt key iv c) else none

end Sys2Proof.Machine
end

