-- ==== Sys2Proof/Machine/Crc.lean ====
section
/-! DEFINITION. The CRC-64 of the journal (11 R269). -/

namespace Sys2Proof.Machine

/-- One bit of the CRC: shift left and reduce by the polynomial. -/
def crcBit (c : Dword) : Dword := if c.getLsbD 63 then (c <<< 1) ^^^ 0x42F0E1EBA9EA3693 else c <<< 1

/-- One byte, most significant bit first. -/
def crcByte (c : Dword) (b : Byte) : Dword :=
  (List.range 8).foldl (fun d _ => crcBit d) (c ^^^ (b.setWidth 64 <<< 56))

/-- CRC-64 with the ECMA-182 polynomial, initial value 0, no reflection, no final XOR (R269). -/
def crc64 (bs : List Byte) : Dword := bs.foldl crcByte 0

end Sys2Proof.Machine
end

