-- ==== Sys2Proof/Machine/Manifest.lean ====
section
/-! DEFINITION. The manifest unit: the bit-stream and its checks, loads, arming, shadow writes, commits and what a commit changes (02 R32 to R61). -/

namespace Sys2Proof.Machine

/-- Little-endian number of n bytes of a store copy. -/
def tNum (t : Tab Byte) (o n : Nat) : Nat := leNat ((List.range n).map (fun i => tabGet 0 t (o + i)))

/-- Bits of the 32-bit store word at an offset. -/
def tBits (t : Tab Byte) (o hi lo : Nat) : Nat := bitsOf (tNum t o 4) hi lo

/-- Write bytes into a store copy. -/
def tPut (t : Tab Byte) (o : Nat) (bs : List Byte) : Tab Byte :=
  (bs.mapIdx (fun i b => (o + i, b))).foldl (fun u p => tabSet 0 u p.1 p.2) t

/-- The bits of the mask of the store word at an offset take the value. -/
def tWord (t : Tab Byte) (o : Nat) (mask val : Word) : Tab Byte :=
  tPut t o (leBytes 4 ((BitVec.ofNat 32 (tNum t o 4) &&& ~~~mask) ||| (val &&& mask)))

/-- The store without the slot of n bytes at an offset. -/
def tClear (t : Tab Byte) (o n : Nat) : Tab Byte := t.filter (fun p => decide (p.1 < o) || decide (o + n ≤ p.1))

/-- A row of Table 1 (R33). -/
structure SecType where
  code : Nat
  off : Nat
  slot : Nat
  maxBody : Nat
  required : Bool
deriving DecidableEq, Repr

/-- Table 1. -/
def secTypes : List SecType :=
  [⟨1, oPART, 64, 48, true⟩, ⟨2, oFOLD, 512, 260, true⟩, ⟨3, oCHAIN, 2176, 2116, false⟩, ⟨4, oFMT, 64, 16, true⟩,
   ⟨5, oWEIGH, 256, 136, false⟩, ⟨6, oCTX, 512, 320, true⟩, ⟨7, oITIN, 256, 256, true⟩, ⟨8, oREGION, 4096, 4096, false⟩,
   ⟨9, oFACTOR, 64, 32, true⟩, ⟨10, oGOV, 256, 132, true⟩, ⟨11, oSEC, 64, 16, true⟩, ⟨12, oJOURNAL, 64, 8, true⟩]

/-- An error of Table 13: code, section type and offset (R43). -/
structure LoadErr where
  code : Nat
  type : Nat
  off : Nat
deriving DecidableEq, Repr

/-- Read n sections from decrypted bytes (R36): the bodies by type, or the error located as R43 states. -/
def parseSections : Nat → List Byte → List (Nat × List Byte) → Except LoadErr (List (Nat × List Byte))
  | 0, bs, acc => if bs = [] then .ok acc else .error ⟨6, 0, 0x0C⟩
  | n + 1, bs, acc =>
    if bs.length < 8 then .error ⟨6, 0, 0x0C⟩
    else
      let w0 := leNat (bs.take 4)
      let len := leNat ((bs.drop 4).take 4)
      let ty := w0 % 256
      match secTypes.find? (fun t => decide (t.code = ty)) with
      | none => .error ⟨6, ty, 0⟩
      | some t =>
        if acc.any (fun p => decide (p.1 = ty)) || decide (w0 / 256 % 256 ≠ 1) then .error ⟨6, ty, 0⟩
        else if len % 4 ≠ 0 ∨ t.maxBody < len then .error ⟨6, ty, 4⟩
        else if bs.length < 8 + len then .error ⟨6, 0, 0x0C⟩
        else parseSections n (bs.drop (8 + len)) (acc ++ [(ty, (bs.drop 8).take len)])

/-- A run of store words with the mask of their fields. -/
structure MaskRow where
  off : Nat
  step : Nat
  n : Nat
  mask : Nat
deriving DecidableEq, Repr

/-- The fields of every section body (Table 3). -/
def maskRows : List MaskRow :=
  [⟨oPART, 4, 8, 0xFFFFFFFF⟩, ⟨oPART + 0x20, 4, 1, 0x7F03⟩, ⟨oFOLD, 4, 1, 0xFFFF01FF⟩, ⟨oFOLD + 4, 4, 64, 0xFFFFF⟩,
   ⟨oCHAIN, 4, 1, 0x3FFFF⟩, ⟨oCHAIN + 4, 36, 16, 0xF⟩] ++
  ((List.range 8).map (fun s => ⟨oCHAIN + 8 + 4 * s, 36, 16, 0xFFFFFFFF⟩)) ++
  [⟨oCHAIN + 0x244, 4, 384, 0xFFFFFFFF⟩, ⟨oFMT, 4, 2, 0x1F1F1F1F⟩, ⟨oFMT + 8, 4, 2, 0xFFFFFFFF⟩,
   ⟨oWEIGH, 4, 1, 0xFFFF00FF⟩, ⟨oWEIGH + 4, 4, 1, 0x1FFFF⟩, ⟨oWEIGH + 8, 8, 16, 0xFF1FFFFF⟩, ⟨oWEIGH + 12, 8, 16, 0xFF⟩] ++
  ((List.range 4).flatMap (fun c => [⟨oCTX + 80 * c, 4, 18, 0xFFFFFFFF⟩, ⟨oCTX + 80 * c + 0x48, 4, 1, 3⟩])) ++
  [⟨oITIN, 4, 64, 0xFFFFFFFF⟩, ⟨oREGION, 16, 256, 0xFFFFFFFF⟩, ⟨oREGION + 4, 16, 256, 0xFFFFFFFF⟩,
   ⟨oREGION + 8, 16, 256, 0xFFFFFFFF⟩, ⟨oREGION + 12, 16, 256, 0xFFFFFF0F⟩,
   ⟨oFACTOR, 4, 1, 0x1FF0103⟩, ⟨oFACTOR + 4, 4, 1, 0x3F⟩, ⟨oFACTOR + 8, 4, 5, 0xFFFFFFFF⟩,
   ⟨oGOV, 4, 1, 0xFF03⟩, ⟨oGOV + 4, 4, 32, 0xFFFFFFFF⟩, ⟨oSEC, 4, 1, 0xF⟩, ⟨oJOURNAL, 4, 1, 0xFFFF00FF⟩]

/-- Field bits of the store word at an offset. Bits that Table 3 does not list are reserved: the store holds none of them, and they read 0 (R39; 00 R5; log entry 83). -/
def storeMask (o : Nat) : Word :=
  match maskRows.find? (fun r => decide (r.off ≤ o) && decide (o < r.off + r.step * r.n) && decide ((o - r.off) % r.step = 0)) with
  | some r => BitVec.ofNat 32 r.mask
  | none => 0

/-- Field bits of the store byte at an offset. -/
def byteMask (o : Nat) : Byte := BitVec.ofNat 8 ((storeMask (o / 4 * 4)).toNat / 2 ^ (8 * (o % 4)))

/-- A section body at its store offset, its reserved bits 0. -/
def maskBody (o : Nat) (bs : List Byte) : List Byte := bs.mapIdx (fun i b => b &&& byteMask (o + i))

/-- The shadow that the sections give (R33, R38). -/
def mergeSections (delta : Bool) (bodies : List (Nat × List Byte)) (shadow : Tab Byte) : Tab Byte :=
  secTypes.foldl (fun t ty =>
    match bodies.find? (fun p => decide (p.1 = ty.code)) with
    | some p => tPut (tClear t ty.off ty.slot) ty.off (maskBody ty.off p.2)
    | none => if delta then t else tClear t ty.off ty.slot) shadow

/-- First element of a list of checks that fails. -/
def firstBad (l : List (Bool × Nat × Nat)) : Option (Nat × Nat) := (l.find? (fun x => x.1)).map (·.2)

/-- The FIELD conditions of R41, with G16 barred from classes 3 and 4 (04 R102) and allowed in class 7 (05 R124, log entry 98), and the ranges of Table 3 on a candidate store. p says which sections the manifest holds; a condition over several sections runs when one of them is present, and in a full manifest when the required ones are. The failing field comes as section type and body offset; of several, the first in the order of the sections' types and of their body offsets (R43, log entry 18). A partition of size 0 whose base lies above 1,536 KiB fails: DESIGN CHOICE, log entry 18. -/
def fieldErr (t : Tab Byte) (p : Nat → Bool) (delta : Bool) : Option (Nat × Nat) :=
  let req := fun (l : List Nat) => delta || l.all p
  let pb := fun i => tBits t (oPART + 4 * i) 15 0
  let ps := fun i => tBits t (oPART + 4 * i) 31 16
  let r6 := List.range 6
  let ctxs := (List.range 4).filter (fun c => decide (tBits t (oCTX + 80 * c + 0x48) 0 0 = 1))
  let reg := fun (c g hi lo : Nat) => tBits t (oREGION + 1024 * c + 16 * g + 0x0C) hi lo
  let overlap := fun i j => decide (0 < ps i) && decide (0 < ps j) && decide (pb j < pb i + ps i) && decide (pb i < pb j + ps j)
  let own := fun i =>
    match i with
    | 3 => decide (0 < ps 3) && decide (ps 3 < 9)
    | 4 => decide (64 < ps 4)
    | 5 => false
    | _ => decide (i < 2) && decide (ps i = 0)
  let ring := (p 1 || p 12) && req [1, 12] && decide (tBits t oJOURNAL 0 0 = 1) && decide (ps 5 = 0)
  let depot := (p 1 || p 8 || p 6) && req [1, 6] && decide (tBits t (oPART + 0x20) 8 8 = 1) &&
    ctxs.any (fun c =>
      let g := tBits t (oPART + 0x20) 14 9
      decide (reg c g 1 0 ≠ 1) || decide (reg c g 3 2 ≠ 3))
  let part := r6.map (fun i =>
      ((p 1 && (decide (1536 < pb i + ps i) || (List.range i).any (overlap i) || own i)) || (decide (i = 5) && ring), 1, 4 * i)) ++
    [((p 1 && decide (tBits t (oPART + 0x20) 1 0 = 3)) || depot, 1, 0x20)]
  let n := tBits t oFOLD 8 2
  let fo := fun i => oFOLD + 4 + 4 * i
  let first := fun i => tBits t (fo i) 5 0
  let len := fun i => tBits t (fo i) 9 6 + 1
  let shares := fun i j => decide (first j < first i + len i) && decide (first i < first j + len j)
  let fold := (p 2 && (decide (n = 0) || decide (64 < n) || decide (tBits t oFOLD 31 16 = 0)), 2, 0) ::
    (List.range (min n 64)).map (fun i =>
      (p 2 && (decide (64 < first i + len i) || decide (4 < tBits t (fo i) 12 10) || decide (4 < tBits t (fo i) 15 13) ||
        (List.range i).any (shares i)), 2, 4 + 4 * i))
  let chain := (List.range 16).map (fun q =>
    let st := tBits t (oCHAIN + 4 + 36 * q) 3 0
    (p 3 && decide (bitsOf (tBits t oCHAIN 15 0) q q = 1) && (decide (st = 0) || decide (8 < st)), 3, 4 + 36 * q))
  let fmt := (List.range 8).map (fun k =>
    let f := tNum t (oFMT + k) 1 % 16
    (p 4 && (decide (10 < f) || (decide (k ≤ 2) && decide (f = 0)) || (decide (k ≤ 4) && decide (f = 10)) ||
      ((decide (k = 5) || decide (k = 6)) && decide (f ≠ 0) && decide (f ≠ 10))), 4, k))
  let weigh := [(p 5 && decide (tBits t oWEIGH 31 16 = 0), 5, 0)]
  let phys := fun c i => tabGet 0 t (oCTX + 80 * c + 8 + i)
  let mapped := fun c i => (tNum t (oCTX + 80 * c) 8).testBit i
  let ctx := (p 6 && decide (tBits t (oCTX + 0x48) 0 0 = 0), 6, 0x48) ::
    (ctxs.map (fun c => (List.range 64).map (fun i =>
      (p 6 && mapped c i && (List.range i).any (fun j => mapped c j && decide (phys c j = phys c i)), 6, 80 * c + 8 + i)))).flatten
  let itin := (List.range 32).map (fun d =>
    let w := tNum t (oITIN + 8 * d) 4
    let a := bitsOf w 20 0
    ((p 7 || p 1) && req [7, 1] && decide (bitsOf w 31 31 = 1) &&
      (decide (a % 16 ≠ 0) || decide (a < 1024 * pb 1) || decide (1024 * (pb 1 + ps 1) < a + 16 * (bitsOf w 30 21 + 2))), 7, 8 * d))
  let region := ((List.range 256).map (fun g =>
    let o := oREGION + 16 * g
    let ty := tBits t (o + 0x0C) 1 0
    [(p 8 && decide (ty = 1) && decide (tBits t o 8 0 ≠ 0), 8, 16 * g),
     (p 8 && decide (ty ≠ 0) && decide (tNum t (o + 8) 4 = 0), 8, 16 * g + 8),
     (p 8 && decide (ty = 3), 8, 16 * g + 0x0C)])).flatten
  let factor := [(p 9 && decide (tBits t oFACTOR 1 0 = 3), 9, 0),
    ((p 9 || p 8 || p 6) && req [9, 6] && ctxs.any (fun c => decide (reg c (tBits t (oFACTOR + 4) 5 0) 2 2 = 0)), 9, 4),
    (p 9 && decide (tBits t (oFACTOR + 8) 5 0 ≠ 0), 9, 8)]
  let gov := [(p 10 && (decide (tBits t oGOV 1 0 = 3) || decide (tBits t oGOV 15 8 = 0)), 10, 0)]
  let sec := [(p 11 && decide (tBits t oSEC 1 0 = 3), 11, 0)]
  let int := tBits t oJOURNAL 31 16
  let jrnl := [(p 12 && decide (int = 0), 12, 0),
    ((p 12 || p 1) && req [12, 1] && decide (tBits t oJOURNAL 1 1 = 1) && decide (32 * ps 5 ≤ int), 12, 0)]
  firstBad (part ++ fold ++ chain ++ fmt ++ weigh ++ ctx ++ itin ++ region ++ factor ++ gov ++ sec ++ jrnl)

/-- CORE_ID fields (00 R1). -/
def coreCode : Nat := 0xFA1C
def coreMajor : Nat := 0x03
def coreMinor : Nat := 0x02

/-- What a load finds: the new shadow and epoch, an error, or a tag failure with its error. -/
inductive LoadResult where
  | pass (shadow : Tab Byte) (epoch : Word)
  | fail (e : LoadErr)
  | tag (e : LoadErr)
deriving DecidableEq, Repr

/-- The 96-bit IV of 12 bytes, first byte most significant (15 R369). -/
def ivOf (bs : List Byte) : BitVec 96 := BitVec.ofNat 96 (beNat (bs.map (·.toNat)))

/-- The header checks that need no key: MAGIC, core, FORMAT, LENGTH within its range, equal to the given length (R42 step 2). The offset of each error is that of the failing field. Of an image shorter than the header, MAGIC and the core's fields are checked on the bytes there are, before LENGTH: DESIGN CHOICE, log entry 18. -/
def headerErr (h : List Byte) (magic len lo hi : Nat) : Option LoadErr :=
  let f := fun o n => leNat ((h.drop o).take n)
  if f 0 4 ≠ magic then some ⟨1, 0, 0⟩
  else if f 4 2 ≠ coreCode then some ⟨2, 0, 4⟩
  else if f 6 1 ≠ coreMajor then some ⟨2, 0, 6⟩
  else if f 7 1 ≠ 1 then some ⟨2, 0, 7⟩
  else if f 8 4 ≠ len ∨ len % 4 ≠ 0 ∨ len < lo ∨ hi < len then some ⟨3, 0, 8⟩
  else none

/-- Source check of a load: in the DATA partition, or below 0x18_0000 while no manifest is live (R42 step 1). -/
def sourceOk (s : State) (a n : Nat) : Bool :=
  if s.man.isLive then permits s [pDATA] a n else decide (a + n ≤ memTop)

/-- Steps 1 to 5 of R42 on the image of n bytes at a. Reserved header bits that are not 0 fail it with FIELD after the tag check (log entry 18). -/
def loadEval (s : State) (a n : Nat) : LoadResult :=
  if !sourceOk s a n then .fail ⟨0x0B, 0, 0⟩
  else
    let img := memBytes s.mem.bytes a n
    let h := img.take 64
    match headerErr h 0xA3D011F5 n 88 65536 with
    | some e => .fail e
    | none =>
      if leNat ((h.drop 0x14).take 4) ≠ s.sec.keyId.toNat then .fail ⟨4, 0, 0x14⟩
      else
        let iv := (h.drop 0x18).take 12
        if leNat ((iv.drop 4).take 2) = 0 then .fail ⟨5, 0, 0x18⟩
        else
          match gcmOpen s.sec.key (ivOf iv) h ((img.drop 64).take (n - 80)) (img.drop (n - 16)) with
          | none => .tag ⟨5, 0, n - 16⟩
          | some plain =>
            let flags := leNat ((h.drop 0x0E).take 2)
            let cnt := leNat ((h.drop 0x0C).take 2)
            let delta := decide (flags % 2 = 1)
            if 2 ≤ flags then .fail ⟨8, 0, 0x0E⟩
            else if leNat (h.drop 0x24) ≠ 0 then .fail ⟨8, 0, 0x24⟩
            else if cnt = 0 ∨ 12 < cnt then .fail ⟨6, 0, 0x0C⟩
            else
              match parseSections cnt plain [] with
              | .error e => .fail e
              | .ok bodies =>
                let has := fun ty => bodies.any (fun b => decide (b.1 = ty))
                let cand := mergeSections delta bodies s.man.shadow
                match fieldErr cand has delta with
                | some (ty, off) => .fail ⟨8, ty, off⟩
                | none =>
                  match secTypes.find? (fun ty => ty.required && !has ty.code) with
                  | some ty =>
                    if delta then .pass cand (BitVec.ofNat 32 (leNat ((h.drop 0x10).take 4))) else .fail ⟨7, ty.code, 0⟩
                  | none => .pass cand (BitVec.ofNat 32 (leNat ((h.drop 0x10).take 4)))

/-- Domain-scope bytes in store order with the mask of their field bits (R59, Table 9): the extent of each section's part is the model's (log entry 82). -/
def agreeBytes : List (Nat × Nat) :=
  ((List.range 3).map (fun i => (oFMT + 5 + i, 0x1F))) ++ ((List.range 8).map (fun i => (oFMT + 8 + i, 0xFF))) ++
  [(oWEIGH, 0xFF), (oWEIGH + 1, 0), (oWEIGH + 2, 0xFF), (oWEIGH + 3, 0xFF),
   (oWEIGH + 4, 0xFF), (oWEIGH + 5, 0xFF), (oWEIGH + 6, 1), (oWEIGH + 7, 0),
   (oFACTOR, 0x03), (oFACTOR + 1, 0x01), (oFACTOR + 2, 0xFF), (oFACTOR + 3, 0x01),
   (oFACTOR + 4, 0x3F), (oFACTOR + 5, 0), (oFACTOR + 6, 0), (oFACTOR + 7, 0)] ++
  ((List.range 20).map (fun i => (oFACTOR + 8 + i, 0xFF))) ++ ((List.range 4).map (fun i => (oFACTOR + 28 + i, 0))) ++
  [(oSEC, 0x0F)] ++ ((List.range 15).map (fun i => (oSEC + 1 + i, 0))) ++
  [(oJOURNAL, 0x01), (oJOURNAL + 1, 0), (oJOURNAL + 2, 0), (oJOURNAL + 3, 0)]

/-- MAN_AGREE of a live copy (R59). -/
def agreeOf (live : Tab Byte) : Dword :=
  crc64 (agreeBytes.map (fun p => tabGet 0 live p.1 &&& BitVec.ofNat 8 p.2))

/-! What a new live copy changes (Table 7). -/

/-- The slices of two stores differ. -/
def tDiffer (a b : Tab Byte) (o n : Nat) : Bool :=
  (List.range n).any (fun i => decide (tabGet 0 a (o + i) ≠ tabGet 0 b (o + i)))

/-- A weigher at its SCALE_INIT with an empty history. -/
def weigherInit (live : Tab Byte) (w : Nat) (x : Weigher) : Weigher :=
  { x with hist := [], fill := 0, s := tabGet 0 live (oWEIGH + 0x0C + 8 * w) }

/-- The commit change of a floor region: E takes F, K current, H and Lo 0, LOCK when a used epoch could repeat (15 R381). -/
def regionChange (f : BitVec 24) (r : RgState) : RgState :=
  { r with e := f, k := 0, h := 0, lo := 0, lock := r.lock || (r.ueV && decide (f.toNat ≤ r.ue.toNat)), floor := f }

/-- EPOCH_FLOOR of region g of context c in a store; bit 23 set is a step-bound region (15 R374). -/
def floorOf (t : Tab Byte) (c g : Nat) : BitVec 24 := BitVec.ofNat 24 (tNum t (oREGION + 1024 * c + 16 * g + 0x0D) 3)

/-- Effect on the regions of a new live copy. chg says whether an entry counts as changed. -/
def regionsChange (s : State) (live : Tab Byte) (chg : Nat → Nat → Bool) : State :=
  s.modSec (fun x =>
    let rg := (List.range 256).foldl (fun t i =>
      let c := i / 64
      let g := i % 64
      let f := floorOf live c g
      if !f.getLsbD 23 && chg c g then tabMod {} t i (regionChange f) else t) x.rg
    { x with rg := rg })

/-- A commit makes the shadow live (R52, R57). Where the FE area changes, the full bits are emptied and the parity errors of their entries stay: DESIGN CHOICE, log entry 96. -/
def commit (s : State) (epoch : Word) : State :=
  let old := s.man.live
  let live := s.man.shadow
  let t := s.modMan (fun m => { m with
    live := live, epochCur := epoch, armed := none, commits := m.commits + 1, syncing := true, agree := agreeOf live })
  let u := t.modWgh (fun w =>
   let ws := (List.range 16).foldl (fun y k =>
      if tDiffer old live (oWEIGH + 8 + 8 * k) 8 then tabMod {} y k (weigherInit live k) else y) w.w
   { w with
    w := ws
    l := if tDiffer old live oWEIGH 8 then tabGet 0 live oWEIGH else w.l
    good := if tDiffer old live oWEIGH 8 then 0 else w.good })
  let v := u.modMem (fun m => { m with full := if tDiffer old live (oPART + 16) 4 then [] else m.full })
  let x := v.modJrnl (fun j => if tDiffer old live (oPART + 20) 4 then { j with count := 0, sinceCopy := [], skip := true, recs := [] } else j)
  lowerLevel (regionsChange x live (fun c g => tDiffer old live (oREGION + 1024 * c + 16 * g) 16))

/-- A load makes the manifest live at once and opens the load window (R44, R45; 04 R437). Floor regions whose EPOCH_FLOOR is not the one in force take the change of R381 (log entry 19). -/
def makeLive (s : State) : State :=
  let live := s.man.shadow
  let first := !s.man.everLive
  let t := s.modMan (fun m => { m with
    live := live, epochCur := m.epochShadow, isLive := true, lwin := true, everLive := true, agree := agreeOf live })
  let u := if first then t.modWgh (fun w =>
      let ws := (List.range 16).foldl (fun y k => tabMod {} y k (weigherInit live k)) w.w
      { w with w := ws, l := tabGet 0 live oWEIGH, good := 0 }) else t
  lowerLevel (regionsChange u live (fun c g =>
    decide ((tabGet ({} : RgState) u.sec.rg (64 * c + g)).floor ≠ floorOf live c g)))

/-- SEC_ERR keeps the first failure (15 Table 9). -/
def secErr (s : State) (cause region : Nat) (ctx : BitVec 2) (user : Nat) : State :=
  s.modSec (fun x => if x.err then x else { x with
    err := true, errCause := BitVec.ofNat 4 cause, errRegion := BitVec.ofNat 6 region, errCtx := ctx, errUser := BitVec.ofNat 2 user })

/-- A tag failure: the count and the capture. -/
def tagFailure (s : State) (cause region : Nat) (ctx : BitVec 2) (user : Nat) : State :=
  secErr (s.modSec (fun x => { x with tagFail := x.tagFail + 1 })) cause region ctx user

/-- The running load ends without a pass: the shadow is restored from the live copy (R43). -/
def loadFails (s : State) (e : LoadErr) : State :=
  manErr (s.modMan (fun m => { m with load := none, shadow := m.live, loadSt := 3 })) e.code e.type e.off

/-- The running load of n bytes at a ends (R42 to R44). -/
def finishLoad (s : State) (a n : Nat) : State :=
  let t := touchRead s rqOBT a (if sourceOk s a n then n else 0)
  match loadEval t a n with
  | .fail e => loadFails t e
  | .tag e => tagZeroise (raise (tagFailure (loadFails t e) 3 0 t.core.cur 0) fcMANAUTH 11 0 0)
  | .pass sh ep =>
    let u := t.modMan (fun m => { m with load := none, loadSt := 2, shadow := sh, epochShadow := ep })
    if u.man.isLive then u else makeLive u

/-- Start a load, or refuse it with BUSY (R46); during the live-to-shadow copy it waits (R48), and a second one is refused while it does (log entry 81). The code is what MAN's D receives (03 R91). -/
def startLoad (s : State) : State × Nat :=
  if s.man.armed.isSome || s.man.load.isSome || s.man.loadWait.isSome then (manErr s 9 0 0, 9)
  else
    let l := some (s.man.loadAddr.toNat, s.man.loadLen.toNat)
    (s.modMan (fun m => if m.syncing then { m with loadWait := l, loadSt := 1 } else { m with load := l, loadSt := 1 }), 0)

/-- Arm with an epoch, or refuse with BUSY or EPOCH (R49): BUSY also while a load waits on the copy, and before EPOCH (log entry 81). -/
def armWith (s : State) (e : Word) : State × Nat :=
  if s.man.load.isSome || s.man.loadWait.isSome then (manErr s 9 0 0, 9)
  else if e ≠ s.man.epochShadow ∨ e = s.man.epochCur then (manErr s 10 0 0, 10)
  else (s.modMan (fun m => { m with armed := some e }), 0)

/-- A shadow write lands, or waits for the copy (R48). While a load runs it lands at once, so that a delta builds on it and a failing load's restore loses it: DESIGN CHOICE, log entry 93. -/
def putShadow (s : State) (w : ShadowWr) : State :=
  s.modMan (fun m =>
    if m.syncing then { m with waiting := m.waiting ++ [w] }
    else
      match w with
      | .store o mask v => { m with shadow := tWord m.shadow o mask v }
      | .epoch v => { m with epochShadow := v })

/-- A shadow write through registers: in OPEN only, else WREJ (R47). -/
def shadowWr (s : State) (w : ShadowWr) : State :=
  if decide (s.sec.state = 0) then putShadow s w else s.modMan (fun m => { m with wrej := true })

/-- The live-to-shadow copy ends: waiting writes land in order, then a waiting load starts (R48). -/
def copyDone (s : State) : State :=
  let t := s.man.waiting.foldl putShadow (s.modMan (fun m => { m with syncing := false, waiting := [] }))
  match t.man.loadWait with
  | none => t
  | some l => t.modMan (fun m => { m with loadWait := none, load := some l })

/-- The live manifest is discarded (03 R70 step 5). A load window that is open stays open until the next release (R45); a manifest load that runs goes on, and becomes live if it passes: DESIGN CHOICE, log entry 93. -/
def discardLive (s : State) : State :=
  s.modMan (fun m => { m with
    live := [], isLive := false, armed := none, hold := false, resume := false })

end Sys2Proof.Machine
end

