-- ==== Sys2Proof/Machine/Obtur.lean ====
section
/-! DEFINITION. Obtur: region state and epochs, write checks, read IVs and keys, restarts, encryption of stream blocks, rekeying and the clearing of region state (15 R372 to R384). -/

namespace Sys2Proof.Machine

/-- State of region g of context c. -/
def rgOf (s : State) (c : BitVec 2) (g : BitVec 6) : RgState := tabGet {} s.sec.rg (64 * c.toNat + g.toNat)
def modRg (s : State) (c : BitVec 2) (g : BitVec 6) (f : RgState → RgState) : State :=
  s.modSec (fun x => { x with rg := tabMod {} x.rg (64 * c.toNat + g.toNat) f })

/-- Entry g of the live REGION table of context c. -/
structure RegionEnt where
  base : Nat
  size : Nat
  type : Nat
  rd : Bool
  wr : Bool
  floor : BitVec 24
deriving DecidableEq, Repr

def regionEnt (s : State) (c : BitVec 2) (g : BitVec 6) : RegionEnt :=
  let o := oREGION + 1024 * c.toNat + 16 * g.toNat
  let w := cfg s (o + 0x0C) 4
  { base := cfg s o 8, size := cfg s (o + 8) 4, type := bitsOf w 1 0, rd := w.testBit 2, wr := w.testBit 3
    floor := BitVec.ofNat 24 (w / 256) }

/-- Bit 23 of EPOCH_FLOOR marks a step-bound region (R374). -/
def RegionEnt.stepBound (e : RegionEnt) : Bool := e.floor.getLsbD 23

/-- The context whose region holds H and Lo: c0 for a step-bound region (R375). -/
def markCtx (stepBound : Bool) (c : BitVec 2) : BitVec 2 := if stepBound then 0 else c

/-- Epoch of a step epoch (R374). -/
def seEpoch (se : BitVec 23) : BitVec 24 := 0x800000 ||| se.setWidth 24

/-- The 96-bit IV of a stream block (R372). -/
def streamIv (c : BitVec 2) (g : BitVec 6) (epoch : BitVec 24) (block : Dword) : BitVec 96 := c ++ g ++ epoch ++ block

/-- The outcome of Obtur's check before a block issues: the IV context, epoch and whether the retired key serves, or a refusal with its Table 8 cause, fault and SEC_ERR cause. -/
inductive BlkCheck where
  | ok (ctx : BitVec 2) (epoch : BitVec 24) (retired : Bool)
  | refuse (cause fault secCause : Nat)
deriving DecidableEq, Repr

/-- Write checks, in the order of Table 6 (R376). -/
def writeCheck (s : State) (stepBound : Bool) (c : BitVec 2) (g : BitVec 6) (block : Dword) : BlkCheck :=
  let r := rgOf s c g
  let m := rgOf s (markCtx stepBound c) g
  if stepBound && decide (c ≠ 0) then .refuse 3 fcSTRREFUSED 0
  else if (if stepBound then s.sec.sexh else decide (r.k ≠ 0) || r.exh) then .refuse 6 fcEPOCHEXH 8
  else if r.lock then .refuse 6 fcREGIONREWRITE 7
  else if block.toNat < m.h.toNat then .refuse 6 fcREGIONORDER 6
  else .ok c (if stepBound then seEpoch s.sec.seCur else r.e) false

/-- What a write block leaves in the region state (R376). -/
def markWritten (s : State) (stepBound : Bool) (c : BitVec 2) (g : BitVec 6) (block : Dword) : State :=
  let t := modRg s (markCtx stepBound c) g (fun r =>
    { r with lo := if r.h = 0 then block else r.lo, h := block + 1 })
  if stepBound then t else modRg t c g (fun r => { r with ue := r.e, ueV := true })

/-- Values with which a block read is decrypted (R377, Table 7). -/
def readCheck (s : State) (stepBound : Bool) (c : BitVec 2) (g : BitVec 6) (block : Dword) : BlkCheck :=
  let r := rgOf s c g
  let m := rgOf s 0 g
  if stepBound then
    if m.lo.toNat ≤ block.toNat ∧ block.toNat < m.h.toNat then .ok 0 (seEpoch s.sec.seCur) false
    else if decide (s.sec.seVKey = 2) then .refuse 6 fcEPOCHEXH 8
    else .ok 0 (seEpoch s.sec.seV) (decide (s.sec.seVKey = 1))
  else if decide (r.k = 2) then .refuse 6 fcEPOCHEXH 8
  else .ok c r.e (decide (r.k = 1))

def keyOf (s : State) (retired : Bool) : BitVec 256 := if retired then s.sec.rkey else s.sec.key

/-- The restart of a floor region (R381). LOCK stays while E is not above a used epoch; EXH clears when E takes F under the new key (log entries 17 and 22). -/
def restartRegion (s : State) (c : BitVec 2) (g : BitVec 6) : State :=
  let f := (regionEnt s c g).floor
  if f.getLsbD 23 then s
  else modRg s c g (fun r =>
    if r.k = 0 then
      if r.e.toNat < 0x7FFFFF then
        { r with e := r.e + 1, h := 0, lo := 0, lock := r.lock && r.ueV && decide (r.e.toNat + 1 ≤ r.ue.toNat) }
      else { r with exh := true, h := 0, lo := 0, lock := r.lock && r.ueV && decide (r.e.toNat ≤ r.ue.toNat) }
    else { r with k := 0, e := f, ueV := false, ue := 0, h := 0, lo := 0, lock := false, exh := false, floor := f })

/-- H and Lo of every step-bound region restart at 0 (R379, R384). -/
def restartSteps (s : State) : State :=
  let live := fun g => (regionEnt s 0 (BitVec.ofNat 6 g)).stepBound
  s.modSec (fun x =>
    let rg := (List.range 64).foldl (fun t g => if live g then tabMod {} t g (fun r => { r with h := 0, lo := 0 }) else t) x.rg
    { x with rg := rg })

/-- Region state is cleared, and the step epochs are those of a newly sealed tile (R375, R379). -/
def clearRegions (s : State) : State :=
  let f := fun i => if s.man.isLive then floorOf s.man.live (i / 64) (i % 64) else 0
  s.modSec (fun x =>
    let rg := (List.range 256).foldl (fun t i =>
      tabSet {} t i { e := if (f i).getLsbD 23 then 0 else f i, floor := if (f i).getLsbD 23 then 0 else f i }) []
    { x with rg := rg, seCur := 0, seV := 0, seVKey := 0, seV1 := 0, seV1Key := 2, sexh := false })

/-- A key state after a rekey: current becomes retired, retired none (R384). -/
def ageKey (k : BitVec 2) : BitVec 2 := if k = 0 then 1 else 2

/-- The rekey proper, once the stream port has drained (R384 steps 2 to 5). -/
def doRekey (s : State) (key : BitVec 256) (id : Word) : State :=
  restartSteps (s.modSec (fun x =>
    let rg := (List.range 256).foldl (fun t i => tabMod {} t i (fun r => { r with k := ageKey r.k })) x.rg
    { x with rkey := x.key, rkeyId := x.keyId, rkeyHeld := true, key := key, keyId := id, rg := rg,
             seCur := 0, seVKey := ageKey x.seVKey, seV1Key := ageKey x.seV1Key, sexh := false,
             rekey := none, busy := false }))

/-- FAC.STEP of c0 dispatches: a fresh step epoch (R379). -/
def stepEpoch (s : State) : State :=
  restartSteps (s.modSec (fun x =>
    if x.seCur = 0x7FFFFF then { x with sexh := true } else { x with seCur := x.seCur + 1 }))

/-- FAC.COMMIT of c0 in state PASS2 (R379). -/
def commitEpoch (s : State) : State :=
  s.modSec (fun x => { x with seV1 := x.seV, seV1Key := x.seVKey, seV := x.seCur, seVKey := 0 })

/-- A rollback of c0 (R379). -/
def rollbackEpoch (s : State) : State :=
  s.modSec (fun x => { x with seV := x.seV1, seVKey := x.seV1Key, seV1Key := 2 })

/-- Bytes of a 512 B block, byte k at bits 8k + 7 to 8k. -/
def blockBytes (d : BitVec 4096) : List Byte := leBytes 512 d
def blockBits (bs : List Byte) : BitVec 4096 := BitVec.ofNat 4096 (leNat bs)
def tagBytes (t : BitVec 128) : List Byte := leBytes 16 t
def tagBits (bs : List Byte) : BitVec 128 := BitVec.ofNat 128 (leNat bs)

/-- Additional data of an RPUT: H0 with bits [11:0] 0, H1, H2 (R373). -/
def rputAad (h0 h1 h2 : Dword) : List Byte := leBytes 8 ((h0 >>> 12) <<< 12) ++ leBytes 8 h1 ++ leBytes 8 h2

/-- A refused write counts and is captured (R376, Table 9). -/
def noteRefusal (s : State) (secCause : Nat) (g : BitVec 6) (c : BitVec 2) (user : Nat) (write : Bool) : State :=
  let t := if write && decide (secCause ≠ 0) then s.modSec (fun x => { x with wRefuse := x.wRefuse + 1 }) else s
  if secCause = 0 then t else secErr t secCause g.toNat c user

end Sys2Proof.Machine
end

