-- ==== Sys2Proof/Machine/Stream.lean ====
section
/-! DEFINITION. The stream port outbound: operations, request checks, credits and packets (13 R322 to R327). -/

namespace Sys2Proof.Machine

def userCode : StrUser → Nat
  | .str => 0
  | .sth => 1
  | .fac => 2
  | .jrnl => 3

/-- STR_DERR keeps the first failure. -/
def strDerr (s : State) (cause fn : Nat) (g : BitVec 6) (c : BitVec 2) (u : StrUser) : State :=
  s.modStr (fun x => if x.derr then x else { x with
    derr := true, derrCause := BitVec.ofNat 3 cause, derrFn := BitVec.ofNat 2 fn, derrRegion := g, derrCtx := c
    derrUser := BitVec.ofNat 2 (userCode u) })

/-- Causes 2 to 4 of Table 8 for n blocks from block blk of region g; 0 when none holds. -/
def regionCheck (s : State) (c : BitVec 2) (g : BitVec 6) (k : StrKind) (blk n : Nat) : Nat :=
  let e := regionEnt s c g
  let want := match k with
    | .rput => 2
    | _ => 1
  let perm := match k with
    | .get => e.rd
    | _ => e.wr
  if e.type = 0 ∨ e.type ≠ want then 2
  else if !perm then 3
  else if e.size < blk + n ∨ (want = 1 ∧ 2 ^ 57 ≤ e.base + 512 * (blk + n - 1)) then 4
  else 0

/-- A transfer of n blocks for a user, its region values latched (R57). -/
def newJob (s : State) (id : Nat) (u : StrUser) (k : StrKind) (c : BitVec 2) (g : BitVec 6) (blk addr n : Nat)
    (data : Option (List Byte)) (att : Option (BitVec 6)) : State :=
  let e := regionEnt s c g
  s.modStr (fun x => { x with jobs := x.jobs ++
    [{ id := id, user := u, kind := k, ctx := c, region := g, base := BitVec.ofNat 64 e.base, stepBound := e.stepBound,
       blk := blk, addr := addr, n := n, data := data, att := att }] })

/-- Block number of region block i: the external block, or the block in the writer's region (15 R372). -/
def blockNo (k : StrKind) (base i : Nat) : Dword :=
  match k with
  | .rput => BitVec.ofNat 64 i
  | _ => BitVec.ofNat 64 ((base + 512 * i) / 512)

/-- Obtur's check of a block (15 R376, R377). -/
def blkCheck (s : State) (k : StrKind) (stepBound : Bool) (c : BitVec 2) (g : BitVec 6) (block : Dword) : BlkCheck :=
  match k with
  | .get => readCheck s stepBound c g block
  | _ => writeCheck s stepBound c g block

/-- Obtur's check of an operation's first block, made at dispatch. -/
def firstCheck (s : State) (ent : QEntry) (k : StrKind) : BlkCheck :=
  let e := regionEnt s ent.ctx ent.sub
  blkCheck s k e.stepBound ent.ctx ent.sub (blockNo k e.base (ent.a.toNat / 512))

/-- Table 8 cause of a block check, 0 when it passes. -/
def BlkCheck.cause : BlkCheck → Nat
  | .ok _ _ _ => 0
  | .refuse c _ _ => c

/-- The checks of Table 8 at dispatch: the lowest failing cause, or 0 (R324, R434). -/
def strCause (s : State) (ent : QEntry) (k : StrKind) : Nat :=
  let fs := ent.fs.toNat
  let r := regionCheck s ent.ctx ent.sub k (ent.a.toNat / 512) fs
  let o := (firstCheck s ent k).cause
  lowest [(decide (ent.a.toNat % 512 ≠ 0) || decide (ent.b.toNat % 128 ≠ 0) || decide (2 ^ 21 ≤ ent.b.toNat) || decide (ent.d ≠ 0) ||
      decide (fs = 0) || decide (3072 < fs), 1),
    (decide (r ≠ 0), r), (!permits s [pDATA] ent.b.toNat (512 * fs), 5), (decide (r ≠ 2) && decide (o ≠ 0), o)]

/-- Fault of a cause of Table 8 below 6. -/
def strFault (cause : Nat) : Nat := if cause = 1 then fcILLEGAL else if cause = 5 then fcBOUNDS else fcSTRREFUSED

/-- A STR operation fails its checks: under cause 6 with the fault and the captures of Obtur (15 R376). -/
def strFail (s : State) (ent : QEntry) (k : StrKind) (fn cause : Nat) : State :=
  let t := strDerr s cause fn ent.sub ent.ctx .str
  match decide (cause = 6), firstCheck s ent k with
  | true, .refuse _ fault sc =>
    failQueue (raise (noteRefusal t sc ent.sub ent.ctx 0 (decide (k ≠ .get))) fault 12 0 0) eSTR ent.sv
  | _, _ => dispatchFail t eSTR ent (strFault cause) 0 cause

/-- Dispatch of a STR operation (R322, R324). An attached RPUT gives no SID signal of its own (12 R299). -/
def strOp (s : State) (k : StrKind) (fn : Nat) : Res :=
  dispatch s eSTR fn (fun _ => !s.sec.stop) (fun ent t =>
    let cause := strCause t ent k
    if cause ≠ 0 then strFail t ent k fn cause
    else
      let att := decide (k = .rput) && ent.sv.isSome && attachedOn t ent.ctx.toNat
      let id := t.opId
      let u := putInfl t eSTR ent none false
      let v := if att then modInfl u eSTR id (fun x => { x with mute := true }) else u
      newJob v id .str k ent.ctx ent.sub (ent.a.toNat / 512) ent.b.toNat ent.fs.toNat none (if att then some ent.sid else none))

/-- STR.GET: region blocks into local memory. -/
def execStrGet (s : State) : Res := strOp s .get 0
/-- STR.PUT: local blocks into an external-memory region. -/
def execStrPut (s : State) : Res := strOp s .put 1
/-- STR.RPUT: local blocks into a remote tile. -/
def execStrRput (s : State) : Res := strOp s .rput 2

/-- A pulse of STR_OUT_CRED grants one credit (R326). -/
def execStreamCredit (s : State) : Res := whenOn (busOn s) s (s.modStr (fun x => { x with cred := x.cred + 1 }))

/-! The stash table empties (09 R226, R228): the mover's depot starts again, which restarts its region (15 R381, log entry 30). -/

def depotEn (s : State) : Bool := decide (cfgBits s (oPART + 0x20) 8 8 = 1)
def depotReg (s : State) : BitVec 6 := BitVec.ofNat 6 (cfgBits s (oPART + 0x20) 14 9)
def stashMode (s : State) : Nat := cfgBits s (oPART + 0x20) 1 0

/-- Every entry becomes EMPTY, D becomes 0 and the depot region restarts. -/
def sthClear (s : State) : State :=
  let t := s.modSth (fun h => { h with ents := [], order := [], dptr := 0, hwm := 0, mbpeak := 0, clearPend := false })
  if depotEn s then restartRegion t s.core.cur (depotReg s) else t

/-- A depot transfer of the mover is outstanding. -/
def depotBusy (s : State) : Bool := s.str.jobs.any (fun y => decide (y.user = .sth))

/-- A CLEAR that waited acts once no depot transfer is outstanding. -/
def sthSettle (s : State) : State := if s.sth.clearPend && !depotBusy s then sthClear s else s

/-- Copies that are being sent. -/
def copyJobs (s : State) : List StrJob := s.str.jobs.filter (fun j => decide (j.user = .jrnl) && !j.dead)

/-- JRNL_COPY_PTR stands where the oldest copy that is sent began, or behind the last one; one from before the region's restart counts no more (11 R273; log entry 97). -/
def settleCopy (s : State) : State :=
  let live := copyJobs s
  s.modJrnl (fun x => { x with
    copyBusy := !live.isEmpty
    copyPtr := BitVec.ofNat 32 (((live.find? (fun y => decide (y.blk < x.copyNext))).map (·.blk)).getD x.copyNext) })

/-- A copy is dropped: COPYERR, and the next one begins where it did, unless a later one is on its way (11 R273; DESIGN CHOICE, log entry 97). -/
def dropCopy (s : State) (j : StrJob) : State :=
  let t := s.modStr (fun x => { x with jobs := x.jobs.map (fun y => if y = j then { y with dead := true } else y) })
  settleCopy (t.modJrnl (fun x => { x with copyerr := true, copyNext := if x.copyNext = j.blk + j.n then j.blk else x.copyNext }))

/-- A job ends: the operation that waits for it may retire (R328; 09 R230; 11 R273). -/
def endJob (s : State) (j : StrJob) : State :=
  let t := s.modStr (fun x => { x with jobs := x.jobs.filter (fun y => decide (y ≠ j)) })
  match j.user with
  | .str => markDone t eSTR j.id
  | .sth =>
    let u := if j.dead then t.modSth (fun h => { h with rd := none }) else t
    sthSettle (if depotBusy u || u.sth.rd.isSome then u else markDone u eSTH j.id)
  | .fac => if j.dead then markDone t eFAC j.id else t
  | .jrnl => settleCopy (t.modJrnl (fun x => { x with
      copySlots := tabSet [] x.copySlots j.id [], copies := x.copies + if j.dead then 0 else 1 }))

/-- The job has issued every packet it will issue and each has landed or been acknowledged. -/
def StrJob.over (j : StrJob) : Bool := decide (j.landed = if j.dead then j.issued else j.n)

/-- Put a changed job back, or end it. -/
def putJob (s : State) (old new : StrJob) : State :=
  let t := s.modStr (fun x => { x with jobs := x.jobs.map (fun y => if y = old then new else y) })
  if new.over then endJob t new else t

/-- The rest of a job is given up; the journal drops its copy. It ends when the packets that it has issued are over. -/
def killJob (s : State) (j : StrJob) : State :=
  let d := { j with dead := true }
  let t := if j.user = .jrnl then dropCopy s j else s.modStr (fun x => { x with jobs := x.jobs.map (fun y => if y = j then d else y) })
  if d.over then endJob t d else t

/-- External byte address of a job's next block. -/
def StrJob.ext (j : StrJob) : Nat := j.base.toNat + 512 * (j.blk + j.issued)

/-- Block number of a job's next block. -/
def StrJob.block (j : StrJob) : Dword := blockNo j.kind j.base.toNat (j.blk + j.issued)

/-- Local address of a job's next block. -/
def StrJob.lAddr (j : StrJob) : Nat := j.addr + 512 * j.issued

/-- Records of a copy in its next block: the header takes the place of one (11 R273). -/
def copyRecs (s : State) (j : StrJob) : List Nat :=
  let all := tabGet [] s.jrnl.copySlots j.id
  if j.issued = 0 then all.take 15 else (all.drop (16 * j.issued - 1)).take 16

/-- The local bytes of a job's next block: those of a transfer, the records of a copy, or none of a depot block, which the mover holds. -/
def jobSpans (s : State) (j : StrJob) : List (Nat × Nat) :=
  if j.user = .jrnl then (copyRecs s j).map (fun a => (a, 32)) else if j.data.isSome then [] else [(j.lAddr, 512)]

/-- Requester that reads them. -/
def jobReq (j : StrJob) : Nat := if j.user = .jrnl then rqJRNL else rqSTR

/-- The plaintext of a job's next block. -/
def jobPlain (s : State) (j : StrJob) : List Byte :=
  if j.user = .jrnl then
    ((if j.issued = 0 then j.data.getD [] else []) ++ (copyRecs s j).flatMap (fun a => memBytes s.mem.bytes a 32) ++ List.replicate 512 0).take 512
  else
    match j.data with
    | some d => (d.drop (512 * j.issued)).take 512
    | none => memBytes s.mem.bytes j.lAddr 512

/-- The job can issue its next packet now: a free read tag or write slot, and its local block free to be read. -/
def jobReady (s : State) (j : StrJob) : Bool :=
  match j.kind with
  | .get => decide (s.str.reads.length < 64)
  | _ => decide (s.str.writes.length < 64) && !spansWait s (jobSpans s j)

/-- First job of a user with packets to issue. -/
def userJob (s : State) (u : StrUser) : Option StrJob :=
  (s.str.jobs.find? (fun j => decide (j.user = u) && !j.dead && decide (j.issued < j.n))).filter (jobReady s)

def strUsers : List StrUser := [.str, .sth, .fac, .jrnl]

/-- The next user's packet: round-robin from the pointer on (R327). -/
def nextJob (s : State) : Option StrJob :=
  ((List.range 4).filterMap (fun i => (strUsers[(s.str.rr.toNat + i) % 4]?).bind (userJob s))).head?

/-- A tag that is not in use (log entry 23). -/
def pickTag (s : State) (used : List (BitVec 6)) : BitVec 6 :=
  let freeTags := (List.range 64).filter (fun t => !used.contains (BitVec.ofNat 6 t))
  BitVec.ofNat 6 (freeTags.getD (Config.strTag s.free % freeTags.length) 0)

/-- The check before a block issues refuses it: the fault, the captures, and the end of the transfer (R324; 15 R376). The operation of another unit raises STR_REFUSED as well; the journal drops its copy. -/
def refuseJob (s : State) (j : StrJob) (cause fault secCause : Nat) : State :=
  let w := decide (j.kind ≠ .get)
  let t := noteRefusal (strDerr s cause (match j.kind with | .get => 0 | .put => 1 | .rput => 2) j.region j.ctx j.user)
    secCause j.region j.ctx (userCode j.user) w
  let other := decide (j.user = .sth) || decide (j.user = .fac)
  let t1 := if (other && decide (cause = 6)) || (decide (cause = 3) && decide (j.user ≠ .jrnl)) then raise t fcSTRREFUSED 5 0 cause else t
  let t2 := if cause = 6 then raise t1 fault 12 0 0 else t1
  let t3 := if j.user = .str then failQueue t2 eSTR none else t2
  killJob t3 j

/-- A read request leaves. -/
def issueRead (s : State) (j : StrJob) : State :=
  match readCheck s j.stepBound j.ctx j.region j.block with
  | .refuse cause fault sc => refuseJob s j cause fault sc
  | .ok c e retired =>
    let tag := pickTag s (s.str.reads.map (·.tag))
    let t := s.modStr (fun x => { x with
      cred := x.cred - 1
      reads := x.reads ++ [{ tag := tag, job := j.id, i := j.issued, ctxIv := c, epoch := e, block := j.block, retired := retired,
                              ctx := j.ctx, region := j.region, user := j.user }]
      out := some { h0 := strH0 1 tag 0 false false 0 0 0, h1 := BitVec.ofNat 64 j.ext, h2 := 0, data := 0, tag := 0 } })
    putJob (spend { t with free := t.free + 1 } 7 2) j { j with issued := j.issued + 1 }

/-- A write packet leaves, encrypted (15 R372, R373). -/
def issueWrite (s : State) (j : StrJob) : State :=
  match writeCheck s j.stepBound j.ctx j.region j.block with
  | .refuse cause fault sc => refuseJob s j cause fault sc
  | .ok c e _ =>
    let tag := pickTag s (s.str.writes.map (·.tag))
    let s1 := touchSpans s (jobReq j) (jobSpans s j)
    let plain := jobPlain s1 j
    let iv := streamIv c j.region e j.block
    let cipher := gcmCrypt s1.sec.key iv plain
    let last := decide (j.issued + 1 = j.n)
    let rput := decide (j.kind = .rput)
    let h0 := strH0 (if rput then 3 else 2) tag 0 j.att.isSome (rput && last) c j.region e
    let target := j.base.toNat % 2 ^ 21 + 512 * (j.blk + j.issued)
    let h1 : Dword := if rput then
        BitVec.ofNat 64 (bitsOf j.base.toNat 51 32 + 2 ^ 20 * bitsOf target 20 7 +
          2 ^ 34 * (j.att.getD 0).toNat + 2 ^ 40 * j.n)
      else BitVec.ofNat 64 j.ext
    let h2 : Dword := if rput then BitVec.ofNat 64 ((j.blk + j.issued) % 2 ^ 32) else 0
    let aad := if rput then rputAad h0 h1 h2 else []
    let t := (markWritten s1 j.stepBound j.ctx j.region j.block).modSec (fun x => { x with blkOut := x.blkOut + 1 })
    let u := t.modStr (fun x => { x with
      cred := x.cred - 1
      writes := x.writes ++ [{ tag := tag, job := j.id, put := decide (j.kind = .put) }]
      rpOut := if rput then x.rpOut + 1 else x.rpOut
      out := some { h0 := h0, h1 := h1, h2 := h2, data := blockBits cipher, tag := tagBits (gcmTag s1.sec.key iv aad cipher) } })
    putJob (spend { u with free := u.free + 1 } 7 32) j { j with issued := j.issued + 1 }

/-- The next outbound packet: ACKs first, then the users round-robin, each for one credit (R326, R327). A waiting rekey lets no packet out (15 R384); after a fatal fault only ACKs leave, and they do (16 R391). -/
def execPacketIssue (s : State) : Res :=
  if !(busOn s) || decide (s.str.cred = 0) || (if s.flt.fatal then s.str.acks.isEmpty else s.sec.rekey.isSome) then .next s
  else
    match s.str.acks with
    | a :: rest => .next (spend (s.modStr (fun x => { x with
        cred := x.cred - 1, acks := rest, out := some { h0 := a, h1 := 0, h2 := 0, data := 0, tag := 0 } })) 7 1)
    | [] =>
      match nextJob s with
      | none => .next s
      | some j =>
        let t := s.modStr (fun x => { x with rr := BitVec.ofNat 2 (userCode j.user + 1) })
        .next (unstall (match j.kind with
          | .get => issueRead t j
          | _ => issueWrite t j))

end Sys2Proof.Machine
end

