-- ==== Sys2Proof/Machine/Jrnl.lean ====
section
/-! DEFINITION. The journal: units and their credit, records, copy-out, step markers and replay (11 R268 to R281). -/

namespace Sys2Proof.Machine

/-- A unit: field, identity and data (Table 3). -/
def unitOfData (field : BitVec 2) (ident : Nat) (data : List Byte) : JUnit :=
  { field := field, bytes := leBytes 8 (BitVec.ofNat 64 ident) ++ data }

/-- An XIN unit belongs to the stage of the exchange phase in which it arrives (R270). -/
def creditXin (s : State) (addr ent beat : Nat) (data : List Byte) : State :=
  s.modJrnl (fun j => { j with cred := j.cred ++ [unitOfData 0 (addr + 2 ^ 21 * ent + 2 ^ 32 * beat) data] })

/-- Identity of a SIN unit. -/
def sinIdent (addr region : Nat) (rput : Bool) (block : Nat) : Nat :=
  addr % 2 ^ 21 + 2 ^ 21 * region + (if rput then 2 ^ 27 else 0) + 2 ^ 32 * (block % 2 ^ 32)

/-- A SIN unit of the tile's own reads waits for the next arrival with CLOSE = 1, one of a remote put for the next release (R270). -/
def creditSin (s : State) (addr region : Nat) (rput : Bool) (block : Nat) (data : List Byte) : State :=
  let u := unitOfData 1 (sinIdent addr region rput block) data
  s.modJrnl (fun j => if rput then { j with toRel := j.toRel ++ [u] } else { j with toClose := j.toClose ++ [u] })

/-- A BALE or FOUT unit belongs to the stage of the first arrival after its completion (R270). -/
def creditArr (s : State) (field : BitVec 2) (ident : Nat) (data : List Byte) : State :=
  s.modJrnl (fun j => { j with toArr := j.toArr ++ [unitOfData field ident data] })

/-- What an arrival credits to the stage. -/
def creditArrival (s : State) (close : Bool) : State :=
  s.modJrnl (fun j =>
    if close then { j with cred := j.cred ++ j.toArr ++ j.toClose, toArr := [], toClose := [] }
    else { j with cred := j.cred ++ j.toArr, toArr := [] })

/-- What a release credits to the stage. -/
def creditRelease (s : State) : State := s.modJrnl (fun j => { j with cred := j.cred ++ j.toRel, toRel := [] })

/-- Message of a unit (R268). -/
def JUnit.msg (u : JUnit) (stage : Dword) (epoch : Word) : List Byte :=
  leBytes 8 stage ++ leBytes 4 epoch ++ leBytes 4 (u.field.setWidth 32) ++ u.bytes

/-- Digest of a field over the credited units (R268). -/
def digest (us : List JUnit) (stage : Dword) (epoch : Word) (f : Nat) : Dword :=
  (us.filter (fun u => decide (u.field.toNat = f))).foldl (fun d u => d ^^^ crc64 (u.msg stage epoch)) 0

/-- The four digests of the stage. -/
def digests (s : State) : List Dword := (List.range 4).map (digest s.jrnl.cred s.core.stage s.man.epochCur)

def jrnlEn (s : State) : Bool := decide (cfgBits s oJOURNAL 0 0 = 1)
def jrnlCopyEn (s : State) : Bool := decide (cfgBits s oJOURNAL 1 1 = 1)
def jrnlCopyReg (s : State) : BitVec 6 := BitVec.ofNat 6 (cfgBits s oJOURNAL 7 2)
def jrnlCopyInt (s : State) : Nat := cfgBits s oJOURNAL 31 16

/-- Records that the ring holds, N (R271). -/
def jrnlN (s : State) : Nat := partSize s pJRNL / 32

/-- Place of the record of a stage. -/
def recAddr (s : State) (stage : Dword) : Nat := partBase s pJRNL + 32 * (stage.toNat % jrnlN s)

/-- Bytes of a record. -/
def recBytes (ds : List Dword) : List Byte := ds.flatMap (leBytes 8)

/-- Comparison ends (R277). -/
def replayEnd (s : State) : State :=
  s.modJrnl (fun j => if j.rparm || j.rpact then { j with rparm := false, rpact := false, rpdone := true } else j)

/-- No record is written for the stage: its digests are discarded, and comparison ends (R272, R277). -/
def noRecord (s : State) : State := replayEnd (s.modJrnl (fun j => { j with cred := [], skip := false }))

/-- A record that a copy has yet to read lies at an address. -/
def unread (s : State) (j : StrJob) (a : Nat) : Bool :=
  ((tabGet [] s.jrnl.copySlots j.id).drop (16 * j.issued - 1)).contains a

/-- Copies of which an unread record is about to be overwritten at an address are dropped (R273). -/
def dropOverrun (s : State) (a : Nat) : State :=
  (copyJobs s).foldl (fun t j => if unread s j a then killJob t j else t) s

/-- Start the copy of the records of these stages (R273). Its records are read from the ring as its blocks leave. -/
def startCopy (s : State) (stages : List Dword) (epoch : Word) : State :=
  let g := jrnlCopyReg s
  let c := s.core.cur
  let n := stages.length
  let blocks := ceilDiv (n + 1) 16
  let wrap := decide ((regionEnt s c g).size < s.jrnl.copyNext + blocks)
  let t := if wrap then restartRegion (s.modJrnl (fun j => { j with copyPtr := 0, copyNext := 0 })) c g else s
  let blk := t.jrnl.copyNext
  let cause := regionCheck t c g .put blk blocks
  if t.sec.stop then t.modJrnl (fun j => { j with copyerr := true })
  else if cause ≠ 0 then (strDerr t cause 1 g c .jrnl).modJrnl (fun j => { j with copyerr := true })
  else
    let hdr := leBytes 8 (stages.headD 0) ++ leBytes 4 epoch ++ leBytes 2 (BitVec.ofNat 16 n) ++ leBytes 18 (0 : BitVec 144)
    newJob ({ t with opId := t.opId + 1 }.modJrnl (fun j =>
        { j with
        copyBusy := true, copyNext := blk + blocks, copySlots := tabSet [] j.copySlots t.opId (stages.map (recAddr t)) }))
      t.opId .jrnl .put c g blk 0 blocks (some hdr) none

/-- A record is written into the ring (R271), and a copy starts after every COPY_INT records (R273). -/
def putRecord (s : State) (r : JRec) : State :=
  let a := recAddr s r.stage
  let t := memWr (dropOverrun s a) rqJRNL a (recBytes r.digests)
  let ep := if s.jrnl.sinceCopy = [] then r.epoch else s.jrnl.firstEpoch
  let stages := s.jrnl.sinceCopy ++ [r.stage]
  let due := jrnlCopyEn s && decide (jrnlCopyInt s ≤ stages.length)
  let u := t.modJrnl (fun j => { j with
    last := r.stage, lastEpoch := r.epoch, count := BitVec.ofNat 32 (min (j.count.toNat + 1) (jrnlN s))
    sinceCopy := if jrnlCopyEn s && !due then stages else [], firstEpoch := ep })
  if due then startCopy u stages ep else u

/-- The record of the stage is finished; it is written at once, or waits for a zeroisation that runs (R271; 07 R193; log entry 97). -/
def writeRecord (s : State) : State :=
  let r : JRec := { stage := s.core.stage, epoch := s.man.epochCur, digests := digests s }
  let t := s.modJrnl (fun j => { j with cred := [] })
  if s.mem.zeroing then t.modJrnl (fun j => { j with recs := j.recs ++ [r] }) else putRecord t r

/-- Records that waited for a zeroisation are written, where the tile still keeps a journal. -/
def putRecords (s : State) : State :=
  let t := s.modJrnl (fun j => { j with recs := [] })
  if jrnlEn s && decide (jrnlN s ≠ 0) then s.jrnl.recs.foldl putRecord t else t

/-- The record of a replayed stage is compared with the stored one, which stays (R276, R278). -/
def compareRecord (s : State) : State :=
  let st := s.core.stage
  let ds := digests s
  let held := decide (s.jrnl.rpEnd.toNat - st.toNat < jrnlN s)
  let old := (List.range 4).map (fun f => BitVec.ofNat 64 (mNat s (recAddr s st + 8 * f) 8))
  let mask : Nat := (List.range 4).foldl (fun m f => if ds[f]? = old[f]? then m else m + 2 ^ f) 0
  let t := s.modJrnl (fun j => { j with cred := [] })
  let u :=
    if !held then t.modJrnl (fun j => { j with rpUncmp := j.rpUncmp + 1 })
    else if mask = 0 then touchRead t rqJRNL (recAddr s st) 32
    else if s.jrnl.rpHad then (touchRead t rqJRNL (recAddr s st) 32).modJrnl (fun j => { j with rpNdiv := j.rpNdiv + 1 })
    else
      let v := (touchRead t rqJRNL (recAddr s st) 32).modJrnl (fun j => { j with
        rpStage := st, rpField := BitVec.ofNat 4 mask, rpdiv := true, rpHad := true
        rpNew := (List.range 4).foldl (fun n f => tabSet 0 n f (ds.getD f 0)) [] })
      if s.jrnl.stopdiv then raise v fcJOURNALDIV 13 0 0 else v
  if st = s.jrnl.rpEnd then replayEnd u else u

/-- The stage ends: its record is written, compared, or discarded (R271, R272, R276). The stage that the first release after arming runs is neither compared nor written (log entry 26). -/
def finishRecord (s : State) : State :=
  if !jrnlEn s || decide (jrnlN s = 0) || s.jrnl.skip then noRecord s
  else if s.jrnl.rparm then
    let t := s.modJrnl (fun j => { j with cred := [], rparm := false, rpact := true, rpHad := false })
    if s.jrnl.rpEnd.toNat < s.jrnl.step.toNat then replayEnd t else t
  else if s.jrnl.rpact then compareRecord s
  else writeRecord s

/-- JRNL_CTRL_REPLAY arms a replay in the load window while the ring holds a record, else RPREJ (R275). -/
def armReplay (s : State) : State :=
  if !s.man.lwin || decide (s.jrnl.count = 0) then s.modJrnl (fun j => { j with rprej := true })
  else
    let t := s.modCore (fun k => { k with stage := s.jrnl.step - 1 })
    let u := if s.jrnl.wstep then wghRestore t else t
    u.modJrnl (fun j => { j with wstep := false, rpEnd := j.last, rparm := true, rpact := false, skip := false })

/-- JRNL_CTRL_REPLAY. -/
def execJrnlCtrlReplay (s : State) : Res := regCmd .jrnlCtrlReplay s (armReplay s)

/-- An armed or active replay is cancelled: comparison ends, and records are written from the next stage on (R277). -/
def cancelReplay (s : State) : State :=
  if s.jrnl.rparm || s.jrnl.rpact then (replayEnd s).modJrnl (fun j => { j with skip := true }) else s

/-- JRNL_CTRL_CANCEL ends an armed or active replay (R277). -/
def execJrnlCtrlCancel (s : State) : Res := regCmd .jrnlCtrlCancel s (cancelReplay s)

end Sys2Proof.Machine
end

