-- ==== Sys2Proof/Machine/Array.lean ====
section
/-! DEFINITION. The drover array: folds, operation descriptors and their checks, and the sums of an item (05 R123 to R134, R139 to R141). -/

namespace Sys2Proof.Machine

/-! Strings (R128, 02 Table 3). -/

def foldWord (s : State) (i : Nat) : Nat := cfg s (oFOLD + 4 + 4 * i) 4
def strings (s : State) : Nat := cfgBits s oFOLD 8 2
def baleStrict (s : State) : Bool := decide (cfgBits s oFOLD 0 0 = 1)
def caravanEn (s : State) : Bool := decide (cfgBits s oFOLD 1 1 = 1)
def strLen (s : State) (i : Nat) : Nat := bitsOf (foldWord s i) 9 6 + 1
def strM (s : State) (i : Nat) : Nat := bitsOf (foldWord s i) 12 10
def strN (s : State) (i : Nat) : Nat := bitsOf (foldWord s i) 15 13
def strGrp (s : State) (i : Nat) : Nat := bitsOf (foldWord s i) 19 16

/-- Effective length: the largest power of two not above the length. -/
def strLeff (s : State) (i : Nat) : Nat := 2 ^ Nat.log2 (strLen s i)

/-- First drover of string i. -/
def strFirst (s : State) (i : Nat) : Nat := bitsOf (foldWord s i) 5 0

/-- First drover of the string that drover d belongs to, else d itself (14 R342). -/
def droverPhase (s : State) (d : Nat) : Nat :=
  (((List.range (strings s)).find? (fun i => decide (strFirst s i ≤ d) && decide (d < strFirst s i + strLen s i))).map (strFirst s)).getD d

/-- The issue mask lets drover d issue in this a-cycle (14 R342). -/
def mayIssue (s : State) (d : Nat) : Bool :=
  let m := effMask s
  decide ((s.gov.acyc + droverPhase s d) * m % 64 < m)

/-- String i does not advance in this a-cycle: the mask clears the bits of its drovers, which share one phase, or a droop stretch pauses issue (R143; 01 R30). -/
def strPaused (s : State) (i : Nat) : Bool := s.clk.stretch || !mayIssue s (strFirst s i)

/-! CHAIN fields that the array reads. -/
def dt1V (s : State) : Bool := decide (cfgBits s oCHAIN 16 16 = 1)
/-- Entry j of derivative Table 1, widened. -/
def dt1 (s : State) (j : Nat) : Word := toF32 (fmtB16.decode (cfg s (oCHAIN + 0x244 + 2 * j) 2))

/-! Descriptors (R131 to R134). -/

/-- Where an operation comes from: its descriptor address, base offsets A, string, and whether it is a convolution. -/
structure ArrSrc where
  addr : Nat
  a : Dword
  string : Nat
  conv : Bool
deriving DecidableEq, Repr

/-- Shape code of word 0, with the string's default for 7 in a matrix descriptor. -/
def shapeCode (conv : Bool) (code dflt : Nat) : Nat := if code = 7 ∧ conv = false then dflt else code

/-- The descriptor's own fields (Table 3). -/
def descFields (s : State) (x : ArrSrc) : ArrDesc :=
  let w := fun i => mWord s (x.addr + 4 * i)
  { conv := x.conv
    m := 16 * 2 ^ shapeCode x.conv (bitsOf (w 0) 2 0) (strM s x.string)
    n := 16 * 2 ^ min 4 (shapeCode x.conv (bitsOf (w 0) 5 3) (strN s x.string))
    k := 16 * (bitsOf (w 0) 11 6 + 1), tx := (w 0).testBit 12, tw := (w 0).testBit 13
    out := bitsOf (w 0) 15 14, deriv := (w 0).testBit 16
    oh := 4 * (bitsOf (w 1) 3 0 + 1), ow := 4 * (bitsOf (w 1) 7 4 + 1), r := bitsOf (w 1) 11 8 + 1, s := bitsOf (w 1) 15 12 + 1
    stride := bitsOf (w 1) 17 16 + 1, dil := bitsOf (w 1) 19 18 + 1, padT := bitsOf (w 1) 23 20, padL := bitsOf (w 1) 27 24
    pmaskV := (w 6).testBit 31 }

/-- Reserved codes and bits of the descriptor (R132): cause RESV. -/
def descResv (s : State) (x : ArrSrc) : Bool :=
  let w := fun i => mWord s (x.addr + 4 * i)
  let code := fun c => decide (c = 5) || decide (c = 6)
  decide (bitsOf (w 0) 31 17 ≠ 0) || code (bitsOf (w 0) 2 0) || code (bitsOf (w 0) 5 3) || decide (bitsOf (w 0) 15 14 = 3) ||
    (if x.conv then decide (bitsOf (w 0) 2 0 ≠ 0) || decide (bitsOf (w 0) 13 12 ≠ 0) || decide (bitsOf (w 0) 5 3 = 7) || decide (bitsOf (w 1) 31 28 ≠ 0)
     else decide (w 1 ≠ 0)) ||
    (List.range 4).any (fun i => decide (bitsOf (w (2 + i)) 31 21 ≠ 0)) || decide (bitsOf (w 6) 30 21 ≠ 0) ||
    (List.range 9).any (fun i => decide (w (7 + i) ≠ 0)) ||
    (!(w 0).testBit 16 && decide (w 5 ≠ 0)) || (decide (bitsOf (w 0) 15 14 = 2) && (w 0).testBit 16)

/-- A class and format that the array multiplies (R124). -/
def mulOk (l : Layout) : Bool :=
  decide (l.kind = 0) && (decide (l.cls ≤ 2) || decide (l.cls = 7)) && decide (l.fmt ≠ 0) && decide (l.fmt ≠ 10)

/-- A number from n bytes of memory, byte by byte. -/
def bitmapAt (s : State) (a n : Nat) : BitVec 256 := BitVec.ofNat 256 (mNat s a n)

/-- What the dispatch of an operation, or the claim of a list entry, reads: the operation descriptor, the layout descriptors that it names, and the bitmap (R131). -/
def descSpans (s : State) (x : ArrSrc) : List (Nat × Nat) :=
  if !dataAt s x.addr 64 64 then []
  else if spansWait s [(x.addr, 64)] then [(x.addr, 64)]
  else
    let f := descFields s x
    let la := fun i => bitsOf (mWord s (x.addr + 4 * i)) 20 0
    (x.addr, 64) :: ((([2, 3, 4] ++ if f.deriv then [5] else []).map la).filter (ldescAt s)).map (fun a => (a, 32)) ++
      if f.pmaskV && permits s [pDATA] (la 6) (f.n / 8) then [(la 6, f.n / 8)] else []

/-- A descriptor that a CAR or a list entry names is one of a convolution when its word 0x04 is not 0, which a matrix descriptor forbids (log entry 87). -/
def convDesc (s : State) (addr : Nat) : Bool := dataAt s addr 64 64 && decide (mWord s (addr + 4) ≠ 0)

/-- Read and check an operation under Table 5: the latched descriptor, or the cause that R434 records. pre and post are the causes of the caller's own tables. -/
def arrEval (s : State) (x : ArrSrc) (pre : List (Bool × Nat)) (post : ArrDesc → List (Bool × Nat)) (step : BitVec 48) : Except Nat ArrDesc :=
  if !dataAt s x.addr 64 64 then .error 7
  else
    let w := fun i => mWord s (x.addr + 4 * i)
    let f := descFields s x
    let la := fun i => bitsOf (w i) 20 0
    if !(ldescAt s (la 2) && ldescAt s (la 3) && ldescAt s (la 4) && (!f.deriv || ldescAt s (la 5)) &&
        (!f.pmaskV || permits s [pDATA] (la 6) (f.n / 8))) then .error 7
    else
      let off := fun i => bitsOf x.a.toNat (21 * i + 20) (21 * i)
      let rd := fun i k => (readLayout s (la i)).map (fun l => l.shift (off k))
      let lx := rd 2 0
      let lw := rd 3 1
      let ly := rd 4 2
      let lc := if f.deriv then readLayout s (la 5) else some {}
      let gx := lx.getD {}
      let gw := lw.getD {}
      let gy := ly.getD {}
      let gc := lc.getD {}
      let d : ArrDesc := { f with x := gx, w := gw, y := gy, c := gc, stepField := step
                                  pmask := if f.pmaskV && f.deriv then bitmapAt s (la 6) (f.n / 8) else 0 }
      let cause := lowest (pre ++
        [(descResv s x || lx.isNone || lw.isNone || ly.isNone || lc.isNone, 1),
         (x.conv && decide (4 * strLeff s x.string < f.r), 3),
         ((gx.isMx || gw.isMx) && decide (f.k % 32 ≠ 0), 4),
         (f.deriv && !dt1V s, 5),
         (!mulOk gx || !mulOk gw || decide (gy.kind ≠ 0) || decide (gy.cls ≠ if f.out = 2 then 5 else 3) ||
           (f.deriv && decide (gc.kind ≠ 1)), 6),
         (!inParts s [pDATA, pSTASH] gx || !inParts s [pDATA, pSTASH] gw || (f.deriv && !inParts s [pDATA, pSTASH] gc) ||
           (decide (f.out = 2) && !inParts s [pDATA] gy), 7)] ++ post d)
      if cause ≠ 0 then .error cause else .ok d

/-- ARR_DERR keeps the first failure. -/
def arrDerr (s : State) (addr : Addr) (cause fn : Nat) (string : BitVec 6) : State :=
  s.modArr (fun a => if a.derr then a else
    { a with derr := true, derrAddr := addr, derrCause := BitVec.ofNat 4 cause, derrString := string, derrFn := BitVec.ofNat 3 fn })

/-- Faults of Table 5 and of Table 6 of chapter 06. -/
def arrFault (cause : Nat) : Nat := if cause = 7 then fcBOUNDS else fcILLEGAL

/-! The sums of an item (R126, R129, R130). -/

/-- Items of an operation. -/
def ArrDesc.items (d : ArrDesc) : Nat := if d.conv then d.oh / 4 * (d.ow / 4) * (d.n / 16) else d.m / 16 * (d.n / 16)

/-- A product as it is added: one whose scaled value overflows binary32 is an infinity (04 R112). -/
def prodTerm (p : Fp) : Fp :=
  let w := toF32 p
  if f32IsInf w then f32 w else p

/-- One addition; a zero sum is +0 (R126). -/
def accStep (acc : Word) (p : Fp) : Word :=
  let r := toF32 ((f32 acc).add (prodTerm p))
  if r = 0x80000000 then 0 else r

/-- Row and column that a free place function packs. -/
def unpackPlace (v : Nat) : Nat × Nat := (v / 65536, v % 65536)

/-- Element (m, k) of X: of the operation's own tensor, or of the contributor that brought the row; rows beyond a caravan's fill are zero (06 R164). -/
def xElem (joins : List CarJoin) (d : ArrDesc) (mem : List Host.Cell) (m k : Nat) : Fp :=
  match joins with
  | [] => if d.tx then d.x.exact mem k m else d.x.exact mem m k
  | _ =>
    let r := joins.foldl (fun (st : Nat × Option Fp) j =>
      (st.1 + j.rows, if st.1 ≤ m ∧ m < st.1 + j.rows then some (j.x.exact mem (m - st.1) k) else st.2)) (0, none)
    r.2.getD (.fin false 0 0)

/-- Element (k, n) of W. -/
def wElem (d : ArrDesc) (mem : List Host.Cell) (k n : Nat) : Fp := if d.tw then d.w.exact mem n k else d.w.exact mem k n

/-- Output (m, n) of a matrix product: K products in ascending order. -/
def mmSum (joins : List CarJoin) (d : ArrDesc) (mem : List Host.Cell) (m n : Nat) : Word :=
  (List.range d.k).foldl (fun acc k => accStep acc ((xElem joins d mem m k).mul (wElem d mem k n))) 0

/-- A place along whose reduction dimension the channels of an MX operand run (R134). -/
def alongChannels (l : Layout) (ic : Nat) (p : Nat × Nat) : Nat × Nat :=
  if l.isMx then (if l.red then (p.1 / 32 * 32 + ic % 32, p.2) else (p.1, p.2 / 32 * 32 + ic % 32)) else p

/-- The channel by which a place is given: that of its block in an MX operand. -/
def placeChannel (l : Layout) (ic : Nat) : Nat := if l.isMx then ic / 32 * 32 else ic

/-- Place of input element (ic, iy, ix) of a convolution; none where it is padding: above, left of, below or right of the tensor (log entry 13). -/
def convIn (d : ArrDesc) (ic : Nat) (iy ix : Int) : Option (Nat × Nat) :=
  if iy < 0 ∨ ix < 0 then none
  else
    let p := alongChannels d.x ic
      (unpackPlace (Config.convInput (d.x.rows, d.x.cols, d.x.red) d.k (placeChannel d.x ic) iy.toNat ix.toNat))
    if p.1 < d.x.rows ∧ p.2 < d.x.cols then some p else none

/-- Place of a weight of a convolution. -/
def convW (d : ArrDesc) (oc ic r c : Nat) : Nat × Nat :=
  alongChannels d.w ic (unpackPlace (Config.convWeight (d.w.rows, d.w.cols, d.w.red) (d.k, d.r, d.s) oc (placeChannel d.w ic) r c))

/-- Input row and column that kernel row r and column c read for output (oy, ox) (R130). -/
def convRow (d : ArrDesc) (oy r : Nat) : Int := (oy * d.stride + r * d.dil : Nat) - (d.padT : Int)
def convCol (d : ArrDesc) (ox c : Nat) : Int := (ox * d.stride + c * d.dil : Nat) - (d.padL : Int)

/-- Output (oy, ox, oc) of a convolution: input channel, kernel row, kernel column, in that order. A product on padding leaves the sum as it is (R126). -/
def convSum (d : ArrDesc) (mem : List Host.Cell) (oy ox oc : Nat) : Word :=
  (List.range d.k).foldl (fun acc ic => (List.range d.r).foldl (fun acc r => (List.range d.s).foldl (fun acc c =>
    match convIn d ic (convRow d oy r) (convCol d ox c) with
    | none => acc
    | some q =>
      let p := convW d oc ic r c
      accStep acc ((d.x.exact mem q.1 q.2).mul (d.w.exact mem p.1 p.2))) acc) acc) 0

/-- Output position (first, second, channel) of element (a, b) of an item of a convolution (R130, R141). -/
def convPos (d : ArrDesc) (item a b : Nat) : Nat × Nat × Nat :=
  let nb := d.n / 16
  let p := item / nb
  (4 * (p / (d.ow / 4)) + a / 4, 4 * (p % (d.ow / 4)) + a % 4, 16 * (item % nb) + b)

/-- Row and column of element (a, b) of an item in tensor l: Y or the codes. -/
def outPlace (d : ArrDesc) (l : Layout) (item a b : Nat) : Nat × Nat :=
  if d.conv then
    let p := convPos d item a b
    unpackPlace (Config.convOutput (l.rows, l.cols, l.red) d.ow d.n p.1 p.2.1 p.2.2)
  else (16 * (item / (d.n / 16)) + a, 16 * (item % (d.n / 16)) + b)

/-- Output channel or column of element b of an item. -/
def outCol (d : ArrDesc) (item b : Nat) : Nat := 16 * (item % (d.n / 16)) + b

/-- The 256 values of an item in position order. -/
def itemVals (joins : List CarJoin) (d : ArrDesc) (mem : List Host.Cell) (item : Nat) : List Word :=
  (List.range 256).map (fun p =>
    if d.conv then
      let q := convPos d item (p / 16) (p % 16)
      convSum d mem q.1 q.2.1 q.2.2
    else
      mmSum joins d mem (16 * (item / (d.n / 16)) + p / 16) (outCol d item (p % 16)))

/-- Products of the canonical order that an item forms (R145). -/
def itemProducts (d : ArrDesc) : Nat := 256 * (if d.conv then d.k * d.r * d.s else d.k)

/-- Energy coefficient of an operation's products: by its wider operand (14 Table 3). -/
def prodCoef (d : ArrDesc) : Nat :=
  let w := max (fmtWidth d.x.fmt) (fmtWidth d.w.fmt)
  if 16 ≤ w then 0 else if 6 ≤ w then 1 else 2

/-- Products that a cell forms in an a-cycle, P, by the wider operand (Table 1). -/
def cellProducts (d : ArrDesc) : Nat :=
  let w := max (fmtWidth d.x.fmt) (fmtWidth d.w.fmt)
  if 16 ≤ w then 1 else if 6 ≤ w then 2 else 4

/-! Folds: lanes, cells and the time of an item (R123, R128 to R130). -/

/-- K in whole segments of 64. -/
def ArrDesc.kPad (d : ArrDesc) : Nat := 64 * ceilDiv d.k 64

/-- Lane height of a convolution in drovers, v. -/
def ArrDesc.height (d : ArrDesc) : Nat := if d.r ≤ 4 then 1 else if d.r ≤ 8 then 2 else 4

/-- a-cycles that one item takes on a string of effective length e (Table 2). -/
def itemTime (d : ArrDesc) (e : Nat) : Nat :=
  if d.conv then 64 * d.height * d.k * ceilDiv d.s (cellProducts d) / e else 16 * d.kPad / (e * cellProducts d)

/-- Rows and columns inside the block that lane ln of a matrix item computes, on a string of effective length e (R129). -/
def matLane (e ln : Nat) : List (Nat × Nat) :=
  if e ≤ 4 then
    (List.range 16).flatMap (fun r => ((List.range 16).filter (fun c => decide (c % (4 * e) = ln % (4 * e)))).map (fun c => (r, c)))
  else (List.range (64 / e)).map (fun r => (64 / e * (ln / 16) + r, ln % 16))

/-- Outputs that lane (g, j) of a convolution item computes: patch row j, the four patch columns, and its channels inside the block (R130). -/
def convLane (d : ArrDesc) (e g j : Nat) : List (Nat × Nat) :=
  (List.range 4).flatMap (fun x => (List.range (16 * d.height / e)).map (fun c => (4 * j + x, 16 * d.height / e * g + c)))

/-- Code of weight (k, n) of a matrix operation. -/
def wCode (d : ArrDesc) (mem : List Host.Cell) (k n : Nat) : Nat := if d.tw then d.w.rawCode mem n k else d.w.rawCode mem k n

/-- Codes that cell (i, j) of the drover at place p of a string of effective length e holds in its row register behind an item: the last segment of its lane's last column, or its kernel row of the last pair of channels; none where the cell forms no products (R125, R129, R130; log entry 86). -/
def cellRow (d : ArrDesc) (mem : List Host.Cell) (item e p i j : Nat) : Option (List Nat) :=
  if d.conv then
    let h := 4 * (p % d.height) + i
    let oc := 16 * (item % (d.n / 16)) + 16 * d.height / e * (p / d.height + 1) - 1
    if d.r ≤ h then none
    else some ((List.range 16).map (fun c =>
      if c < d.s then
        let q := convW d oc (d.k - 1) h c
        d.w.rawCode mem q.1 q.2
      else 0))
  else
    let n := match (matLane e (4 * p + j)).getLast? with
      | some q => q.2
      | none => 0
    some ((List.range 16).map (fun t =>
      let k := d.kPad - 64 + 16 * i + t
      if k < d.k then wCode d mem k (16 * (item % (d.n / 16)) + n) else 0))

/-- The cells of the effective drovers of a string behind an item: the row register in use was the standby register of the row before it; the accumulators are free (log entry 86). -/
def loadCells (s : State) (i : Nat) (d : ArrDesc) (item : Nat) : State :=
  let e := strLeff s i
  let f := strFirst s i
  s.modArr (fun a => { a with cells := (List.range (16 * e)).foldl (fun t x =>
    let c := 16 * f + x
    match cellRow d s.mem.bytes item e (x / 16) (x / 4 % 4) (x % 4) with
    | none => t
    | some row => tabMod {} t c (fun y => { row := row, standby := y.row, acc := (List.range 4).map (Config.cellAcc s.free c) })) a.cells })

/-- The feed paths' transposing buffers behind an item are free (R135, log entry 86). -/
def loadFeeds (s : State) : State :=
  s.modArr (fun a => { a with feeds := (List.range 4).foldl (fun t p =>
    let el := Config.feedElem s.free p
    tabSet {} t p { b0 := (List.range 64).map el, b1 := (List.range 64).map (fun k => el (64 + k)) }) a.feeds })

/-- Bytes that the rows r to r + n - 1 of X take in: of the operation's own tensor, or of the contributors of a caravan. -/
def xSpans (joins : List CarJoin) (d : ArrDesc) (r n : Nat) : List (Nat × Nat) :=
  match joins with
  | [] => if d.tx then d.x.window 0 r d.k n else d.x.window r 0 n d.k
  | _ => (joins.foldl (fun (st : Nat × List (Nat × Nat)) j =>
      let lo := max r st.1
      let hi := min (r + n) (st.1 + j.rows)
      (st.1 + j.rows, if lo < hi then st.2 ++ j.x.window (lo - st.1) 0 (hi - lo) d.k else st.2)) (0, [])).2

/-- Bytes of X and W that an item reads. -/
def itemSpans (joins : List CarJoin) (d : ArrDesc) (item : Nat) : List (Nat × Nat) :=
  let oc := 16 * (item % (d.n / 16))
  if d.conv then
    let p := convPos d item 0 0
    let ys := ((List.range 4).flatMap (fun a => (List.range d.r).map (convRow d (p.1 + a)))).eraseDups
    let xs := ((List.range 4).flatMap (fun a => (List.range d.s).map (convCol d (p.2.1 + a)))).eraseDups
    let xin := (List.range d.k).flatMap (fun ic => ys.flatMap (fun y => xs.flatMap (fun x =>
      match convIn d ic y x with
      | some q => d.x.spans q.1 q.2
      | none => [])))
    xin ++ (List.range 16).flatMap (fun o => (List.range d.k).flatMap (fun ic => (List.range d.r).flatMap (fun r =>
      (List.range d.s).flatMap (fun c =>
        let q := convW d (oc + o) ic r c
        d.w.spans q.1 q.2))))
  else xSpans joins d (16 * (item / (d.n / 16))) 16 ++ (if d.tw then d.w.window oc 0 16 d.k else d.w.window 0 oc d.k 16)

/-- Requester of the feed path that reads a codeword (07 Table 4). -/
def feedReq (s : State) (cw : Nat) : Nat := 2 + Config.feedPath s.free cw % 4

/-- The feed paths read spans: each codeword error is met by the path that reads it, and no path waits any longer. -/
def touchFeeds (s : State) (sp : List (Nat × Nat)) : State :=
  let t := spend ((eccSpans s sp).foldl (fun u p => eccRdOne (feedReq s p.1) u p) s) 4 (unitsIn 32 sp).length
  let u := sp.foldl (fun u p => serve u (feedReq s (p.1 / 8)) p.1 p.2) t
  u.modMem (fun m => { m with wants := m.wants.filter (fun w => !(decide (2 ≤ w.req) && decide (w.req ≤ 5))) })

/-- Products count in ARR_MAC, and in LDG_MAC in units of 2^16 with the remainder carried (R145). -/
def countMac (s : State) (n : Nat) : State :=
  (s.modArr (fun a => { a with mac := a.mac + BitVec.ofNat 64 n })).modLdg (fun l =>
    let t := l.macRem + n
    { l with mac := l.mac + BitVec.ofNat 64 (t / 65536), macRem := t % 65536 })

end Sys2Proof.Machine
end

