-- ==== Sys2Proof/Machine/ArrOps.lean ====
section
/-! DEFINITION. Array scheduling: dispatch of ARR operations, caravans, claims of items and work-list entries, stealing, and the drain (05 R133, R136 to R144; 06 R146 to R166). -/

namespace Sys2Proof.Machine

/-- Operations that string i holds (R144). -/
def strHolds (s : State) (i : Nat) : Nat := (s.arr.ops.filter (fun o => !o.isList && decide (o.string = i))).length

/-- The open caravan of string i. -/
def openCar (s : State) (i : Nat) : Option ArrOp := s.arr.ops.find? (fun o => o.open_ && decide (o.string = i))

/-- An operation of the ARR queue fails a check (R133). -/
def arrFail (s : State) (ent : QEntry) (fn cause : Nat) : State :=
  dispatchFail (arrDerr s (ent.d.setWidth 21) cause fn ent.sub) eARR ent (arrFault cause) (ent.d.setWidth 21) cause

/-- The open caravan of a string departs. -/
def departStr (s : State) (i : Nat) (why : DepCause) : State :=
  match openCar s i with
  | none => s
  | some o => s.modArr (fun a => departId a o.id why)

/-- Flags of Table 4 of chapter 05: reserved bits, and a string that does not exist. -/
def arrPre (s : State) (ent : QEntry) : List (Bool × Nat) :=
  [(decide (bitsOf ent.fs.toNat 17 9 ≠ 0), 1), (decide (strings s ≤ ent.sub.toNat), 2)]

/-- The string has room, or does not exist and the operation will fail its check. -/
def arrRoom (s : State) (ent : QEntry) : Bool :=
  decide (strHolds s ent.sub.toNat < 2) || decide (strings s ≤ ent.sub.toNat)

/-- Dispatch of ARR.MM or ARR.CONV (R131, R133, R144). The drain port reads the descriptors and the bitmap: DESIGN CHOICE, log entry 86. -/
def arrOp (s : State) (conv : Bool) (fn : Nat) : Res :=
  let src := fun (ent : QEntry) => (⟨ent.d.toNat, ent.a, ent.sub.toNat, conv⟩ : ArrSrc)
  dispatchMem s eARR fn (arrRoom s) rqDRAIN (fun ent => descSpans s (src ent)) (fun ent s0 =>
    let str := ent.sub.toNat
    let t := touchSpans s0 rqDRAIN (descSpans s0 (src ent))
    match arrEval t (src ent) (arrPre t ent) (fun _ => []) (stepField t ent.ctx) with
    | .error c => arrFail t ent fn c
    | .ok d =>
      let u := departStr t str .force
      let id := u.opId
      let v := putInfl u eARR ent none false
      v.modArr (fun a => { a with
        ops := a.ops ++ [{ id := id, string := str, descAddr := ent.d.toNat, tag := BitVec.ofNat 8 (bitsOf ent.fs.toNat 7 0)
                           nosteal := ent.fs.getLsbD 8, desc := d, lo := 0, hi := d.items, items := d.items, pos := a.nextPos, ctx := ent.ctx }]
        nextPos := if d.out = 2 then a.nextPos else a.nextPos + d.items }))

/-- ARR.MM: a matrix product on a string. -/
def execArrMm (s : State) : Res := arrOp s false 0
/-- ARR.CONV: a convolution on a string. -/
def execArrConv (s : State) : Res := arrOp s true 1

/-- Rows that a CAR offers. -/
def carRows (ent : QEntry) : Nat := ent.b.toNat

/-- The open caravan of its string takes a CAR: same descriptor and W offset, and room (06 R162). -/
def carJoins (s : State) (ent : QEntry) : Bool :=
  match openCar s ent.sub.toNat with
  | none => false
  | some o => decide (o.descAddr = ent.d.toNat) && decide (o.offW = bitsOf ent.a.toNat 41 21) && decide (o.fill + carRows ent ≤ o.capRows)

/-- Causes of Table 6 for a CAR (06 R161, R170). -/
def carPost (ent : QEntry) (d : ArrDesc) : List (Bool × Nat) :=
  [(d.conv || d.tx || d.deriv || decide (d.out = 2) || decide (carRows ent = 0) || decide (d.m < carRows ent) ||
    decide (bitsOf ent.fs.toNat 17 9 ≠ 0), 10)]

/-- The operation that a CAR names. -/
def carSrc (s : State) (ent : QEntry) : ArrSrc := ⟨ent.d.toNat, ent.a, ent.sub.toNat, convDesc s ent.d.toNat⟩

/-- A CAR as its checks find it. -/
def carEval (s : State) (ent : QEntry) : Except Nat ArrDesc :=
  arrEval s (carSrc s ent) [(decide (strings s ≤ ent.sub.toNat), 2)] (carPost ent) (stepField s ent.ctx)

/-- A CAR that passes its checks and cannot join makes the open caravan depart, also when it must itself wait for room (06 R162). -/
def carDepart (s : State) : State :=
  match headFn s eARR 2 with
  | none => s
  | some ent =>
    if carJoins s ent || faultDiscards s eARR ent || !wvMet s ent || spansWait s (descSpans s (carSrc s ent)) then s
    else
      match carEval s ent with
      | .error _ => s
      | .ok _ => departStr s ent.sub.toNat .force

/-- ARR.CAR joins or opens a caravan (06 R161, R162). -/
def execArrCar (s : State) : Res :=
  let s1 := carDepart s
  dispatchMem s1 eARR 2 (fun ent => carJoins s1 ent || arrRoom s1 ent) rqDRAIN (fun ent => descSpans s1 (carSrc s1 ent)) (fun ent s0 =>
    let str := ent.sub.toNat
    let t := touchSpans s0 rqDRAIN (descSpans s0 (carSrc s0 ent))
    match carEval t ent with
    | .error c => arrFail t ent 2 c
    | .ok d =>
      let id := t.opId
      let j : CarJoin := { id := id, rows := carRows ent, x := d.x }
      let u := putInfl t eARR ent none false
      let open_ : Option Nat := (openCar u str).map (·.id)
      let car := open_.getD id
      let v := match open_ with
        | some k => u.modArr (fun a => { a with ops := a.ops.map (fun o => if o.id = k then { o with joins := o.joins ++ [j] } else o) })
        | none => u.modArr (fun a => { a with ops := a.ops ++
            [{ id := id, string := str, joins := [j], open_ := true, descAddr := ent.d.toNat, offW := bitsOf ent.a.toNat 41 21
               capRows := d.m, tag := BitVec.ofNat 8 (bitsOf ent.fs.toNat 7 0), desc := d, ctx := ent.ctx }] })
      let fill := ((openCar v str).map (·.fill)).getD 0
      if fill = d.m then v.modArr (fun a => departId a car .full)
      else if ent.fs.getLsbD 8 then v.modArr (fun a => departId a car .force)
      else if !caravanEn v then v.modArr (fun a => departId a car .off)
      else v)

/-- CARAVAN_DEADLINE: the open caravan of a string departs (06 R163). -/
def execCaravanDeadline (i : BitVec 6) (s : State) : Res := whenOn (unitsOn s) s (departStr s i.toNat .deadline)

/-- ARR.FLUSH: every open caravan departs (06 R166). Its FS is not looked at: DESIGN CHOICE, log entry 94. -/
def execArrFlush (s : State) : Res :=
  dispatch s eARR 4 (fun _ => true) (fun ent t => putInfl (t.modArr departAll) eARR ent none true)

/-- A LIST of the group with entries to claim. -/
def groupList (s : State) (g : Nat) : Option ArrOp := s.arr.ops.find? (fun o => o.isList && decide (o.group = g) && decide (o.lo < o.hi))

/-- Some string belongs to group g. -/
def groupUsed (s : State) (g : Nat) : Bool := (List.range (strings s)).any (fun i => decide (strGrp s i = g))

/-- Scale exponents of the weighers. -/
def scalesOf (s : State) : List Byte := (List.range 16).map (fun k => (tabGet ({} : Weigher) s.wgh.w k).s)

/-- The state with other scale exponents. -/
def withScales (s : State) (l : List Byte) : State :=
  s.modWgh (fun w => { w with w := (l.mapIdx (fun k v => (k, v))).foldl (fun t p => tabMod {} t p.1 (fun x => { x with s := p.2 })) w.w })

/-- ARR.LIST: a work list for a stealing group (06 R152, R153). The weighers' scales are those of this dispatch for every entry (04 R103). An FS other than 0 fails cause 1: DESIGN CHOICE, log entry 94. -/
def execArrList (s : State) : Res :=
  dispatch s eARR 3 (fun ent => (groupList s (ent.sub.toNat % 16)).isNone) (fun ent t =>
    let g := ent.sub.toNat % 16
    let n := ent.b.toNat
    let cause := if !dataAt t ent.d.toNat 8 (8 * min n 4096) then 7
      else lowest [(decide (ent.fs ≠ 0), 1), (!groupUsed t g || decide (16 ≤ ent.sub.toNat), 8), (decide (n = 0) || decide (4096 < n), 9)]
    if cause ≠ 0 then arrFail t ent 3 cause
    else
      let id := t.opId
      (putInfl t eARR ent none false).modArr (fun a => { a with
        ops := a.ops ++ [{ id := id, string := 64, isList := true, group := g, lo := 0, hi := n, items := n, pos := a.nextPos
                           a := ent.a, addr := ent.d.toNat, ctx := ent.ctx, desc := { stepField := stepField t ent.ctx }
                           scales := scalesOf t }]
        nextPos := a.nextPos + n }))

/-! Claims (06 R146 to R154). -/

/-- Bale buffers of string i that are taken, at most 2 (R136). -/
def strBufs (s : State) (i : Nat) : Nat := (s.arr.bufs.filter (fun b => decide (b.string = i))).length

/-- The first operation of string i, in acceptance order, with unclaimed items. -/
def strNext (s : State) (i : Nat) : Option ArrOp :=
  s.arr.ops.find? (fun o => !o.isList && decide (o.string = i) && decide (o.lo < o.hi))

/-- A request of one of these requesters waits for a bank. -/
def wantsAny (s : State) (p : Nat → Bool) : Bool := s.mem.wants.any (fun w => p w.req)

/-- A feed path or the drain's memory port waits, and every string freezes (R143; 07 R189, R191). -/
def arrFrozen (s : State) : Bool := wantsAny s (fun r => decide (2 ≤ r) && decide (r ≤ 6))

/-- An item of string i is in progress (log entry 84). -/
def strRuns (s : State) (i : Nat) : Bool := s.arr.bufs.any (fun b => decide (b.string = i) && decide (b.left ≠ 0))

/-- String i may begin an item: it exists, has no item in progress and a free buffer, and no freeze holds the strings. -/
def strReady (s : State) (i : Nat) : Bool :=
  unitsOn s && decide (i < strings s) && decide (strBufs s i < 2) && !strRuns s i && !arrFrozen s

/-- String i can begin the first product of an item of its own: its drovers may issue (06 R146; 14 R342). -/
def strCan (s : State) (i : Nat) : Bool := strReady s i && !strPaused s i

/-- String i is idle for work (06 R147). A masked or paused string is: the mask and a stretch hold its products back, not its claim. -/
def strIdle (s : State) (i : Nat) : Bool := strReady s i && (strNext s i).isNone

/-- A lower string of the group of string i is idle, and would be served first (06 R149). -/
def servedFirst (s : State) (i : Nat) (wants : Nat → Bool) : Bool :=
  (List.range i).any (fun j => decide (strGrp s j = strGrp s i) && strIdle s j && wants j)

def setOp (s : State) (id : Nat) (f : ArrOp → ArrOp) : State :=
  s.modArr (fun a => { a with ops := a.ops.map (fun o => if o.id = id then f o else o) })

/-- String i computes an item: its operands are read, its bale waits in a buffer, its products count, and it is progress. Its first product comes lead a-cycles later (log entries 5, 84, 86). -/
def runItem (s : State) (i : Nat) (o : ArrOp) (d : ArrDesc) (addr item pos : Nat) (tag : Byte) (last : Bool) (lead : Nat) : State :=
  let t := loadFeeds (loadCells (touchFeeds s (itemSpans o.joins d item)) i d item)
  let b : Bale := { opId := o.id, string := i, item := item, tag := tag, last := last, pos := pos, desc := d
                    vals := itemVals o.joins d t.mem.bytes item, lead := lead, left := itemTime d (strLeff t i) }
  let u := t.modArr (fun a => { a with bufs := a.bufs ++ [b], lastDesc := tabSet none a.lastDesc i (some addr) })
  progress (spend (countMac { u with free := u.free + 1 } (itemProducts d)) (prodCoef d) (itemProducts d))

/-- Item q of an MM, CONV or caravan. -/
def runOwn (s : State) (i : Nat) (o : ArrOp) (q lead : Nat) : State :=
  runItem s i o o.desc o.descAddr q (o.pos + q) o.tag (decide (q + 1 = o.items)) lead

/-- ITEM_CLAIM: a string begins its next item (06 R146). -/
def execItemClaim (i : BitVec 6) (s : State) : Res :=
  match strNext s i.toNat with
  | none => .next s
  | some o =>
    whenMem (strCan s i.toNat) (feedReq s 0) (itemSpans o.joins o.desc o.lo) s
      (runOwn (setOp s o.id (fun x => { x with lo := x.lo + 1 })) i.toNat o o.lo 0)

/-- Operations that thief i may steal from: of each victim string the first that qualifies (06 R148). -/
def victims (s : State) (i : Nat) : List ArrOp :=
  (List.range 64).filterMap (fun v =>
    if decide (v = i) || decide (strings s ≤ v) || decide (strGrp s v ≠ strGrp s i) then none
    else s.arr.ops.find? (fun o => !o.isList && decide (o.string = v) && !o.nosteal && decide (o.lo + 2 ≤ o.hi) &&
      (!o.desc.conv || decide (o.desc.r ≤ 4 * strLeff s i))))

/-- The victim operation with the most unclaimed items; ties go to the lower string (06 R149). -/
def bestVictim : List ArrOp → Option ArrOp
  | [] => none
  | o :: t =>
    match bestVictim t with
    | none => some o
    | some p => if o.hi - o.lo < p.hi - p.lo then some p else some o

/-- ITEM_STEAL: an idle string claims the highest unclaimed item of a victim (06 R148 to R151), and forms its first product 2 + L_eff a-cycles later. Work-list entries come first, and a lower idle string that has a victim. -/
def execItemSteal (i : BitVec 6) (s : State) : Res :=
  match bestVictim (victims s i.toNat) with
  | none => .next s
  | some o =>
    whenMem (strIdle s i.toNat && (groupList s (strGrp s i.toNat)).isNone &&
        !servedFirst s i.toNat (fun j => (bestVictim (victims s j)).isSome))
      (feedReq s 0) (itemSpans o.joins o.desc (o.hi - 1)) s
      ((runOwn (setOp s o.id (fun x => { x with hi := x.hi - 1 })) i.toNat o (o.hi - 1) (2 + strLeff s i.toNat)).modArr
        (fun a => { a with steals := a.steals + 1 }))

/-- Positions from p on are n fewer: entries that will never bring a bale leave the sequence (log entry 36). -/
def dropPositions (a : Arr) (p n : Nat) : Arr :=
  let f := fun x => if p + n ≤ x then x - n else x
  { a with
    ops := a.ops.map (fun o => { o with pos := f o.pos })
    bufs := a.bufs.map (fun b => { b with pos := f b.pos })
    bq := a.bq.map (fun b => { b with pos := f b.pos })
    nextPos := a.nextPos - n }

/-- An operation whose bales are all drained and that has nothing left to claim leaves its string, and it or its contributors may retire (R142, R165). -/
def settleOp (s : State) (id : Nat) : State :=
  match s.arr.ops.find? (fun o => decide (o.id = id)) with
  | none => s
  | some o =>
    if o.open_ || decide (o.lo < o.hi) || decide (o.drained < o.items) then s
    else
      let t := s.modArr (fun a => { a with ops := a.ops.filter (fun x => decide (x.id ≠ id)) })
      if o.joins = [] then markDone t eARR id
      else o.joins.foldl (fun u j => modInfl u eARR j.id (fun x => { x with done := true, car := some id })) t

/-- A work-list entry fails a check when it is claimed: the fault, and the rest of the list is discarded with the queue (06 R154). The LIST gives its own SID signal as it retires, behind the bales of the entries claimed before: DESIGN CHOICE, log entry 94. -/
def listFail (s : State) (o : ArrOp) (addr cause : Nat) : State :=
  let n := o.hi - o.lo
  let t := setOp s o.id (fun x => { x with lo := x.hi, items := x.lo, ended := true })
  let u := t.modArr (fun a => dropPositions a o.pos n)
  let ad := BitVec.ofNat 21 addr
  settleOp (failQueue (raise (arrDerr u ad cause 3 (BitVec.ofNat 6 o.group)) (arrFault cause) 1 ad cause) eARR none) o.id

/-- Entry of a list that is claimed next. -/
def listEntry (s : State) (o : ArrOp) : Nat := mNat s (o.addr + 8 * o.lo) 8

/-- The operation that a list entry names. An M_CODE or N_CODE of 7 takes the default shape of the string that claims it: DESIGN CHOICE, log entry 94. -/
def entrySrc (s : State) (o : ArrOp) (i : Nat) : ArrSrc :=
  let addr := bitsOf (listEntry s o) 20 0
  ⟨addr, o.a, i, convDesc s addr⟩

/-- A list entry as its checks find it: the weighers' scales are those of the LIST's dispatch (04 R103, R117; 06 R154). -/
def entryEval (s : State) (o : ArrOp) (i : Nat) : Except Nat ArrDesc :=
  let e := listEntry s o
  arrEval (withScales s o.scales) (entrySrc s o i) []
    (fun d => [(decide (bitsOf e 31 21 ≠ 0) || decide (bitsOf e 63 52 ≠ 0) || decide (d.items ≤ bitsOf e 43 32), 9)]) o.desc.stepField

/-- What the claim of a list entry reads. -/
def entrySpans (s : State) (o : ArrOp) (i : Nat) : List (Nat × Nat) :=
  let h := [(o.addr + 8 * o.lo, 8)]
  if spansWait s h then h
  else
    let k := h ++ descSpans s (entrySrc s o i)
    if spansWait s k then k
    else
      match entryEval s o i with
      | .error _ => k
      | .ok d => k ++ itemSpans [] d (bitsOf (listEntry s o) 43 32)

/-- a-cycles from the claim of a list entry to its first product, by the entry's descriptor address (06 R153). -/
def listLead (s : State) (i addr : Nat) : Nat :=
  (if tabGet none s.arr.lastDesc i = some addr then 2 else 8) + strLeff s i

/-- LIST_ENTRY_CLAIM: an idle string, the lowest of its group, claims the next entry of its group's list, which is checked at the claim (06 R149, R152 to R154). -/
def execListEntryClaim (i : BitVec 6) (s : State) : Res :=
  match groupList s (strGrp s i.toNat) with
  | none => .next s
  | some o =>
    let e := listEntry s o
    let item := bitsOf e 43 32
    whenMem (strIdle s i.toNat && !servedFirst s i.toNat (fun _ => true)) (feedReq s 0) (entrySpans s o i.toNat) s
      (let t := (touchSpans s rqDRAIN ((o.addr + 8 * o.lo, 8) :: descSpans s (entrySrc s o i.toNat))).modArr
         (fun a => { a with listEnt := a.listEnt + 1 })
       match entryEval t o i.toNat with
       | .error c => unstall (listFail t o (bitsOf e 20 0) c)
       | .ok d =>
         let skip := decide (d.out = 2)
         let u := setOp t o.id (fun x => { x with lo := x.lo + 1, pos := if skip then x.pos else x.pos + 1 })
         let v := if skip then u.modArr (fun a => dropPositions a o.pos 1) else u
         runItem v i.toNat o d (bitsOf e 20 0) item o.pos (BitVec.ofNat 8 (bitsOf e 51 44)) (decide (o.lo + 1 = o.hi))
           (listLead s i.toNat (bitsOf e 20 0)))

/-! The drain (R137 to R141). -/

/-- A finished bale that the drain may take: under strict order one inside the window (06 R156); one for the bale queue needs a free entry (06 R159). -/
def drainable (s : State) (b : Bale) : Bool :=
  decide (b.desc.out = 2) || !baleStrict s || (decide (s.arr.relPos ≤ b.pos) && decide (b.pos < s.arr.relPos + 8))

/-- Bale a finished before bale b, or with it on a lower string (R137). -/
def Bale.before (a b : Bale) : Bool := decide (a.fin < b.fin) || (decide (a.fin = b.fin) && decide (a.string ≤ b.string))

/-- Of some bales the one that finished earliest. -/
def firstBale : List Bale → Option Bale
  | [] => none
  | b :: t =>
    match firstBale t with
    | none => some b
    | some c => if b.before c then some b else some c

/-- The finished bale that the drain takes next, when a free entry lets it (R137; 06 R156, R159). -/
def waitingBale (s : State) : Option Bale := firstBale (s.arr.bufs.filter (fun b => decide (b.left = 0) && drainable s b))
def nextBale (s : State) : Option Bale :=
  (waitingBale s).filter (fun b => decide (b.desc.out = 2) || decide (s.arr.bq.length < 8))

/-- Privileged columns of a bale (R140). -/
def baleCols (b : Bale) : Nat :=
  if b.desc.deriv then (List.range 16).foldl (fun m c => if b.desc.pmask.getLsbD (outCol b.desc b.item c) then m + 2 ^ c else m) 0 else 0

/-- The bale's values after derivative Table 1 (R139, R140). -/
def baleVals (s : State) (b : Bale) : List Word :=
  if b.desc.deriv then
    b.vals.mapIdx (fun p v =>
      if (baleCols b).testBit (p % 16) then v
      else
        let q := outPlace b.desc b.desc.c b.item (p / 16) (p % 16)
        fMul v (dt1 s (b.desc.c.rawCode s.mem.bytes q.1 q.2)))
  else b.vals

/-- The bale record (Table 7). -/
def baleRecord (b : Bale) (string fmt cols : Nat) : Dword :=
  BitVec.ofNat 64 (b.tag.toNat + 2 ^ 8 * b.item + 2 ^ 20 * string + 2 ^ 26 * fmt + (if cols = 0 then 0 else 2 ^ 30) +
    (if b.last then 2 ^ 31 else 0) + 2 ^ 32 * cols)

/-- Codes of 256 elements packed in position order. -/
def packCodes (width : Nat) (codes : List Nat) : List Byte := codes.flatMap (codeBytes width)

/-- Place of position p of a bale in Y. -/
def Bale.place (b : Bale) (p : Nat) : Nat × Nat := outPlace b.desc b.desc.y b.item (p / 16) (p % 16)

/-- Derivative codes that the drain of a bale reads: those of its columns that are not privileged (R139, R140). -/
def codeSpans (b : Bale) : List (Nat × Nat) :=
  if b.desc.deriv then
    ((List.range 256).filter (fun p => !(baleCols b).testBit (p % 16))).flatMap (fun p =>
      let q := outPlace b.desc b.desc.c b.item (p / 16) (p % 16)
      b.desc.c.spans q.1 q.2)
  else []

/-- Elements of Y that the drain of a bale reads and writes: under OUT 2. -/
def accSpans (b : Bale) : List (Nat × Nat) :=
  if b.desc.out = 2 then (List.range 256).flatMap (fun p => b.desc.y.spans (b.place p).1 (b.place p).2) else []

/-- The bale is added into Y: each element old + new, narrowed, and written together (R137, R138). -/
def accumulate (s : State) (b : Bale) (vals : List Word) : State :=
  let y := b.desc.y
  let t := touchSpans s rqDRAIN (accSpans b)
  let e := (vals.mapIdx (fun p v => (b.place p, v))).foldl (fun (e : Emit) qv =>
    putElem e y b.desc.stepField qv.1.1 qv.1.2 (fAdd (y.widen t.mem.bytes qv.1.1 qv.1.2) qv.2)) { s := t }
  memWrJoined e.s rqDRAIN e.writes

/-- A finished bale leaves its buffer. -/
def takeBuf (a : Arr) (b : Bale) : Arr := { a with bufs := a.bufs.erase b, bales := a.bales + 1 }

/-- An OUT 2 bale is added into Y; its unit holds the elements as written. -/
def drainAcc (s : State) (b : Bale) (vals : List Word) : State :=
  let y := b.desc.y
  let v := accumulate s b vals
  let codes := (List.range 256).map (fun p => y.rawCode v.mem.bytes (b.place p).1 (b.place p).2)
  creditArr v 2 (baleRecord b 0 y.fmt 0).toNat (packCodes y.width codes)

/-- A bale of OUT 0 or 1 enters the bale queue, converted where OUT 1 and its privileged columns let it. -/
def drainQueue (s : State) (b : Bale) (vals : List Word) : State :=
  let d := b.desc
  let cols := baleCols b
  let conv := decide (d.out = 1) && !fmtIsMx d.y.fmt && decide (cols = 0)
  let ns := vals.mapIdx (fun p v =>
    narrowCode d.y.fmt d.y.s (roundingOf d.y.sr (rndOf s d.y d.stepField) (d.y.index (b.place p).1 (b.place p).2)) v)
  let fmt := if conv then d.y.fmt else 0
  let codes := if conv then ns.map (·.code) else vals.map (·.toNat)
  let v := if conv then observe s d.y.tensor d.y.fmt (List.zipWith (fun v (z : Narrowed) => ⟨v, z.sat, z.toInf⟩) vals ns) else s
  creditArr (v.modArr (fun a => { a with bq := a.bq ++ [{ pos := b.pos, rcd := baleRecord b b.string fmt cols, codes := codes }] }))
    2 (baleRecord b 0 fmt cols).toNat (packCodes (fmtWidth fmt) codes)

/-- BALE_DRAIN: the drain takes a finished bale and acts as OUT selects (R137 to R141); the bale is a journal unit (11 R268). -/
def execBaleDrain (s : State) : Res :=
  match nextBale s with
  | none => .next s
  | some b =>
    whenMem (unitsOn s) rqDRAIN (codeSpans b ++ accSpans b) s
      (let t := (touchSpans s rqDRAIN (codeSpans b)).modArr (fun a => takeBuf a b)
       let u := if b.desc.out = 2 then drainAcc t b (baleVals s b) else drainQueue t b (baleVals s b)
       progress (settleOp (setOp u b.opId (fun o => { o with drained := o.drained + 1 })) b.opId))

/-- The bale that the queue presents: the one at the next position under strict order, else the oldest (06 R156, R157). -/
def presented (s : State) : Option QBale :=
  if baleStrict s then s.arr.bq.find? (fun b => decide (b.pos = s.arr.relPos)) else s.arr.bq.head?

/-- The presented bale leaves the queue. -/
def popBale (s : State) (b : QBale) : State :=
  s.modArr (fun a => { a with bq := a.bq.erase b, relPos := a.relPos + 1 })

end Sys2Proof.Machine
end

