-- ==== Sys2Proof/Machine/LoadStore.lean ====
section
/-! DEFINITION. Loads, stores and branches of the control core (03 R75, R78 to R80, Tables 3, 5 and 6). -/

namespace Sys2Proof.Machine

/-- LDD: 64-bit load, at A + imm. -/
def execLdd (f : IForm) (s : State) : Res := load s f 3 (BitVec.ofNat 64)

/-- LDW: 32-bit load, sign-extended, at A + imm. -/
def execLdw (f : IForm) (s : State) : Res := load s f 2 (sextTo64 32)

/-- LDWU: 32-bit load, zero-extended, at A + imm. -/
def execLdwu (f : IForm) (s : State) : Res := load s f 2 (BitVec.ofNat 64)

/-- LDS: 16-bit load, sign-extended, at A + imm. -/
def execLds (f : IForm) (s : State) : Res := load s f 1 (sextTo64 16)

/-- LDSU: 16-bit load, zero-extended, at A + imm. -/
def execLdsu (f : IForm) (s : State) : Res := load s f 1 (BitVec.ofNat 64)

/-- LDB: 8-bit load, sign-extended, at A + imm. -/
def execLdb (f : IForm) (s : State) : Res := load s f 0 (sextTo64 8)

/-- LDBU: 8-bit load, zero-extended, at A + imm. -/
def execLdbu (f : IForm) (s : State) : Res := load s f 0 (BitVec.ofNat 64)

/-- STD: 64-bit store of D at A + imm. -/
def execStd (f : IForm) (s : State) : Res := store s f 3

/-- STW: 32-bit store of D[31:0] at A + imm. -/
def execStw (f : IForm) (s : State) : Res := store s f 2

/-- STS: 16-bit store of D[15:0] at A + imm. -/
def execSts (f : IForm) (s : State) : Res := store s f 1

/-- STB: 8-bit store of D[7:0] at A + imm. -/
def execStb (f : IForm) (s : State) : Res := store s f 0

/-- Branch conditions (Table 5); codes 7 to 31 are reserved. -/
def brTaken (cond : BitVec 5) (a b : Dword) : Option Bool :=
  match cond.toNat with
  | 0 => some (decide (a = b))
  | 1 => some (decide (a ≠ b))
  | 2 => some (decide (a.toInt < b.toInt))
  | 3 => some (decide (b.toInt ≤ a.toInt))
  | 4 => some (decide (a.toNat < b.toNat))
  | 5 => some (decide (b.toNat ≤ a.toNat))
  | 6 => some true
  | _ => none

/-- BR: branch by the offset from the first word when COND holds. -/
def execBr (f : BForm) (s : State) : Res :=
  instr s (lenOf f.ext) (decide (f.cond.toNat < 7)) (fun t =>
    if brTaken f.cond (rd t f.a) (rd t f.b) = some true then
      jumpTo t ((curCtx t).pc.toNat + brOffset f.ext f.off)
    else advance t (lenOf f.ext))

/-- JAL: D takes the address of the next instruction; branch by the offset. -/
def execJal (f : JForm) (s : State) : Res :=
  instr s 4 (!f.x) (fun t =>
    let pc := (curCtx t).pc.toNat
    jumpTo (wrReg t t.core.cur f.d (BitVec.ofNat 64 (pc + 4))) (pc + 4 * f.off.toInt))

/-- JALR: D takes the address of the next instruction; jump to A + imm with bits [1:0] cleared. -/
def execJalr (f : IForm) (s : State) : Res :=
  instr s (lenOf f.ext) true (fun t =>
    let target := (rd t f.a + immOf f.ext f.imm).toNat / 4 * 4
    jumpTo (wrReg t t.core.cur f.d (BitVec.ofNat 64 ((curCtx t).pc.toNat + lenOf f.ext))) target)

end Sys2Proof.Machine
end

