-- ==== Sys2Proof/Machine/Ledger.lean ====
section
/-! DEFINITION. The life ledger: ticks, snapshots, the save and restore ports (14 R354 to R357; 17 R429, R430). -/

namespace Sys2Proof.Machine

/-- CORE_ID: code, major and minor release (00 R2). -/
def coreIdCode : Nat := 0xFA1C
def coreIdMajor : Nat := 0x03
def coreIdMinor : Nat := 0x02

/-- The governor follows the ticks: no core reset, and no fatal fault (16 R391). -/
def govUp (s : State) : Bool := s.pin.coreRst && !s.flt.fatal

/-- LEDGER_TICK: time and uptime advance, and the throttle reasons of the ended tick count (R351, R354; 03 R73); a stage-boundary change that still holds the root clock is active in the new tick as well. The governor models the tick's leakage (R340). -/
def execLedgerTick (s : State) : Res :=
  let t := (s.modLdg (fun l => { l with time := l.time + 1, pticks := l.pticks + 1, svV := false })).modClk (fun c =>
    { c with ticks := c.ticks + 1, opWait := c.opWait - 1 })
  .next (if govUp s then
    (spend t 9 1).modGov (fun g =>
      let r := (List.range 8).foldl (fun y i => tabMod {} y i Reason.tick) g.rsn
      let r4 := if s.clk.opWait = 0 then r else tabMod {} r 4 (fun x => { x with seen := true })
      { g with rsn := r4, winTick := g.winTick + 1, noStrobe := g.noStrobe + 1, tickGone := 0, reqV := false })
    else t)

/-- LDG_WALLOFS_WRITE: the wall-time offset (R354). -/
def putWallofs (s : State) (val : Dword) : State := s.modLdg (fun l => { l with wallofs := val })
def execLdgWallofsWrite (val : Dword) (s : State) : Res := ldgCmd (.ldgWallofsWrite val) s (putWallofs s val)

/-! Snapshots (R355, Table 6). -/

/-- The 64-bit words 0 to 15 of the record. -/
def snapWords (s : State) (seq : Word) : List Dword :=
  let l := s.ldg
  let trims := (List.range 5).foldl (fun n k => n + (tabGet 0 l.trim k).toNat * 2 ^ (5 * k)) 0
  [BitVec.ofNat 64 (0x4C440301 + 2 ^ 32 * coreIdCode + 2 ^ 48 * coreIdMajor + if l.valid then 2 ^ 56 else 0),
   BitVec.ofNat 64 (s.core.tileId.toNat + 2 ^ 32 * seq.toNat), l.time, l.wallofs, l.pticks] ++
  (List.range 5).map (tabGet 0 l.acyc) ++
  [l.mac, l.ce, l.thex, l.mmrd, l.mmlow, BitVec.ofNat 64 (trims + 2 ^ 32 * l.lastRead.toNat)]

/-- 32-bit words of 64-bit ones. -/
def halves (ws : List Dword) : List Word := ws.flatMap (fun (w : Dword) => [w.setWidth 32, (w >>> 32).setWidth 32])

/-- CRC-64 of the record's words. -/
def recordCrc (ws : List Dword) : Dword := crc64 (ws.flatMap (leBytes 8))

/-- A record is captured: the sequence number rises, the CRC closes it, and it is offered on the save port (R355; 17 R429, log entry 45). -/
def capture (s : State) : State :=
  let seq := s.ldg.seq + 1
  let ws := snapWords s seq
  let all := halves (ws ++ [recordCrc ws])
  s.modLdg (fun l => { l with
    seq := seq, snapReq := false, snaprdy := true, svReq := true, svIdx := 0
    snap := (all.mapIdx (fun i w => (i, w))).foldl (fun t p => tabSet 0 t p.1 p.2) [] })

/-- LDG_CTRL_SNAP requests a snapshot at the next tick, or is refused while a record is saved. -/
def reqSnap (s : State) : State :=
  s.modLdg (fun l => if l.savebusy then { l with snaprej := true } else { l with snapReq := true })
def execLdgCtrlSnap (s : State) : Res := ldgCmd .ldgCtrlSnap s (reqSnap s)

/-- SNAPSHOT_CAPTURE: the requested record is captured, once none is being saved. -/
def execSnapshotCapture (s : State) : Res := .next (if s.ldg.snapReq && !s.ldg.savebusy then capture s else s)

/-- AUTO_SNAPSHOT: a record is captured and offered on the save port; none while one is being saved (log entry 45). -/
def execAutoSnapshot (s : State) : Res :=
  .next (if decide (s.ldg.auto_ = 0) || s.ldg.savebusy then s
         else capture s)

/-- SAVE_WORD: the save port sends the next word of the record; the request falls after the last (17 R429). -/
def execSaveWord (s : State) : Res :=
  .next (if s.ldg.svReq then
    let last := decide (33 ≤ s.ldg.svIdx)
    s.modLdg (fun l => { l with svD := tabGet 0 l.snap l.svIdx, svIdx := l.svIdx + 1, svReq := !last, savebusy := !last, svV := true })
  else s)

/-! Restore (R356; 17 R430). -/

/-- 64-bit word i of the restore buffer. -/
def rbufWord (s : State) (i : Nat) : Dword := tabGet (0 : Word) s.ldg.rbuf (2 * i + 1) ++ tabGet (0 : Word) s.ldg.rbuf (2 * i)

/-- The first check that the restore buffer fails, or 0. -/
def restoreCause (s : State) : Nat :=
  let w := fun i => (rbufWord s i).toNat
  lowest [(decide (bitsOf (w 0) 31 0 ≠ 0x4C440301), 1),
    (decide (bitsOf (w 0) 47 32 ≠ coreIdCode) || decide (bitsOf (w 0) 55 48 ≠ coreIdMajor), 2),
    (decide (bitsOf (w 1) 19 0 ≠ s.core.tileId.toNat), 3),
    (decide (recordCrc ((List.range 16).map (rbufWord s)) ≠ rbufWord s 16), 4),
    (!(w 0).testBit 56, 5)]

/-- A restore or INIT that fails (LDG_RSTERR). -/
def restoreErr (s : State) (cause : Nat) : State :=
  s.modLdg (fun l => { l with rsterr := true, rsterrCause := BitVec.ofNat 3 cause })

/-- The record's counts are added to what was counted since power-up; offset and trims are the record's. -/
def restore (s : State) : State :=
  let w := rbufWord s
  updateReq (s.modLdg (fun l => { l with
    time := l.time + w 2, wallofs := w 3, pticks := l.pticks + w 4
    acyc := (List.range 5).foldl (fun t k => tabMod 0 t k (fun x => x + w (5 + k))) l.acyc
    mac := l.mac + w 10, ce := l.ce + w 11, thex := l.thex + w 12, mmrd := l.mmrd + w 13, mmlow := l.mmlow + w 14
    trim := (List.range 5).foldl (fun t k => tabSet 0 t k (BitVec.ofNat 5 (bitsOf (w 15).toNat (5 * k + 4) (5 * k)))) l.trim
    valid := true }))

def tryRestore (s : State) : State :=
  if s.ldg.valid then restoreErr s 6
  else
    let c := restoreCause s
    if c ≠ 0 then restoreErr s c else restore s

/-- LDG_CTRL_RESTORE checks the restore buffer and restores the ledger. -/
def execLdgCtrlRestore (s : State) : Res := ldgCmd .ldgCtrlRestore s (tryRestore s)

/-- RESTORE_GO: the restore port's pulse acts as a write of LDG_CTRL_RESTORE. -/
def execRestoreGo (s : State) : Res := .next (tryRestore s)

/-- LDG_CTRL_INIT declares a new part, in OPEN only. -/
def newPart (s : State) : State :=
  if s.ldg.valid || decide (s.sec.state ≠ 0) then restoreErr s 6 else s.modLdg (fun l => { l with valid := true })
def execLdgCtrlInit (s : State) : Res := ldgCmd .ldgCtrlInit s (newPart s)

/-- A word of the restore buffer; numbers above 33 are ignored. -/
def putRbuf (s : State) (i : Nat) (d : Word) : State :=
  if i ≤ 33 then s.modLdg (fun l => { l with rbuf := tabSet 0 l.rbuf i d }) else s

/-- RESTORE_WORD: the restore port writes a word of the buffer. -/
def execRestoreWord (w : BitVec 6) (d : Word) (s : State) : Res := .next (putRbuf s w.toNat d)

end Sys2Proof.Machine
end

