-- ==== Sys2Proof/Machine/Post.lean ====
section
/-! DEFINITION. The post engine: messages out, mailboxes and responses (13 R330 to R335; 15 R368; 17 R412, R413). -/

namespace Sys2Proof.Machine

/-! Fields of a header beat (17 Table 4). -/
def phKind (h : Dword) : Nat := bitsOf h.toNat 3 0
def phSender (h : Dword) : Nat := bitsOf h.toNat 43 24
def phQueue (h : Dword) : Nat := bitsOf h.toNat 46 44
def phExt (h : Dword) : Bool := h.getLsbD 47
def phCode (h : Dword) : Nat := bitsOf h.toNat 49 48

def postHeader (kind target sender queue : Nat) (ext : Bool) (code : Nat) : Dword :=
  BitVec.ofNat 64 (kind + 2 ^ 4 * target + 2 ^ 24 * sender + 2 ^ 44 * queue + (if ext then 2 ^ 47 else 0) + 2 ^ 48 * code)

/-! Mailboxes (R330). -/

def mboxOn (s : State) : Bool := decide (partSize s pMBOX ≠ 0)
def statusAddr (s : State) (q : Nat) : Nat := partBase s pMBOX + 8 * q
/-- Status word of queue q. -/
def statusOf (s : State) (q : Nat) : Nat := mNat s (statusAddr s q) 8
def mbHead (w : Nat) : Nat := bitsOf w 7 0
def mbTail (w : Nat) : Nat := bitsOf w 15 8
def mbOpen (w : Nat) : Bool := w.testBit 16
/-- Messages in a queue: (TAIL - HEAD) mod 256. -/
def mbCount (w : Nat) : Nat := (mbTail w + 256 - mbHead w) % 256

def mbWord (head tail : Nat) (open_ : Bool) (dropped : Nat) : Nat :=
  head % 256 + 256 * (tail % 256) + (if open_ then 65536 else 0) + 2 ^ 32 * (dropped % 2 ^ 32)
def putStatus (s : State) (q w : Nat) : State := memWr s rqPST (statusAddr s q) (leBytes 8 (BitVec.ofNat 64 w))

/-- The 8 status words of the MBOX partition become 0 (R334). -/
def clearStatus (s : State) : State := (List.range 8).foldl (fun t q => putStatus t q 0) s

/-- The zeroing of the status words that a commit began goes on: they are written when memory can be reached, and messages are taken again (R334; 07 R191, R193). -/
def clearMbox (s : State) : State :=
  if !s.pst.mbclear then s.modPst (fun x => { x with mbinit := false })
  else if mboxOn s && memWaits s (statusAddr s 0) 64 then await s rqPST [(statusAddr s 0, 64)]
  else (if mboxOn s then clearStatus s else s).modPst (fun x => { x with mbinit := false, mbclear := false })

/-! Dispatch (R331, R334, R335). -/

/-- PST_DERR keeps the first failure. -/
def pstDerr (s : State) (cause fn : Nat) (ent : QEntry) : State :=
  s.modPst (fun x => if x.derr then x else
    { x with derr := true, derrCause := BitVec.ofNat 3 cause, derrFn := BitVec.ofNat 2 fn, derrQueue := ent.sub.setWidth 3 })

def pstFail (s : State) (ent : QEntry) (fn cause : Nat) : State :=
  dispatchFail (pstDerr s cause fn ent) ePST ent (if cause = 4 then fcBOUNDS else fcILLEGAL) 0 cause

def pstResv (ent : QEntry) : Bool := decide (8 ≤ ent.sub.toNat) || decide (ent.fs ≠ 0)

/-- The bytes that an operation reads when its checks let it: only then does it wait for them. -/
def spanIf (c : Bool) (a n : Nat) : List (Nat × Nat) := if c then [(a, n)] else []

/-- PST.SEND reads its payload and holds the message; the engine holds up to 4 (R331). -/
def execPstSend (s : State) : Res :=
  dispatchMem s ePST 0 (fun _ => decide (s.pst.msgs.length < 4)) rqPST (fun ent => spanIf (dataAt s ent.b.toNat 64 64) ent.b.toNat 64) (fun ent t =>
    let b := ent.b.toNat
    let c := lowest [(pstResv ent || decide (2 ^ 20 ≤ ent.a.toNat), 1), (!dataAt t b 64 64, 4)]
    if c ≠ 0 then pstFail t ent 0 c
    else
      let u := touchRead t rqPST b 64
      let m : PstMsg := { id := u.opId, target := ent.a.setWidth 20, queue := ent.sub.setWidth 3
                          payload := BitVec.ofNat 512 (mNat u b 64), st := .held }
      (putInfl u ePST ent none false).modPst (fun x => { x with msgs := x.msgs ++ [m] }))

/-- ACK, OPEN and CLOSE change the status word and may retire (R334). -/
def pstWord (s : State) (fn : Nat) (empty : Nat → Bool) (f : Nat → Nat) : Res :=
  dispatchMem s ePST fn (fun _ => !s.pst.mbinit) rqPST (fun ent => spanIf (mboxOn s) (statusAddr s (ent.sub.toNat % 8)) 8) (fun ent t0 =>
    let q := ent.sub.toNat % 8
    let t := if mboxOn t0 then touchRead t0 rqPST (statusAddr t0 q) 8 else t0
    let c := lowest [(pstResv ent || decide (ent.d ≠ 0) || decide (ent.a ≠ 0) || decide (ent.b ≠ 0), 1),
      (!mboxOn t, 2), (mboxOn t && empty (statusOf t q), 3)]
    if c ≠ 0 then pstFail t ent fn c
    else putStatus (putInfl t ePST ent none true) q (f (statusOf t q)))

/-- PST.ACK adds 1 to HEAD. -/
def execPstAck (s : State) : Res :=
  pstWord s 1 (fun w => decide (mbCount w = 0)) (fun w => w / 256 * 256 + (mbHead w + 1) % 256)
/-- PST.OPEN sets OPEN. -/
def execPstOpen (s : State) : Res := pstWord s 2 (fun _ => false) (fun w => if mbOpen w then w else w + 65536)
/-- PST.CLOSE clears OPEN. -/
def execPstClose (s : State) : Res := pstWord s 3 (fun _ => false) (fun w => if mbOpen w then w - 65536 else w)

/-! Messages out (R331, R333). -/

/-- POST_CREDIT: one credit for a message. -/
def execPostCredit (s : State) : Res := whenOn (busOn s) s (s.modPst (fun x => { x with cred := x.cred + 1 }))

/-- No earlier message to the same tile and queue is in the engine (log entry 41). -/
def pairFirst (s : State) (i : Nat) (m : PstMsg) : Bool :=
  !(s.pst.msgs.take i).any (fun x => decide (x.target = m.target) && decide (x.queue = m.queue))

/-- Message i leaves as five beats for one credit. -/
def sendMsg (s : State) (i : Nat) (m : PstMsg) : State :=
  spend (s.modPst (fun x => { x with
    cred := x.cred - 1
    msgs := listPut x.msgs i { m with st := .sent }
    out := some { header := postHeader 1 m.target.toNat s.core.tileId.toNat m.queue.toNat false 0, payload := some m.payload } })) 7 5

/-- POST_TRANSMIT: held message i is handed to the fabric. -/
def execPostTransmit (i : BitVec 2) (s : State) : Res :=
  match s.pst.msgs[i.toNat]? with
  | none => .next s
  | some m => whenOn (unitsOn s && decide (m.st = .held) && decide (0 < s.pst.cred) && pairFirst s i.toNat m) s (progress (sendMsg s i.toNat m))

/-- POST_RESEND: message i, answered FULL, is sent again. It is no new hand-off (R331); it takes a credit (log entry 41). -/
def execPostResend (i : BitVec 2) (s : State) : Res :=
  match s.pst.msgs[i.toNat]? with
  | none => .next s
  | some m => whenOn (unitsOn s && decide (m.st = .retry) && decide (0 < s.pst.cred)) s
      ((sendMsg s i.toNat m).modPst (fun x => { x with resends := x.resends + 1 }))

/-- The SEND of a message retires with its status. -/
def postDone (s : State) (m : PstMsg) (code : Dword) : State :=
  markDone (setWb (s.modPst (fun x => { x with msgs := x.msgs.filter (fun y => decide (y.id ≠ m.id)) })) ePST m.id code) ePST m.id

/-- The sent message that a response answers: one to its queue number (log entry 42). -/
def answered (s : State) (h : Dword) : Option PstMsg :=
  let sent := s.pst.msgs.filter (fun m => decide (m.st = .sent) && decide (m.queue.toNat = phQueue h))
  sent[Config.postMatch s.free % sent.length]?

/-- POST_RESPONSE: ACCEPT and CLOSED retire the SEND, FULL keeps the message for a resend (R331). -/
def execPostResponse (h : Dword) (s : State) : Res :=
  match answered s h with
  | none => .next s
  | some m =>
    let t := spend { s with free := s.free + 1 } 7 1
    whenOn (unitsOn s && decide (phKind h = 2)) s
      (match phCode h with
       | 0 => (postDone t m 0).modPst (fun x => { x with sent := x.sent + 1 })
       | 1 => t.modPst (fun x => { x with msgs := x.msgs.map (fun y => if y.id = m.id then { y with st := .retry } else y) })
       | 2 => (postDone t m 1).modPst (fun x => { x with closed := x.closed + 1 })
       | _ => s)

/-! Messages in (R332; 15 R368). -/

/-- The response to a message (17 R412). -/
def answer (s : State) (h : Dword) (code : Nat) : State :=
  spend (s.modPst (fun x => { x with
    out := some { header := postHeader 2 (phSender h) (phSender h) (phQueue h) (phExt h) code, payload := none }
    inFull := x.inFull + if code = 1 then 1 else 0
    inClosed := x.inClosed + if code = 2 then 1 else 0
    recv := x.recv + if code = 0 then 1 else 0 })) 7 1

/-- The message leaves the buffer, whose credit is granted again (17 R413). -/
def freeMsg (s : State) : State := s.modPst (fun x => { x with inCred := x.inCred + 1 })

/-- An agent of the surroundings injected the message, and a sealed state refuses it (15 R368). -/
def extRefused (s : State) (h : Dword) : Bool := phExt h && decide (s.sec.state ≠ 0) && decide (phQueue h ≠ 7)

/-- A message for queue q is acted on: its status word has been read. A closed queue counts the message, whoever sent it; OPEN is tested before the refusal of R368 (log entry 89). -/
def fileMsg (s : State) (h : Dword) (payload : BitVec 512) : State :=
  let q := phQueue h
  let w := statusOf s q
  if !mbOpen w then answer (putStatus s q (mbWord (mbHead w) (mbTail w) false (bitsOf w 63 32 + 1))) h 2
  else if extRefused s h then answer s h 2
  else if mbCount w = 16 then answer s h 1
  else
    let b := partBase s pMBOX
    let slot := mbTail w % 16
    let t := memWr s rqPST (b + 0x400 + 1024 * q + 64 * slot) (leBytes 64 payload)
    let u := memWr t rqPST (b + 0x100 + 64 * q + 4 * slot) (leBytes 4 (BitVec.ofNat 32 (phSender h + if phExt h then 2 ^ 20 else 0)))
    answer (putStatus u q (mbWord (mbHead w) (mbTail w + 1) true (bitsOf w 63 32))) h 0

/-- A message that has reached the target is acted on (R332). -/
def takeMsg (s : State) (h : Dword) (payload : BitVec 512) : State :=
  freeMsg (if s.flt.fatal || !mboxOn s then answer s h 2
    else if s.pst.mbinit then answer s h (if extRefused s h then 2 else 1)
    else fileMsg (touchRead s rqPST (statusAddr s (phQueue h)) 8) h payload)

/-- The mailbox cannot be reached now. -/
def msgWaits (s : State) (h : Dword) : Bool :=
  !s.flt.fatal && mboxOn s &&
    (memWaits s (statusAddr s (phQueue h)) 8 || memWaits s (partBase s pMBOX + 0x100 + 64 * phQueue h) 64 ||
      memWaits s (partBase s pMBOX + 0x400 + 1024 * phQueue h) 1024)

/-- INBOUND_MESSAGE: the one message buffer takes it (17 R413); it may wait there for memory. -/
def execInboundMessage (h : Dword) (payload : BitVec 512) (s : State) : Res :=
  whenOn (busOn s && decide (phKind h = 1) && s.pst.waiting.isEmpty) s
    (let t := spend s 7 5
     if msgWaits t h then t.modPst (fun x => { x with waiting := [(h, payload)] }) else takeMsg t h payload)

/-- The message that waited for memory is acted on when it can. -/
def pstResume (s : State) : State :=
  match s.pst.waiting with
  | [] => s
  | (h, p) :: rest => if msgWaits s h then s else takeMsg (s.modPst (fun x => { x with waiting := rest })) h p

end Sys2Proof.Machine
end

