-- ==== Sys2Proof/Machine/Factor.lean ====
section
/-! DEFINITION. The Factor: steps and schedules, pass 1 and the partial, the norm token, pass 2, commit and rollback (10 R244 to R262). -/

namespace Sys2Proof.Machine

def modFacCtx (s : State) (c : BitVec 2) (f : FacCtx → FacCtx) : State :=
  s.modFac (fun x => { x with ctxs := tabMod {} x.ctxs c.toNat f })

/-! Schedules (R246, R247). -/

/-- A knot of Table 2. -/
structure Knot where
  pos : Nat
  exp : Bool
  last : Bool
  val : Word
deriving DecidableEq, Repr

/-- Knot k of curve c in a group's 1,024 bytes. -/
def knotOf (bs : List Byte) (c k : Nat) : Knot :=
  let w := leNat ((bs.drop (256 * c + 8 * k)).take 8)
  { pos := bitsOf w 29 0, exp := w.testBit 30, last := w.testBit 31, val := BitVec.ofNat 32 (w / 2 ^ 32) }

/-- The knots of a curve up to the first LAST. -/
def knotsGo : Nat → List Byte → Nat → Nat → List Knot
  | 0, _, _, _ => []
  | n + 1, bs, c, k =>
    let x := knotOf bs c k
    if x.last then [x] else x :: knotsGo n bs c (k + 1)

/-- The leading knots whose positions ascend strictly, and whether a later knot broke the ascent. -/
def ascending : List Knot → List Knot × Bool
  | [] => ([], false)
  | [x] => ([x], false)
  | x :: y :: t =>
    if x.pos < y.pos then
      let r := ascending (y :: t)
      (x :: r.1, r.2)
    else ([x], true)

/-- Finite, not zero. -/
def f32Regular (w : Word) : Bool := f32IsFinite w && decide (f32Abs w ≠ 0)

/-- The value at n of the segment from knot x to knot y, and whether SCHEDERR sets. -/
def segVal (n : Nat) (x y : Knot) : Word × Bool :=
  let f := fDiv (fOfNat (n - x.pos)) (fOfNat (y.pos - x.pos))
  if x.exp && f32Regular x.val && f32Regular y.val && decide (x.val.msb = y.val.msb) then
    (fMul x.val (fExp2 (fMul f (fLog2 (fDiv y.val x.val)))), false)
  else (fFma f (fSub y.val x.val) x.val, x.exp)

/-- The segment that holds n, which no knot before it exceeds; the last value from the last knot on. -/
def curveSeg (n : Nat) : List Knot → Word × Bool
  | [] => (0, false)
  | [x] => (x.val, false)
  | x :: y :: t => if y.pos ≤ n then curveSeg n (y :: t) else segVal n x y

/-- The value of a curve at n, and whether SCHEDERR sets. -/
def curveAt (n : Nat) : List Knot → Word × Bool
  | [] => (0, false)
  | x :: t => if n ≤ x.pos then (x.val, false) else curveSeg n (x :: t)

/-- A curve of a group's block at n. -/
def curveVal (bs : List Byte) (c n : Nat) : Word × Bool :=
  let a := ascending (knotsGo 32 bs c 0)
  let v := curveAt n a.1
  (v.1, v.2 || a.2)

/-- pow(b, n) of R247 over k bits of n, least significant first. -/
def powGo : Nat → Nat → Word → Word → Word
  | 0, _, p, _ => p
  | k + 1, n, p, q => powGo k (n / 2) (if n % 2 = 1 then fMul p q else p) (fMul q q)

def fPow (b : Word) (n : Nat) : Word := powGo (if n = 0 then 0 else Nat.log2 n + 1) n f32One b

/-- A bias correction (R247). -/
def biasK (wrapped : Bool) (b : Word) (n : Nat) : Word :=
  if wrapped then f32One else fDiv f32One (fSub f32One (fPow b n))

/-- The values of a group, and whether SCHEDERR sets. -/
def groupEval (bs : List Byte) (n : Word) (wrapped : Bool) : GroupVal × Bool :=
  let at_ := if wrapped then 2 ^ 32 - 1 else n.toNat
  let v := fun c => curveVal bs c at_
  let b1 := (v 2).1
  let b2 := (v 3).1
  ({ v := [(v 0).1, (v 1).1, b1, b2, fSub f32One b1, fSub f32One b2, biasK wrapped b1 n.toNat, biasK wrapped b2 n.toNat] },
   (v 0).2 || (v 1).2 || (v 2).2 || (v 3).2)

/-! Dispatch (R261, R262). -/

/-- FAC_DERR keeps the first failure. -/
def facDerr (s : State) (a : Dword) (cause fn : Nat) : State :=
  s.modFac (fun f => if f.derr then f else
    { f with derr := true, derrAddr := a.setWidth 21, derrCause := BitVec.ofNat 4 cause, derrFn := BitVec.ofNat 3 fn })

/-- Faults of Table 7. -/
def facFault (cause : Nat) : Nat := if cause = 7 then fcPINCONFLICT else if cause = 8 then fcBOUNDS else fcILLEGAL

/-- An operation fails a check of Table 7. -/
def facFail (s : State) (ent : QEntry) (fn cause : Nat) : State :=
  dispatchFail (facDerr s ent.a cause fn) eFAC ent (facFault cause) (ent.a.setWidth 21) cause

/-- The Factor executes one operation at a time, and none during a stream stop. -/
def facFree (s : State) : Bool := (qOf s eFAC).infl.isEmpty && !s.sec.stop

/-- SUB and FS must be 0. -/
def facResv (ent : QEntry) : Bool := decide (ent.sub ≠ 0) || decide (ent.fs ≠ 0)

/-- What FAC.STEP latches (R245). -/
def stepLatch (s : State) (t : Word) (wrapped : Bool) : StepLatch :=
  { rule := cfgBits s oFACTOR 1 0, skewOk := decide (cfgBits s oFACTOR 8 8 = 1), groupsM1 := cfgBits s oFACTOR 23 16
    clipEn := decide (cfgBits s oFACTOR 24 24 = 1), schedReg := cfgBits s (oFACTOR + 4) 5 0, schedOff := cfg s (oFACTOR + 8) 8
    clipMax := BitVec.ofNat 32 (cfg s (oFACTOR + 0x10) 4), normEps := BitVec.ofNat 32 (cfg s (oFACTOR + 0x14) 4)
    updEps := BitVec.ofNat 32 (cfg s (oFACTOR + 0x18) 4), l := s.wgh.l, n := t + 1, wrapped := wrapped }

/-- FAC.STEP: opens a step and fetches the schedule (R245; 11 R274; 15 R379). -/
def execFacStep (s : State) : Res :=
  dispatch s eFAC 0 (fun _ => facFree s) (fun ent t =>
    if facResv ent || decide (bitsOf ent.a.toNat 63 34 ≠ 0) then facFail t ent 0 1
    else
      let c := ent.ctx
      let x := facOf t c
      let set := ent.a.getLsbD 32
      let tt := if set then ent.a.setWidth 32 else x.step
      let wr := if set then ent.a.getLsbD 33 else x.wrapped
      let lat := stepLatch t tt wr
      let u := modFacCtx t c (fun y =>
        { y with step := tt, wrapped := wr, st := 0, lanes := [], partNf := false, q := 0, tok := {}, lat := lat })
      let v := (u.modFac (fun f => { f with sched := [] })).modJrnl (fun j => { j with step := t.core.stage, wstep := false })
      let w := if c = 0 then stepEpoch v else v
      let op := w.opId
      let g := BitVec.ofNat 6 lat.schedReg
      let blk := lat.schedOff / 512
      let n := ceilDiv (lat.schedOff % 512 + 1024 * (lat.groupsM1 + 1)) 512
      let cause := regionCheck w c g .get blk n
      let y := putInfl w eFAC ent none false
      if cause ≠ 0 then markDone (raise (strDerr y cause 0 g c .fac) fcSTRREFUSED 5 0 cause) eFAC op
      else newJob y op .fac .get c g blk 0 n none none)

/-- A schedule block lands in the Factor. -/
def facLand (s : State) (i : Nat) (bs : List Byte) : State :=
  s.modFac (fun f => { f with sched := tabSet [] f.sched i bs })

/-- The 1,024 bytes of group g, once every stream block that holds them has landed. -/
def schedBytes (s : State) (off g : Nat) : Option (List Byte) :=
  let a := off % 512 + 1024 * g
  let blks := (List.range (ceilDiv (a % 512 + 1024) 512)).map (fun k => tabGet [] s.fac.sched (a / 512 + k))
  if blks.any List.isEmpty then none else some ((blks.flatten.drop (a % 512)).take 1024)

/-- SCHEDULE_GROUP_EVAL: the next group whose schedule has landed is evaluated; after the last one the step can retire (R245, R247). -/
def execScheduleGroupEval (s : State) : Res :=
  match (qOf s eFAC).infl.find? (fun i => decide (i.ent.fn = 0) && !i.done) with
  | none => .next s
  | some i =>
    let c := i.ent.ctx
    let x := facOf s c
    let g := x.lat.groups.length
    match schedBytes s x.lat.schedOff g with
    | none => .next s
    | some bs =>
      let e := groupEval bs x.lat.n x.lat.wrapped
      let t := (modFacCtx s c (fun y => { y with lat := { y.lat with groups := y.lat.groups ++ [e.1] } })).modFac
        (fun f => { f with schederr := f.schederr || e.2 })
      whenOn (unitsOn s) s (if g = x.lat.groupsM1 then markDone t eFAC i.id else t)

/-! Spans (R248, R249). -/

/-- A span descriptor of Table 3. -/
structure Span where
  gradLd : Nat
  vrec : Nat
  master : List Nat
  mom : List Nat
  wout : List Nat
  cnt : List Nat
  bad : Bool
deriving DecidableEq, Repr

def readSpan (s : State) (a : Nat) : Span :=
  let w := fun i => mWord s (a + 4 * i)
  let f := fun i => bitsOf (w i) 20 0
  { gradLd := f 0, vrec := f 1, master := [f 2, f 3], mom := [f 4, f 5], wout := [f 6, f 7]
    cnt := (List.range 8).map (fun i => w (8 + i)), bad := (List.range 8).any (fun i => decide (bitsOf (w i) 31 21 ≠ 0)) }

/-- Slot that holds version v. -/
def slotOf (v : Word) : Nat := v.toNat % 2

/-- A span's group range. -/
def g0Of (ent : QEntry) : Nat := bitsOf ent.d.toNat 7 0
def g1Of (ent : QEntry) : Nat := bitsOf ent.d.toNat 15 8

/-- Checks of P1 and P2 on the operands alone (Table 7). -/
def spanOperands (s : State) (ent : QEntry) (states : List Nat) : List (Bool × Nat) :=
  let x := facOf s ent.ctx
  [(facResv ent || decide (bitsOf ent.d.toNat 63 16 ≠ 0), 1),
   (!states.contains x.st.toNat, 2),
   (decide (g1Of ent < g0Of ent) || decide (7 < g1Of ent - g0Of ent) || decide (x.lat.groupsM1 < g1Of ent), 3),
   (decide (1048576 < ent.b.toNat), 4)]

/-- Checks on what the span names: its counts and the gradient descriptor. -/
def spanContents (s : State) (ent : QEntry) (sp : Span) (g : Option Layout) : List (Bool × Nat) :=
  let k := g1Of ent - g0Of ent + 1
  let b := ent.b.toNat
  [(sp.bad || g.isNone, 1),
   (decide (b ≠ (sp.cnt.take k).foldl (· + ·) 0) || (sp.cnt.drop k).any (fun n => decide (n ≠ 0)) ||
     g.any (fun l => decide (l.rows * l.cols < b)), 4),
   (g.any (fun l => decide (l.kind ≠ 0) || !l.linear || (decide (l.cls ≠ 5) && decide (l.cls ≠ 6))), 5),
   (g.any (fun l => !inParts s [pDATA] l), 8)]

/-- Gradient of parameter j as pass 1 and pass 2 take it: widened, and times 2^(-L) (R250, R256). -/
def gradOf (s : State) (l : Layout) (lexp : Byte) (j : Nat) : Word :=
  toF32 ((f32 (l.widen s.mem.bytes (j / l.cols) (j % l.cols))).scale (-lexp.toInt))

/-- Add the gradients of a span to the lanes (R250). -/
def addLanes (s : State) (l : Layout) (b : Nat) (x : FacCtx) : FacCtx :=
  (List.range b).foldl (fun y j =>
    let g := gradOf s l y.lat.l j
    { y with
      lanes := tabMod 0 y.lanes (y.q % 8) (fun a => fFma g g a)
      partNf := y.partNf || !f32IsFinite g
      q := (y.q + 1) % 8 }) x

/-- Bytes of the first b elements of a tensor, row by row. -/
def firstSpans (l : Layout) (b : Nat) : List (Nat × Nat) :=
  (List.range (ceilDiv b l.cols)).map (fun r => (l.elemAddr r 0, min l.cols (b - r * l.cols) * (l.width / 8)))

/-- Address of the span descriptor. -/
def spanAddr (ent : QEntry) : Nat := ent.a.toNat % 2 ^ 21

/-- The cause of the check that a P1 fails, or 0 (Table 7). -/
def p1Fails (s : State) (ent : QEntry) : Nat :=
  let sp := readSpan s (spanAddr ent)
  if !dataAt s (spanAddr ent) 64 64 || !ldescAt s sp.gradLd then 8
  else lowest (spanOperands s ent [1, 2] ++ spanContents s ent sp (readLayout s sp.gradLd))

/-- The layout at an address that a span names. -/
def spanLd (s : State) (a : Nat) : Layout := (readLayout s a).getD {}

/-- What P1 reads to check its operands: the span descriptor and the gradient's. -/
def p1Heads (s : State) (ent : QEntry) : List (Nat × Nat) :=
  let a := spanAddr ent
  let g := (readSpan s a).gradLd
  if !dataAt s a 64 64 then []
  else if spansWait s [(a, 64)] || !ldescAt s g then [(a, 64)]
  else [(a, 64), (g, 32)]

/-- The gradients that P1 reads. -/
def p1Body (s : State) (ent : QEntry) : List (Nat × Nat) :=
  if p1Fails s ent ≠ 0 then [] else firstSpans (spanLd s (readSpan s (spanAddr ent)).gradLd) ent.b.toNat

/-- Every span that an operation reads: what names its operands, and then these. -/
def thenSpans (s : State) (heads body : List (Nat × Nat)) : List (Nat × Nat) := if spansWait s heads then heads else heads ++ body

/-- FAC.P1: accumulates the squared gradients of a span into the partial (R250). -/
def execFacP1 (s : State) : Res :=
  dispatchMem s eFAC 1 (fun _ => facFree s) rqFAC (fun ent => thenSpans s (p1Heads s ent) (p1Body s ent)) (fun ent s0 =>
    let t := touchSpans s0 rqFAC (p1Heads s0 ent)
    let cause := p1Fails t ent
    if cause ≠ 0 then facFail t ent 1 cause
    else
      let l := spanLd t (readSpan t (spanAddr ent)).gradLd
      let u := touchSpans t rqFAC (p1Body t ent)
      putInfl (modFacCtx u ent.ctx (fun x => { addLanes u l ent.b.toNat x with st := 2 })) eFAC ent none true)

/-- The partial sum as driven (Table 4). -/
def partSum (x : FacCtx) : Word :=
  let l := fun i => tabGet 0 x.lanes i
  fAdd (fAdd (fAdd (l 0) (l 1)) (fAdd (l 2) (l 3))) (fAdd (fAdd (l 4) (l 5)) (fAdd (l 6) (l 7)))

/-- Norm and clip factor of a token (R253). -/
def tokenOf (lat : StepLatch) (sq : Word) (nf : Bool) (mn mx : Word) : NormTok :=
  let norm := fSqrt sq
  let q := fDiv lat.clipMax (fAdd norm lat.normEps)
  { sq := sq, nf := nf || decide (sq = f32Inf), min := mn, max := mx, norm := norm
    c := if !lat.clipEn then f32One else if f32IsNaN q then Config.clipNaN norm else fMin f32One q }

/-- FAC.TOKEN: D takes norm and clip factor (R254). -/
def execFacToken (s : State) : Res :=
  dispatch s eFAC 2 (fun _ => facFree s) (fun ent t =>
    let x := facOf t ent.ctx
    let cause := lowest [(facResv ent, 1), (!([3, 4, 5].contains x.st.toNat), 2)]
    if cause ≠ 0 then facFail t ent 2 cause
    else putInfl t eFAC ent (some (x.tok.c ++ x.tok.norm)) true)

/-- Sign of a value: +1, -1, the zero itself, NaN kept (R256). -/
def f32Sign (w : Word) : Word :=
  if f32IsNaN w then f32NaN else if f32Abs w = 0 then w else if w.msb then 0xBF800000 else f32One

/-- New parameter state: w', m' and v' (R256). -/
structure Updated where
  w : Word
  m : Word
  v : Word
deriving DecidableEq, Repr

/-- The update rules of R256 with group constants k, clipped gradient g, master w and moments m and v. -/
def updateParam (lat : StepLatch) (k : GroupVal) (g w m v : Word) : Updated :=
  let c := fun i => k.v.getD i 0
  let fin := fun (u : Word) => fFma (f32Neg (c 0)) (fFma (c 1) w u) w
  if lat.rule = 0 then
    let m' := fFma (c 2) m g
    { w := fin m', m := m', v := v }
  else if lat.rule = 1 then
    let m' := fFma (c 2) m (fMul (c 4) g)
    let v' := fFma (c 3) v (fMul (c 5) (fMul g g))
    let d := fAdd (fSqrt (fMul v' (c 7))) lat.updEps
    { w := fin (fDiv (fMul m' (c 6)) d), m := m', v := v' }
  else
    let u := f32Sign (fFma (c 2) m (fMul (c 4) g))
    { w := fin u, m := fFma (c 3) m (fMul (c 5) g), v := v }

/-- Round to a bfloat16 code. -/
def toBf16 (w : Word) : Nat := (fmtBf16.narrow .nearest (f32 w)).code
/-- Widen a bfloat16 code. -/
def ofBf16 (c : Nat) : Word := toF32 (fmtBf16.decode c)

/-- Group of parameter j (R248). -/
def groupOf (g0 : Nat) : List Nat → Nat → Nat
  | [], _ => g0
  | n :: t, j => if j < n then g0 else groupOf (g0 + 1) t (j - n)

/-- Pass 2 on parameter j of a span: its new values (R256). -/
def p2Param (s : State) (ent : QEntry) (x : FacCtx) (sp : Span) (gl : Layout) (j : Nat) : Updated :=
  let rs := slotOf x.ver
  let k := x.lat.groups.getD (groupOf (g0Of ent) sp.cnt j) {}
  let w := BitVec.ofNat 32 (mNat s (sp.master.getD rs 0 + 4 * j) 4)
  let mo := sp.mom.getD rs 0 + 4 * j
  updateParam x.lat k (fMul x.tok.c (gradOf s gl x.lat.l j)) w (ofBf16 (mNat s mo 2)) (ofBf16 (mNat s (mo + 2) 2))

/-- The moments of parameter j as rule r stores them. -/
def momBytes (r : Nat) (y : Updated) : List Byte :=
  leBytes 2 (BitVec.ofNat 16 (toBf16 y.m)) ++ if r = 1 then leBytes 2 (BitVec.ofNat 16 (toBf16 y.v)) else []

/-- A value that pass 2 writes is not finite. -/
def Updated.bad (r : Nat) (y : Updated) : Bool :=
  !f32IsFinite y.w || !f32IsFinite (ofBf16 (toBf16 y.m)) || (decide (r = 1) && !f32IsFinite (ofBf16 (toBf16 y.v)))

/-- Step field of a P2 (11 R265). -/
def p2Step (ent : QEntry) (x : FacCtx) : BitVec 48 :=
  BitVec.ofNat 48 (x.lat.n.toNat + (if x.lat.wrapped then 2 ^ 32 else 0) + 2 ^ 33 * ent.ctx.toNat)

/-- The working weights of a span, narrowed and observed (R256). -/
def p2Weights (s : State) (ent : QEntry) (x : FacCtx) (wl : Layout) (ys : List Updated) : Emit :=
  (ys.mapIdx (fun j y => (j, y.w))).foldl (fun e p => putElem e wl (p2Step ent x) (p.1 / wl.cols) (p.1 % wl.cols) p.2) { s := s }

/-- What pass 2 writes into the slot of the next version, beside the working weights: the tag (R255), the master weights and the moments. -/
def p2Writes (x : FacCtx) (sp : Span) (ys : List Updated) : List Writes :=
  let ws := 1 - slotOf x.ver
  [[(sp.vrec + 4 * ws, leBytes 2 (x.ver + 1))],
   ys.mapIdx (fun j y => (sp.master.getD ws 0 + 4 * j, leBytes 4 y.w)),
   ys.mapIdx (fun j y => (sp.mom.getD ws 0 + 4 * j, momBytes x.lat.rule y))]

/-- The FOUT unit of parameters 8i to 8i + 7 of a span, as memory holds them (11 Table 3). -/
def foutUnit (mem : List Host.Cell) (a b ws : Nat) (sp : Span) (wl : Layout) (i : Nat) : Nat × List Byte :=
  (a + 2 ^ 32 * i, (List.range 8).flatMap (fun k =>
    let j := 8 * i + k
    if j < b then
      memBytes mem (sp.master.getD ws 0 + 4 * j) 4 ++ memBytes mem (sp.mom.getD ws 0 + 4 * j) 4 ++
        leBytes 4 (BitVec.ofNat 32 (wl.rawCode mem (j / wl.cols) (j % wl.cols)))
    else List.replicate 12 0))

/-- Checks of P2 in state PASS2 on what the span names (R255, Table 7). -/
def p2Contents (s : State) (ent : QEntry) (sp : Span) (x : FacCtx) (wl : Option Layout) : List (Bool × Nat) :=
  let b := ent.b.toNat
  let rs := slotOf x.ver
  let word := fun i => mWord s (sp.vrec + 4 * i)
  [(wl.isNone, 1),
   (wl.any (fun l => decide (l.rows * l.cols < b)), 4),
   (wl.any (fun l => decide (l.kind ≠ 0) || !l.linear || decide (l.cls ≠ 7)), 5),
   (decide (bitsOf (word rs) 15 0 ≠ x.ver.toNat % 2 ^ 16), 6),
   (decide (bitsOf (word (1 - rs)) 23 16 ≠ 0), 7),
   (wl.any (fun l => !inParts s [pDATA] l) ||
     (sp.master ++ sp.mom).any (fun m => decide (m % 64 ≠ 0) || !permits s [pDATA] m (4 * b)), 8)]

/-- The decision of the first P2 of a step (R255): the new STATE and the reason of a skip. -/
def p2Decide (x : FacCtx) : BitVec 3 × BitVec 2 :=
  if decide (x.st ≠ 3) then (x.st, x.skip)
  else if x.tok.nf then (5, 1)
  else if decide (x.tok.min ≠ x.tok.max) && !x.lat.skewOk then (5, 2)
  else (4, x.skip)

/-- Address of the working-weight descriptor of the slot that P2 writes. -/
def woutAddr (sp : Span) (x : FacCtx) : Nat := sp.wout.getD (1 - slotOf x.ver) 0

/-- The cause of the check that a P2 fails in a step that is not skipped, or 0 (Table 7). -/
def p2Fails (s : State) (ent : QEntry) : Nat :=
  let x := facOf s ent.ctx
  let sp := readSpan s (spanAddr ent)
  if !dataAt s (spanAddr ent) 64 64 || !ldescAt s sp.gradLd || !ldescAt s (woutAddr sp x) || !dataAt s sp.vrec 32 32 then 8
  else lowest (spanOperands s ent [3, 4, 5] ++ spanContents s ent sp (readLayout s sp.gradLd) ++
    p2Contents s ent sp x (readLayout s (woutAddr sp x)))

/-- The step of a P2 is skipped: it reads nothing (R255). -/
def p2Skips (s : State) (ent : QEntry) : Bool := decide ((p2Decide (facOf s ent.ctx)).1 = 5)

/-- What P2 reads to check its operands: those of P1, the working weight's descriptor and the version record. -/
def p2Heads (s : State) (ent : QEntry) : List (Nat × Nat) :=
  let h := p1Heads s ent
  let sp := readSpan s (spanAddr ent)
  let wa := woutAddr sp (facOf s ent.ctx)
  if h.length < 2 then h
  else h ++ (if ldescAt s wa then [(wa, 32)] else []) ++ (if dataAt s sp.vrec 32 32 then [(sp.vrec, 8)] else [])

/-- The gradients, master weights and moments that P2 reads. -/
def p2Body (s : State) (ent : QEntry) : List (Nat × Nat) :=
  if p2Fails s ent ≠ 0 ∨ ent.b = 0 then []
  else
    let sp := readSpan s (spanAddr ent)
    let rs := slotOf (facOf s ent.ctx).ver
    let n := 4 * ent.b.toNat
    (sp.master.getD rs 0, n) :: (sp.mom.getD rs 0, n) :: firstSpans (spanLd s sp.gradLd) ent.b.toNat

/-- Every span that a P2 reads. -/
def p2Spans (s : State) (ent : QEntry) : List (Nat × Nat) :=
  if p2Skips s ent then [] else thenSpans s (p2Heads s ent) (p2Body s ent)

/-- A P2 of a step that is not skipped and whose checks passed: what it writes lands as it retires (R255, R256; 03 R98). -/
def p2Update (s0 : State) (ent : QEntry) : State :=
  let x := facOf s0 ent.ctx
  let sp := readSpan s0 (spanAddr ent)
  let t := touchSpans s0 rqFAC (p2Body s0 ent)
  let b := ent.b.toNat
  let ws := 1 - slotOf x.ver
  let wl := spanLd t (woutAddr sp x)
  let ys := (List.range b).map (p2Param t ent x sp (spanLd t sp.gradLd))
  let e := p2Weights t ent x wl ys
  let wr := p2Writes x sp ys ++ [e.writes]
  let units := (List.range (ceilDiv b 8)).map (foutUnit (memWith t.mem.bytes wr) (spanAddr ent) b ws sp wl)
  let u := (modFacCtx e.s ent.ctx (fun y => { y with st := 4, skip := (p2Decide x).2 })).modFac (fun f => { f with
    params := f.params + BitVec.ofNat 64 b
    p2nonfin := f.p2nonfin || ys.any (Updated.bad x.lat.rule) })
  modInfl (putInfl u eFAC ent none true) eFAC u.opId (fun i => { i with wr := wr, units := units })

/-- FAC.P2: decides skip or update, and writes the new parameters into the next slot (R255, R256). A skipped P2 reads nothing. -/
def execFacP2 (s : State) : Res :=
  dispatchMem s eFAC 3 (fun _ => facFree s) rqFAC (p2Spans s) (fun ent s0 =>
    let x := facOf s0 ent.ctx
    if p2Skips s0 ent then
      let c := lowest (spanOperands s0 ent [3, 4, 5])
      if c ≠ 0 then facFail s0 ent 3 c
      else
        let u := putInfl (modFacCtx s0 ent.ctx (fun y => { y with st := 5, skip := (p2Decide x).2 })) eFAC ent none true
        if decide (x.st = 3) && decide ((p2Decide x).2 = 2) then raise u fcSTEPSKEW 3 0 0 else u
    else
      let t := touchSpans s0 rqFAC (p2Heads s0 ent)
      let cause := p2Fails t ent
      if cause ≠ 0 then facFail t ent 3 cause else p2Update t ent)

/-- FAC.COMMIT dispatches: its effect comes at its retirement (R257). -/
def execFacCommit (s : State) : Res :=
  dispatch s eFAC 4 (fun _ => facFree s) (fun ent t =>
    let x := facOf t ent.ctx
    let cause := lowest
      [(facResv ent || decide (bitsOf ent.a.toNat 63 32 ≠ 0), 1), (!([4, 5].contains x.st.toNat), 2),
       (decide (x.st = 4) && decide (ent.a.setWidth 32 ≠ x.ver + 1), 6)]
    if cause ≠ 0 then facFail t ent 4 cause
    else putInfl (t.modFac (fun f => { f with committing := some (ent.ctx, decide (x.st = 5)) })) eFAC ent none true)

/-- FAC.CNT: D takes the step counter and state of the context (R261). -/
def execFacCnt (s : State) : Res :=
  dispatch s eFAC 5 (fun _ => facFree s) (fun ent t =>
    if facResv ent then facFail t ent 5 1
    else
      let x := facOf t ent.ctx
      let v := x.step.toNat + (if x.wrapped then 2 ^ 32 else 0) + (if x.rollok then 2 ^ 33 else 0) + 2 ^ 34 * x.st.toNat +
        (if x.tok.nf then 2 ^ 37 else 0) + (if x.tok.min ≠ x.tok.max then 2 ^ 38 else 0)
      putInfl t eFAC ent (some (BitVec.ofNat 64 v)) true)

/-- What a Factor operation does as it retires: STEP opens the step once every group is evaluated (R245), COMMIT advances version and counter, or counts a skip (R257; 11 R274; 15 R379). -/
def facRetire (s : State) (i : Infl) : State :=
  let c := i.ent.ctx
  if i.ent.fn = 0 then
    let x := facOf s c
    if x.lat.groups.length = x.lat.groupsM1 + 1 then modFacCtx s c (fun y => { y with st := 1 }) else s
  else
    match s.fac.committing with
    | none => s
    | some (k, skip) =>
      let t := s.modFac (fun f => { f with committing := none })
      if skip then (modFacCtx t k (fun y => { y with st := 0 })).modFac (fun f => { f with skips := f.skips + 1 })
      else
        let u := ((modFacCtx t k (fun y => { y with
          ver := y.ver + 1, step := y.step + 1, wrapped := y.wrapped || decide (y.step + 1 = 0), rollok := true, st := 0 })).modFac
            (fun f => { f with commits := f.commits + 1 })).modJrnl (fun j => { j with commit := s.core.stage })
        if k = 0 then commitEpoch u else u

/-- FAC_CTRL_ROLLBACK rolls back each context of the mask that is IDLE with ROLLOK 1, else RBREJ (R258). -/
def rollback (s : State) (mask : BitVec 4) : State :=
  (List.range 4).foldl (fun t i =>
    if mask.getLsbD i then
      let c := BitVec.ofNat 2 i
      let x := facOf t c
      if decide (x.st = 0) && x.rollok then
        let u := modFacCtx t c (fun y => { y with ver := y.ver - 1, step := y.step - 1, rollok := false })
        if i = 0 then rollbackEpoch u else u
      else t.modFac (fun f => { f with rbrej := true })
    else t) s

/-- FAC_CTRL_ROLLBACK. -/
def execFacCtrlRollback (mask : BitVec 4) (s : State) : Res := regCmd (.facCtrlRollback mask) s (rollback s mask)

end Sys2Proof.Machine
end

