-- ==== Sys2Proof/Machine/Stash.lean ====
section
/-! DEFINITION. The stash mover: placement, eviction, the depot, and the STH operations (09 R221 to R232, R240). -/

namespace Sys2Proof.Machine

def entOf (s : State) (id : Nat) : StEnt := tabGet {} s.sth.ents id
def setEnt (s : State) (id : Nat) (e : StEnt) : State := s.modSth (fun h => { h with ents := tabSet {} h.ents id e })

/-- Lines of the STASH partition, p. -/
def stashP (s : State) : Nat := partSize s pSTASH / 128

/-- Address of a line of the STASH partition. -/
def lineAddr (s : State) (line : Nat) : Nat := partBase s pSTASH + 128 * line

/-- The compact layout of an entry whose first byte lies at base (R223). -/
def entLayout (e : StEnt) (base : Nat) : Layout :=
  let l : Layout := { base := base, kind := e.kind, cls := 4, linear := e.linear, red := e.red, rows := e.rows, cols := e.cols, fmt := e.fmt }
  let pitch := if e.linear then e.cols * (l.width / 8) else l.tileColsN * l.tileBytes
  { l with pitch := pitch, xplane := base + ceilDiv (l.tileRowsN * pitch) 128 * 128 }

/-- Bytes from the start of a compact entry to its last byte. -/
def entBytes (l : Layout) : Nat := l.extents.foldl (fun n e => max n (e.1 + e.2 - l.base)) 0

/-- MEM_STH_ERR keeps the first failure. -/
def sthErr (s : State) (cause fn : Nat) (id : Nat) : State :=
  s.modSth (fun h => if h.err then h else
    { h with err := true, errCause := BitVec.ofNat 4 cause, errFn := BitVec.ofNat 3 fn, errId := BitVec.ofNat 10 id })

/-- Faults of Table 8. -/
def sthFault (cause : Nat) : Nat :=
  if cause = 6 then fcBOUNDS else if cause = 7 then fcMBLONG else if cause = 8 then fcSTASHFULL else fcILLEGAL

/-- t and h of R224; 0 while no entry is LOCAL. -/
def ringT (s : State) : Nat := ((s.sth.order.head?).map (fun i => (entOf s i).line)).getD 0
def ringH (s : State) : Nat := ((s.sth.order.getLast?).map (fun i => (entOf s i).line + (entOf s i).size.toNat)).getD 0

/-- Where n lines fit now (R224). -/
def placeAt (s : State) (n : Nat) : Option Nat :=
  let t := ringT s
  let h := ringH s
  if s.sth.order = [] then some 0
  else if t < h then (if n ≤ stashP s - h then some h else if n ≤ t then some 0 else none)
  else if n ≤ t - h then some h
  else none

/-- Blocks of a depot write of an entry. -/
def depotBlocks (e : StEnt) : Nat := ceilDiv e.size.toNat 4

/-- Room for n blocks in the depot. -/
def depotRoom (s : State) (n : Nat) : Bool :=
  depotEn s && decide (s.sth.dptr.toNat + n ≤ (regionEnt s s.core.cur (depotReg s)).size)

/-- The stream port refuses the mover's request (13 R324). -/
def sthRefused (s : State) (cause fn : Nat) : State :=
  raise (strDerr s cause fn (depotReg s) s.core.cur .sth) fcSTRREFUSED 5 0 cause

/-- Write an entry to the depot for the operation with a number: its lines as they stand behind the operation's own writings, in blocks (R226). -/
def depotWrite (s : State) (opId id : Nat) (ws : List Writes) : State :=
  let e := entOf s id
  let n := depotBlocks e
  let a := lineAddr s e.line
  let k := 128 * e.size.toNat
  let t := if ws.isEmpty then touchRead s rqSTH a k else serve (spend s 4 (wordsOf a k)) rqSTH a k
  let bs := memBytes (memWith t.mem.bytes ws) a (128 * e.size.toNat) ++
    (List.range (512 * n - 128 * e.size.toNat)).map (fun i => Config.depotPad (s.free + i))
  let u := newJob t opId .sth .put t.core.cur (depotReg t) t.sth.dptr.toNat 0 n (some bs) none
  { setEnt u id { e with dcopy := true, doff := t.sth.dptr.toNat } with free := t.free + 512 }.modSth
    (fun h => { h with dptr := h.dptr + BitVec.ofNat 32 n, dblk := h.dblk + BitVec.ofNat 32 n })

/-- How a placement ends: a line, stash_full, or a depot request that the stream port refuses. -/
inductive Placed where
  | at_ (line : Nat)
  | full
  | refused
deriving DecidableEq, Repr

/-- The oldest entry leaves the LOCAL entries. -/
def unplace (s : State) (id : Nat) : State := s.modSth (fun h => { h with order := h.order.filter (fun i => decide (i ≠ id)) })

/-- Evict the oldest LOCAL entry (R224); the cause of a refusal is 8 for stash_full. -/
def evict (s : State) (opId : Nat) : State × Nat :=
  match s.sth.order with
  | [] => (s, 8)
  | id :: _ =>
    let e := entOf s id
    if e.pinned then (s, 8)
    else if e.dcopy then (unplace (setEnt s id { e with st := .depot }) id, 0)
    else if depotRoom s (depotBlocks e) then
      let cause := regionCheck s s.core.cur (depotReg s) .put s.sth.dptr.toNat (depotBlocks e)
      if cause ≠ 0 then (s, cause)
      else
        let t := depotWrite s opId id []
        (unplace (setEnt t id { entOf t id with st := .depot }) id |>.modSth (fun h => { h with spills := h.spills + 1 }), 0)
    else if e.elig then (unplace (setEnt s id { e with st := .dropped }) id |>.modSth (fun h => { h with drops := h.drops + 1 }), 0)
    else (s, 8)

/-- Place n lines, evicting as needed (R224). -/
def placeGo : Nat → State → Nat → Nat → State × Placed
  | 0, s, _, _ => (s, .full)
  | k + 1, s, opId, n =>
    match placeAt s n with
    | some a => (s, .at_ a)
    | none =>
      match evict s opId with
      | (t, 0) => placeGo k t opId n
      | (t, 8) => (t, .full)
      | (t, c) => (sthRefused t c 1, .refused)

def place (s : State) (opId n : Nat) : State × Placed := placeGo 1025 s opId n

/-- Lines that a placement of n lines reads to write entries to the depot. -/
def placeSpans (s : State) (n : Nat) : List (Nat × Nat) :=
  let v := (place s s.opId n).1
  (s.sth.order.filter (fun i => (entOf v i).dcopy && !(entOf s i).dcopy)).map (fun i =>
    (lineAddr s (entOf s i).line, 128 * (entOf s i).size.toNat))

/-- The entry becomes the newest LOCAL entry at a line. -/
def makeLocal (s : State) (id line : Nat) (e : StEnt) : State :=
  let t := (setEnt s id { e with st := .lcl, line := line }).modSth (fun h => { h with order := h.order ++ [id] })
  let span := if ringT t < ringH t then ringH t - ringT t else stashP t - ringT t + ringH t
  t.modSth (fun h => { h with hwm := if h.hwm.toNat < span then BitVec.ofNat 14 span else h.hwm })

/-- STASH_FULL during placement: the fault, and the queue discards (R231). The operation retires once what its evictions wrote to the depot is acknowledged. -/
def sthFull (s : State) (fn id : Nat) : State :=
  let t := (sthErr s 8 fn id).modSth (fun h => { h with fullCnt := h.fullCnt + 1 })
  failQueue (raise t fcSTASHFULL 7 0 8) eSTH none

/-- Mark the operation with a number done unless a transfer of the mover is outstanding. -/
def sthOver (s : State) (opId : Nat) : State := if depotBusy s || s.sth.rd.isSome then s else markDone s eSTH opId

/-- An operation fails a check of Table 8. -/
def sthFail (s : State) (ent : QEntry) (fn cause id : Nat) : State :=
  dispatchFail (sthErr s cause fn id) eSTH ent (sthFault cause) 0 cause

/-- The mover executes one operation at a time, and none during a stream stop. -/
def sthFree (s : State) : Bool := (qOf s eSTH).infl.isEmpty && !s.sec.stop && !s.sth.clearPend

/-- PUT keeps a source of this format as it stands: raw kinds, and the format of class 4 (R223). -/
def putCopies (s : State) (l : Layout) : Bool := decide (l.kind ≠ 0) || decide (l.fmt = classFmt s 4)

/-- The entry that a PUT of a source makes. -/
def putEnt (s : State) (ent : QEntry) (l : Layout) : StEnt :=
  { size := BitVec.ofNat 14 ent.fs.toNat, elig := ent.sub.getLsbD 0, mb := BitVec.ofNat 16 (bitsOf ent.a.toNat 31 16)
    rows := l.rows, cols := l.cols, linear := l.linear, red := l.red, kind := l.kind
    fmt := if l.kind = 0 then classFmt s 4 else 0 }

/-- Checks of PUT after its descriptor could be read (Table 8, R434). -/
def putCause (s : State) (ent : QEntry) (l : Option Layout) : Nat :=
  let a := ent.a.toNat
  let id := bitsOf a 9 0
  let n := ent.fs.toNat
  match l with
  | none => 1
  | some l =>
    let mx := fmtIsMx (classFmt s 4)
    lowest
      [(decide (bitsOf a 15 10 ≠ 0) || decide (bitsOf a 63 57 ≠ 0) || decide (2 ≤ ent.sub.toNat) || decide (2 ^ 14 ≤ n), 1),
       (decide ((entOf s id).st ≠ .empty), 3),
       (decide (n = 0) || decide (stashP s < n) || decide (128 * n < entBytes (entLayout (putEnt s ent l) 0)), 4),
       (!putCopies s l && (l.isMx || (mx && l.linear)), 5),
       (!inParts s [pDATA] l, 6),
       (decide (s.sth.mbmax.toNat < bitsOf a 56 32), 7)]

/-- Copy or convert the source into the entry (R223). -/
def putData (s : State) (e : StEnt) (line : Nat) (l : Layout) (step : BitVec 48) : Emit :=
  let d := entLayout e (lineAddr s line)
  let t : Emit := { s := touchLayout s rqSTH l }
  if putCopies s l then copyTensor t t.s.mem.bytes l d (fun _ _ => true)
  else
    let d' := { d with tensor := l.tensor, s := l.s, sr := classSr s 4, idxBase := l.idxBase, idxPitch := l.idxPitch }
    putTensor t d' step (fun r c => some (l.widen t.s.mem.bytes r c))

/-- The descriptor of a PUT or of a GET to a destination, where it can be read. -/
def sthLayout (s : State) (ent : QEntry) : Option Layout :=
  if ldescAt s ent.b.toNat then readLayout s ent.b.toNat else none

/-- The cause of the check that a PUT fails, or 0 (Table 8). -/
def putFails (s : State) (ent : QEntry) : Nat :=
  if ldescAt s ent.b.toNat then putCause s ent (sthLayout s ent) else 6

/-- The entry becomes DROPPED without being placed: recompute mode, eligible bit 1 (Table 5). -/
def putDrops (s : State) (ent : QEntry) : Bool := decide (stashMode s = 2) && ent.sub.getLsbD 0

/-- The depot request by which a placed PUT in spill mode writes its entry at once, while room remains (Table 5): none, or what its region check says. -/
def putSpills (s : State) (e : StEnt) : Option Nat :=
  if decide (stashMode s = 1) && depotRoom s (depotBlocks e) then
    some (regionCheck s s.core.cur (depotReg s) .put s.sth.dptr.toNat (depotBlocks e))
  else none

/-- Lines of the entry that a PUT places, where it goes to the depot at once. -/
def spillSpans (s : State) (ent : QEntry) : List (Nat × Nat) :=
  match place s s.opId ent.fs.toNat with
  | (v, .at_ line) => if putSpills v (putEnt v ent ((sthLayout s ent).getD {})) = some 0 then [(lineAddr v line, 128 * ent.fs.toNat)] else []
  | _ => []

/-- What a PUT reads: its descriptor, its source, the lines of the entries that its placement writes to the depot, and its own in spill mode (R230). -/
def putSpans (s : State) (ent : QEntry) : List (Nat × Nat) :=
  let b := ent.b.toNat
  if !ldescAt s b then []
  else if spansWait s [(b, 32)] || decide (putFails s ent ≠ 0) || putDrops s ent then [(b, 32)]
  else (b, 32) :: (((sthLayout s ent).getD {}).extents ++ (placeSpans s ent.fs.toNat ++ spillSpans s ent))

/-- A descriptor is read, when its address lies in DATA. -/
def touchAt (s : State) (b : Nat) : State := if ldescAt s b then touchDescr s rqSTH b else s

/-- MBPEAK records the tokens of a PUT that is accepted (R240). -/
def notePeak (s : State) (ent : QEntry) : State :=
  let tok := bitsOf ent.a.toNat 56 32
  s.modSth (fun h => { h with mbpeak := if h.mbpeak.toNat < tok then BitVec.ofNat 25 tok else h.mbpeak })

/-- The depot write of a placed PUT in spill mode (Table 5). -/
def putSpill (s : State) (op id : Nat) (e : StEnt) (ws : List Writes) : State :=
  match putSpills s e with
  | none => s
  | some c => if c ≠ 0 then sthRefused s c 1 else depotWrite s op id ws

/-- STH.PUT: places an entry, evicting older ones as needed (R222 to R225, R240). -/
def execSthPut (s : State) : Res :=
  dispatchMem s eSTH 0 (fun _ => sthFree s) rqSTH (putSpans s) (fun ent s0 =>
    let t := touchAt s0 ent.b.toNat
    let id := bitsOf ent.a.toNat 9 0
    let cause := putFails t ent
    if cause ≠ 0 then sthFail t ent 0 cause id
    else
      let lay := (sthLayout t ent).getD {}
      let op := t.opId
      let u := putInfl t eSTH ent none false
      let e := putEnt u ent lay
      if putDrops u ent then
        markDone ((notePeak (setEnt u id { e with st := .dropped }) ent).modSth (fun h => { h with drops := h.drops + 1 })) eSTH op
      else
        match place u op ent.fs.toNat with
        | (v, .full) => sthOver (sthFull v 0 id) op
        | (v, .refused) => sthOver v op
        | (v, .at_ line) =>
          let w := putData (makeLocal (notePeak v ent) id line e) e line lay (stepField v ent.ctx)
          sthOver (putSpill (giveWr w.s eSTH op [w.writes]) op id e [w.writes]) op)

/-- Checks common to GET, FREE and QUERY: operand bits, ID and state. -/
def idCause (s : State) (ent : QEntry) (all state : Bool) : Nat :=
  let id := ent.a.toNat % 65536
  lowest
    [(decide (ent.sub ≠ 0) || decide (ent.fs ≠ 0), 1),
     (decide (1023 < id) && !(all && decide (id = 0xFFFF)), 2),
     (state && !(all && decide (id = 0xFFFF)) && decide ((entOf s id).st = .empty), 3)]

/-- The destination has the entry's shape and a format that the entry can be given (R227). -/
def getCause (s : State) (e : StEnt) (l : Layout) : Nat :=
  lowest
    [(decide (l.rows ≠ e.rows) || decide (l.cols ≠ e.cols) || decide (l.linear ≠ e.linear), 4),
     (decide (l.kind ≠ e.kind) || decide (l.cls = 5) || decide (l.cls = 7) ||
        (decide (l.kind = 0) && fmtIsMx e.fmt && (decide (l.fmt ≠ e.fmt) || decide (l.red ≠ e.red))), 5),
     (!inParts s [pDATA] l, 6)]

/-- A GET gives its destination the entry's bytes as they are (R227). -/
def getCopies (e : StEnt) (l : Layout) : Bool := decide (e.kind ≠ 0) || decide (l.fmt = e.fmt)

/-- Copy or convert an entry held at base of mem into its destination (R227). The one descriptor that the operation names gives the scale (log entry 27). -/
def getData (s : State) (mem : List Host.Cell) (e : StEnt) (base : Nat) (l : Layout) (step : BitVec 48)
    (have_ : Nat → Nat → Bool) : Emit :=
  let src := entLayout e base
  if getCopies e l then copyTensor { s := s } mem src l have_
  else
    let src' := { src with s := l.s }
    putTensor { s := s } l step (fun r c => if src.there have_ r c then some (src'.widen mem r c) else none)

/-- A depot read for the operation: the job, and where its blocks go. -/
def depotRead (s : State) (opId id : Nat) (e : StEnt) (dst : Option Layout) (line : Nat) (step : BitVec 48) : State :=
  let n := depotBlocks e
  let c := regionCheck s s.core.cur (depotReg s) .get e.doff n
  if c ≠ 0 then sthRefused s c 0
  else (newJob s opId .sth .get s.core.cur (depotReg s) e.doff 0 n none none).modSth (fun h =>
    { h with rd := some { id := opId, ent := id, dst := dst, left := n, line := line, stepField := step } })

/-- GET reads a destination descriptor: B is not 0, and the entry is not DROPPED. -/
def getReads (s : State) (ent : QEntry) : Bool :=
  decide (ent.b ≠ 0) && !(decide (idCause s ent false true = 0) && decide ((entOf s (ent.a.toNat % 65536)).st = .dropped))

/-- The cause of the check that a GET fails, or 0 (Table 8). -/
def getFails (s : State) (ent : QEntry) : Nat :=
  let b := ent.b.toNat
  let c0 := idCause s ent false true
  if getReads s ent && !ldescAt s b then 6
  else if getReads s ent && (sthLayout s ent).isNone then 1
  else if c0 ≠ 0 then c0
  else if getReads s ent then getCause s (entOf s (ent.a.toNat % 65536)) ((sthLayout s ent).getD {}) else 0

/-- What a GET reads: its destination's descriptor, a LOCAL entry's lines, and the lines of the entries that its placement writes to the depot (R230). -/
def getSpans (s : State) (ent : QEntry) : List (Nat × Nat) :=
  let e := entOf s (ent.a.toNat % 65536)
  let d := if getReads s ent && ldescAt s ent.b.toNat then [(ent.b.toNat, 32)] else []
  if spansWait s d || decide (getFails s ent ≠ 0) then d
  else if e.st = .lcl then (if ent.b = 0 then d else d ++ (entLayout e (lineAddr s e.line)).extents)
  else if e.st = .depot ∧ ent.b = 0 then placeSpans s e.size.toNat
  else d

/-- STH.GET: reads an entry to a destination, or pins it in place (R227). -/
def execSthGet (s : State) : Res :=
  dispatchMem s eSTH 1 (fun _ => sthFree s) rqSTH (getSpans s) (fun ent s0 =>
    let t := if getReads s0 ent then touchAt s0 ent.b.toNat else s0
    let id := ent.a.toNat % 65536
    let e := entOf t id
    let cause := getFails t ent
    if cause ≠ 0 then sthFail t ent 1 cause id
    else
      let op := t.opId
      let u := putInfl t eSTH ent none false
      let l := (sthLayout t ent).getD {}
      match e.st with
      | .dropped => markDone (u.modSth (fun h => { h with dropget := h.dropget + 1 })) eSTH op
      | .lcl =>
        if ent.b ≠ 0 then
          let v := touchLayout u rqSTH (entLayout e (lineAddr u e.line))
          let w := getData v v.mem.bytes e (lineAddr u e.line) l (stepField u ent.ctx) (fun _ _ => true)
          finishWith w.s eSTH op [w.writes] []
        else markDone (setEnt u id { e with pinned := true }) eSTH op
      | _ =>
        if ent.b ≠ 0 then sthOver (depotRead u op id e (some l) 0 (stepField u ent.ctx)) op
        else
          match place u op e.size.toNat with
          | (v, .full) => sthOver (sthFull v 1 id) op
          | (v, .refused) => sthOver v op
          | (v, .at_ line) => sthOver (depotRead v op id e none line (stepField u ent.ctx)) op)

/-- Local address in the SIN unit of block i of a depot read to a destination: where the block goes as it stands, and else free (11 R268, log entry 29). -/
def depotSin (s : State) (e : StEnt) (l : Layout) (i : Nat) : Nat :=
  ((if getCopies e l then copyDest (entLayout e 0) l (512 * i) 512 else none)).getD (Config.depotSinAddr s.free)

/-- A depot block of the GET in flight lands (R227): the entry's own lines in place, or into what is gathered for the destination, which is written as the operation retires. Its SIN unit is credited (11 R268). -/
def depotLand (s : State) (j : StrJob) (i : Nat) (bs : Option (List Byte)) : State :=
  match s.sth.rd with
  | none => s
  | some r =>
    let e := entOf s r.ent
    let r' := { r with left := r.left - 1, data := match bs with
      | some b => r.data ++ [(i, b)]
      | none => r.data }
    let a := lineAddr s r.line + 512 * i
    let t := s.modSth (fun h => { h with rd := some r' })
    let u := match bs, r.dst with
      | some b, none => creditSin (memWr t rqSTH a (b.take (128 * e.size.toNat - 512 * i))) a j.region.toNat false (j.blk + i) b
      | some b, some l =>
        { creditSin t (depotSin t e l i) j.region.toNat false (j.blk + i) b with free := t.free + 1 }
      | none, _ => t
    if r'.left ≠ 0 then u
    else
      let v := u.modSth (fun h => { h with rd := none })
      match r.dst with
      | none => makeLocal v r.ent r.line { e with pinned := true }
      | some l =>
        let mem := r'.data.foldl (fun m p => memPut m (512 * p.1) p.2) []
        let have_ := fun a n => (List.range n).all (fun k => r'.data.any (fun p => decide (p.1 = (a + k) / 512)))
        let w := getData v mem e 0 l r.stepField have_
        giveWr w.s eSTH r.id [w.writes]

/-- STH.FREE: empties an entry, or the whole table with 0xFFFF, which waits for the depot's acknowledgements (R228). -/
def execSthFree (s : State) : Res :=
  dispatch s eSTH 2 (fun ent => sthFree s && !(decide (ent.a.toNat % 65536 = 0xFFFF) && depotBusy s)) (fun ent t =>
    let id := ent.a.toNat % 65536
    let c := idCause t ent true true
    if c ≠ 0 then sthFail t ent 2 c id
    else
      let u := putInfl t eSTH ent none true
      if id = 0xFFFF then sthClear u else unplace (setEnt u id {}) id)

/-- State code of an entry (Table 6). -/
def StSt.code : StSt → Nat
  | .empty => 0
  | .lcl => 1
  | .depot => 2
  | .dropped => 3

/-- QUERY value of an entry (Table 6). -/
def queryWord (s : State) (id : Nat) : Nat :=
  let e := entOf s id
  e.st.code + (if e.elig then 4 else 0) + (if e.pinned then 8 else 0) + (if e.dcopy then 16 else 0) +
    2 ^ 8 * (if e.st = .lcl then lineAddr s e.line else 0) + 2 ^ 32 * e.size.toNat + 2 ^ 46 * e.mb.toNat

/-- STH.QUERY: D takes an entry's state word (R229). -/
def execSthQuery (s : State) : Res :=
  dispatch s eSTH 3 (fun _ => sthFree s) (fun ent t =>
    let id := ent.a.toNat % 65536
    let c := idCause t ent false false
    if c ≠ 0 then sthFail t ent 3 c id
    else putInfl t eSTH ent (some (BitVec.ofNat 64 (queryWord t id))) true)

/-- MEM_STH_CTRL_CLEAR acts as STH.FREE 0xFFFF, once no depot transfer is outstanding (R228). -/
def clearReq (s : State) : State := sthSettle (s.modSth (fun h => { h with clearPend := true }))
def execMemSthCtrlClear (s : State) : Res := regCmd .memSthCtrlClear s (clearReq s)

end Sys2Proof.Machine
end

