-- ==== Sys2Proof/Machine/StrIn.lean ====
section
/-! DEFINITION. The stream port inbound: read data, acknowledgements and remote puts (13 R328, R329; 12 R299; 15 R382, R383). -/

namespace Sys2Proof.Machine

/-! Fields of H0 and H1 (Table 10). -/
def h0Status (h : Dword) : Nat := bitsOf h.toNat 11 10
def h0Att (h : Dword) : Bool := h.getLsbD 12
def h0Ctx (h : Dword) : BitVec 2 := BitVec.ofNat 2 (bitsOf h.toNat 15 14)
def h0Region (h : Dword) : BitVec 6 := BitVec.ofNat 6 (bitsOf h.toNat 21 16)
def h0Epoch (h : Dword) : BitVec 24 := BitVec.ofNat 24 (bitsOf h.toNat 45 22)

/-- STR_RESP keeps the first failing response, and STR_RESP is raised (R329). -/
def strResp (s : State) (h0 : Dword) : State :=
  raise (s.modStr (fun x => if x.resp then x else { x with
    resp := true, respKind := BitVec.ofNat 4 (h0Kind h0), respStatus := BitVec.ofNat 2 (h0Status h0), respTag := h0Tag h0 }))
    fcSTRRESP 5 0 0

/-- An inbound block whose tag fails (15 R383): SEC_TAG, and in a sealed state the zeroisation. -/
def secTag (s : State) (cause region : Nat) (c : BitVec 2) (user : Nat) : State :=
  tagZeroise (raise (tagFailure s cause region c user) fcSECTAG 12 0 0)

/-- A block passes through the tag check (SEC_BLK_IN). -/
def blkChecked (s : State) : State := s.modSec (fun x => { x with blkIn := x.blkIn + 1 })

/-- Packet i of a job is over: landed, or refused by its response. -/
def landed (s : State) (j : StrJob) : State :=
  match s.str.jobs.find? (fun y => decide (y.id = j.id) && decide (y.user = j.user) && decide (y.blk = j.blk) && decide (y.kind = j.kind)) with
  | none => s
  | some y => putJob s y { y with landed := y.landed + 1 }

/-- Where a read block lands in local memory, if it does. -/
def landAddr (s : State) (j : StrJob) (i : Nat) : Option Nat :=
  match j.user with
  | .str => some (j.addr + 512 * i)
  | .sth => s.sth.rd.bind (fun r => if r.dst.isNone then some (lineAddr s r.line + 512 * i) else none)
  | _ => none

/-- A read block that passed its tag lands with its user (R328); one that did not arrive whole lands nowhere. -/
def landBlock (s : State) (j : StrJob) (i : Nat) (bs : Option (List Byte)) : State :=
  let t := match j.user, bs with
    | .str, some b => creditSin (memWr s rqSTR (j.addr + 512 * i) b) (j.addr + 512 * i) j.region.toNat false (j.blk + i) b
    | .sth, _ => depotLand s j i bs
    | .fac, some b => facLand s i b
    | .fac, none => s.modStr (fun x => { x with jobs := x.jobs.map (fun y => if y.user = .fac then { y with dead := true } else y) })
    | _, _ => s
  landed t j

/-- An RDAT is taken: its tag is free again, and its block is checked and lands, or is discarded by a stream stop (R323, R328, R329; 15 R383, R385). That of an abandoned read is checked and lands nowhere. Only a block that lands is progress (12 R302). -/
def takeRdat (s : State) (r : StrRead) (p : StrPacket) : State :=
  let t := s.modStr (fun x => { x with reads := x.reads.filter (fun y => decide (y.tag ≠ r.tag)) })
  let land := fun (u : State) (bs : Option (List Byte)) =>
    match t.str.jobs.find? (fun j => decide (j.id = r.job) && decide (j.kind = .get)) with
    | none => u
    | some j =>
      match bs with
      | none => landBlock u j r.i none
      | some b => progress (landBlock (u.modStr (fun x => { x with rdBlk := x.rdBlk + 1 })) j r.i (some b))
  if t.sec.stop || r.lost then t
  else if h0Status p.h0 ≠ 0 then land (strResp t p.h0) none
  else
    let u := blkChecked t
    match gcmOpen (keyOf u r.retired) (streamIv r.ctxIv r.region r.epoch r.block) [] (blockBytes p.data) (tagBytes p.tag) with
    | none => land (secTag u 1 r.region.toNat r.ctx (userCode r.user)) none
    | some b => land u (some b)

/-- The RDAT must wait for memory: a zeroisation, or reserved banks (07 R191, R193). -/
def rdatWaits (s : State) (r : StrRead) : Bool :=
  !s.sec.stop &&
    match s.str.jobs.find? (fun j => decide (j.id = r.job) && decide (j.kind = .get)) with
    | none => false
    | some j => s.mem.zeroing || (landAddr s j r.i).any (fun a => memWaits s a 512)

def execRdat (s : State) (p : StrPacket) : State :=
  match s.str.reads.find? (fun r => decide (r.tag = h0Tag p.h0)) with
  | none => s
  | some r =>
    if rdatWaits s r then s.modStr (fun x => { x with waiting := x.waiting ++ [p] })
    else takeRdat s r p

/-- Destination address of an RPUT: line address bits 20 to 7 in H1. -/
def rputAddr (h1 : Dword) : Nat := 128 * bitsOf h1.toNat 33 20

/-- An ACK is owed for a packet (Table 10). -/
def oweAck (s : State) (tag : BitVec 6) (status : Nat) : State :=
  s.modStr (fun x => { x with acks := x.acks ++ [strH0 5 tag status false false 0 0 0] })

/-- Every packet of an attached put is written: those of the blocks that end with its last one. -/
def AttPut.whole (u : AttPut) (pkts : List AttPkt) : Bool :=
  (List.range u.count.toNat).all (fun k => pkts.contains { writer := u.writer, block := u.last - BitVec.ofNat 32 k })

/-- The packet belongs to the put. -/
def AttPut.owns (u : AttPut) (x : AttPkt) : Bool := decide (x.writer = u.writer) && decide ((u.last - x.block).toNat < u.count.toNat)

/-- An attached put is written whole: one signal to the object that its SID names for the running context, or a dropped one. -/
def attSignal (s : State) (u : AttPut) : State :=
  let t := s.modStr (fun x => { x with attPuts := x.attPuts.filter (fun y => decide (y ≠ u)), attPkts := x.attPkts.filter (fun y => !u.owns y) })
  let c := t.core.cur.toNat
  match if decide (t.core.mode ≠ .idle) && attachedOn t c then mapId t c u.sid.toNat else none with
  | some o => signal t 10 o
  | none => t.modSyn (fun y => { y with attdrop := true, attDropCnt := y.attDropCnt + 1 })

/-- A packet of an attached put is written; when none of its put is missing, the receiver applies the signal (12 R299). A put's last packet names the put; its packets are told apart by their blocks. -/
def attached (s : State) (p : StrPacket) : State :=
  let w := BitVec.ofNat 32 (bitsOf p.h0.toNat 45 14)
  let b := p.h2.setWidth 32
  let t := s.modStr (fun x => { x with
    attPkts := x.attPkts ++ [{ writer := w, block := b }]
    attPuts := if p.h0.getLsbD 13 then
        x.attPuts ++ [{ writer := w, last := b, count := BitVec.ofNat 12 (bitsOf p.h1.toNat 51 40), sid := BitVec.ofNat 6 (bitsOf p.h1.toNat 39 34) }]
      else x.attPuts })
  match t.str.attPuts.find? (fun u => u.whole t.str.attPkts) with
  | some u => attSignal t u
  | none => t

/-- A put leaves its buffer, whose credit is granted again (R326). -/
def freeBuf (s : State) : State := s.modStr (fun x => { x with inCred := x.inCred + 1 })

/-- An RPUT is checked, written and acknowledged (R329; 15 R382, R385). -/
def takeRput (s0 : State) (p : StrPacket) : State :=
  let s := freeBuf s0
  let tag := h0Tag p.h0
  let e := h0Epoch p.h0
  let a := rputAddr p.h1
  if s.sec.stop || s.flt.fatal then oweAck s tag 1
  else if e.getLsbD 23 && decide (e ≠ seEpoch s.sec.seCur) then
    oweAck (secErr (s.modSec (fun x => { x with rpStale := x.rpStale + 1 })) 9 (h0Region p.h0).toNat (h0Ctx p.h0) 0) tag 1
  else
    let t := blkChecked s
    match gcmOpen s.sec.key (streamIv (h0Ctx p.h0) (h0Region p.h0) e (p.h2.setWidth 32 |>.setWidth 64)) (rputAad p.h0 p.h1 p.h2)
        (blockBytes p.data) (tagBytes p.tag) with
    | none => oweAck (secTag t 2 (h0Region p.h0).toNat (h0Ctx p.h0) 0) tag 2
    | some b =>
      if (if t.man.isLive then permits t [pDATA] a 512 else decide (a + 512 ≤ memTop)) then
        let u := creditSin (memWr t rqSTR a b) a (h0Region p.h0).toNat true (p.h2.toNat % 2 ^ 32) b
        let v := progress (u.modStr (fun x => { x with rpIn := x.rpIn + 1 }))
        oweAck (if h0Att p.h0 then attached v p else v) tag 0
      else oweAck (t.modStr (fun x => { x with nackIn := x.nackIn + 1 })) tag 1

/-- The put buffers: a packet waits in one for memory (R326, R329). -/
def execRput (s : State) (p : StrPacket) : State :=
  if !(s.sec.stop || s.flt.fatal) && memWaits s (rputAddr p.h1) 512 then
    s.modStr (fun x => { x with waiting := x.waiting ++ [p], inbuf := x.inbuf - 1 })
  else takeRput s p

/-- Packets that waited for memory are taken in order, as far as memory lets them. -/
def strResume (s : State) : State :=
  s.str.waiting.foldl (fun t p =>
    if h0Kind p.h0 = 4 then execRdat t p else execRput (t.modStr (fun x => { x with inbuf := x.inbuf + 1 })) p)
    (s.modStr (fun x => { x with waiting := [] }))

/-- Inbound packets that answer the tile's own are taken: the units run, or a stream stop of the fatal state discards and counts them (15 R385; 16 R391). -/
def strTakes (s : State) : Bool := unitsOn s || (busOn s && s.sec.stop)

/-- RDAT_RECEIVED (R328). -/
def execRdatReceived (p : StrPacket) (s : State) : Res :=
  whenOn (strTakes s && decide (h0Kind p.h0 = 4) && s.str.reads.any (fun r => decide (r.tag = h0Tag p.h0)) &&
      !s.str.waiting.any (fun q => decide (h0Kind q.h0 = 4) && decide (h0Tag q.h0 = h0Tag p.h0))) s
    (unstall (execRdat (spend s 7 32) p))

/-- ACK_RECEIVED: a write slot frees, and its operation retires after the last one (R328, R329). A copy of the journal of which a write is refused is dropped (11 R273). The answer to an abandoned write counts and raises STR_RESP like another. -/
def execAckReceived (h0 : Dword) (s : State) : Res :=
  match s.str.writes.find? (fun w => decide (w.tag = h0Tag h0)) with
  | none => .next s
  | some w =>
    let t := progress ((spend s 7 1).modStr (fun x => { x with writes := x.writes.filter (fun y => decide (y.tag ≠ w.tag)) }))
    let bad := decide (h0Status h0 ≠ 0)
    let u := if bad then strResp t h0 else if w.put then t.modStr (fun x => { x with wrBlk := x.wrBlk + 1 }) else t
    whenOn (strTakes s && decide (h0Kind h0 = 5)) s
      (match t.str.jobs.find? (fun j => decide (j.id = w.job) && decide (j.kind ≠ .get)) with
       | none => u
       | some j => unstall (landed (if bad && decide (j.user = .jrnl) && !j.dead then dropCopy u j else u) j))

/-- RPUT_RECEIVED: a put takes one of the 4 buffers (R326, R329). -/
def execRputReceived (p : StrPacket) (s : State) : Res :=
  whenOn (busOn s && decide (h0Kind p.h0 = 3) && decide (0 < s.str.inbuf)) s (unstall (execRput (spend s 7 32) p))

end Sys2Proof.Machine
end

