-- ==== Sys2Proof/Machine/Xch.lean ====
section
/-! DEFINITION. The exchange port: itinerary images, slot-store banks, sends and receives (13 R308 to R321). -/

namespace Sys2Proof.Machine

/-! The slot store (R310, R311). -/

def actBank (s : State) : XBank := if s.xch.act then s.xch.bank1 else s.xch.bank0
def inactBank (s : State) : XBank := if s.xch.act then s.xch.bank0 else s.xch.bank1
def setInact (s : State) (b : XBank) : State :=
  s.modXch (fun x => if x.act then { x with bank0 := b } else { x with bank1 := b })

/-- The words of the live ITIN section for a context: descriptor and EXCH_LEN of each of 8 images. -/
def itinWords (s : State) (c : Nat) : List Word := (List.range 16).map (fun i => BitVec.ofNat 32 (cfg s (oITIN + 64 * c + 4 * i) 4))

/-- Image of a context's XCH_RESUME. -/
def resumeOf (s : State) (c : BitVec 2) : BitVec 3 := tabGet 0 s.xch.resume c.toNat

/-- Key of a slot in the table of slot errors. -/
def slotKey (bank : Bool) (num : Nat) : Nat := (if bank then 1024 else 0) + num

/-- The error of a slot; writing the slot ends it. -/
def slotErrOf (s : State) (bank : Bool) (num : Nat) : EccErr := tabGet .clean s.xch.slotErr (slotKey bank num)
def cleanSlot (s : State) (bank : Bool) (num : Nat) : State :=
  s.modXch (fun x => { x with slotErr := tabSet .clean x.slotErr (slotKey bank num) .clean })

/-- The running load is one of an image of context c, whose descriptor and EXCH_LEN stand in the words that it took as it started. -/
def pickImage (s : State) (c : BitVec 2) (img : BitVec 3) : State :=
  let w := fun k => s.xch.loadItin.getD (2 * img.toNat + k) 0
  setInact (s.modXch (fun x => { x with load := some (c, img), loadLen := w 1, loadDesc := w 0, loadSel := none })) { image := img, exchLen := w 1 }

/-- A load of an image starts; one in progress is abandoned. The ITIN words and CORE_TILE_COUNT are taken now (R311; 02 R57; 16 Table 7). bad: its selector word could not be read. -/
def startItin (s : State) (c : BitVec 2) (img : BitVec 3) (bad : Bool) : State :=
  pickImage (s.modXch (fun x => { x with loadItin := itinWords s c.toNat, loadTiles := s.core.tileCount, loadBad := bad })) c img

/-- XCH_LERR keeps the first failure; the bank is failed and XCH_ITIN is raised (R313). -/
def itinFail (s : State) (cause ent : Nat) : State :=
  let b := inactBank s
  let t := setInact (s.modXch (fun x => { x with load := none })) { b with st := .failed, ents := [] }
  raise (t.modXch (fun x => if x.lerr then x else { x with
    lerr := true, lerrCause := BitVec.ofNat 3 cause, lerrEnt := BitVec.ofNat 10 ent, lerrImg := b.image })) fcXCHITIN 10 0 cause

/-- An entry from its four words, its SID translated for context c. -/
def entryWords (s : State) (c num : Nat) (w : Nat → Nat) : XEnt :=
  { off := w 0, beats := bitsOf (w 1) 15 0 + 1, recv := decide (bitsOf (w 1) 17 16 = 1), mcast := (w 1).testBit 18
    syn := if (w 1).testBit 19 then mapId s c (bitsOf (w 1) 25 20) else none
    addr := bitsOf (w 2) 20 0, route := BitVec.ofNat 20 (bitsOf (w 3) 19 0), sent := BitVec.ofNat 10 (bitsOf (w 3) 29 20)
    num := BitVec.ofNat 10 num }

/-- Cause 3 of Table 4 for an entry. -/
def entryResv (w : Nat → Nat) : Bool :=
  let dir := bitsOf (w 1) 17 16
  decide (2 ≤ dir) || decide (bitsOf (w 1) 31 26 ≠ 0) || decide (bitsOf (w 2) 31 21 ≠ 0) || decide (bitsOf (w 3) 31 30 ≠ 0) ||
    (decide (dir = 1) && (w 1).testBit 18) || (decide (dir = 0) && decide (bitsOf (w 3) 29 20 ≠ 0))

/-- The lowest cause of 3, 4, 5, 7 that an entry fails, and 6 against the previous entry of its direction (Table 4). -/
def entryCause (s : State) (c : Nat) (len : Nat) (prevEnd : Nat) (w : Nat → Nat) : Nat :=
  let e := entryWords s c 0 w
  lowest [(entryResv w, 3), (decide (len < e.off + e.beats + 1), 4),
    (decide (e.addr % 32 ≠ 0) || !permits s [pDATA] e.addr (32 * e.beats), 5), (decide (e.off < prevEnd), 6),
    ((w 1).testBit 19 && e.syn.isNone, 7)]

/-- Read the entries in order; the first failing entry with its cause, or the entries. ends are the ends of the last send and of the last receive. -/
def readEnts (s : State) (c a len : Nat) : Nat → Nat → Nat × Nat → List XEnt → Except (Nat × Nat) (List XEnt)
  | 0, _, _, acc => .ok acc.reverse
  | k + 1, i, ends, acc =>
    let w := fun j => mWord s (a + 16 * (i + 1) + 4 * j)
    let e := entryWords s c i w
    let cause := entryCause s c len (if e.recv then ends.2 else ends.1) w
    if cause ≠ 0 then .error (cause, i)
    else readEnts s c a len k (i + 1) (if e.recv then (ends.1, e.off + e.beats) else (e.off + e.beats, ends.2)) (e :: acc)

/-- Length in bytes of the image that a descriptor names. -/
def imageLen (d : Nat) : Nat := 16 + 16 * (bitsOf d 30 21 + 1)

/-- Read and check the image of the running load (R308, R313): the bank it fills, or the failing cause and entry. -/
def readImage (s : State) (c : BitVec 2) (img : BitVec 3) : Except (Nat × Nat) XBank :=
  let d := s.xch.loadDesc.toNat
  let len := s.xch.loadLen
  let a := bitsOf d 20 0
  let w := fun i => mWord s (a + 4 * i)
  let sel := (w 0).testBit 3
  let selA := bitsOf (w 1) 20 0
  if s.xch.loadBad || !d.testBit 31 || !dataAt s a 16 (imageLen d) || (sel && !dataAt s selA 8 8) then .error (1, 0)
  else if bitsOf (w 2) 20 0 ≠ s.xch.loadTiles.toNat then .error (2, 0)
  else if bitsOf (w 0) 31 4 ≠ 0 ∨ bitsOf (w 1) 31 21 ≠ 0 ∨ bitsOf (w 2) 31 21 ≠ 0 ∨ w 3 ≠ 0 then .error (3, 0)
  else
    match readEnts s c.toNat a len.toNat (bitsOf d 30 21 + 1) 0 (0, 0) [] with
    | .error e => .error e
    | .ok es => .ok { st := .ready, ents := es, image := img, exchLen := len, next := BitVec.ofNat 3 (bitsOf (w 0) 2 0)
                      selV := sel, selAddr := BitVec.ofNat 21 selA }

/-- The bytes that the running load reads, when its image is there. -/
def loadSpans (s : State) : List (Nat × Nat) :=
  let d := s.xch.loadDesc.toNat
  let a := bitsOf d 20 0
  if !s.xch.loadBad && d.testBit 31 && dataAt s a 16 (imageLen d) then [(a, imageLen d)] else []

/-- The loader writes the slots of the inactive bank. -/
def fillBank (s : State) (b : XBank) : State :=
  b.ents.foldl (fun t e => cleanSlot t (!s.xch.act) e.num.toNat) (setInact s b)

/-- ITIN_LOAD_DONE: the running load ends (R313, R314); cyc is the number of c-cycles that it took. -/
def execItinLoadDone (cyc : Word) (s : State) : Res :=
  match s.xch.load with
  | none => .next s
  | some (c, img) =>
    whenMem (unitsOn s && s.xch.loadSel.isNone) rqITIN (loadSpans s) s
      (let t := touchSpans s rqITIN (loadSpans s)
       match readImage s c img with
       | .error e => itinFail t e.1 e.2
       | .ok b => (fillBank t b).modXch (fun x => { x with load := none, loads := x.loads + 1, loadCyc := cyc }))

/-- The selector word of the running load is read, and the load goes on with the image that it names (R312). -/
def readSel (s : State) (c : BitVec 2) (a : Nat) : State :=
  let t := touchRead s rqITIN a 8
  pickImage t c (BitVec.ofNat 3 (mWord t a))

/-- A load whose selector word lay on a reserved bank goes on when it can be read (R314). -/
def resolveSel (s : State) : State :=
  match s.xch.load, s.xch.loadSel with
  | some (c, _), some a =>
    if memWaits s a.toNat 8 then s else readSel s c a.toNat
  | _, _ => s

/-- The load that an active header chooses: the selector word's image, or NEXT (R311, R312). -/
def nextLoad (s : State) : State :=
  let b := actBank s
  if b.selV then
    let a := b.selAddr.toNat
    if !dataAt s a 8 8 then startItin s s.core.cur 0 true
    else if memWaits s a 8 then (startItin s s.core.cur 0 false).modXch (fun x => { x with loadSel := some b.selAddr })
    else readSel (startItin s s.core.cur 0 false) s.core.cur a
  else startItin s s.core.cur b.next false

/-- n of a release's exchange phase: EXCH_LEN of the image meant for it, 0 when the inactive bank holds nothing (R315). -/
def meantLen (s : State) : Word :=
  if s.xch.load.isSome || !decide ((inactBank s).st = .empty) then (inactBank s).exchLen else 0

/-- The exchange start of a phase that is not that of a switch release (R315). -/
def exchBegin (s : State) : State :=
  let swap := fun (t : State) => t.modXch (fun x => { x with act := !x.act, latched := [], nextBeat := [], seen := 0 })
  if s.xch.load.isSome then
    raise (s.modXch (fun x => { x with run := .bare, late := true })) fcXCHLATE 10 0 0
  else
    match (inactBank s).st with
    | .ready => nextLoad ((swap s).modXch (fun x => { x with run := .run }))
    | .failed =>
      let t := (swap s).modXch (fun x => { x with run := .bare })
      setInact t {}
    | .empty => s.modXch (fun x => { x with run := .bare })

/-- EXCH_START: the banks swap or not, and the itinerary starts (R315). -/
def execExchStart (s : State) : Res :=
  whenOn (unitsOn s && decide (s.core.phase = 2)) s
    (let t := s.modCore (fun k => { k with phase := 3 })
     if t.xch.run = .switch then t else exchBegin t)

/-! Beats (R316 to R321). -/

/-- What an entry of the active bank latched when it started. -/
def latchOf (s : State) (num : BitVec 10) : Option XEnt := tabGet none s.xch.latched num.toNat

/-- Entries of one direction that have started and run, as latched. -/
def running (s : State) (recv : Bool) : List XEnt :=
  ((actBank s).ents.filterMap (fun e => latchOf s e.num)).filter (fun e => e.recv = recv)

def beatOf (s : State) (e : XEnt) : Nat := tabGet 0 s.xch.nextBeat e.num.toNat
def setBeat (s : State) (e : XEnt) (k : Nat) : State :=
  s.modXch (fun x => { x with nextBeat := tabSet 0 x.nextBeat e.num.toNat k })

/-- The entry's window holds an offset. -/
def XEnt.holds (e : XEnt) (off : Nat) : Bool := decide (e.off ≤ off) && decide (off < e.off + e.beats)

/-- Another entry of its direction runs where this one would start: it is skipped (R316, log entry 88). -/
def overlapped (s : State) (e : XEnt) : Bool :=
  (running s e.recv).any (fun x => decide (x.num ≠ e.num) && x.holds e.off)

/-- An error of an internal store is corrected and counted (16 R388). -/
def stateCe (s : State) : State := s.modFlt (fun f => { f with cntCe := f.cntCe + 1 })
def fcSLOTUE : Nat := 0x29

/-- A fault of a c-cycle that other faults of the exchange port may come before: it is recorded when that c-cycle is over (16 R394). -/
def dueFault (s : State) (off code : Nat) : State := s.modXch (fun x => { x with due := x.due ++ [(off, code)] })

/-- An entry starts on the c-cycle of its beat 0: its slot is read, and it latches its values or is skipped. One whose slot raises SLOT_UE does not run (16 R388); nor does one that was written behind its OFFSET (R316). -/
def startEnt (s : State) (e : XEnt) : State :=
  if beatOf s e ≠ 0 || (latchOf s e.num).isSome || e.gone then s
  else
    match slotErrOf s s.xch.act e.num.toNat with
    | .double => setBeat (dueFault s e.off fcSLOTUE) e e.beats
    | err =>
      let t := if err = .single then stateCe (cleanSlot s s.xch.act e.num.toNat) else s
      if overlapped t e then (setBeat t e e.beats).modXch (fun x => { x with skips := x.skips + 1 })
      else t.modXch (fun x => { x with latched := tabSet none x.latched e.num.toNat (some e) })

/-- Entries in the order in which they start: by offset, of equal ones those that a load wrote first. -/
def startsBefore (a b : XEnt) : Bool :=
  decide (a.off < b.off) || (decide (a.off = b.off) && (!a.test || b.test))
def byStart (es : List XEnt) : List XEnt :=
  es.foldl (fun l e => l.filter (fun x => startsBefore x e) ++ [e] ++ l.filter (fun x => !startsBefore x e)) []

/-- Every entry of one direction that starts before an offset has started. -/
def startAll (s : State) (recv : Bool) (off : Nat) : State :=
  (byStart ((actBank s).ents.filter (fun e => decide (e.recv = recv) && decide (e.off < off)))).foldl startEnt s

/-- Beat k of an entry is over: the signal after the last one (R317). -/
def endBeat (s : State) (e : XEnt) (k : Nat) : State :=
  let t := setBeat s e (k + 1)
  if k + 1 = e.beats then
    match e.syn with
    | some o => signal t 9 o
    | none => t
  else t

/-- A receive failure (R319). -/
def recvFail (s : State) (cause : Nat) (ent : Nat) (off : Word) (src : BitVec 20) (sent : BitVec 10) (beat : Half) : State :=
  let t := s.modXch (fun x =>
    let y := if x.rerr then x else { x with
      rerr := true, rerrCause := BitVec.ofNat 2 cause, rerrEnt := BitVec.ofNat 10 ent, rerrOff := off, rerrSrc := src
      rerrSent := sent, rerrBeat := beat }
    { y with rerrs := x.rerrs + 1, failed := true })
  if s.xch.failed then t else raise t fcXCHRECV 10 0 cause

/-- A beat that should have come and did not: cause MISS, with XCH_IN as it stands (log entry 40). -/
def missBeat (s : State) (e : XEnt) (k : Nat) : State :=
  let v := Config.xchIdle s.free
  let t := recvFail { s with free := s.free + 1 } 3 e.num.toNat (BitVec.ofNat 32 (e.off + k)) (v.setWidth 20)
    ((v >>> 20).setWidth 10) ((v >>> 30).setWidth 16)
  endBeat t e k

/-- Beats of a receive entry that lie before an offset and have not come. -/
def catchEnt (s : State) (off : Nat) (e : XEnt) : State :=
  (List.range (min e.beats (off - e.off) - beatOf s e)).foldl (fun u _ => missBeat u e (beatOf u e)) s

/-- The itinerary runs. -/
def exchRuns (s : State) : Bool := decide (s.xch.run = .run) && decide (s.core.phase = 3)

/-- Every receive beat of the started entries before an offset has come or is missed. -/
def catchAll (s : State) (off : Nat) : State := (byStart (running s true)).foldl (fun u e => catchEnt u off e) s

/-- A fault whose c-cycle is over is recorded; a collision is captured (R321). -/
def raiseDue (s : State) (d : Nat × Nat) : State :=
  let t := if d.2 = fcXCHCOLLIDE ∧ s.xch.coll = false then s.modXch (fun y => { y with coll := true, collOff := BitVec.ofNat 32 d.1 }) else s
  raise t d.2 10 0 0

/-- Faults in the order of their c-cycles, and of one c-cycle by code. -/
def dueBefore (a b : Nat × Nat) : Bool := decide (a.1 < b.1) || (decide (a.1 = b.1) && decide (a.2 ≤ b.2))
def byDue (l : List (Nat × Nat)) : List (Nat × Nat) :=
  l.foldl (fun m d => m.filter (fun x => dueBefore x d) ++ [d] ++ m.filter (fun x => !dueBefore x d)) []

/-- The faults of c-cycles before an offset are recorded, each behind what those c-cycles missed. -/
def settleDue (s : State) (off : Nat) : State :=
  let now := byDue (s.xch.due.filter (fun d => decide (d.1 < off)))
  now.foldl (fun t d => raiseDue (if exchRuns t then catchAll t (d.1 + 1) else t) d)
    (s.modXch (fun x => { x with due := x.due.filter (fun d => !decide (d.1 < off)) }))

/-- The faults that are still to be recorded are. -/
def settleAll (s : State) : State := if s.xch.due = [] then s else settleDue s (s.xch.due.foldl (fun m d => max m (d.1 + 1)) 0)

/-- The c-cycles before an offset are over: every receive beat has come or is missed, and their faults are recorded. -/
def catchUp (s : State) (off : Nat) : State :=
  if exchRuns s then
    let t := settleDue (startAll (s.modXch (fun x => { x with seen := max x.seen (off + 1) })) true off) off
    catchAll t off
  else settleDue s off

/-- Bank of an address (07 R171). -/
def bankOf (a : Nat) : Nat := 4 * (a / 196608) + a / 32 % 4

/-- An exchange access that is served counts where XRES does not reserve its bank (07 R191). -/
def countXun (s : State) (a : Nat) : State :=
  if s.mem.xph && s.mem.xres.getLsbD (bankOf a) then s else s.modMem (fun m => { m with xunres := m.xunres + 1 })

/-- The entry of one direction that does a beat at an offset. -/
def openEnt (s : State) (recv : Bool) (o : Nat) : Option XEnt :=
  (running s recv).find? (fun e => e.holds o && decide (beatOf s e = o - e.off))

/-- A send entry does its beat at an offset: its bank is read and XCH_OUT driven (R317). A zeroisation sends zeros (R321). -/
def sendBeat (s : State) (e : XEnt) (o : Nat) : State :=
  let k := o - e.off
  let a := e.addr + 32 * k
  let v := if s.mem.zeroing then s else countXun (touchRead s rqXCH a 32) a
  let d := if s.mem.zeroing then 0 else mNat v a 32
  let w := v.modXch (fun x => { x with
    beatsOut := x.beatsOut + 1
    out := some { data := BitVec.ofNat 256 d, src := v.core.tileId, ent := e.num, beat := BitVec.ofNat 16 k, rt := e.route, mc := e.mcast } })
  spend (endBeat w e k) 6 1

/-- EXCH_SEND_BEAT: the c-cycle of an offset; the send entry open there does its beat. -/
def execExchSendBeat (off : Word) (s : State) : Res :=
  let o := off.toNat
  let t := startAll (catchUp s o) false (o + 1)
  whenOn (unitsOn s && exchRuns s) s
    (match openEnt t false o with
     | none => t
     | some e => sendBeat t e o)

/-- Banks that a send reads for its beat at an offset; one that does not run reads none. -/
def sendBanks (s : State) (o : Nat) : List Nat :=
  ((running (startAll s false (o + 1)) false).filter (fun e => e.holds o)).map (fun e => bankOf (e.addr + 32 * (o - e.off)))

/-- The received beat is written unless the send read of the next c-cycle falls on its bank, a fault of that c-cycle (R321), or a zeroisation runs (R193). -/
def landBeat (s : State) (e : XEnt) (k : Nat) (x : XchBeat) : State :=
  let a := e.addr + 32 * k
  let next := e.off + k + 1
  if s.mem.zeroing then s
  else if (sendBanks s next).contains (bankOf a) then dueFault s next fcXCHCOLLIDE
  else creditXin (memWr (countXun s a) rqXCH a (leBytes 32 x.data)) a e.num.toNat k (leBytes 32 x.data)

/-- A beat in the exchange phase is checked against the open receive entry (R319, Table 5). -/
def checkBeat (s : State) (off : Word) (x : XchBeat) : State :=
  let o := off.toNat
  let t := if exchRuns s then startAll s true (o + 1) else s
  match if exchRuns s then openEnt t true o else none with
  | none => recvFail t 2 0 off x.src x.ent x.beat
  | some e =>
    let k := o - e.off
    let fail := fun cause => endBeat (recvFail t cause e.num.toNat off x.src x.ent x.beat) e k
    if x.src ≠ e.route ∨ x.ent ≠ e.sent then fail 1
    else if x.beat.toNat < k then fail 2
    else if k < x.beat.toNat then fail 3
    else endBeat ((landBeat t e k x).modXch (fun y => { y with beatsIn := y.beatsIn + 1 })) e k

/-- A beat that R320 discards: the tile holds, has no live manifest, stands at a halt, or is in the empty phase of a switch release. -/
def beatDiscarded (s : State) : Bool :=
  s.man.hold || !s.man.isLive || (decide (s.core.mode = .idle) && (curCtx s).halted) ||
    (decide (2 ≤ s.core.phase.toNat) && decide (s.xch.run = .switch))

/-- EXCH_RECV_BEAT: a beat sampled on XCH_IN (R319, R320). -/
def execExchRecvBeat (off : Word) (x : XchBeat) (s : State) : Res :=
  whenOn (unitsOn s) s
    (spend (if beatDiscarded s then s.modXch (fun y => { y with inDisc := y.inDisc + 1 })
     else if s.core.phase.toNat < 2 then recvFail s 2 0 0 x.src x.ent x.beat
     else if s.core.phase = 2 then recvFail s 2 0 off x.src x.ent x.beat
     else checkBeat (catchUp s off.toNat) off x) 6 1)

/-- ITIN_LOAD of the running context's XCH_RESUME starts when a manifest becomes live (R311). -/
def resumeLoad (s : State) : State := startItin s s.core.cur (resumeOf s s.core.cur) false

/-- A context switch: the outgoing context's XCH_RESUME takes the image of the inactive bank, and the incoming context's image loads (R311). -/
def switchLoad (s : State) (from_ to_ : BitVec 2) : State :=
  let t := s.modXch (fun x => { x with resume := tabSet 0 x.resume from_.toNat (inactBank s).image })
  startItin t to_ (resumeOf t to_) false

/-! Test writes (R316). -/

/-- XCH_TCTRL_WRITE: the entry that XCH_TSEL names takes XCH_TDATA after the checks of causes 3, 4, 5 and 7, or the write is refused. -/
def testWrite (s : State) : State :=
  let w := fun i => (tabGet (0 : Word) s.xch.tdata i).toNat
  let n := s.xch.tselEnt.toNat
  let b := if s.xch.tselBank then s.xch.bank1 else s.xch.bank0
  let c := s.core.cur.toNat
  let ok := s.xch.testEn && decide (s.sec.state = 0) && decide (entryCause s c b.exchLen.toNat 0 w = 0)
  let x := entryWords s c n w
  let e := { x with test := true, gone := decide (s.xch.tselBank = s.xch.act) && exchRuns s && decide (x.off < s.xch.seen) }
  let es := if b.ents.any (fun y => decide (y.num.toNat = n)) then b.ents.map (fun y => if y.num.toNat = n then e else y) else b.ents ++ [e]
  if ok then (cleanSlot s s.xch.tselBank n).modXch (fun x => if x.tselBank then { x with bank1 := { b with ents := es } } else { x with bank0 := { b with ents := es } })
  else s.modXch (fun x => { x with trej := true })

/-- XCH_TCTRL_WRITE. -/
def execXchTctrlWrite (s : State) : Res := regCmd .xchTctrlWrite s (testWrite s)

end Sys2Proof.Machine
end

