-- ==== Sys2Proof/Machine/Stage.lean ====
section
/-! DEFINITION. The stage: arrivals, releases with their zone and epoch checks, commits, context switches, and the end of the exchange phase (01 R7 to R19; 02 R48 to R57; 03 R65 to R71; 10 R251, R253). -/

namespace Sys2Proof.Machine

/-! Arrival (01 R8, R9, R16). -/

/-- The close flag with which the control core stopped: a SYNC's own, 1 at a forced arrival (03 R95). -/
def stopClose (s : State) : Option Bool :=
  match s.core.mode with
  | .sync c => some c
  | .stopped => some true
  | _ => none

/-- Every queue is empty, every engine has retired, and the bale queue is empty. -/
def enginesDrained (s : State) : Bool := (List.range 7).all (engIdle s) && s.arr.bufs.isEmpty && s.arr.bq.isEmpty

/-- The stream port has no outstanding read and no unacknowledged write, and no transfer left. -/
def streamDrained (s : State) : Bool := s.str.jobs.isEmpty && s.str.reads.isEmpty && s.str.writes.isEmpty

/-- No program position of its own: the tile holds, or no context runs (R16). -/
def noProgram (s : State) : Bool := s.man.hold || decide (s.core.mode = .idle)

/-- The arrival conditions of R8 for a stop with close flag c; a tile in debug halt does not arrive (17 R410). -/
def arrivalMet (s : State) (c : Bool) : Bool :=
  decide (s.core.phase = 0) && enginesDrained s && (!c || streamDrained s) && !s.dbg.halted

/-- SYNC_ARR rises with a zone: the phase is sync wait and the norm fields are driven (R9; 10 R251). -/
def arrive (s : State) (zone : BitVec 2) (running : Bool) : State :=
  let x := facOf s s.core.cur
  let sq := partSum x
  let t := s.modCore (fun k => { k with syncArr := true, syncZone := zone, phase := 1, waitCnt := 0 })
  t.modFac (fun f => { f with
    nrmV := running && decide (x.st = 2), nrmSq := sq, nrmNf := x.partNf || decide (sq = f32Inf), nrmStep := x.step })

/-- SYNC_ARRIVAL: SYNC_ARR is asserted with the tile's zone. -/
def execSyncArrival (s : State) : Res :=
  let can := unitsOn s && !s.core.syncArr && !s.core.rldBusy
  if noProgram s then whenOn (can && decide (s.core.phase.toNat < 2) && !s.dbg.halted) s (arrive (creditArrival s false) 3 false)
  else
    match stopClose s with
    | none => .next s
    | some c => whenOn (can && arrivalMet s c) s (arrive (creditArrival s c) ((curCtx s).zone.getD 3) true)

/-! Release (R10, R15; 02 R52; 03 R65). -/

/-- A commit with what other units make of it: a changed ARB_BASE sets every bank priority to its base (07 R187), a changed STASH slot empties the stash (09 R232), and a changed MBOX area has its status words zeroed (13 R334). -/
def commitAll (s : State) (epoch : Word) : State :=
  let old := s.man.live
  let live := s.man.shadow
  let t := commit s epoch
  let t1 := if tDiffer old live (oPART + 0x1C) 4 then rebase t else t
  let u := if tDiffer old live (oPART + 8) 4 || tDiffer old live (oPART + 0x20) 4 then sthClear t1 else t1
  if tDiffer old live (oPART + 12) 4 then
    u.modPst (fun x => { x with mbinit := true, mbclear := mboxOn u })
  else u

/-- The tile enters or stays in hold (R53, R54). -/
def enterHold (s : State) (epoch : Word) (code : Nat) : State :=
  (raiseMismatch s code 11).modMan (fun m => { m with hold := true, holdEpoch := epoch, resume := false })

/-- Table 6 of chapter 02. -/
def epochCheck (s : State) (epoch : Word) : State :=
  if epoch = s.man.armed.getD s.man.epochCur then
    let t := if s.man.armed.isSome then commitAll s epoch else s
    t.modMan (fun m => { m with hold := false, resume := false })
  else enterHold s epoch fcEPOCH

/-- Zone and epoch checks of a release (R15; 02 R52, R53, R55; 03 R71). A held tile without MAN_CTRL_RESUME stays in hold. -/
def releaseChecks (s : State) (r : ReleaseIn) : State :=
  if !s.man.isLive then s
  else if decide (s.core.syncZone ≠ 3) && decide (r.zone ≠ s.core.syncZone) then enterHold s r.epoch fcZONE
  else if s.man.hold && !s.man.resume then s
  else epochCheck s r.epoch

/-- The norm token of a zone 2 release (10 R253). -/
def normLatch (s : State) (r : ReleaseIn) : State :=
  if decide (r.zone = 2) && decide (s.core.syncZone = 2) && s.fac.nrmV then
    if r.nrmAll then
      let c := s.core.cur
      let k := tokenOf (facOf s c).lat r.nrmSq r.nrmNf r.nrmMin r.nrmMax
      ((modFacCtx s c (fun x => { x with st := 3, tok := k })).modFac (fun f => { f with tok := k, tokCtx := c })).modWgh
        (fun w => { w with tok := true, tokNf := k.nf })
    else raise s fcNORMSPLIT 3 0 0
  else s

/-- The halt that a contained fault left pending is made (16 R389). -/
def pendingHalt (s : State) (c : Option (BitVec 2)) : State :=
  match c with
  | none => s
  | some c => (modCtx s c (fun x => { x with halted := true })).modFlt (fun f => { f with cntHalt := f.cntHalt + 1 })

/-- What the switch request of a release comes to (03 R65, R66). -/
inductive SwitchOut where
  | none
  /-- The target is the running context: the request lapses. -/
  | lapse
  | refused
  | made
deriving DecidableEq, Repr

def switchOut (s : State) : SwitchOut :=
  if !s.core.switch || s.man.hold then .none
  else if !s.man.isLive || !ctxPresent s s.core.next.toNat || (ctxOf s s.core.next).halted then .refused
  else if s.core.next = s.core.cur then .lapse
  else .made

/-- The switch is made, refused, or stays pending. -/
def switchStep (s : State) : State :=
  match switchOut s with
  | .none => s
  | .lapse => s.modCore (fun k => { k with switch := false })
  | .refused => s.modCore (fun k => { k with switch := false, swrej := true })
  | .made => switchLoad (s.modCore (fun k => { k with cur := k.next, switch := false })) s.core.cur s.core.next

/-- A context runs after this release (R69, R71; 15 R371). -/
def runsOn (s : State) : Bool :=
  s.man.isLive && !s.man.hold && !(curCtx s).halted && s.sec.codeOk && !s.core.rldBusy

/-- The exchange lead-in begins and the running context resumes: at CORE_ENTRY when it has not run since its reload (R11; 03 R65). A debug halt asked for while the core was stopped is in force. -/
def beginPhase (s : State) (sw : Bool) : State :=
  let n := if sw then 0 else meantLen s
  let entry := tabGet 0 s.core.entry s.core.cur.toNat
  let t := modCtx s s.core.cur (fun x => { x with pc := if x.ran then x.pc else entry, ran := true, atSync := false })
  ((((t.modCore (fun k => { k with phase := 2, exchLen := 64 + n, mode := .run })).modXch (fun x =>
    { x with phaseLen := n, run := if sw then .switch else .off })).modMem (fun m =>
    { m with xph := true, xres := BitVec.ofNat 32 (cfg s (oPART + 0x18) 4) })).modDbg (fun d =>
    { d with halted := d.halted || d.haltReq, cause := if d.haltReq then 1 else d.cause, haltReq := false }))

/-- No exchange phase follows: the tile waits at sync, and its digests are discarded (R54, R69, R71; 11 R272). -/
def standStill (s : State) : State :=
  noRecord ((s.modCore (fun k => { k with phase := 1, mode := if s.man.hold then k.mode else .idle })).modXch (fun x => { x with run := .off }))

/-- SYNC_REL is sampled: what the ports and counters take from it at once (R9, R15, Table 5; 02 R45; 03 R433). -/
def releaseSampled (s : State) (r : ReleaseIn) : State :=
  let t := s.modCore (fun k => { k with syncArr := false, phaseZone := r.zone, lastWait := BitVec.ofNat 32 (min k.waitCnt (2 ^ 32 - 1)) })
  let u := (List.range 7).foldl (fun u e => modQ u e (fun q => { q with failed := false })) t
  (u.modMan (fun m => { m with lwin := false })).modFlt (fun f => { f with pend := false, haltCtx := none })

/-- The settings of a release, up to the exchange phase: the norm token, the checks, the commit, the halt and the switch (02 R56). -/
def releaseSettings (s : State) (r : ReleaseIn) : State :=
  switchStep (creditRelease (captureMark (pendingHalt (releaseChecks (normLatch (releaseSampled s r) r) r) s.flt.haltCtx)))

/-- SYNC_RELEASE: the release acts, and the exchange lead-in begins or the tile stands still. -/
def execSyncRelease (r : ReleaseIn) (s : State) : Res :=
  let t := releaseSettings s r
  whenOn (unitsOn s && s.core.syncArr) s (if runsOn t then beginPhase t (decide (t.core.cur ≠ s.core.cur)) else standStill t)

/-! The end of the exchange phase (R7, R17). -/

/-- The exchange phase ends: its record is written, the stage counter rises, the next compute phase begins and the reservation ends. -/
def exchEnd (s : State) : State :=
  let o := s.xch.phaseLen.toNat
  let c := catchUp s o
  let t := finishRecord (settleAll (if exchRuns s then startAll c false o else c))
  resolveSel (((t.modCore (fun k => { k with phase := 0, stage := k.stage + 1 })).modMem (fun m => Mem.settled { m with xph := false })).modXch
    (fun x => { x with run := .off, failed := false }))

/-- SHADOW_COPY_DONE: the live-to-shadow copy ends; the zeroing of the mailbox status words that a commit began is over as well, when memory lets it be (02 R48; 13 R334). -/
def execShadowCopyDone (s : State) : Res :=
  whenOn (unitsOn s && s.man.syncing) s (pstResume (clearMbox (copyDone s)))

end Sys2Proof.Machine
end

