-- ==== Sys2Proof/Machine/Vec.lean ====
section
/-! DEFINITION. The vector engine's chain: micro-ops, element maps, beats and run descriptors (08 R194 to R211, R216). -/

namespace Sys2Proof.Machine

/-! Fields of a micro-op (R198, Tables 1 and 2). -/

def uType (w : Word) : Nat := bitsOf w.toNat 3 0
def uDst (w : Word) : Nat := bitsOf w.toNat 5 4
def uSrc (w : Word) : Nat := bitsOf w.toNat 7 6

/-- Reserved types, codes and bits of a micro-op (Tables 1 to 4). -/
def uopResv (u : Word) : Bool :=
  let w := u.toNat
  let src := fun lo => decide (9 < bitsOf w (lo + 3) lo)
  match uType u with
  | 0 => decide (bitsOf w 31 9 ≠ 0) || decide (uSrc u = 3)
  | 1 => decide (bitsOf w 31 24 ≠ 0) || src 6 || src 10 || src 14
  | 2 => decide (bitsOf w 31 16 ≠ 0) || decide (5 < bitsOf w 10 8)
  | 3 => decide (bitsOf w 31 30 ≠ 0) || src 6 || src 10 || src 14 || src 18 || decide (bitsOf w 24 22 = 7)
  | 4 => decide (bitsOf w 31 17 ≠ 0) || decide (bitsOf w 5 4 ≠ 0) || decide (bitsOf w 11 10 = 3)
  | 5 => decide (bitsOf w 31 12 ≠ 0)
  | 6 => decide (bitsOf w 31 14 ≠ 0)
  | 7 => decide (bitsOf w 31 9 ≠ 0) || decide (bitsOf w 5 4 ≠ 0)
  | _ => true

/-! Tables of the live CHAIN section (02 R39). -/

def presetOn (s : State) (p : Nat) : Bool := decide (bitsOf (cfgBits s oCHAIN 15 0) p p = 1)
def stagesOf (s : State) (p : Nat) : Nat := cfgBits s (oCHAIN + 4 + 36 * p) 3 0
def presetWords (s : State) (p : Nat) : List Word :=
  (List.range (stagesOf s p)).map (fun i => BitVec.ofNat 32 (cfg s (oCHAIN + 8 + 36 * p + 4 * i) 4))
def dt2V (s : State) : Bool := decide (cfgBits s oCHAIN 17 17 = 1)

/-- DT1 of an operand that is an integer from 0 to 255 (Table 3). -/
def lutDt1 (s : State) (x : Word) : Word :=
  match f32 x with
  | .fin neg m e =>
    let n := if 0 ≤ e then m * 2 ^ e.toNat else m / 2 ^ (-e).toNat
    let whole := decide (0 ≤ e) || decide (m % 2 ^ (-e).toNat = 0)
    if whole && decide (n < 256) && (!neg || decide (n = 0)) then dt1 s n else f32NaN
  | _ => f32NaN

/-- Segment and fraction of R202; u is exact. -/
def dt2Seg (u : Fp) : Nat × Fp :=
  let low : Nat × Fp := (0, .fin false 0 0)
  let high : Nat × Fp := (255, .fin false 1 0)
  match u with
  | .nan => low
  | .inf neg => if neg then low else high
  | .fin neg m e =>
    if neg then low
    else
      let j := if 0 ≤ e then m * 2 ^ e.toNat else m / 2 ^ (-e).toNat
      if 256 ≤ j then high
      else (j, if 0 ≤ e then .fin false 0 0 else .fin false (m % 2 ^ (-e).toNat) e)

/-- Derivative Table 2 over [-2^E, 2^E) (R202). -/
def lutDt2 (s : State) (e : Int) (x : Word) : Word :=
  if f32IsNaN x then f32NaN
  else
    let u := (((f32 x).add (.fin false 1 e))).scale (7 - e)
    let q := dt2Seg u
    let base := fmtB16.decode (cfg s (oCHAIN + 0x444 + 4 * q.1) 2)
    let slope := fmtB16.decode (cfg s (oCHAIN + 0x446 + 4 * q.1) 2)
    toF32 (base.add (slope.mul q.2))

/-! Lanes of a beat. -/

/-- A beat as a micro-op finds and leaves it: the state, the operation, and the beat's elements, its bale and what it has stored, the latest first. -/
structure Beat where
  s : State
  r : VRun
  bale : Option QBale
  ls : List Lane
  wr : Writes := []
  lanes : List (Nat × Word) := []
deriving DecidableEq, Repr

def Lane.slot (l : Lane) (k : Nat) : Word := l.t.getD k 0
def Lane.setSlot (l : Lane) (k : Nat) (v : Word) : Lane := { l with t := listPut l.t k v }

/-- Lane of a vector register (R194). -/
def vLane (s : State) (v lane : Nat) : Word := tabGet 0 s.vec.v (64 * v + lane)

/-- The 64 lanes of a register, and the lanes by which a whole register is written. -/
def vReg (s : State) (v : Nat) : List Word := (List.range 64).map (vLane s v)
def regLanes (v : Nat) (xs : List Word) : List (Nat × Word) := xs.mapIdx (fun i x => (64 * v + i, x))

/-- A source of Table 1. -/
def Beat.src (b : Beat) (l : Lane) (vr code : Nat) : Word :=
  if code < 4 then l.slot code
  else
    match code with
    | 4 => b.r.scal.setWidth 32
    | 5 => (b.r.scal >>> 32).setWidth 32
    | 6 => vLane b.s vr (l.e % 64)
    | 7 => vLane b.s vr (l.row % 64)
    | 9 => f32One
    | _ => 0

/-- Write slot DST of every element. -/
def Beat.mapSlot (b : Beat) (dst : Nat) (f : Lane → Word) : Beat := { b with ls := b.ls.map (fun l => l.setSlot dst (f l)) }

/-- The column is privileged in the run descriptor's bitmap. -/
def RunDesc.priv (rd : RunDesc) (col : Nat) : Bool := rd.pmask.testBit col
/-- Bits of the bitmap below bit n. -/
def RunDesc.privBelow (rd : RunDesc) (n : Nat) : Nat := ((List.range n).filter rd.priv).length

/-- LOAD: what an input supplies for an element (R199). -/
def Beat.load (b : Beat) (w : Word) (l : Lane) : Word :=
  let priv := w.getLsbD 8
  let rd := b.r.rd
  if priv && !rd.priv l.col then 0
  else
    let own := fun v => if priv then Config.privElem l.e v else v
    match rd.ins.getD (uSrc w) .none with
    | .none => 0
    | .mem lay => lay.widen b.s.mem.bytes l.row (if priv then rd.privBelow l.col else l.col)
    | .reg v => own (vLane b.s (v + l.e / 64) (l.e % 64))
    | .bale lay =>
      match b.bale with
      | none => 0
      | some q =>
        let code := q.codes.getD (l.e % 256) 0
        let fmt := bitsOf q.rcd.toNat 29 26
        own (if fmt = 0 then BitVec.ofNat 32 code else widenCode fmt lay.s code)

/-- LUT (R201). -/
def Beat.lut (b : Beat) (w : Word) (l : Lane) : Word :=
  let x := l.slot (uSrc w)
  match bitsOf w.toNat 10 8 with
  | 0 => lutDt1 b.s x
  | 1 => if b.r.rd.priv l.col then lutDt2 b.s (signedOf 5 (bitsOf w.toNat 15 11)) x else f32One
  | 2 => fExp2 x
  | 3 => fRcp x
  | 4 => fRsqrt x
  | _ => fLog2 x

/-- A comparison of CSEL (R203). -/
def cselHolds (cond : Nat) (a b : Word) : Bool :=
  match cond with
  | 0 => fLt a b
  | 1 => fLt a b || fEq a b
  | 2 => fEq a b
  | 3 => !fEq a b
  | 4 => fLt b a || fEq a b
  | 5 => fLt b a
  | _ => f32IsNaN a || f32IsNaN b

/-! Reductions (R204). -/

/-- The starting value of an accumulator, and the folding of a value; OP is 0 SUM, 1 MAX, 2 MAXABS, 3 MIN. -/
def redStart (op : Nat) : Word :=
  match op with
  | 1 => f32NegInf
  | 3 => f32Inf
  | _ => 0
def redOp (op : Nat) (a b : Word) : Word :=
  match op with
  | 0 => fAdd a b
  | 1 => fMax a b
  | 2 => fMax (f32Abs a) (f32Abs b)
  | _ => fMin a b

/-- One level of the lane tree: partials 2i and 2i + 1, an absent one passing the other. -/
def treeLevel (f : Word → Word → Word) : List (Option Word) → List (Option Word)
  | a :: b :: t => (match a, b with
      | some x, some y => some (f x y)
      | some x, none => some x
      | none, y => y) :: treeLevel f t
  | l => l

/-- The lane tree over 64 lanes, in 6 levels. -/
def laneTree (f : Word → Word → Word) (l : List (Option Word)) : Option Word :=
  ((List.range 6).foldl (fun x _ => treeLevel f x) l).head?.join

/-- Values of a beat by lane, those of the elements that p takes. -/
def Beat.byLane (b : Beat) (p : Lane → Bool) (v : Lane → Word) : List (Option Word) :=
  (List.range 64).map (fun i => (b.ls.find? (fun l => decide (l.e % 64 = i) && p l)).map v)

/-- Fold a value into accumulator i of micro-op k. -/
def VRun.fold (r : VRun) (op k i : Nat) (v : Word) : VRun :=
  { r with red := tabMod none r.red (64 * k + i) (fun x => some (redOp op (x.getD (redStart op)) v)) }

/-- RED at micro-op k. -/
def Beat.reduce (b : Beat) (k : Nat) (w : Word) : Beat :=
  let op := bitsOf w.toNat 9 8
  let v := fun (l : Lane) => let x := l.slot (uSrc w); if op = 2 then redOp 2 0 x else x
  if bitsOf w.toNat 11 10 = 2 then
    let rows := (b.ls.map (·.row)).eraseDups
    { b with r := rows.foldl (fun r row =>
        match laneTree (redOp op) (b.byLane (fun l => decide (l.row = row)) v) with
        | some p => r.fold op k (row % 64) p
        | none => r) b.r }
  else { b with r := b.ls.foldl (fun r l => r.fold op k (l.e % 64) (v l)) b.r }

/-- RED results, which are written when the operation retires (R204, R214): of WHOLE the lane tree in lane 0, else every accumulator. -/
def redResults (r : VRun) : List (Nat × Word) :=
  (r.prog.mapIdx (fun k w => (k, w))).flatMap (fun p =>
    let w := p.2
    if uType w = 4 then
      let op := bitsOf w.toNat 9 8
      let acc := (List.range 64).map (fun i => tabGet none r.red (64 * p.1 + i))
      let vr := bitsOf w.toNat 16 12
      if bitsOf w.toNat 11 10 = 0 then
        regLanes vr ((laneTree (redOp op) acc).getD (redStart op) :: List.replicate 63 0)
      else regLanes vr (acc.map (fun x => x.getD (redStart op)))
    else [])

/-! Running statistics (R205, R206). -/

def runRow (s : State) (r : Nat) : RunRow := tabGet {} s.vec.runm r
def setRow (s : State) (r : Nat) (x : RunRow) : State := s.modVec (fun v => { v with runm := tabSet {} v.runm r x })

/-- 2^(a - b) of the exact difference. -/
def exp2Diff (a b : Word) : Word := exp2Fp ((f32 a).add (f32 b).negate)

/-- The correction factor. -/
def phi (p m : Word) : Word := if p = m then f32One else if p = f32NegInf then 0 else exp2Diff p m

/-- p of mode EXP. -/
def expP (x m : Word) : Word := if x = f32NegInf then 0 else exp2Diff x m

/-- What the first element of a row in the operation does (Table 4). -/
def runTouch (mode : Nat) (x : RunRow) : RunRow :=
  match mode with
  | 0 => { x with p := x.m }
  | 1 => let c := phi x.p x.m; { x with c := c, l := fMul x.l c, p := x.m }
  | _ => x

/-- What the elements of a row in one beat do; vs holds their values by lane. -/
def runBeat (mode : Nat) (x : RunRow) (vs : List (Option Word)) : RunRow :=
  let last := (vs.filterMap id).getLast?
  match mode with
  | 0 => { x with m := (vs.filterMap id).foldl fMax x.m }
  | 1 => { x with l := match laneTree fAdd (vs.map (fun v => v.map (fun y => expP y x.m))) with
                       | some p => fAdd x.l p
                       | none => x.l }
  | 6 => { x with m := last.getD x.m, p := last.getD x.p }
  | 7 => { x with l := last.getD x.l }
  | _ => x

/-- What DST takes. -/
def runOut (mode : Nat) (x : RunRow) (v : Word) : Word :=
  match mode with
  | 1 => expP v x.m
  | 2 => x.c
  | 3 => fDiv v x.l
  | 4 => x.m
  | 5 => x.l
  | _ => v

/-- CLR of RUNM acts before the operation's first element (R205). -/
def Beat.clear (b : Beat) (w : Word) : Beat :=
  if w.getLsbD 11 && b.ls.any (fun l => decide (l.e = 0)) then { b with s := b.s.modVec (fun v => { v with runm := [] }) } else b

/-- RUNM: first touches, then the rows' actions, then the slots. -/
def Beat.runm (b : Beat) (w : Word) : Beat :=
  let mode := bitsOf w.toNat 10 8
  let rows := (b.ls.map (fun l => l.row % 256)).eraseDups
  let b1 := rows.foldl (fun (b : Beat) row =>
    let x := runRow b.s row
    let y := if tabGet false b.r.touched row then x else runTouch mode x
    let z := runBeat mode y (b.byLane (fun l => decide (l.row % 256 = row)) (fun l => l.slot (uSrc w)))
    { b with s := setRow b.s row z, r := { b.r with touched := tabSet false b.r.touched row true } }) (b.clear w)
  b1.mapSlot (uDst w) (fun l => runOut mode (runRow b1.s (l.row % 256)) (l.slot (uSrc w)))

/-- STORE of a beat (R208): every element at its position; MX blocks whole. What it writes lands with the beat (R214). -/
def Beat.store (b : Beat) (w : Word) : Beat :=
  let v := fun (l : Lane) => l.slot (uSrc w)
  let e : Emit := { s := b.s, wr := b.wr }
  match b.r.rd.outs.getD (bitsOf w.toNat 8 8) .none with
  | .mem lay =>
    let e' :=
      if lay.isMx then
        let key := fun (l : Lane) => lay.mxAddr l.row l.col
        ((b.ls.map key).eraseDups).foldl (fun t a =>
          let blk := b.ls.filter (fun l => decide (key l = a))
          match blk.head? with
          | none => t
          | some h =>
            let r := if lay.red then h.row / 32 * 32 else h.row
            let c := if lay.red then h.col else h.col / 32 * 32
            putBlock t lay b.r.stepField r c
              ((List.range 32).map (fun i => (blk.find? (fun l => decide (lay.mxElem l.row l.col = i))).map v))) e
      else b.ls.foldl (fun t l =>
        if lay.kind = 0 then putElem t lay b.r.stepField l.row l.col (v l)
        else putCode t lay l.row l.col (toUnsigned lay.width (v l))) e
    { b with s := e'.s, wr := e'.wr }
  | .reg r => { b with lanes := b.lanes ++ b.ls.map (fun l => (64 * (r + l.e / 64) + l.e % 64, v l)) }
  | _ => b

/-- Micro-op k of a program acts on a beat (R197). -/
def Beat.uop (b : Beat) (k : Nat) (w : Word) : Beat :=
  let n := w.toNat
  match uType w with
  | 0 => b.mapSlot (uDst w) (b.load w)
  | 1 =>
    let g := fun l lo => b.src l (bitsOf n 23 19) (bitsOf n (lo + 3) lo)
    b.mapSlot (uDst w) (fun l => (if w.getLsbD 18 then fFnma else fFma) (g l 6) (g l 10) (g l 14))
  | 2 => b.mapSlot (uDst w) (b.lut w)
  | 3 =>
    let g := fun l lo => b.src l (bitsOf n 29 25) (bitsOf n (lo + 3) lo)
    b.mapSlot (uDst w) (fun l => if cselHolds (bitsOf n 24 22) (g l 6) (g l 10) then g l 14 else g l 18)
  | 4 => b.reduce k w
  | 5 => b.runm w
  | 6 => b.mapSlot (uDst w) (fun l =>
      match b.ls.find? (fun x => decide (x.e % 64 = (l.e % 64) ^^^ bitsOf n 13 8)) with
      | some x => x.slot (uSrc w)
      | none => Config.permAbsent l.e)
  | _ => b.store w

/-! Element maps (R211). -/

/-- Row and column of element e; item is the ITEM of the bale that holds it. -/
def RunDesc.place (rd : RunDesc) (item e : Nat) : Nat × Nat :=
  match rd.map with
  | 0 =>
    let t := e / 64
    let w := rd.cols / 8
    (8 * (t / w) + e % 64 / 8, 8 * (t % w) + e % 8)
  | 1 => (e / rd.cols, e % rd.cols)
  | 2 => (16 * (item / rd.nb) + e % 256 / 16, 16 * (item % rd.nb) + e % 16)
  | _ =>
    let t := e / 256
    let blk := e % 256 / 32
    let i := e % 32
    if rd.mxred then
      let w := ceilDiv rd.cols 8
      (32 * (t / w) + i, 8 * (t % w) + blk)
    else
      let w := ceilDiv rd.cols 32
      (8 * (t / w) + blk, 32 * (t % w) + i)

/-! The beat interval (R213). The lines are those of each beat (log entry 5). -/

/-- Bytes that a LOAD reads for the elements of a beat: of a PRIV load only those of privileged elements (R199). -/
def VRun.loads (r : VRun) (ls : List Lane) (w : Word) : List (Nat × Nat) :=
  match uType w, r.rd.ins.getD (uSrc w) .none with
  | 0, .mem l =>
    let priv := w.getLsbD 8
    (ls.filter (fun x => !priv || r.rd.priv x.col)).flatMap (fun x =>
      l.spans x.row (if priv then r.rd.privBelow x.col else x.col))
  | _, _ => []

/-- L_r: 128 B lines that the beat's reads touch. -/
def VRun.lr (r : VRun) (ls : List Lane) : Nat := (unitsIn 128 (r.prog.flatMap (r.loads ls)).eraseDups).length

/-- L_w: lines that the beat writes, one with a codeword written in part twice. -/
def VRun.lw (r : VRun) (ls : List Lane) : Nat :=
  let sp := (r.prog.flatMap (fun w =>
    match uType w, r.rd.outs.getD (bitsOf w.toNat 8 8) .none with
    | 7, .mem l => ls.flatMap (fun x => l.spans x.row x.col)
    | _, _ => [])).eraseDups
  (unitsIn 128 sp).length + (((partCws sp).map (fun cw => cw / 16)).eraseDups).length

/-- The interval without the term of DT2, and that term: a quarter of the privileged elements that a DT2 micro-op evaluates. -/
def VRun.lineTime (r : VRun) (ls : List Lane) : Nat :=
  max 1 (max (ceilDiv r.prog.length 8) (max (ceilDiv (r.lr ls) 2) (ceilDiv (r.lw ls) 2)))
def VRun.dt2Time (r : VRun) (ls : List Lane) : Nat :=
  let luts := (r.prog.filter (fun w => decide (uType w = 2) && decide (bitsOf w.toNat 10 8 = 1))).length
  ceilDiv (luts * (ls.filter (fun l => r.rd.priv l.col)).length) 4

/-! The chain's a-cycles (R214). -/

/-- Elements of the next beat of an operation, at most 64. -/
def VRun.nextLanes (r : VRun) : List Lane :=
  let item := match r.bale with
    | some b => bitsOf b.rcd.toNat 19 8
    | none => 0
  (List.range (min 64 (r.avail - r.done))).map (fun i =>
    let p := r.rd.place item (r.done + i)
    { e := r.done + i, row := p.1, col := p.2, t := [0, 0, 0, 0] })

/-- The operation's next beat may enter on this a-cycle. -/
def VRun.enters (r : VRun) : Bool := decide (r.wait = 0) && decide (r.done < r.avail)

/-- The operation when an a-cycle begins: a beat enters, or its interval runs on. -/
def VRun.enter (r : VRun) : VRun :=
  if r.enters then
    let ls := r.nextLanes
    { r with done := r.done + ls.length, wait := max (r.lineTime ls) (r.dt2Time ls) - 1, beats := r.beats ++ [{ ls := ls, bale := r.bale }] }
  else { r with wait := r.wait - 1 }

/-- What the entering beat of an operation counts: its micro-ops' energy, itself, and the a-cycles that DT2 adds to it. -/
def countBeat (s : State) (r : VRun) : State :=
  if r.enters then
    let ls := r.nextLanes
    progress (spend (s.modVec (fun v => { v with
      beats := v.beats + 1, dt2Extra := v.dt2Extra + BitVec.ofNat 32 (r.dt2Time ls - r.lineTime ls) })) 5 r.prog.length)
  else s

/-- Beats enter the chain. -/
def enterBeats (s : State) : State :=
  let t := s.vec.runs.foldl countBeat s
  t.modVec (fun v => { v with runs := v.runs.map VRun.enter })

/-- The micro-op that a beat meets on this a-cycle; each adds 3. -/
def VBeat.meets (r : VRun) (b : VBeat) : Option (Nat × Word) :=
  if b.age % 3 = 0 then (r.prog[b.age / 3]?).map (fun w => (b.age / 3, w)) else none

/-- The beat's writes land on this a-cycle, 2 after it leaves the chain. -/
def VBeat.lands (r : VRun) (b : VBeat) : Bool := decide (3 * r.prog.length + 2 ≤ b.age)

/-- Bytes that a beat reads on this a-cycle, and those that it writes. -/
def VBeat.reads (r : VRun) (b : VBeat) : List (Nat × Nat) :=
  match b.meets r with
  | some p => (r.loads b.ls p.2).eraseDups
  | none => []
def VBeat.writes (r : VRun) (b : VBeat) : List (Nat × Nat) := if b.lands r then spansOf b.wr else []

/-- Bytes that the chain reads on this a-cycle, and those that it writes. -/
def chainReads (s : State) : List (Nat × Nat) := s.vec.runs.flatMap (fun r => r.beats.flatMap (VBeat.reads r))
def chainWrites (s : State) : List (Nat × Nat) := s.vec.runs.flatMap (fun r => r.beats.flatMap (VBeat.writes r))

/-- Lanes of vector registers are written. -/
def putLanes (s : State) (ls : List (Nat × Word)) : State :=
  if ls = [] then s else s.modVec (fun v => { v with v := ls.foldl (fun m p => tabSet 0 m p.1 p.2) v.v })

/-- A beat at its place in the chain: it meets a micro-op, or it lands and is gone, or it moves on. -/
def beatCycle (x : State × VRun) (b : VBeat) : State × VRun :=
  if b.lands x.2 then (progress (putLanes (memWrJoined x.1 rqVWR b.wr.reverse) b.lanes), x.2)
  else
    match b.meets x.2 with
    | none => (x.1, { x.2 with beats := x.2.beats ++ [{ b with age := b.age + 1 }] })
    | some p =>
      let y := Beat.uop { s := touchSpans x.1 rqVRD (b.reads x.2), r := x.2, bale := b.bale, ls := b.ls, wr := b.wr, lanes := b.lanes } p.1 p.2
      (y.s, { y.r with beats := y.r.beats ++ [{ b with age := b.age + 1, ls := y.ls, wr := y.wr, lanes := y.lanes }] })

/-- The beats of an operation move, oldest first. -/
def runCycle (s : State) (r : VRun) : State :=
  let x := r.beats.foldl beatCycle (s, { r with beats := [] })
  x.1.modVec (fun v => { v with runs := v.runs.map (fun y => if y.id = r.id then x.2 else y) })

/-- Every beat in the chain moves. -/
def moveBeats (s : State) : State := s.vec.runs.foldl runCycle s

/-- One advancing a-cycle of the chain. -/
def chainCycle (s : State) : State := moveBeats (enterBeats s)

/-- a-cycles of the chain. -/
def chainCycles : Nat → State → State
  | 0, s => s
  | n + 1, s => chainCycles n (chainCycle s)

/-! What a command that falls behind the chain's work finds done (log entry 5). -/

def vecRunOf (s : State) (id : Nat) : Option VRun := s.vec.runs.find? (fun r => decide (r.id = id))

/-- The next beats of an operation enter, at most this many, each after its interval. -/
def enterRun (id : Nat) : Nat → State → State
  | 0, s => s
  | k + 1, s =>
    match vecRunOf s id with
    | none => s
    | some r => if r.done < r.avail then enterRun id k (chainCycles (r.wait + 1) s) else s

/-- Every beat of an operation that its source lets enter has entered. -/
def forceEntry (s : State) (id : Nat) : State :=
  match vecRunOf s id with
  | none => s
  | some r => enterRun id (ceilDiv (r.avail - r.done) 64) s

/-- Every operation's beats have entered. -/
def forceAll (s : State) : State := s.vec.runs.foldl (fun t r => forceEntry t r.id) s

/-- The operation's beats have landed, its RED results are written, and it has left the chain (R214). -/
def endRun (s : State) (id : Nat) : State :=
  match vecRunOf s id with
  | none => s
  | some r =>
    let t := chainCycles (3 * r.prog.length + 2) (forceEntry s id)
    putLanes (t.modVec (fun v => { v with runs := v.runs.filter (fun x => decide (x.id ≠ id)) }))
      (((vecRunOf t id).map redResults).getD [])

/-! Run descriptors (R209, R210, Table 5). -/

/-- Address of a layout descriptor that the vector engine can read: aligned, in what 07 Table 2 opens to its reads (07 R174, R176). -/
def vldescAt (s : State) (a : Nat) : Bool := decide (a % 32 = 0) && permits s [pDATA, pSTASH] a 32

/-- What an operand word names; an operand of memory or bale has its descriptor read. None when the descriptor is reserved. -/
def operandOf (s : State) (w : Nat) : Option VOperand :=
  match bitsOf w 1 0 with
  | 0 => some .none
  | 1 => (readLayout s (bitsOf w 28 8)).map .mem
  | 2 => (readLayout s (bitsOf w 28 8)).map .bale
  | _ => some (.reg (bitsOf w 6 2))

/-- Word i of the descriptor at an address. -/
def rdWord (s : State) (a i : Nat) : Nat := mWord s (a + 4 * i)

/-- Bytes of the privileged-column bitmap: 16 columns for each of NB blocks under BALE, else the columns of the space. -/
def pmaskLen (s : State) (a : Nat) : Nat :=
  if bitsOf (rdWord s a 6) 1 0 = 2 then 2 * bitsOf (rdWord s a 6) 31 16 else ceilDiv (bitsOf (rdWord s a 7) 31 16 + 1) 8

/-- Layout descriptors that a run descriptor names. -/
def runLdescs (s : State) (a : Nat) : List Nat :=
  ((List.range 5).map (fun i => (i, rdWord s a i))).filterMap (fun p =>
    if bitsOf p.2 1 0 = 1 ∨ (bitsOf p.2 1 0 = 2 ∧ p.1 < 3) then some (bitsOf p.2 28 8) else none)

/-- The bitmap that a run descriptor names, as a span. -/
def runPmask (s : State) (a : Nat) : List (Nat × Nat) :=
  if (rdWord s a 8).testBit 31 then [(bitsOf (rdWord s a 8) 20 0, pmaskLen s a)] else []

/-- Addresses that the engine must read lie where they must: the run descriptor first, in DATA, then what it names, in DATA or STASH (R216, R434; Table 5; 07 R174). -/
def runAddrs (s : State) (a : Nat) : Bool :=
  dataAt s a 64 64 && (runLdescs s a).all (vldescAt s) && permitsAll s [pDATA, pSTASH] (runPmask s a)

/-- The descriptor latched (R209). -/
def runDescOf (s : State) (a count : Nat) : RunDesc :=
  { ins := (List.range 3).map (fun i => (operandOf s (rdWord s a i)).getD .none)
    outs := (List.range 2).map (fun i => (operandOf s (rdWord s a (3 + i))).getD .none)
    count := count
    map := bitsOf (rdWord s a 6) 1 0
    mxred := (rdWord s a 6).testBit 2
    nb := bitsOf (rdWord s a 6) 31 16
    rows := bitsOf (rdWord s a 7) 15 0 + 1
    cols := bitsOf (rdWord s a 7) 31 16 + 1
    pmaskV := (rdWord s a 8).testBit 31
    pmask := if (rdWord s a 8).testBit 31 then mNat s (bitsOf (rdWord s a 8) 20 0) (pmaskLen s a) else 0 }

/-- Reserved bits and codes of the run descriptor and of the layout descriptors that it names; NB 0 under BALE is reserved (log entry 39). -/
def runDescResv (s : State) (a : Nat) : Bool :=
  let w := rdWord s a
  (List.range 5).any (fun i => decide (bitsOf (w i) 7 7 ≠ 0) || decide (bitsOf (w i) 31 29 ≠ 0) || (operandOf s (w i)).isNone) ||
    decide (bitsOf (w 3) 1 0 = 2) || decide (bitsOf (w 4) 1 0 = 2) || decide (bitsOf (w 6) 15 3 ≠ 0) ||
    (decide (bitsOf (w 6) 1 0 = 2) && decide (bitsOf (w 6) 31 16 = 0)) || decide (bitsOf (w 8) 30 21 ≠ 0) ||
    (List.range 7).any (fun i => decide (w (9 + i) ≠ 0))

def VOperand.isNone : VOperand → Bool
  | .none => true
  | _ => false
def VOperand.isBale : VOperand → Bool
  | .bale _ => true
  | _ => false
def VOperand.isMx : VOperand → Bool
  | .mem l => l.isMx
  | _ => false
/-- A register range beyond v31. -/
def VOperand.over (o : VOperand) (count : Nat) : Bool :=
  match o with
  | .reg v => decide (32 < v + ceilDiv count 64)
  | _ => false

/-- Micro-ops of one kind with the input or output they name. -/
def namesOf (prog : List Word) (ty : Nat) : List Nat :=
  (prog.filter (fun w => decide (uType w = ty))).map (fun w => if ty = 0 then uSrc w else bitsOf w.toNat 8 8)

/-- A micro-op breaks the wiring rules at its place: its input or output is none, or the program named it before (Table 7, WIRING). -/
def uopWiring (rd : RunDesc) (prog : List Word) (k : Nat) (w : Word) : Bool :=
  let before := prog.take k
  match uType w with
  | 0 => (rd.ins.getD (uSrc w) .none).isNone || (namesOf before 0).contains (uSrc w)
  | 7 => (rd.outs.getD (bitsOf w.toNat 8 8) .none).isNone || (namesOf before 7).contains (bitsOf w.toNat 8 8)
  | 5 => before.any (fun x => decide (uType x = 5))
  | _ => false

/-- A micro-op reads a table that is not valid (Table 7, TABLE). -/
def uopTable (s : State) (w : Word) : Bool :=
  decide (uType w = 2) && ((decide (bitsOf w.toNat 10 8 = 0) && !dt1V s) || (decide (bitsOf w.toNat 10 8 = 1) && !dt2V s))

/-- Conditions of cause MAP. -/
def mapBad (rd : RunDesc) : Bool :=
  let bale := (rd.ins.getD 0 .none).isBale
  (decide (rd.map = 2) != bale) || (decide (rd.map = 2) && decide (rd.count % 256 ≠ 0)) ||
    (decide (rd.map ≠ 2) && decide (rd.rows * rd.cols < rd.count)) ||
    (decide (rd.map = 0) && (decide (rd.rows % 8 ≠ 0) || decide (rd.cols % 8 ≠ 0))) ||
    (decide (rd.map ≠ 3) && (rd.ins ++ rd.outs).any VOperand.isMx)

/-- Conditions of cause CLASS for an output. -/
def outClassBad : VOperand → Bool
  | .mem l => decide (l.kind = 0) && (decide (l.cls = 4) || decide (l.cls = 5) || decide (l.cls = 7))
  | _ => false

/-- An operand's extents lie outside its partitions. -/
def VOperand.outside (s : State) (ps : List Nat) : VOperand → Bool
  | .mem l => !inParts s ps l
  | _ => false

/-- First micro-op for which a condition holds. -/
def firstUop (prog : List Word) (p : Nat → Word → Bool) : Nat := ((prog.mapIdx (fun k w => p k w)).findIdx? id).getD 0

/-- Checks of Table 7 for a chain operation: cause and failing micro-op, or 0 (R216, R434). resv is the RESV condition of the issue, bad that of PROGRAM. -/
def runCause (s : State) (a count : Nat) (progAt : Bool) (prog : List Word) (resv bad : Bool) : Nat × Nat :=
  if !progAt || !runAddrs s a then (8, 0)
  else
    let rd := runDescOf s a count
    let wiring := fun k w => uopWiring rd prog k w
    let cause := lowest
      [(resv || runDescResv s a || prog.any uopResv, 1), (bad, 2),
       ((prog.mapIdx wiring).any id || (rd.ins.drop 1).any VOperand.isBale, 3),
       (prog.any (uopTable s), 4), (mapBad rd, 5), ((rd.ins ++ rd.outs).any (fun o => o.over count), 6),
       (rd.outs.any outClassBad, 7),
       (rd.ins.any (VOperand.outside s [pDATA, pSTASH]) || rd.outs.any (VOperand.outside s [pDATA]), 8)]
    (cause, match cause with
      | 1 => firstUop prog (fun _ w => uopResv w)
      | 3 => firstUop prog wiring
      | 4 => firstUop prog (fun _ w => uopTable s w)
      | _ => 0)

end Sys2Proof.Machine
end

