-- ==== Sys2Proof/Machine/VecOps.lean ====
section
/-! DEFINITION. The vector engine's operations: chains, reads of the bale queue and register operations (08 R209 to R216; 06 R160). -/

namespace Sys2Proof.Machine

/-- VEC_DERR keeps the first failure. -/
def vecDerr (s : State) (addr : Dword) (cause fn preset uop : Nat) : State :=
  s.modVec (fun v => if v.derr then v else
    { v with derr := true, derrAddr := addr.setWidth 21, derrCause := BitVec.ofNat 4 cause, derrFn := BitVec.ofNat 4 fn
             derrPreset := BitVec.ofNat 4 preset, derrUop := BitVec.ofNat 4 uop })

def vecFault (cause : Nat) : Nat := if cause = 8 then fcBOUNDS else fcILLEGAL

/-- A VEC operation fails a check of Table 7; of a PROG, A is the address recorded (Table 10). -/
def vecFail (s : State) (ent : QEntry) (fn cause uop : Nat) : State :=
  let addr := if fn = 1 then ent.a else ent.d
  dispatchFail (vecDerr s addr cause fn (if fn = 0 then ent.sub.toNat % 16 else 0) uop) eVEC ent (vecFault cause)
    (addr.setWidth 21) cause

/-- SERIAL = 1: every earlier VEC operation has retired (R215). -/
def vecSerial (s : State) (ent : QEntry) : Bool := !ent.fs.getLsbD 17 || (qOf s eVEC).infl.isEmpty

/-- RUN and PROG operations in flight. -/
def chainInfl (s : State) : Nat := ((qOf s eVEC).infl.filter (fun i => decide (i.ent.fn.toNat < 2))).length

/-- A chain operation is accepted: the one before has every bale that it reads, so that its last beat is in the chain, and fewer than 4 are in flight (R215). -/
def chainFree (s : State) (ent : QEntry) : Bool :=
  vecSerial s ent && s.vec.runs.all (fun r => decide (r.avail = r.rd.count)) && decide (chainInfl s < 4)

/-- Memory operands of an operation. -/
def RunDesc.mems (rd : RunDesc) : List Layout :=
  (rd.ins ++ rd.outs).filterMap (fun o => match o with
    | .mem l => some l
    | _ => none)

/-- Bytes that the operation's inputs and outputs take. -/
def RunDesc.spans (rd : RunDesc) : List (Nat × Nat) := rd.mems.flatMap Layout.extents

/-- Operands of a chain operation: its run descriptor's address and element count, where its program lies and what it is. -/
structure ChainSrc where
  addr : Nat
  count : Nat
  progAt : Bool
  progMem : List (Nat × Nat)
  prog : List Word
deriving DecidableEq, Repr

/-- What the engine reads at dispatch, of that which lies where it must: of a PROG its words, the run descriptor, the layout descriptors that it names, and the bitmap (R209). -/
def runReads (s : State) (x : ChainSrc) : List (Nat × Nat) :=
  (if x.progAt then x.progMem else []) ++
    (if dataAt s x.addr 64 64 then
      (x.addr, 64) :: (((runLdescs s x.addr).filter (vldescAt s)).map (fun a => (a, 32)) ++
        (runPmask s x.addr).filter (fun p => permits s [pDATA, pSTASH] p.1 p.2))
    else [])

/-- The spans that a chain operation waits for at its dispatch: its reads, and those of the operations before it whose beats must have entered. -/
def chainSpans (s : State) (x : ChainSrc) : List (Nat × Nat) :=
  runReads s x ++ (s.vec.runs.filter (fun r => decide (r.done < r.avail))).flatMap (fun r => r.rd.spans)

/-- A chain operation as it enters: first is the a-cycles to its first beat less 1 (R214). Without a bale input all its elements may enter. -/
def newRun (s : State) (ent : QEntry) (prog : List Word) (rd : RunDesc) (first : Nat) : VRun :=
  { id := s.opId, prog := prog, rd := rd, scal := ent.b, done := 0, avail := if (rd.ins.getD 0 .none).isBale then 0 else rd.count
    wait := first, red := [], touched := [], stepField := stepField s ent.ctx }

/-- A chain operation begins. It may retire once its source lets its last beat enter; a count of 0 does nothing (R209). -/
def startRun (s : State) (ent : QEntry) (prog : List Word) (rd : RunDesc) (first : Nat) : State :=
  let r := newRun s ent prog rd first
  let t := putInfl s eVEC ent none (decide (r.avail = rd.count))
  if rd.count = 0 then t else t.modVec (fun v => { v with runs := v.runs ++ [r] })

/-- A chain operation at dispatch. The first beat of a RUN enters 8 a-cycles later, that of a PROG 9 (R214). -/
def chainOp (s : State) (fn : Nat) (src : State → QEntry → ChainSrc) (resv bad : State → QEntry → Bool) : Res :=
  dispatchMem s eVEC fn (chainFree s) rqVRD (fun ent => chainSpans s (src s ent)) (fun ent s0 =>
    let s1 := forceAll s0
    let x := src s1 ent
    let t := touchSpans s1 rqVRD (runReads s1 x)
    let c := runCause t x.addr x.count x.progAt x.prog (resv t ent) (bad t ent)
    if c.1 ≠ 0 then vecFail t ent fn c.1 c.2
    else startRun t ent x.prog (runDescOf t x.addr x.count) (7 + fn))

/-- VEC.RUN: a chain preset (R209). -/
def execVecRun (s : State) : Res :=
  let p := fun (ent : QEntry) => ent.sub.toNat % 16
  chainOp s 0 (fun t ent => ⟨ent.d.toNat, ent.a.toNat % 2 ^ 32, true, [], presetWords t (p ent)⟩)
    (fun _ ent => decide (16 ≤ ent.sub.toNat) || decide (bitsOf ent.fs.toNat 16 0 ≠ 0))
    (fun t ent => !presetOn t (p ent) || decide (stagesOf t (p ent) = 0) || decide (8 < stagesOf t (p ent)))

/-- Words of a PROG, at most 16. -/
def progLen (ent : QEntry) : Nat := bitsOf ent.fs.toNat 4 0

/-- The operands of VEC.PROG. -/
def progSrc (t : State) (ent : QEntry) : ChainSrc :=
  let n := min (progLen ent) 16
  ⟨ent.a.toNat, if dataAt t ent.a.toNat 64 64 then rdWord t ent.a.toNat 5 else 0, dataAt t ent.d.toNat 64 (4 * n), [(ent.d.toNat, 4 * n)],
   (List.range n).map (fun i => BitVec.ofNat 32 (rdWord t ent.d.toNat i))⟩

/-- VEC.PROG: an element program from memory (R209). -/
def execVecProg (s : State) : Res :=
  chainOp s 1 progSrc (fun _ ent => decide (ent.sub ≠ 0) || decide (bitsOf ent.fs.toNat 16 5 ≠ 0))
    (fun _ ent => decide (progLen ent = 0) || decide (16 < progLen ent))

/-- The operation that reads bales and has not read all of them. -/
def baleRun (s : State) : Option VRun := s.vec.runs.find? (fun r => decide (r.avail < r.rd.count))

/-- A beat waits for a bale: its operation's interval is over, and the queue presents none (R214, R218). -/
def baleWaits (s : State) : Bool :=
  (baleRun s).any (fun r => decide (r.avail ≤ r.done) && decide (r.wait = 0)) && (presented s).isNone

/-- Operation id takes a bale: its 256 elements may enter, and after its last bale it may retire. -/
def giveBale (s : State) (id : Nat) (q : QBale) : State :=
  let t := s.modVec (fun v => { v with runs := v.runs.map (fun r =>
    if r.id = id then { r with avail := r.avail + 256, bale := some q } else r) })
  if (baleRun t).any (fun r => decide (r.id = id)) then t else markDone t eVEC id

/-- BALE_READ: the operation that waits for bales reads the presented one, whose entry is freed, once the beats of the one before have entered (06 R160). -/
def execBaleRead (s : State) : Res :=
  match baleRun s, presented s with
  | some r, some q =>
    whenMem (unitsOn s) rqVRD r.rd.spans s (progress (unstall (giveBale (popBale (forceEntry s r.id) q) r.id q)))
  | _, _ => .next s

/-! Register operations (R212). -/

/-- Destination register, and the sources va and vb of a control value. -/
def rVd (ent : QEntry) : Nat := ent.sub.toNat % 32
def rVa (ent : QEntry) : Nat := bitsOf ent.a.toNat 4 0
def rVb (ent : QEntry) : Nat := bitsOf ent.a.toNat 9 5

/-- What a register operation does: the state that its reading and observing leave, and the writings and lanes that come with its retirement. -/
structure RegAct where
  s : State
  wr : Writes := []
  lanes : List (Nat × Word) := []
deriving DecidableEq, Repr

/-- A register operation: the spans that it accesses, whether its check reads them, its cause, what it does, and the writeback of RDS. -/
def regOp (s : State) (fn : Nat) (fsHi fsLo : Nat) (acc : QEntry → List (Nat × Nat)) (seen : Bool) (cause : State → QEntry → Nat)
    (act : State → QEntry → RegAct) (wb : State → QEntry → Option Dword) : Res :=
  dispatchMem s eVEC fn (fun ent => vecSerial s ent) rqVRD acc (fun ent s0 =>
    let t := if seen then touchSpans s0 rqVRD (acc ent) else s0
    let resv := decide (32 ≤ ent.sub.toNat) || decide (bitsOf ent.fs.toNat fsHi fsLo ≠ 0)
    let c := cause t ent
    let k := if c = 8 ∧ (fn = 2 ∨ fn = 4 ∨ fn = 5) then 8 else if resv then 1 else c
    if k ≠ 0 then vecFail t ent fn k 0
    else
      let x := act (putInfl t eVEC ent (wb t ent) false) ent
      finishWith x.s eVEC t.opId (if x.wr = [] then [] else [x.wr]) x.lanes)

/-- VEC.PERM: lanes of va and vb by an index vector. -/
def execVecPerm (s : State) : Res :=
  regOp s 2 16 0 (fun ent => [(ent.d.toNat, 64)]) false (fun t ent => if dataAt t ent.d.toNat 64 64 then 0 else 8)
    (fun t ent =>
      let both := vReg t (rVa ent) ++ vReg t (rVb ent)
      let idx := memBytes t.mem.bytes ent.d.toNat 64
      { s := touchRead t rqVRD ent.d.toNat 64
        lanes := regLanes (rVd ent) (idx.map (fun b => if b.getLsbD 7 then 0 else both.getD (b.toNat % 128) 0)) })
    (fun _ _ => none)

/-- Lane i of a shuffle of a and b. -/
def shufLane (pat amount : Nat) (a b : List Word) (i : Nat) : Word :=
  let g := fun (l : List Word) k => l.getD k 0
  match pat with
  | 0 => g (if i % 2 = 0 then a else b) (i / 2)
  | 1 => g (if i % 2 = 0 then a else b) (i / 2 + 32)
  | 2 => if i < 32 then g a (2 * i) else g b (2 * (i - 32))
  | 3 => if i < 32 then g a (2 * i + 1) else g b (2 * (i - 32) + 1)
  | 4 => g a ((i + amount) % 64)
  | 5 => g a (63 - i)
  | _ => g a (8 * (i % 8) + i / 8)

/-- VEC.SHUF: a fixed pattern. -/
def execVecShuf (s : State) : Res :=
  regOp s 3 16 0 (fun _ => []) false (fun _ ent => if 6 < bitsOf ent.a.toNat 13 10 then 1 else 0)
    (fun t ent => { s := t, lanes := regLanes (rVd ent) ((List.range 64).map
      (shufLane (bitsOf ent.a.toNat 13 10) (bitsOf ent.a.toNat 19 14) (vReg t (rVa ent)) (vReg t (rVb ent)))) })
    (fun _ _ => none)

/-- Registers that PACK reads and UNPK writes. -/
def packM (l : Layout) : Nat := 32 / l.width

/-- What the check of PACK and UNPK reads: the layout descriptor, where it lies right. -/
def packReads (s : State) (ent : QEntry) : List (Nat × Nat) := if vldescAt s ent.d.toNat then [(ent.d.toNat, 32)] else []

/-- Cause of PACK and UNPK; first is the first register of the range. -/
def packCause (s : State) (ent : QEntry) (first : Nat) : Nat :=
  if !vldescAt s ent.d.toNat then 8
  else
    match readLayout s ent.d.toNat with
    | none => 1
    | some l => lowest [(decide (32 < first + packM l), 6), (l.isMx || decide (l.kind ≠ 0), 7)]

/-- VEC.PACK: register values narrowed and packed; element j has index IDX_BASE + K0 + j. -/
def execVecPack (s : State) : Res :=
  regOp s 4 16 0 (packReads s) true (fun t ent => packCause t ent (rVa ent)) (fun t ent =>
    match readLayout t ent.d.toNat with
    | none => { s := t }
    | some l =>
      let step := stepField t ent.ctx
      let vals := (List.range (packM l)).flatMap (fun i => vReg t (rVa ent + i))
      let ns := vals.mapIdx (fun j v =>
        narrowCode l.fmt l.s (roundingOf l.sr (rndOf t l step) ((l.idxBase + bitsOf ent.a.toNat 63 16 + j) % 2 ^ 48)) v)
      let bytes := ns.flatMap (fun n => codeBytes l.width n.code)
      { s := observe t l.tensor l.fmt (List.zipWith (fun v (n : Narrowed) => ⟨v, n.sat, n.toInf⟩) vals ns)
        lanes := regLanes (rVd ent) ((List.range 64).map (fun i => BitVec.ofNat 32 (leNat ((bytes.drop (4 * i)).take 4)))) })
    (fun _ _ => none)

/-- VEC.UNPK: the 256 B of a register unpacked and widened. -/
def execVecUnpk (s : State) : Res :=
  regOp s 5 16 0 (packReads s) true (fun t ent => packCause t ent (rVd ent)) (fun t ent =>
    match readLayout t ent.d.toNat with
    | none => { s := t }
    | some l =>
      let bytes := (vReg t (rVa ent)).flatMap (fun w => leBytes 4 w)
      let k := l.width / 8
      let val := fun j => widenCode l.fmt l.s (leNat ((bytes.drop (k * j)).take k))
      { s := t
        lanes := (List.range (packM l)).flatMap (fun i => regLanes (rVd ent + i) ((List.range 64).map (fun c => val (64 * i + c)))) })
    (fun _ _ => none)

/-- Address of VLD and VST: bits 4 to 0 of D are ignored. -/
def vldAddr (ent : QEntry) : Nat := ent.d.toNat / 32 * 32

/-- VEC.VLD: 256 B of DATA or STASH into a register. -/
def execVecVld (s : State) : Res :=
  regOp s 6 16 0 (fun ent => [(vldAddr ent, 256)]) false (fun t ent => if permits t [pDATA, pSTASH] (vldAddr ent) 256 then 0 else 8)
    (fun t ent =>
      let u := touchRead t rqVRD (vldAddr ent) 256
      { s := u, lanes := regLanes (rVd ent) ((List.range 64).map (fun i => BitVec.ofNat 32 (mWord u (vldAddr ent + 4 * i)))) })
    (fun _ _ => none)

/-- VEC.VST: a register into 256 B of DATA. -/
def execVecVst (s : State) : Res :=
  regOp s 7 16 0 (fun ent => [(vldAddr ent, 256)]) false (fun t ent => if permits t [pDATA] (vldAddr ent) 256 then 0 else 8)
    (fun t ent => { s := t, wr := [(vldAddr ent, (vReg t (rVd ent)).flatMap (fun w => leBytes 4 w))] })
    (fun _ _ => none)

/-- VEC.BCST: A[31:0] into the groups of 4 lanes that FS[15:0] names. -/
def execVecBcst (s : State) : Res :=
  regOp s 8 16 16 (fun _ => []) false (fun _ _ => 0)
    (fun t ent => { s := t, lanes := (regLanes (rVd ent) (List.replicate 64 (ent.a.setWidth 32))).filter (fun p => ent.fs.getLsbD (p.1 % 64 / 4)) })
    (fun _ _ => none)

/-- Result of RDS. -/
def rdsVal (s : State) (ent : QEntry) : Word :=
  let xs := vReg s (rVd ent)
  let f := fun op => (laneTree (redOp op) (xs.map some)).getD 0
  match bitsOf ent.fs.toNat 3 0 with
  | 0 => f 0
  | 1 => f 1
  | 2 => f 3
  | 3 => f 2
  | 4 => xs.getD (bitsOf ent.fs.toNat 9 4) 0
  | _ => xs.foldl (fun a b => a ||| b) 0

/-- VEC.RDS: a register reduced into a scalar writeback. -/
def execVecRds (s : State) : Res :=
  regOp s 9 16 10 (fun _ => []) false (fun _ ent => if 5 < bitsOf ent.fs.toNat 3 0 then 1 else 0) (fun t _ => { s := t })
    (fun t ent => some ((rdsVal t ent).setWidth 64))

end Sys2Proof.Machine
end

