-- ==== Sys2Proof/Machine/Weigher.lean ====
section
/-! DEFINITION. Weigher functions: dispatch of WGH operations (04 R121, Table 4). One operation at a time. -/

namespace Sys2Proof.Machine

/-- The weighers accept an operation once the previous one has retired. -/
def wghFree (s : State) : Bool := (qOf s eWGH).infl.isEmpty

/-- A function that writes D. -/
def wghResult (s : State) (fn : Nat) (v : QEntry → State → Nat) : Res :=
  dispatch s eWGH fn (fun _ => wghFree s) (fun ent t => putInfl t eWGH ent (some (BitVec.ofNat 64 (v ent t))) true)

/-- READ: AMAX, s, fill and format of weigher A[3:0]. -/
def execWghRead (s : State) : Res :=
  wghResult s 0 (fun ent t =>
    let x := tabGet ({} : Weigher) t.wgh.w (ent.a.toNat % 16)
    x.acc.amax.toNat + 2 ^ 32 * x.s.toNat + 2 ^ 40 * x.fill.toNat + 2 ^ 48 * x.acc.fmt.toNat)

/-- STEP dispatches: what is observed from now on belongs to the next step, and it takes the token latched since the previous STEP (R117, R118). Its effect comes at its retirement. -/
def execWghStep (s : State) : Res :=
  dispatch s eWGH 1 (fun _ => wghFree s) (fun ent t =>
    (putInfl t eWGH ent none true).modWgh (fun w =>
      { w with stepping := true, acc2 := [], stepTok := w.tok, stepTokNf := w.tokNf, tok := false, tokNf := false }))

/-- LSREAD: the loss scale. -/
def execWghLsread (s : State) : Res :=
  wghResult s 2 (fun _ t =>
    let w := t.wgh
    w.l.toNat + 2 ^ 8 * w.good.toNat + (if w.lsdown then 2 ^ 24 else 0) + (if w.notoken then 2 ^ 25 else 0) +
      (if lsDyn t then 2 ^ 26 else 0))

/-- FLAGS: the sticky flags. -/
def execWghFlags (s : State) : Res := wghResult s 3 (fun _ t => wghFlags t.wgh)

/-- CLR: clears the flags of mask A. -/
def execWghClr (s : State) : Res :=
  dispatch s eWGH 4 (fun _ => wghFree s) (fun ent t =>
    (putInfl t eWGH ent none true).modWgh (fun w => wghClear w ent.a))

end Sys2Proof.Machine
end

