-- ==== Sys2Proof/Machine/Retire.lean ====
section
/-! DEFINITION. Retirement of engine operations, and the watchman (03 R84, R85; 12 R284, R302 to R304; 16 R389). -/

namespace Sys2Proof.Machine

/-- What an operation of engine e does as it retires. A contained fault abandons a WGH.STEP in flight, and every other operation in flight completes (16 R389, log entry 49). -/
def retireEffect (s : State) (e : Nat) (x : Infl) : State :=
  if e = eWGH ∧ x.ent.fn = 1 then
    if s.wgh.stepping then (wghStepDone s).modJrnl (fun j => { j with wstep := true }) else s
  else if e = eFAC ∧ (x.ent.fn = 0 ∨ x.ent.fn = 4) then
    facRetire s x
  else if e = eVEC then s.modVec (fun v => { v with ops := v.ops + 1 })
  else s

/-- The scalar writeback of an operation (03 R85). -/
def writeback (s : State) (x : Infl) : State :=
  match x.wb with
  | none => s
  | some v => wrReg s x.ent.ctx x.ent.dreg v

/-- Requester that carries an engine's last writes. -/
def rqOf (e : Nat) : Nat := if e = eVEC then rqVWR else if e = eFAC then rqFAC else rqSTH

/-- The last writes of an operation land: in local memory, with their FOUT units, and in vector registers (03 R98; 08 R217; 11 R270). A RUN or PROG has its beats behind it, and its RED results are written (08 R214). -/
def landLast (s : State) (e : Nat) (x : Infl) : State :=
  let s1 := if e = eVEC then endRun s x.id else s
  putLanes (x.units.foldl (fun u p => creditArr u 3 p.1 p.2) (x.wr.foldl (fun u ws => memWrJoined u (rqOf e) ws) s1)) x.lanes

/-- Where its last writes go. -/
def Infl.spans (x : Infl) : List (Nat × Nat) := x.wr.flatten.map (fun w => (w.1, w.2.length))

/-- The spans for which a retirement of engine e waits: its last writes, and of a RUN or PROG its operands while beats are to come or to land. -/
def lastSpans (s : State) (e : Nat) (x : Infl) : List (Nat × Nat) :=
  x.spans ++ (if e = eVEC then ((vecRunOf s x.id).map (fun r => r.rd.spans)).getD [] else [])

/-- What a retirement makes of the watchman's count: a progress event of every engine but the post engine (12 Table 6). -/
def retireProgress (s : State) (e : Nat) : State := if e = ePST then s else progress s

/-- Operation i in flight of engine e retires. -/
def retire (s : State) (e i : Nat) (x : Infl) : State :=
  let t := retireEffect (writeback (landLast (modQ s e (fun q => { q with infl := listDrop q.infl i })) e x) x) e x
  retireProgress (if x.mute then t else signalMany t (srcOf e) x.ent.sv.toList) e

/-- Every contributor of a caravan retires, and the SID signals come in join order (06 R165). -/
def retireCar (s : State) (car : Nat) : State :=
  let xs := (qOf s eARR).infl.filter (fun x => decide (x.car = some car))
  progress (signalMany (modQ s eARR (fun q => { q with infl := q.infl.filter (fun x => decide (x.car ≠ some car)) }))
    (srcOf eARR) (xs.filterMap (fun x => x.ent.sv)))

/-- A RUN or PROG leaves the chain behind every earlier one (08 R215). -/
def inOrder (s : State) (e i : Nat) (x : Infl) : Bool :=
  !(decide (e = eVEC) && decide (x.ent.fn.toNat < 2) && ((qOf s e).infl.take i).any (fun y => decide (y.ent.fn.toNat < 2)))

/-- ENGINE_RETIRE: a finished operation retires: its last writes, its writeback, its effect, and its SID signal. -/
def execEngineRetire (q : BitVec 3) (i : Nat) (s : State) : Res :=
  match (qOf s q.toNat).infl[i]? with
  | none => .next s
  | some x =>
    whenMem (unitsOn s && x.done && inOrder s q.toNat i x) (rqOf q.toNat) (lastSpans s q.toNat x) s
      (if q = 0 then
        match x.car with
        | some c => retireCar s c
        | none => retire s 0 i x
       else retire s q.toNat i x)

/-! The watchman (12 R302 to R304). -/

/-- The count holds its value (R303): sync wait, in which SYNC_ARR stands from a core reset on too (17 R423), hold, no live manifest, a debug halt, or threshold 0. -/
def wmHeld (s : State) : Bool :=
  decide (s.core.phase = 1) || s.core.syncArr || s.man.hold || !s.man.isLive || s.dbg.halted || decide (s.syn.wmThresh = 0)

/-- Threshold in force: values from 1 to 0xFFF act as 0x1000. -/
def wmLimit (s : State) : Nat := max s.syn.wmThresh.toNat 0x1000

/-- How the control core stalls (SYN_WM_SNAP_CCK). -/
def stallKind (s : State) : BitVec 3 :=
  match s.core.mode with
  | .wait _ => 0
  | .few _ _ => 1
  | .fer _ _ => 2
  | .fence _ => 3
  | .full _ => 4
  | .sync _ => 5
  | _ => Config.snapRunning s.free

/-- SYN_WM_SNAP and the counts of a firing. -/
def wmSnap (s : State) : State :=
  let w := watchOf s 7
  let full := s.pst.msgs.any (fun (m : PstMsg) => decide (m.st = MsgSt.retry))
  let t : State := { s with free := s.free + 1 }
  t.modSyn (fun y => { y with
    snapObj := if w.active then w.obj else 0
    snapCcw := w.active
    snapCck := stallKind s
    snapQw := BitVec.ofNat 7 ((List.range 7).foldl (fun m k => if (watchOf s k).active then m + 2 ^ k else m) 0)
    snapPst := full
    dlock := true
    wmFires := y.wmFires + 1
    wmPdrop := y.wmPdrop + BitVec.ofNat 32 s.pst.msgs.length })

/-- Steps 2 to 5 of R304: watches, queues, operations in flight and held messages go, without takes, writes or signals. -/
def wmAbandon (s : State) : State :=
  let t := dropWants ((List.range 8).foldl dropWatch { s with q := [] }) (fun _ => true)
  let own := fun (j : StrJob) => decide (j.user = .jrnl)
  sthSettle (abandonStep (((((t.modArr (fun a => { a with ops := [], bufs := [], bq := [], relPos := a.nextPos })).modVec
    (fun v => { v with runs := [] })).modStr (fun x => { x with jobs := x.jobs.filter own })).modSth (fun h => { h with rd := none })).modFac
    (fun f => { f with sched := [], committing := none })) |>.modPst (fun x => { x with msgs := [] }))

/-- Step 6 of R304: the control core stops at its stalled instruction; a SYNC that has not arrived is one, and what it wrote is as it was. -/
def wmStop (s : State) : State :=
  match s.core.mode with
  | .idle => s
  | .sync _ =>
    let p := s.core.preSync
    let t := modCtx s s.core.cur (fun x => { x with pc := x.pc - 4, atSync := false, zone := p.zone })
    stopCore (t.modCore (fun k => { k with next := (p.sw.map (·.1)).getD k.next, switch := (p.sw.map (·.2)).getD k.switch }))
  | _ => stopCore s

/-- WATCHMAN_FIRE: DEADLOCK is recorded, all waiting work is abandoned, and the tile arrives as after a contained fault. It acts when the count has reached the threshold. -/
def execWatchmanFire (s : State) : Res :=
  whenOn (unitsOn s && !wmHeld s && decide (wmLimit s ≤ s.syn.wmCount.toNat)) s (progress (wmStop (wmAbandon (raise (wmSnap s) fcDEADLOCK 9 0 0))))

end Sys2Proof.Machine
end

