-- ==== Sys2Proof/Machine/Faults.lean ====
section
/-! DEFINITION. The fault unit's commands and fatal faults (16 R391 to R399). -/

namespace Sys2Proof.Machine

/-- FLT_CTRL_CLEAR empties the log and FLT_FIRST. -/
def clearLog (s : State) : State := s.modFlt (fun f => { f with log := [], first := none })
def execFltCtrlClear (s : State) : Res := regCmd .fltCtrlClear s (clearLog s)

/-- FLT_CTRL_WREST restores the weigher copy in the load window. -/
def restoreCopy (s : State) : State := if s.man.lwin then wghRestore s else s
def execFltCtrlWrest (s : State) : Res := regCmd .fltCtrlWrest s (restoreCopy s)

/-- FLT_CTRL_FCLR clears FLT_FATAL while no fatal fault is in force. -/
def clearFatal (s : State) : State := if s.flt.fatal then s else s.modFlt (fun f => { f with fatalRec := none })
def execFltCtrlFclr (s : State) : Res := regCmd .fltCtrlFclr s (clearFatal s)

/-- Codes of class fatal (R387). -/
def fatalCodes : List Nat := [0x30, 0x31, 0x32, 0x33, 0x34]
def fcAOUE : Nat := 0x33

/-- Puts and posts that waited for memory are answered: STATUS 1 and CLOSED. -/
def answerHeld (s : State) : State :=
  let t := s.modStr (fun x => x.refuse x.waiting)
  t.pst.waiting.foldl (fun u m => takeMsg u m.1 m.2) (t.modPst (fun x => { x with waiting := [] }))

/-- What the first fatal fault since the core reset does: FLT_FATAL is written, the units stop, and outputs fall idle. -/
def firstFatal (s : State) (code unit : Nat) : State :=
  let r := faultRec s code 2 unit 0 0
  answerHeld ((((s.modFlt (fun f => { f with fatal := true, fatalRec := some r, seq := f.seq + 1 })).modCore (fun k =>
    { k with syncArr := false })).modXch (fun x => { x with out := none })).modStr (fun x => { x with out := none }))

/-- A fatal fault (R391, R394). In a sealed state a stream stop and a zeroisation follow, for a further fault as well; AO_UE ends as a job end does. -/
def fatal (s : State) (code unit : Nat) : State :=
  let t := if s.flt.fatal then s else firstFatal s code unit
  if decide (t.sec.state = 0) then t
  else startZero ((streamStop t).modSec (fun x => { x with endJob := x.endJob || decide (code = fcAOUE) }))

/-- Code of a double error of a protected store, by its number in Flt.stores (R388). -/
def storeCode (k : Nat) : Nat := 0x30 + k

/-- A store's error is met: a single one is corrected and counted, a double one is fatal (R388). -/
def meetStore (s : State) (k : Nat) : State :=
  let clean := fun (t : State) => t.modFlt (fun f => { f with stores := tabSet .clean f.stores k .clean })
  match tabGet .clean s.flt.stores k with
  | .clean => s
  | .single => stateCe (clean s)
  | .double => fatal (clean s) (storeCode k) 14

/-- FATAL_FAULT: an uncorrectable error of an internal store, or a clock error (R388); the command names neither (log entry 47). -/
def execFatalFault (s : State) : Res :=
  whenOn s.pin.coreRst s
    (fatal { s with free := s.free + 1 } (fatalCodes.getD (Config.fatalKind s.free % 5) 0x34) 14)

/-- The tile holds from now on (02 R54): it waits at sync with zone 3 and no norm, and an exchange phase that runs stops; what waited for its banks proceeds (01 R16; 10 R251). -/
def stopToHold (s : State) : State :=
  let t := standStill ((settleAll s).modMan (fun m => { m with hold := true, resume := false }))
  let u := (t.modCore (fun k => { k with syncZone := if k.syncArr then 3 else k.syncZone })).modFac (fun f => { f with nrmV := f.nrmV && !s.core.syncArr })
  pstResume (strResume ((u.modXch (fun x => { x with out := none })).modMem (fun m => Mem.settled { m with xph := false })))

/-- An injected mismatch puts the tile in hold and halts no context; while no context runs it is logged (R390, log entry 59). -/
def injectHold (s : State) (code : Nat) : State :=
  let t := raiseMismatch s code 15
  if ctxRuns s then stopToHold t else t

/-- The code in FLT_INJ_CODE is raised with unit 15 and the full effect of its class (R395). -/
def inject (s : State) : State :=
  let c := s.flt.injCode.toNat
  if c = 1 ∨ c = 2 then stateCe s
  else if c = fcZONE ∨ c = fcEPOCH then injectHold s c
  else if 0x10 ≤ c ∧ c ≤ 0x29 then raise s c 15 0 0
  else if fatalCodes.contains c then fatal s c 15
  else s

/-- FLT_CTRL_INJ acts at debug level INVASIVE only. -/
def injectReq (s : State) : State := if invasive s then inject s else s
def execFltCtrlInj (s : State) : Res := regCmd .fltCtrlInj s (injectReq s)

end Sys2Proof.Machine
end

