-- ==== Sys2Proof/Machine/SecOps.lean ====
section
/-! DEFINITION. Obtur's commands: KEY events, rekeying, code loads, the debug level and the step epoch (15 R361 to R385). -/

namespace Sys2Proof.Machine

/-! Zeroisations with a stream stop (Table 8). -/

/-- Stream stop, zeroisation and reload of every context: a seal, or the end of a job. KEY_BUSY stays until the zeroisation ends (log entry 50). -/
def secureErase (s : State) : State :=
  (startReload (startZero (streamStop s)) 0xF).modSec (fun x => { x with busy := true, rekey := none })

/-- Both keys become the zero key and the state OPEN. -/
def zeroKeys (s : State) : State :=
  s.modSec (fun x => { x with key := 0, keyId := 0, rkey := 0, rkeyId := 0, rkeyHeld := false, state := 0 })

/-- The job ends (Table 3): the keys are cleared and the state becomes OPEN when its zeroisation has ended (16 R391; 17 R427). -/
def endOfJob (s : State) : State := (secureErase s).modSec (fun x => { x with endJob := true })

/-- SEALED, or SEALED-DEBUG while KEY_PERMIT is 1. -/
def sealedState (s : State) : BitVec 2 := if s.sec.permit then 2 else 1

/-- A key strobe acts (Table 3). A rekey waits until the stream port has drained (R384). -/
def keyStrobe (s : State) (key : BitVec 256) (id : Word) (sealed : Bool) : State :=
  if decide (s.sec.state = 0) then
    let put := fun (t : State) => clearRegions (t.modSec (fun x => { x with key := key, keyId := id }))
    if sealed then lowerLevel ((put (secureErase s)).modSec (fun x => { x with state := sealedState s })) else put s
  else if sealed then s.modSec (fun x => { x with busy := true, rekey := some (key, id) })
  else s

/-- KEY_LD: ignored while KEY_BUSY is 1. -/
def execKeyLd (key : BitVec 256) (id : Word) (sealed : Bool) (s : State) : Res :=
  whenOn (busOn s && !s.sec.busy) s (keyStrobe s key id sealed)

/-- REKEY: no read is outstanding and no write unacknowledged; the new key becomes current (R384). -/
def execRekey (s : State) : Res :=
  match s.sec.rekey with
  | none => .next s
  | some (k, id) => whenOn (unitsOn s && s.str.reads.isEmpty && s.str.writes.isEmpty) s (doRekey s k id)

/-- KEY_END: the job ends; ignored while KEY_BUSY is 1. -/
def execKeyEnd (s : State) : Res := whenOn (busOn s && !s.sec.busy) s (endOfJob s)

/-- KEY_PERMIT rises: SEALED becomes SEALED-DEBUG. -/
def execKeyPermitRise (s : State) : Res :=
  .next (s.modSec (fun x => { x with permit := true, state := if x.state = 1 then 2 else x.state }))

/-- KEY_PERMIT falls: SEALED-DEBUG becomes SEALED and the level is lowered (R366). -/
def execKeyPermitFall (s : State) : Res :=
  .next (lowerLevel (s.modSec (fun x => { x with permit := false, state := if x.state = 2 then 1 else x.state })))

/-! Code loads (R369 to R371). -/

/-- SEC_CTRL_CODE starts a load, or is refused with BUSY while one runs. -/
def startCode (s : State) : State :=
  s.modSec (fun x =>
    if x.codeLoad.isSome then { x with codeErr := 9 }
    else { x with codeLoad := some (x.codeAddr.toNat, x.codeLen.toNat), codeState := 1 })

def execSecCtrlCode (s : State) : Res := regCmd .secCtrlCode s (startCode s)

/-- The destination lies in CODE, or below 0x18_0000 while no manifest is live. -/
def codeDestOk (s : State) (dest n : Nat) : Bool :=
  decide (dest % 4 = 0) && (if s.man.isLive then permits s [pCODE] dest n else decide (dest + n ≤ memTop))

/-- LENGTH is at most CODE size + 80; the size is that of local memory while no manifest is live (log entry 51). -/
def codeMax (s : State) : Nat := (if s.man.isLive then partSize s pCODE else memTop) + 80

/-- What a code load comes to: an error code without plaintext, a tag failure or a pass with destination and plaintext. -/
inductive CodeResult where
  | fail (code : Nat)
  | tag (dest : Nat) (plain : List Byte)
  | pass (dest : Nat) (plain : List Byte)
deriving DecidableEq, Repr

/-- The checks of the header of a code image of n bytes: the error, or DEST. DEST is checked here, before anything is decrypted into it (log entry 51). -/
def codeHeader (s : State) (h : List Byte) (n : Nat) : Except Nat Nat :=
  let dw := leNat ((h.drop 0x0C).take 4)
  match headerErr h 0xA3D0C0DE n 84 (codeMax s) with
  | some e => .error e.code
  | none =>
    if leNat ((h.drop 0x10).take 4) ≠ s.sec.keyId.toNat then .error 4
    else if leNat ((h.drop 0x18).take 2) = 0 then .error 5
    else if 2 ^ 21 ≤ dw ∨ leNat (h.drop 0x20) ≠ 0 ∨ codeDestOk s dw (n - 80) = false then .error 8
    else .ok dw

/-- The checks of R370 on the image of n bytes at a. -/
def codeEval (s : State) (a n : Nat) : CodeResult :=
  if !sourceOk s a n then .fail 0x0B
  else
    let img := memBytes s.mem.bytes a n
    let h := img.take 64
    match codeHeader s h n with
    | .error c => .fail c
    | .ok dw =>
      let iv := (h.drop 0x14).take 12
      let body := (img.drop 64).take (n - 80)
      match gcmOpen s.sec.key (ivOf iv) h body (img.drop (n - 16)) with
      | some p => .pass dw p
      | none => .tag dw (gcmCrypt s.sec.key (ivOf iv) body)

/-- What a code load reads and writes: its image, and DEST behind a header that passes. -/
def codeLoadSpans (s : State) (a n : Nat) : List (Nat × Nat) :=
  if !sourceOk s a n then []
  else if memWaits s a n then [(a, n)]
  else
    match codeHeader s (memBytes s.mem.bytes a 64) n with
    | .error _ => [(a, n)]
    | .ok dw => [(a, n), (dw, n - 80)]

/-- The running code load ends. In OPEN a tag failure leaves its plaintext in CODE; in a sealed state it zeroises (R370, R371). -/
def finishCode (s : State) (a n : Nat) : State :=
  let t := (touchRead s rqOBT a (if sourceOk s a n then n else 0)).modSec (fun x => { x with codeLoad := none })
  let fails := fun (u : State) (c : Nat) => u.modSec (fun x => { x with codeOk := false, codeState := 3, codeErr := BitVec.ofNat 8 c })
  match codeEval t a n with
  | .fail c => fails t c
  | .tag dest p =>
    let u := if decide (t.sec.state = 0) then memWr t rqOBT dest p else t
    tagZeroise (raise (tagFailure (fails u 5) 4 0 u.core.cur 0) fcMANAUTH 12 0 0)
  | .pass dest p => (memWr t rqOBT dest p).modSec (fun x => { x with codeOk := true, codeState := 2, codeErr := 0 })

/-- CODE_LOAD_DONE: the running load ends; it waits for the banks that it reads and writes. -/
def execCodeLoadDone (s : State) : Res :=
  match s.sec.codeLoad with
  | none => .next s
  | some (a, n) => whenMem (unitsOn s) rqOBT (codeLoadSpans s a n) s (unstall (finishCode s a n))

/-! Debug level and step epoch (R364, R380). -/

/-- A requested level: set at or below the ceiling, an escalation above it, and no effect for 3. -/
def requestLevel (s : State) (l : BitVec 2) : State :=
  if l = 3 then s
  else if l.toNat ≤ (ceiling s).toNat then s.modSec (fun x => { x with dbgReq := l, level := l })
  else
    let t := secErr (s.modSec (fun x => { x with escal := x.escal + 1 })) 5 0 s.core.cur 0
    unstall (startZero (streamStop (raise t fcSECESC 12 0 0)))

/-- SEC_DBG_REQ_WRITE. -/
def execSecDbgReqWrite (level : BitVec 2) (s : State) : Res := regCmd (.secDbgReqWrite level) s (requestLevel s level)

/-- SEC_SE_CUR_WRITE: raises SE_cur in the load window. -/
def raiseStep (s : State) (v : BitVec 23) : State :=
  if s.man.lwin && decide (s.sec.seCur.toNat < v.toNat) then s.modSec (fun x => { x with seCur := v }) else s

def execSecSeCurWrite (val : BitVec 23) (s : State) : Res := regCmd (.secSeCurWrite val) s (raiseStep s val)

end Sys2Proof.Machine
end

