-- ==== Sys2Proof/Machine/ManOps.lean ====
section
/-! DEFINITION. Commands of the manifest unit and of the context registers: loads, arming, shadow and live writes, context reload (02 R42 to R61; 03 R68, R70). -/

namespace Sys2Proof.Machine

/-- MAN_CTRL_LOAD starts a load from MAN_LOAD_ADDR. -/
def execManCtrlLoad (s : State) : Res := regCmd .manCtrlLoad s (startLoad s).1

/-- MAN_CTRL_ARM arms with MAN_ARM_EPOCH, or is refused. -/
def execManCtrlArm (s : State) : Res := regCmd .manCtrlArm s (armWith s s.man.armEpoch).1

/-- MAN_CTRL_DISARM clears the armed state. -/
def disarm (s : State) : State := s.modMan (fun m => { m with armed := none })
def execManCtrlDisarm (s : State) : Res := regCmd .manCtrlDisarm s (disarm s)

/-- MAN_CTRL_RESUME: a held tile applies the epoch check at the next release (R55). -/
def resumeHold (s : State) : State := s.modMan (fun m => { m with resume := m.hold })
def execManCtrlResume (s : State) : Res := regCmd .manCtrlResume s (resumeHold s)

/-- MAN_CTRL_DISCARD: the shadow takes the live copy, or BUSY (R46). Writes that wait for the copy of R48 land after it. -/
def discardShadow (s : State) : State :=
  if s.man.armed.isSome || s.man.load.isSome || s.man.loadWait.isSome then manErr s 9 0 0
  else s.modMan (fun m => { m with shadow := m.live })
def execManCtrlDiscard (s : State) : Res := regCmd .manCtrlDiscard s (discardShadow s)

/-- After a core reset that kept the memory, the status words of the first MBOX partition read 0 (13 R334). -/
def freshStatus (s : State) : State :=
  if s.pst.fresh then (if mboxOn s then clearStatus s else s).modPst (fun x => { x with fresh := false }) else s

/-- MANIFEST_LOAD_DONE: the running load ends; it waits for the banks that it reads. A load that makes a manifest live starts an itinerary load (R44; 13 R311). -/
def execManifestLoadDone (s : State) : Res :=
  match s.man.load with
  | none => .next s
  | some (a, n) =>
    let t := finishLoad s a n
    whenMem (unitsOn s) rqOBT (spanIf (sourceOk s a n) a n) s (unstall (if t.man.isLive && !s.man.isLive then resumeLoad (freshStatus t) else t))

/-! SH views (R34). -/

/-- A run of SH registers: offset, count, store offset of the first, and the mask of the fields. Register word and store word hold a field at the same bits. -/
structure ShRow where
  off : Nat
  step : Nat
  n : Nat
  store : Nat
  sstep : Nat
  mask : Nat
deriving DecidableEq, Repr

/-- Every SH register of the register maps of chapters 04 to 15. -/
def shRows : List ShRow :=
  [⟨0x3400, 4, 8, oPART, 4, 0xFFFFFFFF⟩, ⟨0x3420, 4, 1, oPART + 0x20, 4, 0x7F03⟩,
   ⟨0x1C00, 4, 1, oFOLD, 4, 0xFFFF01FF⟩, ⟨0x1C04, 4, 64, oFOLD + 4, 4, 0xFFFFF⟩,
   ⟨0x2400, 4, 1, oCHAIN, 4, 0x3FFFF⟩, ⟨0x2404, 4, 16, oCHAIN + 4, 36, 0xF⟩,
   ⟨0x2E00, 8, 16, oWEIGH + 8, 8, 0xFF1FFFFF⟩, ⟨0x2E04, 8, 16, oWEIGH + 12, 8, 0xFF⟩,
   ⟨0x2E80, 4, 1, oWEIGH, 4, 0xFFFF00FF⟩, ⟨0x2E84, 4, 1, oWEIGH + 4, 4, 0x1FFFF⟩,
   ⟨0x2A00, 4, 1, oFACTOR, 4, 0x1FF0103⟩, ⟨0x2A04, 4, 1, oFACTOR + 4, 4, 0x3F⟩, ⟨0x2A08, 4, 5, oFACTOR + 8, 4, 0xFFFFFFFF⟩,
   ⟨0x5600, 4, 32, oGOV + 4, 4, 0xFFFFFFFF⟩, ⟨0x5680, 4, 1, oGOV, 4, 0xFF03⟩,
   ⟨0x6400, 4, 1, oSEC, 4, 0xF⟩, ⟨0x8080, 4, 1, oJOURNAL, 4, 0xFFFF00FF⟩] ++
  (List.range 4).flatMap (fun c =>
    [⟨0x1400 + 128 * c, 4, 18, oCTX + 80 * c, 4, 0xFFFFFFFF⟩, ⟨0x1448 + 128 * c, 4, 1, oCTX + 80 * c + 0x48, 4, 3⟩])

/-- Number of the register at an offset in a run of n registers from base on. -/
def regIdx (base step n off : Nat) : Option Nat :=
  if base ≤ off ∧ off < base + step * n ∧ (off - base) % step = 0 then some ((off - base) / step) else none

/-- Store offset and field mask behind an SH register. -/
def shAt (off : Nat) : Option (Nat × Word) :=
  shRows.findSome? (fun r => (regIdx r.off r.step r.n off).map (fun k => (r.store + r.sstep * k, BitVec.ofNat 32 r.mask)))

/-- SH values of 64 bits, by offset of LO (00 R435). -/
def shWide (off : Nat) : Bool := decide (off = 0x2A08) || (regIdx 0x1400 128 4 off).isSome

def heldHi (s : State) (lo : Nat) : Option Word := tabGet none s.bus.held lo
def setHeld (s : State) (lo : Nat) (v : Option Word) : State := s.modBus (fun x => { x with held := tabSet none x.held lo v })

/-- A write of an SH register in OPEN goes to the shadow; a HI half is held for its LO (R47; 00 R435). -/
def writeSh (s : State) (off store : Nat) (mask val : Word) : State :=
  if decide (s.sec.state ≠ 0) then s.modMan (fun m => { m with wrej := true })
  else if shWide (off - 4) && decide (4 ≤ off) then setHeld s (off - 4) (some val)
  else if shWide off then
    let t := putShadow s (.store store mask val)
    match heldHi s off with
    | none => t
    | some h => setHeld (putShadow t (.store (store + 4) mask h)) off none
  else putShadow s (.store store mask val)

/-- MAN_CFG_DATA written with MAN_CFG_LIVE = 1: both copies take the word, through the debug port in OPEN at level INVASIVE (R60, R61; 15 R362). Nothing lies at 0x20C0 and above. -/
def liveWrite (s : State) (val : Word) : State :=
  let o := s.man.cfgAddr.toNat / 4 * 4
  if decide (s.sec.state = 0) && invasive s && decide (o < cfgSize) then
    s.modMan (fun m => { m with live := tWord m.live o (storeMask o) val, shadow := tWord m.shadow o (storeMask o) val })
  else s

/-- A write of MAN_CFG_DATA. -/
def writeCfgData (b : Bus) (s : State) (val : Word) : State :=
  let o := s.man.cfgAddr.toNat / 4 * 4
  if cfgSize ≤ o then s
  else if s.man.cfgLive then (if b = .dbg then liveWrite s val else s)
  else shadowWr s (.store o (storeMask o) val)

/-- A write that the shadow may take: MAN_EPOCH_SHADOW, MAN_CFG_DATA or an SH register. -/
def writeShadow (b : Bus) (s : State) (off : Nat) (val : Word) : State :=
  if off = 0x418 then shadowWr s (.epoch val)
  else if off = 0x434 then writeCfgData b s val
  else
    match shAt off with
    | some (o, m) => writeSh s off o m val
    | none => s

/-- Register offset of a bus address. -/
def regOff (addr : BitVec 22) : Nat := addr.toNat / 4 * 4

/-- SHADOW_WRITE: a write of an SH field, MAN_CFG_DATA or MAN_EPOCH_SHADOW. -/
def execShadowWrite (bus : Bus) (addr : BitVec 22) (val : Word) (s : State) : Res :=
  .next (regAcc bus false (.shadowWrite bus addr val) s (writeShadow bus s (regOff addr) val))

/-- DEBUG_LIVE_WRITE: MAN_CFG_DATA of the debug port with MAN_CFG_LIVE = 1. -/
def execDebugLiveWrite (val : Word) (s : State) : Res :=
  .next (regAcc .dbg false (.debugLiveWrite val) s (if s.man.cfgLive then liveWrite s val else s))

/-! Contexts (03 R68, R70). -/

/-- CORE_CTX takes NEXT and SWITCH; SWREJ clears where written 1. -/
def writeCtx (s : State) (val : Word) : State :=
  s.modCore (fun k => { k with next := BitVec.ofNat 2 (bitsOf val.toNat 5 4), switch := val.getLsbD 8, swrej := k.swrej && !val.getLsbD 9, preSync := { k.preSync with sw := none } })
def execCoreCtxWrite (val : Word) (s : State) : Res := regCmd (.coreCtxWrite val) s (writeCtx s val)

/-- CORE_CTX_RELOAD: ignored with mask 0 and while a reload runs. -/
def reloadReq (s : State) (mask : BitVec 4) : State := if mask = 0 ∨ s.core.rldBusy = true then s else startReload s mask
def execCoreCtxReload (mask : BitVec 4) (s : State) : Res := regCmd (.coreCtxReload mask) s (reloadReq s mask)

/-- A context as a reload leaves it: at CORE_ENTRY, registers 0, not halted. -/
def reloadCtx (s : State) (c : BitVec 2) : State :=
  (facIdle (setCtx s c { pc := tabGet 0 s.core.entry c.toNat }) c).modXch (fun x => { x with resume := tabSet 0 x.resume c.toNat 0 })

/-- Steps 4 to 6 of R70. The exchange port and its load stop with the live manifest; a halt that waits for a reloaded context is dropped (log entry 53). No context runs, so a tile that waits at sync drives zone 3 and no norm (01 R16; 10 R251), and the aborted stage's units are discarded (11 R272). -/
def finishReload (s : State) : State :=
  let m := s.core.rldMask
  let t := (List.range 4).foldl (fun u i => if m.getLsbD i then reloadCtx u (BitVec.ofNat 2 i) else u) (settleAll s)
  let u := (discardLive t).modCore (fun k => { k with
    cur := k.next, switch := false, rldBusy := false, rldMask := 0, mode := .idle, phase := if 2 ≤ k.phase.toNat then 0 else k.phase
    syncZone := if k.syncArr then 3 else k.syncZone })
  let w := (u.modFac (fun f => { f with nrmV := f.nrmV && !s.core.syncArr })).modJrnl (fun j => { j with cred := [], toArr := [], toClose := [], skip := false })
  let v := ((w.modMem (fun y => Mem.settled { y with xph := false })).modXch (fun x => { x with run := .off, failed := false, load := none, loadSel := none }))
  let drop := s.flt.haltCtx.any (fun c => m.getLsbD c.toNat)
  lowerLevel (v.modFlt (fun f => if drop then { f with haltCtx := none, pend := false } else f))

/-- No engine has an operation in flight. -/
def enginesDone (s : State) : Bool := (List.range 7).all (fun e => (qOf s e).infl.isEmpty)

end Sys2Proof.Machine
end

