-- ==== Sys2Proof/Machine/Tile.lean ====
section
/-! DEFINITION. Tile instructions of the control core and the wakes that complete them (03 R73, R87 to R94; 12 R285 to R292, R300). -/

namespace Sys2Proof.Machine

/-- Form C with no extension word. -/
def noExt (f : CForm) : Bool := f.ext.isNone

/-- What SYNC takes: the context's zone, and with F[3] the switch request of R65. What they were is kept while the core is stopped there (12 R304). -/
def takeSync (s : State) (f : CForm) : State :=
  let u := modCtx s s.core.cur (fun x => { x with pc := x.pc + 4, atSync := true, zone := some (BitVec.ofNat 2 (bitsOf f.f.toNat 2 1)) })
  u.modCore (fun k => { k with
    mode := .sync (f.f.getLsbD 0)
    next := if f.f.getLsbD 3 then BitVec.ofNat 2 (bitsOf f.f.toNat 5 4) else k.next
    switch := k.switch || f.f.getLsbD 3
    preSync := { sw := if f.f.getLsbD 3 then some (k.next, k.switch) else none, zone := (curCtx s).zone } })

/-- SYNC: Table 10. The program counter moves on, the core stops until the release, and open caravans depart (06 R163). -/
def execSync (f : CForm) (s : State) : Res :=
  let zone := BitVec.ofNat 2 (bitsOf f.f.toNat 2 1)
  instr s (lenOf f.ext)
    (noExt f && decide (f.d = 0) && decide (f.a = 0) && decide (f.b = 0) && decide (f.f.toNat < 64) && decide (zone ≠ 3))
    (fun t =>
      progress (((takeSync t f).modDbg (fun d => { d with stepping := false, cause := if d.stepping then 3 else d.cause })).modArr departAll))

/-- Fields of SIG that Table 4 of chapter 12 requires to be 0, for an OP. -/
def sigLegal (f : CForm) (op : Nat) : Bool :=
  noExt f && decide (f.d = 0) && decide (f.b = 0) && decide (bitsOf f.f.toNat 9 9 = 0) &&
    decide (bitsOf f.f.toNat 8 7 = op) && (decide (op = 0) || decide (bitsOf f.f.toNat 6 6 = 0))

/-- SIG on the object that F[5:0] names; an unmapped ID is ILLEGAL (12 R283). -/
def sigObj (s : State) (f : CForm) (op : Nat) (act : State → Byte → State) : Res :=
  instr s (lenOf f.ext) (sigLegal f op) (fun t =>
    match mapId t t.core.cur.toNat (bitsOf f.f.toNat 5 0) with
    | none => coreFault t fcILLEGAL 0
    | some o => advance (act t o) 4)

/-- SIG ADD: adds 1, or A[31:0] when F[6] is 1. -/
def execSig (f : CForm) (s : State) : Res :=
  sigObj s f 0 (fun t o => signalAmt t 1 o (if f.f.getLsbD 6 then (rd t f.a).toNat % 2 ^ 32 else 1) 1)

/-- SIG BAR: opens a barrier of A[7:0] participants; 0 is ILLEGAL (12 R287). -/
def execSigBar (f : CForm) (s : State) : Res :=
  instr s (lenOf f.ext) (sigLegal f 1) (fun t =>
    match mapId t t.core.cur.toNat (bitsOf f.f.toNat 5 0) with
    | none => coreFault t fcILLEGAL 0
    | some o =>
      let n := (rd t f.a).setWidth 8
      if n = 0 then coreFault t fcILLEGAL 0
      else advance (setObj t o { objOf t o with mode := true, n := n, arr := 0, lastSrc := 11, lastCtx := t.core.cur }) 4)

/-- SIG SET: VAL takes A[31:0], counter mode, ARR 0 (12 R287). -/
def execSigSet (f : CForm) (s : State) : Res :=
  sigObj s f 2 (fun t o =>
    setObj t o { objOf t o with val := (rd t f.a).setWidth 32, mode := false, arr := 0, lastSrc := 11, lastCtx := t.core.cur })

/-- WAIT completes: D takes VAL before any take, which COND TAKE makes. -/
def waitDone (s : State) (o : Byte) (cond : BitVec 2) (d : SReg) : State :=
  let v := (objOf s o).val.setWidth 64
  let t := if cond = 2 then take s o else s
  wrAdvance (dropWatch t 7) d v 4

/-- WAIT: completes when its condition holds, else stalls with its watch in slot 7. -/
def execWait (f : CForm) (s : State) : Res :=
  let cond := BitVec.ofNat 2 (bitsOf f.f.toNat 7 6)
  instr s (lenOf f.ext) (noExt f && decide (f.b = 0) && decide (bitsOf f.f.toNat 9 8 = 0) && decide (cond ≠ 3)) (fun t =>
    match mapId t t.core.cur.toNat (bitsOf f.f.toNat 5 0) with
    | none => coreFault t fcILLEGAL 0
    | some o =>
      let tgt := (rd t f.a).setWidth 32
      if condHolds cond (objOf t o).val tgt then waitDone t o cond f.d
      else (setWatch t 7 { obj := o, cond := cond, active := true, tgt := tgt }).modCore (fun k => { k with mode := .wait f.d }))

/-- Full bit of the FE word at an address (07 R175). A change of it writes its parity anew. -/
def feIdx (s : State) (a : Nat) : Nat := (a - partBase s pFE) / 8
def feFull (s : State) (a : Nat) : Bool := tabGet false s.mem.full (feIdx s a)
def setFull (s : State) (a : Nat) (b : Bool) : State :=
  s.modMem (fun m => { m with full := tabSet false m.full (feIdx s a) b, fullErr := tabSet false m.fullErr (feIdx s a) false })

/-- The full bit of a word is read: a parity error raises MEM_UE with MEM_UE_FE set (07 R175). -/
def readFull (s : State) (req a : Nat) : State :=
  if tabGet false s.mem.fullErr (feIdx s a) then memUe s req (a / 8) true else s

/-- The word lies 8 B aligned inside the FE partition (03 R88). -/
def feOk (s : State) (a : Nat) : Bool := decide (a % 8 = 0) && permits s [pFE] a 8

/-- FEW on an empty word: writes it and sets it full. -/
def fewDone (s : State) (a : Nat) (v : Dword) : State :=
  advance (dropWatch (setFull (memWr s rqDATA a (leBytes 8 v)) a true) 7) 4

/-- FER of a full word: D takes it and it becomes empty. -/
def ferDone (s : State) (a : Nat) (d : SReg) : State :=
  let t := touchRead s rqDATA a 8
  wrAdvance (dropWatch (setFull t a false) 7) d (BitVec.ofNat 64 (mNat t a 8)) 4

/-- FEW: writes B to the FE word at A and sets it full; stalls while it is full. -/
def execFew (f : CForm) (s : State) : Res :=
  let a := (rd s f.a).toNat
  instrMem s (lenOf f.ext) (noExt f && decide (f.f = 0)) (if feOk s a then some (a, 8) else none) (fun t0 =>
    let t := if feOk t0 a then readFull t0 rqDATA a else t0
    if !feOk t a then coreFault t fcBOUNDS 0
    else if feFull t a then (setWatch t 7 { active := true }).modCore (fun k => { k with mode := .few (BitVec.ofNat 21 a) (rd t f.b) })
    else fewDone t a (rd t f.b))

/-- FER: reads the full FE word at A into D and marks it empty; stalls while it is empty. -/
def execFer (f : CForm) (s : State) : Res :=
  let a := (rd s f.a).toNat
  instrMem s (lenOf f.ext) (noExt f && decide (f.f = 0)) (if feOk s a then some (a, 8) else none) (fun t0 =>
    let t := if feOk t0 a then readFull t0 rqDATA a else t0
    if !feOk t a then coreFault t fcBOUNDS 0
    else if !feFull t a then (setWatch t 7 { active := true }).modCore (fun k => { k with mode := .fer (BitVec.ofNat 21 a) f.d })
    else ferDone t a f.d)

/-- A delivered wake counts (12 Table 8). -/
def countWake (s : State) : State := s.modSyn (fun y => { y with wakes := y.wakes + 1 })

/-- Condition of a management watch: COND 2 is VAL above 0 without a take. -/
def watchMet (s : State) (k : Nat) : Bool :=
  let w := watchOf s k
  condHolds w.cond (objOf s w.obj).val w.tgt

/-- A wake is delivered: a queue head's slot is woken, the stalled WAIT, FEW or FER completes, or a management watch sets HIT (12 R292). TAKE is checked again; a waiter that finds it consumed goes on waiting. -/
def execWake (slot : BitVec 5) (s : State) : Res :=
  let k := slot.toNat
  let w := watchOf s k
  if k < 7 then
    whenOn (unitsOn s && w.active && !w.woken && watchMet s k) s (countWake (setWatch s k { w with woken := true }))
  else if k = 7 then
    match s.core.mode with
    | .wait d => whenOn (unitsOn s && watchMet s 7) s (waitDone (countWake s) w.obj w.cond d)
    | .few a v => whenMem (unitsOn s && !feFull s a.toNat) rqDATA [(a.toNat, 8)] s (fewDone (countWake (readFull s rqDATA a.toNat)) a.toNat v)
    | .fer a d => whenMem (unitsOn s && feFull s a.toNat) rqDATA [(a.toNat, 8)] s (ferDone (countWake (readFull s rqDATA a.toNat)) a.toNat d)
    | _ => .next s
  else whenOn (unitsOn s && w.en && !w.hit && watchMet s k) s (countWake (setWatch s k { w with hit := true }))

/-- Every engine of the mask has an empty queue and has retired (03 R93). -/
def fenced (s : State) (m : BitVec 7) : Bool := (List.range 7).all (fun e => !m.getLsbD e || engIdle s e)

/-- FENCE: completes when the engines of F[6:0] are idle, else stalls. -/
def execFence (f : CForm) (s : State) : Res :=
  let m := f.f.setWidth 7
  instr s (lenOf f.ext) (noExt f) (fun t =>
    if fenced t m then advance t 4 else t.modCore (fun k => { k with mode := .fence m }))

/-- A stalled FENCE completes after the last retirement it waited for. -/
def execFenceDone (s : State) : Res :=
  match s.core.mode with
  | .fence m => whenOn (unitsOn s && fenced s m) s (advance s 4)
  | _ => .next s

/-- MAN with F[0] = 0: sets the load address and length and starts a load; D takes 0 or the refusal (03 R91). -/
def execManLoad (f : CForm) (s : State) : Res :=
  instr s (lenOf f.ext) (noExt f && !f.f.getLsbD 0) (fun t =>
    let u := t.modMan (fun m => { m with
      loadAddr := ((rd t f.a).setWidth 21 >>> 2) <<< 2, loadLen := (rd t f.b).setWidth 17 })
    let r := startLoad u
    wrAdvance r.1 f.d (BitVec.ofNat 64 r.2) 4)

/-- MAN with F[0] = 1: arms with epoch A[31:0]; D takes 0 or the refusal (03 R91). -/
def execManArm (f : CForm) (s : State) : Res :=
  instr s (lenOf f.ext) (noExt f && f.f.getLsbD 0) (fun t =>
    let r := armWith t ((rd t f.a).setWidth 32)
    wrAdvance r.1 f.d (BitVec.ofNat 64 r.2) 4)

/-- Special registers (03 Table 1); a reserved number reads 0. -/
def specialReg (s : State) (n : Nat) : Dword :=
  match n with
  | 0 => s.core.cur.setWidth 64
  | 1 => s.core.tileId.setWidth 64
  | 2 => s.core.tileCount.setWidth 64
  | 3 => s.core.stage
  | 4 => s.clk.ccyc
  | 5 => s.clk.ticks
  | 6 => (facOf s s.core.cur).step.setWidth 64
  | 7 => s.clk.op.setWidth 64
  | _ => if 16 ≤ n ∧ n ≤ 23 then tabGet 0 (curCtx s).scr (n - 16) else 0

/-- MFS: D takes special register F[5:0]. -/
def execMfs (f : CForm) (s : State) : Res :=
  instr s (lenOf f.ext) (noExt f) (fun t => wrAdvance t f.d (specialReg t (bitsOf f.f.toNat 5 0)) 4)

/-- MTS: scratch register F[5:0] takes A; any number but 16 to 23 is ILLEGAL. -/
def execMts (f : CForm) (s : State) : Res :=
  let n := bitsOf f.f.toNat 5 0
  instr s (lenOf f.ext) (noExt f && decide (16 ≤ n) && decide (n ≤ 23)) (fun t =>
    advance (modCtx t t.core.cur (fun x => { x with scr := tabSet 0 x.scr (n - 16) (rd t f.a) })) 4)

/-- CTX: CORE_CTX_NEXT takes F[1:0], CORE_CTX_SWITCH F[2] (03 R92). -/
def execCtx (f : CForm) (s : State) : Res :=
  instr s (lenOf f.ext) (noExt f) (fun t =>
    advance (t.modCore (fun k => { k with next := f.f.setWidth 2, switch := f.f.getLsbD 2 })) 4)

/-- BRK: halts the control core after it retires when invasive debug is allowed (03 R94). -/
def execBrk (f : CForm) (s : State) : Res :=
  instr s (lenOf f.ext) (noExt f) (fun t =>
    let u := advance t 4
    if invasive t then u.modDbg (fun d => { d with halted := true, cause := 2 }) else u)

/-- A word with a reserved opcode or ALU function code raises ILLEGAL (03 R76). -/
def execReservedOpcode (_w : Word) (s : State) : Res := instr s 4 false (fun t => t)

/-! Engine issue (03 R81 to R86). -/

/-- ARR: enqueues an array operation. -/
def execArr (f : EForm) (s : State) : Res := issue s (.arr f) ⟨eARR, f, 5⟩
/-- VEC: enqueues a vector engine operation. -/
def execVec (f : EForm) (s : State) : Res := issue s (.vec f) ⟨eVEC, f, 10⟩
/-- FAC: enqueues a Factor operation. -/
def execFac (f : EForm) (s : State) : Res := issue s (.fac f) ⟨eFAC, f, 6⟩
/-- WGH: enqueues a weigher operation. -/
def execWgh (f : EForm) (s : State) : Res := issue s (.wgh f) ⟨eWGH, f, 5⟩
/-- STR: enqueues a stream operation. -/
def execStr (f : EForm) (s : State) : Res := issue s (.str f) ⟨eSTR, f, 3⟩
/-- PST: enqueues a post operation. -/
def execPst (f : EForm) (s : State) : Res := issue s (.pst f) ⟨ePST, f, 4⟩
/-- STH: enqueues a stash operation. -/
def execSth (f : EForm) (s : State) : Res := issue s (.sth f) ⟨eSTH, f, 4⟩

end Sys2Proof.Machine
end

