-- ==== Sys2Proof/Machine/SynOps.lean ====
section
/-! DEFINITION. Commands of the sync unit and of local memory: hand sets, full/empty operations, zeroisation and scrubbing (12 R301, R306; 07 R183, R185, R193). -/

namespace Sys2Proof.Machine

/-! Hand sets (12 R306, R307). -/

/-- A hand set of the selected object; refused below level INVASIVE. -/
def handSet (s : State) (f : Syn → SObj → SObj) : State :=
  if invasive s then
    setObj s s.syn.osel { f s.syn (objOf s s.syn.osel) with lastSrc := 12, lastCtx := s.core.cur }
  else s.modSyn (fun y => { y with hsrej := true })

/-- VAL takes SYN_OSET_VAL. -/
def handVal (s : State) : State := handSet s (fun y x => { x with val := y.osetVal })
/-- MODE, N and ARR take SYN_OSET_STATE; a barrier of no participants keeps ARR at 0 (R288). -/
def handState (s : State) : State := handSet s (fun y x => { x with
  mode := y.osetMode, n := y.osetN, arr := if y.osetMode && decide (y.osetN = 0) then 0 else y.osetArr })

/-- HAND_SET_VAL: SYN_OSET_CTRL bit 0. -/
def execHandSetVal (s : State) : Res := regCmd .handSetVal s (handVal s)
/-- HAND_SET_STATE: SYN_OSET_CTRL bit 1. -/
def execHandSetState (s : State) : Res := regCmd .handSetState s (handState s)

/-! Full/empty operations (12 R301). -/

def feRefuse (s : State) : State := s.modSyn (fun y => { y with feDone := false, feRefused := true })

/-- The bits of SYN_FE_STAT after an operation that reached the word. -/
def feStat (s : State) (ok full : Bool) : State :=
  s.modSyn (fun y => { y with feDone := ok, feRefused := !ok, feFull := full, fePend := none })

/-- An operation is performed, on the address and data that it took when it was requested. The full bit is read with its parity (07 R175). -/
def feDo (s0 : State) (r : FeReq) : State :=
  let a := r.addr.toNat
  let s := match r.op with
    | .force _ => s0
    | _ => readFull s0 rqDBG a
  let full := feFull s a
  let rd := fun (u : State) =>
    let v := touchRead u rqDBG a 8
    v.modSyn (fun y => { y with feDlo := BitVec.ofNat 32 (mNat v a 4), feDhi := BitVec.ofNat 32 (mNat v (a + 4) 4) })
  match r.op with
  | .put => if full then feStat s false true else feStat (setFull (memWr s rqDBG a (leBytes 8 r.data)) a true) true true
  | .take => if full then feStat (setFull (rd s) a false) true false else feStat s false false
  | .peek => feStat (rd s) true full
  | .force b => feStat (setFull s a b) true b

/-- The operation may reach its word: level INVASIVE, and the word in FE. -/
def feAllowed (s : State) (a : Nat) : Bool := invasive s && feOk s a

/-- A request for an operation: refused while one is busy, below level INVASIVE, or outside FE. It waits for a zeroisation. -/
def feReq (s : State) (op : FeOp) : State :=
  let r : FeReq := { op := op, addr := s.syn.feAddr, data := s.syn.feDhi ++ s.syn.feDlo }
  if s.syn.fePend.isSome || !feAllowed s r.addr.toNat then feRefuse s
  else if dbgWaits s then s.modSyn (fun y => { y with fePend := some r, feDone := false, feRefused := false })
  else feDo s r

/-- FE_PUT. -/
def execFePut (s : State) : Res := regCmd .fePut s (feReq s .put)
/-- FE_TAKE. -/
def execFeTake (s : State) : Res := regCmd .feTake s (feReq s .take)
/-- FE_PEEK. -/
def execFePeek (s : State) : Res := regCmd .fePeek s (feReq s .peek)
/-- FE_FORCE. -/
def execFeForce (bit : Bool) (s : State) : Res := regCmd (.feForce bit) s (feReq s (.force bit))

/-- The operation that waited is performed, or refused when the level or the partition no longer allows it (15 R362). -/
def feResume (s : State) : State :=
  match s.syn.fePend with
  | none => s
  | some r =>
    if dbgWaits s then s
    else if feAllowed s r.addr.toNat then feDo s r
    else feRefuse (s.modSyn (fun y => { y with fePend := none }))

/-! Zeroisation (07 R193). -/

/-- MEM_CTRL_ZERO starts a zeroisation. -/
def execMemCtrlZero (s : State) : Res := regCmd .memCtrlZero s (startZero s)

/-- What the end of a zeroisation ends: the stream stop, KEY_BUSY of a seal or job end, and the keys after AO_UE (15 R385; 16 R391). Every word of the 32 banks has been written (14 R340). A load whose selector waited goes on, and records of the journal that waited are written. -/
def zeroEnds (s : State) : State :=
  let t := if s.sec.endJob then clearRegions (zeroKeys s) else s
  putRecords (resolveSel (((((spend t 4 (32 * 1536)).modMem (fun m => Mem.settled { m with zeroing := false, scrubRow := 0 })).modSec
    (fun x => { x with stop := false, endJob := false, busy := x.busy && x.rekey.isSome })).modPst (fun x => { x with fresh := false }))))

/-! Scrubbing (07 R183, R185). -/

/-- Address of the word of row r in bank b. -/
def rowAddr (r b : Nat) : Nat := 196608 * (b / 4) + 128 * r + 32 * (b % 4)

/-- SCRUB_READ: the scrubber reads its row of every bank that the exchange port does not reserve. -/
def scrub (s : State) : State :=
  let r := s.mem.scrubRow
  let t := (List.range 32).foldl (fun u b =>
    if s.mem.xph && s.mem.xres.getLsbD b then u else touchRead u rqSCRUB (rowAddr r b) 32) s
  t.modMem (fun m => { m with scrubRow := (r + 1) % 1536, scrubPass := m.scrubPass + if r + 1 = 1536 then 1 else 0 })
def execScrubRead (s : State) : Res := whenOn (unitsOn s && !s.mem.zeroing) s (scrub s)

/-- SCRUB_WRITEBACK: the oldest queued codeword is written back corrected. -/
def execScrubWriteback (s : State) : Res :=
  match s.mem.wbq with
  | [] => .next s
  | cw :: rest =>
    whenMem (unitsOn s) rqSCRUB [(8 * cw, 8)] s
      ((serve (spend s 4 1) rqSCRUB (8 * cw) 8).modMem (fun m => { m with
        wbq := rest, ecc := if tabGet .clean m.ecc cw = .single then tabSet .clean m.ecc cw .clean else m.ecc }))

end Sys2Proof.Machine
end

