-- ==== Sys2Proof/Machine/Regs.lean ====
section
/-! DEFINITION. The register window read: every register of the register maps, the 64-bit registers, and the access sets (00 R5, R6, R435; 15 R362). -/

namespace Sys2Proof.Machine

/-- Bit k of a register word. -/
def bitAt (k : Nat) (b : Bool) : Nat := if b then 2 ^ k else 0

/-- The value listed at an offset. -/
def pick (off : Nat) : List (Nat × Nat) → Option Nat
  | [] => none
  | (o, v) :: t => if off = o then some v else pick off t

/-- The value of a run of n registers from base on. -/
def runOf (base step n off : Nat) (f : Nat → Nat) : Option Nat := (regIdx base step n off).map f

/-- A value of 64 bits behind a run of LO registers. -/
def runWide (base step n off : Nat) (f : Nat → Dword) : Option Dword := (regIdx base step n off).map f

/-- A bit mask over the first n numbers. -/
def maskOf (n : Nat) (p : Nat → Bool) : Nat := (List.range n).foldl (fun m i => m + bitAt i (p i)) 0

/-- Word w of a fault record; no record reads 0. -/
def recWord (r : Option FltRec) (w : Nat) : Nat :=
  match r with
  | none => 0
  | some x => ([x.w0, x.w1, x.w2, x.w3].getD w 0).toNat

/-! Derived values. -/

/-- A string holds an operation; a caravan of its own counts (05 Table 10). -/
def stringBusy (s : State) (i : Nat) : Bool := s.arr.ops.any (fun o => !o.isList && decide (o.string = i))

/-- Power state (14 Table 2). -/
def pstate (s : State) : Nat :=
  if s.clk.suspend then 3 else if s.clk.op = 4 then 2 else if effMask s < 64 || s.clk.stretch then 1 else 0

/-- Watch slot k is in use (12 R291). -/
def slotUsed (s : State) (k : Nat) : Bool := if k < 8 then (watchOf s k).active else (watchOf s k).en

/-- Slot k watches object o; slot 7 does while a WAIT stalls. -/
def slotWatches (s : State) (k : Nat) (o : Byte) : Bool :=
  let waits := match s.core.mode with
    | .wait _ => true
    | _ => false
  slotUsed s k && decide ((watchOf s k).obj = o) && (decide (k ≠ 7) || waits)

/-- Bales whose position is not yet due under strict order (06 R156). -/
def robHeld (s : State) : Nat :=
  if baleStrict s then (s.arr.bq.filter (fun b => decide (b.pos ≠ s.arr.relPos))).length else 0

/-- FAC_GVAL: the selected value of the running context's open step (log entry 54). -/
def gval (s : State) : Nat :=
  let x := facOf s s.core.cur
  match x.lat.groups[s.fac.gselGroup.toNat]? with
  | some g => if x.st = 0 then (Config.gvalClosed s.fac.gselGroup.toNat s.fac.gselItem.toNat).toNat else (g.v.getD s.fac.gselItem.toNat 0).toNat
  | none => (Config.gvalClosed s.fac.gselGroup.toNat s.fac.gselItem.toNat).toNat

/-- The selected region entry of Obtur; H and Lo of a step-bound region are those of c0 (15 R375). -/
def selStep (s : State) : Bool := (regionEnt s s.sec.rselCtx s.sec.rselRegion).stepBound
def selRg (s : State) : RgState := rgOf s s.sec.rselCtx s.sec.rselRegion
def selMark (s : State) : RgState := rgOf s (markCtx (selStep s) s.sec.rselCtx) s.sec.rselRegion

/-! Registers of 64 bits, by the offset of LO (00 R435). -/

def wideCore (s : State) (off : Nat) : Option Dword :=
  if off = 0x10 then some s.core.stage
  else if off = 0x420 then some s.man.agree
  else runWide 0x1400 128 4 off (fun c => BitVec.ofNat 64 (cfg s (oCTX + 80 * c) 8))

def wideEng (s : State) (off : Nat) : Option Dword :=
  if off = 0x1804 then some (BitVec.ofNat 64 (maskOf 64 (stringBusy s)))
  else if off = 0x180C then some (BitVec.ofNat 64 (maskOf 64 (mayIssue s)))
  else if off = 0x1820 then some s.arr.mac
  else if off = 0x1908 then some (BitVec.ofNat 64 (maskOf 64 (fun i => s.arr.ops.any (fun o => o.open_ && decide (o.string = i)))))
  else if off = 0x2890 then some s.fac.params
  else if off = 0x2A08 then some (BitVec.ofNat 64 (cfg s (oFACTOR + 8) 8))
  else if off = 0x3544 then some (BitVec.ofNat 64 (queryWord s s.sth.esel.toNat))
  else none

def wideGov (s : State) (off : Nat) : Option Dword :=
  let r := fun i => tabGet ({} : Reason) s.gov.rsn i
  if off = 0x5020 then some (energyNj s)
  else if off = 0x5200 then some s.gov.markEnergy
  else if off = 0x5208 then some s.gov.markPticks
  else ((runWide 0x5100 16 8 off (fun i => (r i).dur)).or (runWide 0x5108 16 8 off (fun i => (r i).evt))).or
    (runWide 0x5280 8 16 off (tabGet 0 s.gov.markRsn))

def wideLdg (s : State) (off : Nat) : Option Dword :=
  let l := s.ldg
  if off = 0x5810 then some l.time
  else if off = 0x5818 then some l.wallofs
  else if off = 0x5820 then some l.pticks
  else if off = 0x5850 then some l.mac
  else if off = 0x5858 then some l.ce
  else if off = 0x5860 then some l.thex
  else if off = 0x5868 then some l.mmrd
  else if off = 0x5870 then some l.mmlow
  else runWide 0x5828 8 5 off (tabGet 0 l.acyc)

def wideRest (s : State) (off : Nat) : Option Dword :=
  if off = 0x6048 then some (selMark s).h
  else if off = 0x6050 then some (selMark s).lo
  else if off = 0x700C then some (if s.dbg.halted then rd s s.dbg.ssel else 0)
  else if off = 0x8010 then some s.jrnl.last
  else if off = 0x8020 then some s.jrnl.step
  else if off = 0x8028 then some s.jrnl.commit
  else if off = 0x8030 then some s.jrnl.rpEnd
  else if off = 0x8038 then some s.jrnl.rpStage
  else runWide 0x8050 8 4 off (tabGet 0 s.jrnl.rpNew)

/-- The 64-bit value whose LO register lies at an offset. -/
def wideReg (s : State) (off : Nat) : Option Dword :=
  ((((wideCore s off).or (wideEng s off)).or (wideGov s off)).or (wideLdg s off)).or (wideRest s off)

/-! Registers of 32 bits, by block. -/

def rdCore (s : State) (off : Nat) : Option Nat :=
  let k := s.core
  let n := fun e => (qOf s e).wait.length
  (pick off [(0x0, 0xFA1C0302),
    (0x4, s.clk.op.toNat + bitAt 4 s.clk.alert + bitAt 5 s.clk.stretch),
    (0x8, k.phase.toNat + 16 * k.phaseZone.toNat), (0x18, k.lastWait.toNat), (0x1C, k.exchLen.toNat),
    (0x100, k.cur.toNat + 16 * k.next.toNat + bitAt 8 k.switch + bitAt 9 k.swrej + bitAt 10 k.rldBusy +
      4096 * maskOf 4 (fun c => (ctxOf s (BitVec.ofNat 2 c)).halted)),
    (0x120, (curCtx s).pc.toNat), (0x124, n eARR + 2 ^ 8 * n eVEC + 2 ^ 16 * n eFAC + 2 ^ 20 * n eWGH + 2 ^ 24 * n eSTR),
    (0x128, n ePST + 2 ^ 4 * n eSTH), (0x130, k.tileId.toNat), (0x134, k.tileCount.toNat),
    (0x140, k.stallQ.toNat), (0x144, k.stallArb.toNat), (0x148, k.stallWait.toNat),
    (0x180, k.rstatCause.toNat + bitAt 2 k.rstatZskip)]).or
    (runOf 0x110 4 4 off (fun c => (tabGet 0 k.entry c).toNat))

def rdMan (s : State) (off : Nat) : Option Nat :=
  let m := s.man
  let o := m.cfgAddr.toNat / 4 * 4
  pick off [(0x404, m.loadSt.toNat + bitAt 2 m.armed.isSome + bitAt 3 m.syncing + bitAt 4 m.hold + bitAt 5 m.isLive +
      bitAt 6 m.lwin + bitAt 8 m.wrej + bitAt 9 m.err),
    (0x408, m.loadAddr.toNat), (0x40C, m.loadLen.toNat), (0x410, m.armEpoch.toNat), (0x414, m.epochCur.toNat),
    (0x418, m.epochShadow.toNat), (0x41C, m.errCode.toNat + 2 ^ 8 * m.errType.toNat + 2 ^ 16 * m.errOff.toNat),
    (0x428, m.commits.toNat), (0x42C, m.holdEpoch.toNat), (0x430, m.cfgAddr.toNat + bitAt 16 m.cfgLive),
    (0x434, if cfgSize ≤ o then 0 else if m.cfgLive then cfg s o 4 else tNum m.shadow o 4)]

def rdSyn (s : State) (off : Nat) : Option Nat :=
  let y := s.syn
  let x := objOf s y.osel
  ((pick off [(0x1000, bitAt 0 y.dlock + bitAt 1 y.ovf + bitAt 2 y.attdrop + bitAt 3 y.hsrej +
      16 * ((List.range 32).filter (slotUsed s)).length),
    (0x1004, y.wmThresh.toNat), (0x1008, y.wmCount.toNat),
    (0x100C, y.snapObj.toNat + bitAt 8 y.snapCcw + 2 ^ 9 * y.snapCck.toNat + 2 ^ 12 * y.snapQw.toNat + bitAt 19 y.snapPst),
    (0x1010, y.errObj.toNat + 2 ^ 8 * y.errSrc.toNat + 2 ^ 12 * y.errCtx.toNat),
    (0x1020, y.sigs.toNat), (0x1024, y.wakes.toNat), (0x1028, y.takes.toNat), (0x102C, y.wmFires.toNat),
    (0x1030, y.attDropCnt.toNat), (0x1034, y.wmPdrop.toNat), (0x1038, y.waitCyc.toNat),
    (0x1200, y.osel.toNat), (0x1204, x.val.toNat), (0x1208, bitAt 0 x.mode + 2 ^ 8 * x.n.toNat + 2 ^ 16 * x.arr.toNat),
    (0x120C, maskOf 32 (fun k => slotWatches s k y.osel)), (0x1210, x.lastSrc.toNat + 2 ^ 4 * x.lastCtx.toNat),
    (0x1220, y.osetVal.toNat), (0x1224, bitAt 0 y.osetMode + 2 ^ 8 * y.osetN.toNat + 2 ^ 16 * y.osetArr.toNat),
    (0x1240, y.feAddr.toNat), (0x1244, y.feDlo.toNat), (0x1248, y.feDhi.toNat),
    (0x1250, bitAt 0 y.feDone + bitAt 1 y.feRefused + bitAt 2 y.feFull + bitAt 3 y.fePend.isSome)]).or
    (runOf 0x1100 8 32 off (fun k =>
      let w := watchOf s k
      w.obj.toNat + 2 ^ 8 * w.cond.toNat + bitAt 10 (slotUsed s k) + bitAt 11 w.hit + bitAt 12 w.en))).or
    (runOf 0x1104 8 32 off (fun k => (watchOf s k).tgt.toNat))

def rdArr (s : State) (off : Nat) : Option Nat :=
  let a := s.arr
  pick off [(0x1800, bitAt 0 ((List.range 64).any (stringBusy s)) + bitAt 1 (nextBale s).isSome + 2 ^ 2 * a.bq.length +
      bitAt 6 (decide (effMask s < 64)) + bitAt 7 a.derr),
    (0x1828, a.adv.toNat), (0x182C, a.frzArb.toNat), (0x1830, a.frzBuf.toNat), (0x1834, a.frzThr.toNat), (0x1838, a.bales.toNat),
    (0x1840, a.derrAddr.toNat), (0x1844, a.derrCause.toNat + 2 ^ 4 * a.derrString.toNat + 2 ^ 10 * a.derrFn.toNat),
    (0x1900, a.steals.toNat), (0x1904, a.listEnt.toNat), (0x1910, a.cardepFull.toNat), (0x1914, a.cardepDl.toNat),
    (0x1918, a.cardepForce.toNat), (0x191C, a.carRows.toNat), (0x1920, a.ballast.toNat), (0x1924, robHeld s),
    (0x1928, a.robWait.toNat), (0x192C, a.bqFullw.toNat)]

def rdVec (s : State) (off : Nat) : Option Nat :=
  let v := s.vec
  let r := tabGet ({} : RunRow) v.runm v.rmsel.toNat
  let infl := (qOf s eVEC).infl
  pick off [(0x2000, bitAt 0 (!infl.isEmpty) + 2 * (infl.filter (fun x => decide (x.ent.fn.toNat < 2))).length +
      bitAt 4 (baleWaits s) + bitAt 5 v.derr),
    (0x2004, v.derrAddr.toNat),
    (0x2008, v.derrCause.toNat + 2 ^ 4 * v.derrFn.toNat + 2 ^ 8 * v.derrPreset.toNat + 2 ^ 16 * v.derrUop.toNat),
    (0x2010, v.beats.toNat), (0x2014, v.frzArb.toNat), (0x2018, v.bqWait.toNat), (0x201C, v.dt2Extra.toNat),
    (0x2020, v.ops.toNat), (0x2024, v.serWait.toNat), (0x2100, v.vselReg.toNat + 2 ^ 5 * v.vselLane.toNat),
    (0x2104, (tabGet 0 v.v (64 * v.vselReg.toNat + v.vselLane.toNat)).toNat), (0x2108, v.rmsel.toNat),
    (0x210C, r.m.toNat), (0x2110, r.p.toNat), (0x2114, r.l.toNat), (0x2118, r.c.toNat)]

def rdWgh (s : State) (off : Nat) : Option Nat :=
  let w := s.wgh
  let x := fun k => tabGet ({} : Weigher) w.w k
  ((((pick off [(0x2D00, w.l.toNat + 2 ^ 8 * w.good.toNat), (0x2D04, w.nonfin.toNat + 2 ^ 16 * w.sat.toNat),
    (0x2D08, w.mixed.toNat + bitAt 16 w.nanAny + bitAt 17 w.infAny + bitAt 18 w.lsdown + bitAt 19 w.notoken),
    (0x2E90, w.hselW.toNat + 2 ^ 4 * w.hselE.toNat), (0x2E94, (tabGet 0 (x w.hselW.toNat).hist w.hselE.toNat).toNat)]).or
    (runOf 0x2C00 16 16 off (fun k => (x k).acc.amax.toNat))).or
    (runOf 0x2C04 16 16 off (fun k => (x k).s.toNat + 2 ^ 8 * (x k).fill.toNat + 2 ^ 16 * (x k).acc.fmt.toNat))).or
    (runOf 0x2C08 16 16 off (fun k => (histMax (x k).hist (x k).fill.toNat).toNat))).or
    (runOf 0x2C0C 16 16 off (fun k => (x k).obs.toNat))

def rdFac (s : State) (off : Nat) : Option Nat :=
  let f := s.fac
  let x := fun c => facOf s (BitVec.ofNat 2 c)
  (((pick off [(0x2800, bitAt 0 (!(qOf s eFAC).infl.isEmpty) + bitAt 1 (s.str.jobs.any (fun j => decide (j.user = .fac))) +
      bitAt 2 f.derr + bitAt 3 f.schederr + bitAt 4 f.p2nonfin + bitAt 5 f.rbrej),
    (0x2850, f.tok.sq.toNat), (0x2854, f.tok.norm.toNat), (0x2858, f.tok.c.toNat), (0x285C, f.tok.min.toNat),
    (0x2860, f.tok.max.toNat), (0x2864, bitAt 0 f.tok.nf + bitAt 1 (decide (f.tok.min ≠ f.tok.max)) + 2 ^ 4 * f.tokCtx.toNat),
    (0x2870, (partSum (facOf s s.core.cur)).toNat), (0x2880, f.derrAddr.toNat), (0x2884, f.derrCause.toNat + 2 ^ 4 * f.derrFn.toNat),
    (0x2898, f.skips.toNat), (0x289C, f.commits.toNat), (0x28A0, f.frzArb.toNat),
    (0x28C0, f.gselGroup.toNat + 2 ^ 8 * f.gselItem.toNat), (0x28C4, gval s)]).or
    (runOf 0x2810 16 4 off (fun c => (x c).step.toNat))).or
    (runOf 0x2814 16 4 off (fun c => (x c).ver.toNat))).or
    (runOf 0x2818 16 4 off (fun c => (x c).st.toNat + bitAt 3 (x c).wrapped + bitAt 4 (x c).rollok + 2 ^ 5 * (x c).skip.toNat + bitAt 7 (x c).partNf))

def rdMem (s : State) (off : Nat) : Option Nat :=
  let m := s.mem
  let h := s.sth
  let cnt := fun (st : StSt) => (h.ents.filter (fun p => decide (p.2.st = st))).length
  (pick off [(0x3000, bitAt 0 m.zeroing + bitAt 1 (m.xph && decide (m.xres ≠ 0)) + bitAt 2 m.ce + bitAt 3 m.ue + bitAt 4 m.wbovf),
    (0x3008, m.scrubInt.toNat), (0x300C, m.scrubPass.toNat), (0x3010, m.ceCount.toNat),
    (0x3014, 2 ^ 3 * m.ceCw.toNat + 2 ^ 23 * m.ceReq.toNat),
    (0x3018, 2 ^ 3 * m.ueCw.toNat + 2 ^ 23 * m.ueReq.toNat + bitAt 28 m.ueFe), (0x301C, m.zeroCount.toNat),
    (0x3020, m.xunres.toNat), (0x3024, m.preempt.toNat),
    (0x3500, bitAt 0 (!(qOf s eSTH).infl.isEmpty || h.clearPend) + bitAt 1 (depotBusy s || h.rd.isSome) + bitAt 2 h.err),
    (0x3508, h.errCause.toNat + 2 ^ 4 * h.errFn.toNat + 2 ^ 16 * h.errId.toNat), (0x350C, cnt .lcl + 2 ^ 16 * cnt .depot),
    (0x3510, ringT s + 2 ^ 16 * ringH s), (0x3514, h.hwm.toNat), (0x3518, h.dptr.toNat), (0x351C, h.spills.toNat),
    (0x3520, h.drops.toNat), (0x3524, h.dropget.toNat), (0x3528, h.dblk.toNat), (0x352C, h.fullCnt.toNat),
    (0x3530, h.mbmax.toNat), (0x3534, h.mbpeak.toNat), (0x3540, h.esel.toNat)]).or
    (runOf 0x3100 4 32 off (fun b => (tabGet 0 m.bankLost b).toNat))

def rdXch (s : State) (off : Nat) : Option Nat :=
  let x := s.xch
  let nxt := match x.load with
    | some (_, i) => i
    | none => (inactBank s).image
  (pick off [(0x3800, bitAt 0 x.act + bitAt 1 x.load.isSome + bitAt 2 (decide ((inactBank s).st = .ready)) + bitAt 3 x.lerr +
      bitAt 4 x.rerr + bitAt 5 x.late + bitAt 6 x.coll + bitAt 7 x.trej),
    (0x3804, (actBank s).image.toNat + 2 ^ 4 * nxt.toNat),
    (0x3808, (List.range 4).foldl (fun n c => n + 2 ^ (4 * c) * (tabGet 0 x.resume c).toNat) 0),
    (0x380C, x.loadCyc.toNat), (0x3810, x.lerrCause.toNat + 2 ^ 4 * x.lerrEnt.toNat + 2 ^ 16 * x.lerrImg.toNat),
    (0x3814, x.rerrCause.toNat + 2 ^ 2 * x.rerrEnt.toNat), (0x3818, x.rerrOff.toNat),
    (0x381C, x.rerrSrc.toNat + 2 ^ 20 * x.rerrSent.toNat), (0x3820, x.rerrBeat.toNat), (0x3824, x.collOff.toNat),
    (0x3830, x.beatsOut.toNat), (0x3834, x.beatsIn.toNat), (0x3838, x.rerrs.toNat), (0x383C, x.inDisc.toNat),
    (0x3840, x.skips.toNat), (0x3844, x.loads.toNat), (0x3880, bitAt 0 x.testEn), (0x3884, x.tselEnt.toNat + bitAt 12 x.tselBank)]).or
    (runOf 0x3888 4 4 off (fun w => (tabGet 0 x.tdata w).toNat))

def rdStr (s : State) (off : Nat) : Option Nat :=
  let x := s.str
  let p := s.pst
  pick off [(0x4000, bitAt 0 (!streamDrained s) + 2 * x.reads.length + 2 ^ 8 * x.writes.length + bitAt 15 x.derr + bitAt 16 x.resp +
      2 ^ 17 * x.inbuf),
    (0x4004, x.derrCause.toNat + 2 ^ 4 * x.derrFn.toNat + 2 ^ 6 * x.derrRegion.toNat + 2 ^ 12 * x.derrCtx.toNat + 2 ^ 14 * x.derrUser.toNat),
    (0x4010, x.respKind.toNat + 2 ^ 4 * x.respStatus.toNat + 2 ^ 6 * x.respTag.toNat),
    (0x4020, x.rdBlk.toNat), (0x4024, x.wrBlk.toNat), (0x4028, x.rpOut.toNat), (0x402C, x.rpIn.toNat),
    (0x4030, x.credWait.toNat), (0x4034, x.tagWait.toNat), (0x4038, x.nackIn.toNat),
    (0x4800, bitAt 0 (!p.msgs.isEmpty) + 2 * p.msgs.length + bitAt 4 (p.msgs.any (fun (m : PstMsg) => decide (m.st = MsgSt.retry))) +
      bitAt 5 p.derr + bitAt 6 p.mbinit),
    (0x4804, p.derrCause.toNat + 2 ^ 4 * p.derrFn.toNat + 2 ^ 6 * p.derrQueue.toNat),
    (0x4810, p.sent.toNat), (0x4814, p.closed.toNat), (0x4818, p.resends.toNat), (0x481C, p.recv.toNat),
    (0x4820, p.inFull.toNat), (0x4824, p.inClosed.toNat)]

def rdGov (s : State) (off : Nat) : Option Nat :=
  let g := s.gov
  ((((pick off [(0x5000, pstate s + 2 ^ 3 * effMask s + bitAt 10 g.noallow + 2 ^ 11 * g.therm.toNat + bitAt 13 g.pend.isSome + bitAt 14 g.markArm),
    (0x5008, g.allowCur.toNat + 2 ^ 16 * g.debt.toNat), (0x500C, g.allowDflt.toNat), (0x5010, g.reqLast.toNat),
    (0x5014, g.phaseCur.toNat + 2 ^ 8 * ((g.pend.map (fun p => p.phase.toNat)).getD 0)), (0x5018, g.allowMiss.toNat),
    (0x5030, g.slew.toNat), (0x5034, g.cap2.toNat + 2 ^ 8 * g.cap3.toNat), (0x5038, g.dbgMask.toNat + bitAt 8 g.dbgEn),
    (0x503C, g.droopThr.toNat + bitAt 8 g.droopEn),
    (0x5040, g.vreqCur.toNat + 2 ^ 8 * g.vreqNxt.toNat + 2 ^ 16 * min (scale16 g.vreqCur) 0xFFFF),
    (0x5044, (List.range 5).foldl (fun n k => n + 2 ^ (5 * k) * (tabGet 0 s.ldg.trim k).toNat) 0),
    (0x5048, g.mmRead.toNat + 2 ^ 8 * g.mmOp.toNat), (0x504C, g.mmInt.toNat), (0x5050, g.mmLow.toNat + 2 ^ 8 * g.mmHigh.toNat),
    (0x5054, g.mmLower.toNat)]).or
    (runOf 0x5060 4 10 off (coefOf s))).or
    (runOf 0x5300 4 64 off (fun p => (tariffOf s (BitVec.ofNat 6 p)).e.toNat))).or
    (runOf 0x5400 4 64 off (fun p => (tariffOf s (BitVec.ofNat 6 p)).d.toNat))).or
    (runOf 0x5500 4 64 off (fun p => (tariffOf s (BitVec.ofNat 6 p)).n.toNat))

def rdLdg (s : State) (off : Nat) : Option Nat :=
  let l := s.ldg
  ((pick off [(0x5800, bitAt 0 l.valid + bitAt 1 l.snaprdy + bitAt 2 l.savebusy + bitAt 3 l.snaprej + bitAt 4 l.rsterr),
    (0x5808, l.rsterrCause.toNat), (0x580C, l.auto_.toNat)]).or
    (runOf 0x5900 4 34 off (fun w => (tabGet 0 l.snap w).toNat))).or
    (runOf 0x5A00 4 34 off (fun w => (tabGet 0 l.rbuf w).toNat))

def rdSec (s : State) (off : Nat) : Option Nat :=
  let x := s.sec
  let r := selRg s
  pick off [(0x6000, x.state.toNat + 2 ^ 2 * x.level.toNat + 2 ^ 4 * (ceiling s).toNat + bitAt 6 (decide (x.key ≠ 0) || decide (x.keyId ≠ 0)) +
      bitAt 7 x.rkeyHeld + bitAt 8 x.permit + bitAt 9 x.codeOk + bitAt 10 x.stop + bitAt 11 x.sexh + bitAt 12 x.err),
    (0x6004, x.keyId.toNat), (0x6008, x.rkeyId.toNat), (0x600C, x.dbgReq.toNat), (0x6014, x.codeAddr.toNat), (0x6018, x.codeLen.toNat),
    (0x601C, x.codeErr.toNat + 2 ^ 8 * x.codeState.toNat), (0x6020, x.seCur.toNat), (0x6024, x.seV.toNat + 2 ^ 24 * x.seVKey.toNat),
    (0x6028, x.seV1.toNat + 2 ^ 24 * x.seV1Key.toNat), (0x6040, x.rselRegion.toNat + 2 ^ 8 * x.rselCtx.toNat),
    (0x6044, (if selStep s then (seEpoch x.seCur).toNat else r.e.toNat) + bitAt 24 (selStep s) + bitAt 25 r.lock + bitAt 26 r.exh + 2 ^ 27 * r.k.toNat),
    (0x6058, r.ue.toNat + bitAt 31 r.ueV), (0x6060, x.blkOut.toNat), (0x6064, x.blkIn.toNat), (0x6068, x.tagFail.toNat),
    (0x606C, x.wRefuse.toNat), (0x6070, x.rpStale.toNat), (0x6074, x.escal.toNat),
    (0x6080, x.errCause.toNat + 2 ^ 4 * x.errRegion.toNat + 2 ^ 10 * x.errCtx.toNat + 2 ^ 12 * x.errUser.toNat)]

def rdFlt (s : State) (off : Nat) : Option Nat :=
  let f := s.flt
  (((pick off [(0x6800, bitAt 0 f.cont + bitAt 1 f.pend + bitAt 2 f.fatal + bitAt 3 f.lovf + 2 ^ 4 * f.log.length), (0x6808, f.injCode.toNat),
    (0x6830, f.lsel.toNat), (0x6850, f.cntCe.toNat), (0x6854, f.cntCont.toNat), (0x6858, f.cntHalt.toNat),
    (0x7004, bitAt 0 s.dbg.halted + 2 * s.dbg.cause.toNat + bitAt 3 s.dbg.rej), (0x7008, s.dbg.ssel.toNat)]).or
    (runOf 0x6810 4 4 off (recWord f.first))).or
    (runOf 0x6820 4 4 off (recWord f.fatalRec))).or
    (runOf 0x6834 4 4 off (recWord f.log[f.lsel.toNat]?))

/-- Local address of a word of the record window: word i mod 8 of ring slot (JRNL_WSEL + i / 8) mod N. -/
def recWindowAt (s : State) (i : Nat) : Nat := partBase s pJRNL + 32 * ((s.jrnl.wsel.toNat + i / 8) % jrnlN s) + 4 * (i % 8)
def recWindow (s : State) (i : Nat) : Nat := if jrnlN s = 0 then 0 else mNat s (recWindowAt s i) 4

/-- A read of the record window reads the ring (log entry 92). -/
def touchWindow (s : State) (off : Nat) : State :=
  if 0xC000 ≤ off ∧ jrnlN s ≠ 0 then touchRead s rqDBG (recWindowAt s ((off - 0xC000) / 4)) 4 else s

def rdJrnl (s : State) (off : Nat) : Option Nat :=
  let j := s.jrnl
  (pick off [(0x8000, bitAt 0 (jrnlEn s) + bitAt 1 j.copyBusy + bitAt 2 j.rparm + bitAt 3 j.rpact + bitAt 4 j.rpdiv + bitAt 5 j.rpdone +
      bitAt 6 j.rprej + bitAt 7 j.copyerr + bitAt 8 j.wstep),
    (0x8008, bitAt 0 j.stopdiv), (0x8018, j.lastEpoch.toNat), (0x801C, j.count.toNat), (0x8040, j.rpField.toNat), (0x8044, j.rpNdiv.toNat),
    (0x8048, j.rpUncmp.toNat), (0x8070, j.copyPtr.toNat), (0x8074, j.copies.toNat), (0x8078, j.wsel.toNat)]).or
    (runOf 0xC000 4 4096 off (recWindow s))

/-- An SH register reads the live value (02 R34). -/
def rdSh (s : State) (off : Nat) : Option Nat := (shAt off).map (fun p => (BitVec.ofNat 32 (cfg s p.1 4) &&& p.2).toNat)

/-- A register of 32 bits; a reserved offset and a write-only register read 0 (R6, Table 7). -/
def narrowReg (s : State) (off : Nat) : Nat :=
  (if off < 0x400 then rdCore s off
   else if off < 0x1000 then rdMan s off
   else if off < 0x1800 then (rdSyn s off).or (rdSh s off)
   else if off < 0x2000 then (rdArr s off).or (rdSh s off)
   else if off < 0x2800 then (rdVec s off).or (rdSh s off)
   else if off < 0x3000 then ((rdWgh s off).or (rdFac s off)).or (rdSh s off)
   else if off < 0x3800 then (rdMem s off).or (rdSh s off)
   else if off < 0x4000 then rdXch s off
   else if off < 0x5000 then rdStr s off
   else if off < 0x5800 then (rdGov s off).or (rdSh s off)
   else if off < 0x6000 then rdLdg s off
   else if off < 0x6800 then (rdSec s off).or (rdSh s off)
   else if off < 0x8000 then rdFlt s off
   else (rdJrnl s off).or (rdSh s off)).getD 0

/-! Access sets (15 R362). -/

/-- The level that an access needs: 0 for the control set, 1 observe, 2 invasive. -/
abbrev Need := Nat

/-- An offset lies in one of the ranges, ends included. -/
def within (off : Nat) (rs : List (Nat × Nat)) : Bool := rs.any (fun r => decide (r.1 ≤ off) && decide (off ≤ r.2))

/-- Registers of the observe set but the weigher registers of 0x2C00: fault records, ledger counters, token and partial, GVAL, HDATA, sync values, and event counters. The SEC block is of the control set. -/
def observeSet : List (Nat × Nat) :=
  [(0x140, 0x148), (0x428, 0x428), (0x1020, 0x1038), (0x1204, 0x1210), (0x1820, 0x1838), (0x1900, 0x1904), (0x1910, 0x1920),
   (0x1928, 0x192C), (0x2010, 0x2024), (0x2850, 0x2864), (0x2870, 0x2870), (0x2890, 0x28A0), (0x28C4, 0x28C4), (0x2E94, 0x2E94),
   (0x300C, 0x3010), (0x301C, 0x3024), (0x3100, 0x317C), (0x351C, 0x352C), (0x3830, 0x3844), (0x4020, 0x4038), (0x4810, 0x4824),
   (0x5018, 0x5018), (0x5100, 0x517C), (0x5810, 0x5814), (0x5820, 0x5874), (0x6810, 0x682C), (0x6834, 0x6840), (0x6850, 0x6858),
   (0x8044, 0x8048), (0x8074, 0x8074)]

/-- Reads of the invasive set, beside the memory window (08 R218, 11 R280, 12 R305). -/
def invasiveReads : List (Nat × Nat) :=
  [(0x1244, 0x1248), (0x2104, 0x2104), (0x210C, 0x2118), (0x3544, 0x3548), (0x8050, 0x806C), (0xC000, 0xFFFC)]

/-- AMAX, HMAX and OBS of the weighers; ST lies in the control set. -/
def wghObserve (off : Nat) : Bool := decide (0x2C00 ≤ off) && decide (off < 0x2D00) && decide (off % 16 ≠ 4)

def readNeed (off : Nat) : Need :=
  if within off invasiveReads then 2
  else if within off observeSet || wghObserve off || within off [(0x1100, 0x11FC)] then 1 else 0

def writeNeed (off : Nat) : Need :=
  if off = 0x5038 then 2 else if within off observeSet || wghObserve off then 1 else 0

/-- The level in force allows an access that needs n. -/
def allowed (s : State) (n : Need) : Bool := decide (n ≤ s.sec.level.toNat)

/-! Reading a register. -/

/-- A read of the register at an offset: its value, and the state with the upper half latched by a LO (R435). A refused read returns 0. -/
def readReg (s : State) (off : Nat) : State × Word :=
  if !allowed s (readNeed off) then (s, 0)
  else
    match wideReg s off with
    | some v => (s.modBus (fun x => { x with latch := tabSet 0 x.latch off ((v >>> 32).setWidth 32) }), v.setWidth 32)
    | none =>
      if off = 0x7010 ∧ s.dbg.halted = false then (s, 0)
      else if decide (4 ≤ off) && (wideReg s (off - 4)).isSome then (s, tabGet 0 s.bus.latch (off - 4))
      else (touchWindow s off, BitVec.ofNat 32 (narrowReg s off))

end Sys2Proof.Machine
end

