-- ==== Sys2Proof/Machine/Bus.lean ====
section
/-! DEFINITION. The register window written, the debug unit, the memory window and accesses that wait (00 R435, R436; 15 R362, R365, R371; 17 R405 to R411). -/

namespace Sys2Proof.Machine

/-! Writing. -/

/-- Bit k of a written value. -/
def wb (v : Word) (k : Nat) : Bool := v.getLsbD k

/-- Bits hi to lo of a written value. -/
def wf (v : Word) (hi lo w : Nat) : BitVec w := BitVec.ofNat w (bitsOf v.toNat hi lo)

/-- A status bit of access W1C. -/
def w1c (v : Word) (k : Nat) (b : Bool) : Bool := b && !wb v k

/-- A word address: bits [1:0] read 0 and ignore writes. -/
def wordAddr (v : Word) : Addr := ((v.setWidth 21) >>> 2) <<< 2

/-- Where bit k is 1, do an action (R436: in ascending order). -/
def onBit (v : Word) (k : Nat) (s : State) (f : State → State) : State := if wb v k then f s else s

/-- A write of the HI register of a 64-bit value is held (R435). -/
def holdHi (s : State) (lo : Nat) (v : Word) : State := setHeld s lo (some v)

/-- A write of the LO register sets both halves, or the lower one while no HI is held (R435). -/
def joinLo (s : State) (lo : Nat) (old : Dword) (v : Word) : Dword := ((heldHi s lo).getD ((old >>> 32).setWidth 32)) ++ v

def wrCore (s : State) (off : Nat) (v : Word) : State :=
  if off = 0x10 then
    if s.man.lwin then setHeld (s.modCore (fun k => { k with stage := joinLo s 0x10 k.stage v })) 0x10 none else s
  else if off = 0x14 then if s.man.lwin then holdHi s 0x10 v else s
  else if off = 0x100 then writeCtx s v
  else if off = 0x104 then reloadReq s (v.setWidth 4)
  else if off = 0x134 then s.modCore (fun k => { k with tileCount := v.setWidth 21 })
  else
    match regIdx 0x110 4 4 off with
    | none => s
    | some c =>
      if (ctxRuns s && decide (s.core.cur.toNat = c)) || (ctxOf s (BitVec.ofNat 2 c)).atSync then s
      else s.modCore (fun k => { k with entry := tabSet 0 k.entry c (wordAddr v) })

def wrMan (b : Bus) (s : State) (off : Nat) (v : Word) : State :=
  if off = 0x400 then
    onBit v 4 (onBit v 3 (onBit v 2 (onBit v 1 (onBit v 0 s (fun t => (startLoad t).1)) (fun t => (armWith t t.man.armEpoch).1)) disarm) resumeHold) discardShadow
  else if off = 0x404 then
    s.modMan (fun m =>
      let n := { m with wrej := w1c v 8 m.wrej }
      if wb v 9 then { n with err := false, errCode := 0, errType := 0, errOff := 0 } else n)
  else if off = 0x408 then s.modMan (fun m => { m with loadAddr := wordAddr v })
  else if off = 0x40C then s.modMan (fun m => { m with loadLen := v.setWidth 17 })
  else if off = 0x410 then s.modMan (fun m => { m with armEpoch := v })
  else if off = 0x430 then s.modMan (fun m => { m with cfgAddr := ((v.setWidth 14) >>> 2) <<< 2, cfgLive := wb v 16 })
  else writeShadow b s off v

def wrSyn (s : State) (off : Nat) (v : Word) : State :=
  if off = 0x1000 then
    s.modSyn (fun y => { y with dlock := w1c v 0 y.dlock, ovf := w1c v 1 y.ovf, attdrop := w1c v 2 y.attdrop, hsrej := w1c v 3 y.hsrej })
  else if off = 0x1004 then s.modSyn (fun y => { y with wmThresh := v })
  else if off = 0x1200 then s.modSyn (fun y => { y with osel := v.setWidth 8 })
  else if off = 0x1220 then s.modSyn (fun y => { y with osetVal := v })
  else if off = 0x1224 then s.modSyn (fun y => { y with osetMode := wb v 0, osetN := wf v 15 8 8, osetArr := wf v 23 16 8 })
  else if off = 0x1228 then onBit v 1 (onBit v 0 s handVal) handState
  else if off = 0x1240 then s.modSyn (fun y => { y with feAddr := ((v.setWidth 21) >>> 3) <<< 3 })
  else if off = 0x1244 then s.modSyn (fun y => { y with feDlo := v })
  else if off = 0x1248 then s.modSyn (fun y => { y with feDhi := v })
  else if off = 0x124C then
    match bitsOf v.toNat 2 0 with
    | 0 => s
    | 1 => feReq s .put
    | 2 => feReq s .take
    | 3 => feReq s .peek
    | 4 => feReq s (.force (wb v 3))
    | _ => feRefuse s
  else
    match regIdx 0x1100 8 32 off, regIdx 0x1104 8 32 off with
    | some k, _ =>
      if k < 8 then s
      else setWatch s k { watchOf s k with obj := v.setWidth 8, cond := wf v 9 8 2, hit := w1c v 11 (watchOf s k).hit, en := wb v 12 }
    | none, some k => if k < 8 then s else setWatch s k { watchOf s k with tgt := v }
    | none, none => s

def wrWgh (s : State) (off : Nat) (v : Word) : State :=
  if off = 0x2D00 then if s.man.lwin then s.modWgh (fun w => { w with l := v.setWidth 8, good := wf v 23 8 16 }) else s
  else if off = 0x2D04 then s.modWgh (fun w => { w with nonfin := w.nonfin &&& ~~~(v.setWidth 16), sat := w.sat &&& ~~~(wf v 31 16 16) })
  else if off = 0x2D08 then
    s.modWgh (fun w => { w with
      mixed := w.mixed &&& ~~~(v.setWidth 16), nanAny := w1c v 16 w.nanAny, infAny := w1c v 17 w.infAny
      lsdown := w1c v 18 w.lsdown, notoken := w1c v 19 w.notoken })
  else if off = 0x2E90 then s.modWgh (fun w => { w with hselW := wf v 3 0 4, hselE := wf v 7 4 4 })
  else if off = 0x2E94 then
    if s.man.lwin then
      s.modWgh (fun w => { w with w := tabMod {} w.w w.hselW.toNat (fun x => { x with hist := tabSet 0 x.hist w.hselE.toNat v }) })
    else s
  else
    match regIdx 0x2C04 16 16 off with
    | none => s
    | some k =>
      if s.man.lwin then
        s.modWgh (fun w => { w with w := tabMod {} w.w k (fun x =>
          { x with s := v.setWidth 8, fill := BitVec.ofNat 5 (min 16 (bitsOf v.toNat 12 8)) }) })
      else s

def wrFac (s : State) (off : Nat) (v : Word) : State :=
  if off = 0x2800 then
    s.modFac (fun f => { f with derr := w1c v 2 f.derr, schederr := w1c v 3 f.schederr, p2nonfin := w1c v 4 f.p2nonfin, rbrej := w1c v 5 f.rbrej })
  else if off = 0x2804 then rollback s (v.setWidth 4)
  else if off = 0x28C0 then s.modFac (fun f => { f with gselGroup := v.setWidth 8, gselItem := wf v 10 8 3 })
  else if !s.man.lwin then s
  else
    match regIdx 0x2810 16 4 off, regIdx 0x2814 16 4 off, regIdx 0x2818 16 4 off with
    | some c, _, _ => modFacCtx s (BitVec.ofNat 2 c) (fun x => { x with step := v })
    | _, some c, _ => modFacCtx s (BitVec.ofNat 2 c) (fun x => { x with ver := v })
    | _, _, some c => modFacCtx s (BitVec.ofNat 2 c) (fun x => { x with wrapped := wb v 3 })
    | none, none, none => s

def wrEng (s : State) (off : Nat) (v : Word) : State :=
  if off = 0x1800 then s.modArr (fun a => { a with derr := w1c v 7 a.derr })
  else if off = 0x2000 then s.modVec (fun x => { x with derr := w1c v 5 x.derr })
  else if off = 0x2100 then s.modVec (fun x => { x with vselReg := v.setWidth 5, vselLane := wf v 10 5 6 })
  else if off = 0x2108 then s.modVec (fun x => { x with rmsel := v.setWidth 8 })
  else s

def wrMem (s : State) (off : Nat) (v : Word) : State :=
  if off = 0x3000 then s.modMem (fun m => { m with ce := w1c v 2 m.ce, ue := w1c v 3 m.ue, wbovf := w1c v 4 m.wbovf })
  else if off = 0x3004 then onBit v 0 s startZero
  else if off = 0x3008 then s.modMem (fun m => { m with scrubInt := v.setWidth 16 })
  else if off = 0x3500 then s.modSth (fun h => { h with err := w1c v 2 h.err })
  else if off = 0x3504 then onBit v 0 s clearReq
  else if off = 0x3530 then if s.man.lwin then s.modSth (fun h => { h with mbmax := v.setWidth 25 }) else s
  else if off = 0x3540 then s.modSth (fun h => { h with esel := v.setWidth 10 })
  else s

def wrPorts (s : State) (off : Nat) (v : Word) : State :=
  if off = 0x3800 then
    s.modXch (fun x => { x with lerr := w1c v 3 x.lerr, rerr := w1c v 4 x.rerr, late := w1c v 5 x.late, coll := w1c v 6 x.coll, trej := w1c v 7 x.trej })
  else if off = 0x3880 then s.modXch (fun x => { x with testEn := wb v 0 })
  else if off = 0x3884 then s.modXch (fun x => { x with tselEnt := v.setWidth 10, tselBank := wb v 12 })
  else if off = 0x3898 then onBit v 0 s testWrite
  else if off = 0x4000 then s.modStr (fun x => { x with derr := w1c v 15 x.derr, resp := w1c v 16 x.resp })
  else if off = 0x4800 then s.modPst (fun x => { x with derr := w1c v 5 x.derr })
  else
    match regIdx 0x3888 4 4 off with
    | some w => s.modXch (fun x => { x with tdata := tabSet 0 x.tdata w v })
    | none => s

def wrGov (s : State) (off : Nat) (v : Word) : State :=
  let put := fun (f : Gov → Gov) => s.modGov f
  if off = 0x5000 then put (fun g => { g with noallow := w1c v 10 g.noallow })
  else if off = 0x5004 then onBit v 1 (onBit v 0 s armMark) clearTariff
  else if off = 0x500C then put (fun g => { g with allowDflt := v.setWidth 16 })
  else if off = 0x5030 then put (fun g => { g with slew := v.setWidth 7 })
  else if off = 0x5034 then reasons (put (fun g => { g with cap2 := v.setWidth 7, cap3 := wf v 14 8 7 }))
  else if off = 0x5038 then setDbgCap s v
  else if off = 0x503C then put (fun g => { g with droopThr := v.setWidth 4, droopEn := wb v 8 })
  else if off = 0x504C then put (fun g => { g with mmInt := v })
  else if off = 0x5050 then put (fun g => { g with mmLow := v.setWidth 8, mmHigh := wf v 15 8 8 })
  else if off = 0x5054 then put (fun g => { g with mmLower := v })
  else
    match regIdx 0x5060 4 10 off with
    | some k => put (fun g => { g with coef := tabSet none g.coef k (some v) })
    | none => s

def wrLdg (s : State) (off : Nat) (v : Word) : State :=
  if off = 0x5800 then s.modLdg (fun l => { l with snaprej := w1c v 3 l.snaprej, rsterr := w1c v 4 l.rsterr })
  else if off = 0x5804 then onBit v 2 (onBit v 1 (onBit v 0 s reqSnap) tryRestore) newPart
  else if off = 0x580C then s.modLdg (fun l => { l with auto_ := v })
  else if off = 0x5818 then setHeld (putWallofs s (joinLo s 0x5818 s.ldg.wallofs v)) 0x5818 none
  else if off = 0x581C then holdHi s 0x5818 v
  else
    match regIdx 0x5A00 4 34 off with
    | some i => putRbuf s i v
    | none => s

def wrSec (s : State) (off : Nat) (v : Word) : State :=
  if off = 0x6000 then s.modSec (fun x => { x with err := w1c v 12 x.err })
  else if off = 0x600C then requestLevel s (v.setWidth 2)
  else if off = 0x6010 then onBit v 0 s startCode
  else if off = 0x6014 then s.modSec (fun x => { x with codeAddr := wordAddr v })
  else if off = 0x6018 then s.modSec (fun x => { x with codeLen := v.setWidth 21 })
  else if off = 0x6020 then raiseStep s (v.setWidth 23)
  else if off = 0x6040 then s.modSec (fun x => { x with rselRegion := v.setWidth 6, rselCtx := wf v 9 8 2 })
  else s

def wrFlt (s : State) (off : Nat) (v : Word) : State :=
  if off = 0x6800 then s.modFlt (fun f => { f with cont := w1c v 0 f.cont, lovf := w1c v 3 f.lovf })
  else if off = 0x6804 then onBit v 3 (onBit v 2 (onBit v 1 (onBit v 0 s clearLog) restoreCopy) injectReq) clearFatal
  else if off = 0x6808 then s.modFlt (fun f => { f with injCode := v.setWidth 8 })
  else if off = 0x6830 then s.modFlt (fun f => { f with lsel := v.setWidth 4 })
  else s

def wrJrnl (s : State) (off : Nat) (v : Word) : State :=
  if off = 0x8000 then
    s.modJrnl (fun j => { j with rpdiv := w1c v 4 j.rpdiv, rpdone := w1c v 5 j.rpdone, rprej := w1c v 6 j.rprej, copyerr := w1c v 7 j.copyerr })
  else if off = 0x8004 then onBit v 1 (onBit v 0 s armReplay) cancelReplay
  else if off = 0x8008 then s.modJrnl (fun j => { j with stopdiv := wb v 0 })
  else if off = 0x8078 then s.modJrnl (fun j => { j with wsel := v.setWidth 16 })
  else if !s.man.lwin then s
  else if off = 0x8020 then setHeld (s.modJrnl (fun j => { j with step := joinLo s 0x8020 j.step v })) 0x8020 none
  else if off = 0x8024 then holdHi s 0x8020 v
  else if off = 0x8028 then setHeld (s.modJrnl (fun j => { j with commit := joinLo s 0x8028 j.commit v })) 0x8028 none
  else if off = 0x802C then holdHi s 0x8028 v
  else s

/-! The debug unit (17 R410, R411). -/

/-- The control core stands between two instructions: it runs, idles, or is stopped at a SYNC or a fault. -/
def betweenInstrs (s : State) : Bool :=
  match s.core.mode with
  | .idle => true
  | .run => true
  | .sync _ => true
  | .stopped => true
  | .wait _ => false
  | .few _ _ => false
  | .fer _ _ => false
  | .fence _ => false
  | .full _ => false

def dbgReject (s : State) : State := s.modDbg (fun d => { d with rej := true })

/-- DBG_CTRL_HALT: halts after the current instruction retires, or is refused. -/
def halt (s : State) : State :=
  if !invasive s then dbgReject s
  else if s.dbg.halted then s
  else if betweenInstrs s then s.modDbg (fun d => { d with halted := true, cause := 1 })
  else s.modDbg (fun d => { d with haltReq := true })

/-- The instruction of the control core that a word spells is executed. A SYNC command, a wake or an engine's own event is none. -/
def coreStep (i : Instr) (s : State) : Res :=
  match i with
  | .add f => execAdd f s
  | .sub f => execSub f s
  | .and f => execAnd f s
  | .or f => execOr f s
  | .xor f => execXor f s
  | .andn f => execAndn f s
  | .sll f => execSll f s
  | .srl f => execSrl f s
  | .sra f => execSra f s
  | .slt f => execSlt f s
  | .sltu f => execSltu f s
  | .min f => execMin f s
  | .max f => execMax f s
  | .minu f => execMinu f s
  | .maxu f => execMaxu f s
  | .sxw f => execSxw f s
  | .zxw f => execZxw f s
  | .difw f => execDifw f s
  | .mul f => execMul f s
  | .mulh f => execMulh f s
  | .mulhu f => execMulhu f s
  | .div f => execDiv f s
  | .divu f => execDivu f s
  | .rem f => execRem f s
  | .remu f => execRemu f s
  | .clz f => execClz f s
  | .popc f => execPopc f s
  | .addi f => execAddi f s
  | .andi f => execAndi f s
  | .ori f => execOri f s
  | .xori f => execXori f s
  | .slli f => execSlli f s
  | .srli f => execSrli f s
  | .srai f => execSrai f s
  | .slti f => execSlti f s
  | .orhi f => execOrhi f s
  | .ldd f => execLdd f s
  | .ldw f => execLdw f s
  | .ldwu f => execLdwu f s
  | .lds f => execLds f s
  | .ldsu f => execLdsu f s
  | .ldb f => execLdb f s
  | .ldbu f => execLdbu f s
  | .std f => execStd f s
  | .stw f => execStw f s
  | .sts f => execSts f s
  | .stb f => execStb f s
  | .br f => execBr f s
  | .jal f => execJal f s
  | .jalr f => execJalr f s
  | .arr f => execArr f s
  | .vec f => execVec f s
  | .fac f => execFac f s
  | .wgh f => execWgh f s
  | .str f => execStr f s
  | .pst f => execPst f s
  | .sth f => execSth f s
  | .sync f => execSync f s
  | .sig f => execSig f s
  | .sigBar f => execSigBar f s
  | .sigSet f => execSigSet f s
  | .wait f => execWait f s
  | .few f => execFew f s
  | .fer f => execFer f s
  | .fence f => execFence f s
  | .rng f => execRng f s
  | .phase f => execPhase f s
  | .manLoad f => execManLoad f s
  | .manArm f => execManArm f s
  | .mfs f => execMfs f s
  | .mts f => execMts f s
  | .ctx f => execCtx f s
  | .brk f => execBrk f s
  | .reservedOpcode w => execReservedOpcode w s
  | _ => .next s

/-- The state that a command answers. -/
def stateOf (r : Res) (s : State) : State :=
  match r with
  | .next t => t
  | .fault _ => s
  | .refused _ => s

/-- The instruction at the program counter. -/
def instrAt (s : State) : Instr :=
  let pc := (curCtx s).pc.toNat
  decodeCore (BitVec.ofNat 32 (mNat s pc 4)) (BitVec.ofNat 32 (mNat s (pc + 4) 4))

/-- DBG_CTRL_STEP executes one instruction of the halted context, or is refused. -/
def stepOne (s : State) : State :=
  if !invasive s || !s.dbg.halted then dbgReject s
  else
    let t := s.modDbg (fun d => { d with stepping := true })
    if coreOn t then stateOf (coreStep (instrAt t) t) t else s

/-- Scalar register DBG_SSEL_REG written, while halted (R411). -/
def writeSdata (s : State) (hi : Bool) (v : Word) : State :=
  if !s.dbg.halted then s
  else if hi then holdHi s 0x700C v
  else setHeld (wrReg s s.core.cur s.dbg.ssel (joinLo s 0x700C (rd s s.dbg.ssel) v)) 0x700C none

/-- DBG_PCSET, while halted. -/
def setPc (s : State) (v : Word) : State :=
  if s.dbg.halted then modCtx s s.core.cur (fun x => { x with pc := wordAddr v }) else s

def wrDbg (s : State) (off : Nat) (v : Word) : State :=
  if off = 0x7000 then onBit v 2 (onBit v 1 (onBit v 0 s halt) endHalt) stepOne
  else if off = 0x7004 then s.modDbg (fun d => { d with rej := w1c v 3 d.rej })
  else if off = 0x7008 then s.modDbg (fun d => { d with ssel := v.setWidth 5 })
  else if off = 0x700C then writeSdata s false v
  else if off = 0x7010 then writeSdata s true v
  else if off = 0x7014 then setPc s v
  else s

/-- A write of the register at an offset by its access code and restrictions (R5, R6, Table 7); refused writes have no effect (15 R362). -/
def writeReg (b : Bus) (s : State) (off : Nat) (v : Word) : State :=
  if !allowed s (writeNeed off) then s
  else if (shAt off).isSome then writeShadow b s off v
  else if off < 0x400 then wrCore s off v
  else if off < 0x1000 then wrMan b s off v
  else if off < 0x1800 then wrSyn s off v
  else if off < 0x2800 then wrEng s off v
  else if off < 0x2C00 then wrFac s off v
  else if off < 0x3000 then wrWgh s off v
  else if off < 0x3800 then wrMem s off v
  else if off < 0x5000 then wrPorts s off v
  else if off < 0x5800 then wrGov s off v
  else if off < 0x6000 then wrLdg s off v
  else if off < 0x6800 then wrSec s off v
  else if off < 0x7000 then wrFlt s off v
  else if off < 0x8000 then wrDbg s off v
  else wrJrnl s off v

/-! Accesses (17 R405). -/

/-- MG_RD or DB_RD takes the value read. -/
def putRd (s : State) (b : Bus) (v : Word) : State := modBusOf s b (fun x => { x with rd := v })

/-- The four bytes of a word that the byte enables name, else those of another word. -/
def byBe (be : BitVec 4) (v old : Word) : Word :=
  BitVec.ofNat 32 (leNat ((List.range 4).map (fun i => if be.getLsbD i then (leBytes 4 v).getD i 0 else (leBytes 4 old).getD i 0)))

/-- Local address behind the memory window. -/
def winAddr (addr : BitVec 22) : Option Nat :=
  if 0x100000 ≤ addr.toNat ∧ addr.toNat < 0x280000 then some (regOff addr - 0x100000) else none

/-- A write through the memory window is taken: by the invasive set, or by the loading window of a sealed tile (15 R362, R365). -/
def winWritable (s : State) : Bool :=
  invasive s || (decide (s.sec.state ≠ 0) && (!s.sec.codeOk || !s.man.isLive))

/-- An invasive write into CODE in a sealed state clears CODE_OK (15 R371). -/
def codeTouched (s : State) (a : Nat) : State :=
  if invasive s && decide (s.sec.state ≠ 0) && decide (a < partBase s pCODE + partSize s pCODE) && decide (partBase s pCODE < a + 4) then
    s.modSec (fun x => { x with codeOk := false })
  else s

/-- An access of the memory window at local address a. -/
def winAccess (s : State) (b : Bus) (write : Bool) (a : Nat) (v : Word) (be : BitVec 4) : State :=
  if write then
    if winWritable s && decide (be ≠ 0) then memWr (codeTouched s a) rqDBG a (leBytes 4 (byBe be v (BitVec.ofNat 32 (mNat s a 4)))) else s
  else if invasive s && decide (be ≠ 0) then
    let t := touchRead s rqDBG a 4
    putRd t b (byBe be (BitVec.ofNat 32 (mNat t a 4)) 0)
  else putRd s b 0

/-- The offset of a register access; the LDG block has its own clock. -/
def isLdg (addr : BitVec 22) : Bool := decide (0x5800 ≤ addr.toNat) && decide (addr.toNat < 0x6000)

/-- An access of either bus: memory window, register window, or a reserved address (R405, R406, R6). -/
def access (i : Instr) (s : State) (b : Bus) (write : Bool) (addr : BitVec 22) (v : Word) (be : BitVec 4) : State :=
  match winAddr addr with
  | some a =>
    if dbgWaits s then queueAcc s b i else regAcc b false i s (winAccess s b write a v be)
  | none =>
    if dbgWaits s && !write && decide (0xC000 ≤ addr.toNat) then queueAcc s b i else
    regAcc b (isLdg addr) i s
      (if write then if be = 0xF ∧ addr.toNat < 0x10000 then writeReg b s (regOff addr) v else s
       else if be = 0xF ∧ addr.toNat < 0x10000 then
         let r := readReg s (regOff addr)
         putRd r.1 b r.2
       else putRd s b 0)

/-- MEMORY_WINDOW_ACCESS. -/
def execMemoryWindowAccess (bus : Bus) (write : Bool) (addr : BitVec 22) (val : Word) (be : BitVec 4) (s : State) : Res :=
  .next (access (.memoryWindowAccess bus write addr val be) s bus write addr val be)

/-- WIDE_REGISTER_READ: a read of a register; a LO register latches its upper half. -/
def execWideRegisterRead (bus : Bus) (addr : BitVec 22) (s : State) : Res :=
  .next (access (.wideRegisterRead bus addr) s bus false addr 0 0xF)

/-- WIDE_REGISTER_WRITE: a write of a HI or a LO register. -/
def execWideRegisterWrite (bus : Bus) (addr : BitVec 22) (val : Word) (s : State) : Res :=
  .next (access (.wideRegisterWrite bus addr val) s bus true addr val 0xF)

/-- REGISTER_WRITE: a write of any register. -/
def execRegisterWrite (bus : Bus) (addr : BitVec 22) (val : Word) (be : BitVec 4) (s : State) : Res :=
  .next (access (.registerWrite bus addr val be) s bus true addr val be)

/-- DBG_CTRL_HALT. -/
def execDbgCtrlHalt (s : State) : Res := regCmd .dbgCtrlHalt s (halt s)
/-- DBG_CTRL_RESUME ends the halt. -/
def execDbgCtrlResume (s : State) : Res := regCmd .dbgCtrlResume s (endHalt s)
/-- DBG_CTRL_STEP. -/
def execDbgCtrlStep (s : State) : Res := regCmd .dbgCtrlStep s (stepOne s)

/-- DBG_SDATA_ACCESS: the selected scalar register, by halves (R411). -/
def execDbgSdataAccess (bus : Bus) (hi write : Bool) (val : Word) (s : State) : Res :=
  .next (regAcc bus false (.dbgSdataAccess bus hi write val) s
    (if write then writeSdata s hi val
     else
       let r := readReg s (if hi then 0x7010 else 0x700C)
       putRd r.1 bus r.2))

/-- DBG_PCSET. -/
def execDbgPcset (val : Word) (s : State) : Res := regCmd (.dbgPcset val) s (setPc s val)

/-! Accesses that waited (17 R406, R408, R409). -/

/-- A command that came over a bus is served, or waits again. -/
def serveAcc (i : Instr) (s : State) : Res :=
  match i with
  | .handSetVal => execHandSetVal s
  | .handSetState => execHandSetState s
  | .fePut => execFePut s
  | .feTake => execFeTake s
  | .fePeek => execFePeek s
  | .feForce b => execFeForce b s
  | .manCtrlLoad => execManCtrlLoad s
  | .manCtrlArm => execManCtrlArm s
  | .manCtrlDisarm => execManCtrlDisarm s
  | .manCtrlResume => execManCtrlResume s
  | .manCtrlDiscard => execManCtrlDiscard s
  | .shadowWrite b a v => execShadowWrite b a v s
  | .debugLiveWrite v => execDebugLiveWrite v s
  | .coreCtxWrite v => execCoreCtxWrite v s
  | .coreCtxReload m => execCoreCtxReload m s
  | .memCtrlZero => execMemCtrlZero s
  | .memSthCtrlClear => execMemSthCtrlClear s
  | .jrnlCtrlReplay => execJrnlCtrlReplay s
  | .jrnlCtrlCancel => execJrnlCtrlCancel s
  | .facCtrlRollback m => execFacCtrlRollback m s
  | .fltCtrlClear => execFltCtrlClear s
  | .fltCtrlWrest => execFltCtrlWrest s
  | .fltCtrlInj => execFltCtrlInj s
  | .fltCtrlFclr => execFltCtrlFclr s
  | .govCtrlMark => execGovCtrlMark s
  | .govCtrlTrfclr => execGovCtrlTrfclr s
  | .govDbgWrite v => execGovDbgWrite v s
  | .ldgCtrlSnap => execLdgCtrlSnap s
  | .ldgCtrlRestore => execLdgCtrlRestore s
  | .ldgCtrlInit => execLdgCtrlInit s
  | .ldgWallofsWrite v => execLdgWallofsWrite v s
  | .secCtrlCode => execSecCtrlCode s
  | .secDbgReqWrite l => execSecDbgReqWrite l s
  | .secSeCurWrite v => execSecSeCurWrite v s
  | .xchTctrlWrite => execXchTctrlWrite s
  | .dbgCtrlHalt => execDbgCtrlHalt s
  | .dbgCtrlResume => execDbgCtrlResume s
  | .dbgCtrlStep => execDbgCtrlStep s
  | .dbgSdataAccess b h w v => execDbgSdataAccess b h w v s
  | .dbgPcset v => execDbgPcset v s
  | .memoryWindowAccess b w a v be => execMemoryWindowAccess b w a v be s
  | .wideRegisterRead b a => execWideRegisterRead b a s
  | .wideRegisterWrite b a v => execWideRegisterWrite b a v s
  | .registerWrite b a v be => execRegisterWrite b a v be s
  | _ => .next s

/-- One of the debug bus, one of the management bus, and so on (R408). -/
def alternate : List Instr → List Instr → List Instr
  | [], m => m
  | d :: ds, [] => d :: ds
  | d :: ds, m :: ms => d :: m :: alternate ds ms

/-- The accesses that wait on both buses are served in order; those that still cannot be wait again. -/
def drainBuses (s : State) : State :=
  let q := alternate s.bus.dbg.waiting s.bus.mgmt.waiting
  let t := s.modBus (fun x => { x with mgmt := { x.mgmt with waiting := [] }, dbg := { x.dbg with waiting := [] } })
  q.foldl (fun u i => stateOf (serveAcc i u) u) t

end Sys2Proof.Machine
end

