-- ==== Sys2Proof/Machine/Clock.lean ====
section
/-! DEFINITION. Operating points, the alert, droop stretches and SUSPEND (01 R25 to R31; 14 R337, R350). -/

namespace Sys2Proof.Machine

/-- A frequency change ends a stretch; the detector re-arms 16 t-cycles later (01 R31). -/
def endStretch (s : State) (rearm : Nat) : State :=
  if s.clk.stretch then reasons (s.modClk (fun c => { c with stretch := false, armed := false, rearm := rearm })) else s

/-- OP_CHANGE is active while the change holds the root clock over a reference period, in one tick or several (14 R351, log entry 46). -/
def opChangeReason (s : State) : State :=
  let n := Config.opHold s.free % 12
  let t := { s with free := s.free + 1 }
  if n = 0 then t
  else (t.modGov (fun g => { g with rsn := tabMod {} g.rsn 4 Reason.pulse })).modClk (fun c => { c with opWait := n - 1 })

/-- STAGE_OP_CHANGE: while the tile stands at its sync, the root frequency changes; under an alert only the target is recorded (R25, R27). The point is in force from this command on, before SYNC_REL (log entry 80). Codes 5 to 7 are reserved. -/
def execStageOpChange (op : BitVec 3) (s : State) : Res :=
  whenOn (unitsOn s && s.core.syncArr && (nominalCode op).isSome) s
    (let t := opChangeReason (s.modClk (fun c => { c with target := op }))
     if t.clk.alert then t else endStretch (setOp_ t op) 16)

/-- The reasons and voltage requests follow the point and the alert while VDD_T is not in reset. -/
def followOp (s : State) : State := if s.pin.coreRst then reasons (updateReq s) else s

/-- ALERT_FALL: the root clock goes to OP-E at once; a hold that runs is cancelled (R26, R27). The pin acts in SUSPEND and in a core reset too (log entry 80). -/
def execAlertFall (s : State) : Res :=
  .next (followOp (endStretch (s.modClk (fun c => { c with op := 4, alert := true, alertHold := false })) 16))

/-- ALERT_RISE: the 10 µs hold at OP-E begins (R27). -/
def execAlertRise (s : State) : Res := whenOn s.clk.alert s (s.modClk (fun c => { c with alertHold := true }))

/-- ALERT_RETURN: the hold is over, the root clock returns to the recorded point and the alert ends (R27); the edge ends a stretch (log entry 80). -/
def execAlertReturn (s : State) : Res :=
  whenOn (s.clk.alert && s.clk.alertHold) s
    (followOp (endStretch (s.modClk (fun c => { c with op := c.target, alert := false, alertHold := false })) 16))

/-- The detector trips: a stretch begins (R30, R350). -/
def startStretch (s : State) : State := reasons (s.modClk (fun c => { c with stretch := true, armed := false }))

/-- DROOP_TRIP: an armed and enabled detector trips. -/
def execDroopTrip (s : State) : Res :=
  whenOn (unitsOn s && s.gov.droopEn && s.clk.armed && !s.clk.stretch) s (startStretch s)

/-- STRETCH_END: the detector clears, or the stretch meets its limit of 256 t-cycles (R30, R350). -/
def execStretchEnd (limit : Bool) (s : State) : Res :=
  whenOn (unitsOn s && s.clk.stretch) s (endStretch s (if limit then 64 else 16))

/-- DROOP_REARM: the detector re-arms; a voltage that is still low starts a new stretch (R350). -/
def execDroopRearm (low : Bool) (s : State) : Res :=
  whenOn (unitsOn s && !s.clk.armed && !s.clk.stretch) s
    (let t := s.modClk (fun c => { c with armed := true, rearm := 0 })
     if low && s.gov.droopEn then startStretch t else t)

/-- SUSPEND_ENTRY: 16 ticks without a root edge (14 R337). -/
def execSuspendEntry (s : State) : Res :=
  whenOn (s.pin.coreRst && !s.clk.suspend) s (s.modClk (fun c => { c with suspend := true }))

end Sys2Proof.Machine
end

