-- ==== Sys2Proof/Machine/Resume.lean ====
section
/-! DEFINITION. What proceeds when a wait ends: the end of the exchange phase, of a reload, of a zeroisation and of SUSPEND (01 R7; 03 R70; 07 R191, R193; 14 R337; 17 R406, R409). -/

namespace Sys2Proof.Machine

/-- What waited for banks proceeds: the full/empty operation of the register window, inbound puts and posts, and the accesses of both buses; a stalled issue goes on when its queue has room (03 R81). -/
def resumeAll (s : State) : State := drainBuses (unstall (pstResume (strResume (feResume s))))

/-- EXCH_END: the exchange phase ends, and what waited for its banks proceeds. -/
def execExchEnd (s : State) : Res :=
  whenOn (unitsOn s && decide (s.core.phase = 3)) s (resumeAll (exchEnd s))

/-- RELOAD_DONE: dispatched operations and stream transfers have drained. -/
def execReloadDone (s : State) : Res :=
  whenOn (unitsOn s && s.core.rldBusy && enginesDone s && streamDrained s) s (resumeAll (finishReload s))

/-- ZEROISATION_DONE: the zeroisation ends and waiting requests proceed; a tile in the fatal state zeroises too (16 R391), and answers its buses only (log entry 14). -/
def execZeroisationDone (s : State) : Res :=
  whenOn (busOn s && s.mem.zeroing) s
    (let t := zeroEnds s
     if t.flt.fatal then drainBuses t else resumeAll t)

/-- SUSPEND_EXIT: the root clock runs again, and accesses that waited are served, escalations among them. -/
def execSuspendExit (s : State) : Res :=
  whenOn (s.pin.coreRst && s.clk.suspend) s (drainBuses (s.modClk (fun c => { c with suspend := false })))

end Sys2Proof.Machine
end

