-- ==== Sys2Proof/Machine/Reset.lean ====
section
/-! DEFINITION. Resets, isolation and what the ports carry under it (17 R416 to R423; 15 R360, R366). -/

namespace Sys2Proof.Machine

/-- What of Obtur lies in VDD_AO (15 R360). Keys that a job end has yet to clear are cleared (log entry 55). -/
def secKept (s : State) : Sec :=
  let x := (if s.sec.endJob then clearRegions (zeroKeys s) else s).sec
  { key := x.key, keyId := x.keyId, rkey := x.rkey, rkeyId := x.rkeyId, rkeyHeld := x.rkeyHeld, state := x.state,
    dbgReq := x.dbgReq, level := x.level, permit := x.permit, rg := x.rg, seCur := x.seCur, seV := x.seV, seVKey := x.seVKey,
    seV1 := x.seV1, seV1Key := x.seV1Key, sexh := x.sexh }

/-- An offset in the LDG block, whose registers lie in VDD_AO (14 R354). -/
def ldgOff (off : Nat) : Bool := decide (0x5800 ≤ off) && decide (off < 0x6000)

/-- VDD_T in reset: every register and store outside VDD_AO takes its reset value; the cells of local memory keep what they hold, and accesses go on waiting (R409, R416, R419). The operating point, the announced point and the alert are the surroundings' inputs and stay (01 R23, R26; log entry 8). -/
def resetCore (s : State) : State :=
  { clk := { op := s.clk.op, target := s.clk.target, opn := s.clk.opn, alert := s.clk.alert, alertHold := s.clk.alertHold, ticks := s.clk.ticks }
    mem := { bytes := s.mem.bytes, ecc := s.mem.ecc, zeroCount := 0 }
    opId := s.opId
    ldg := s.ldg
    flt := { fatalRec := s.flt.fatalRec, stores := tabSet .clean [] 3 (tabGet .clean s.flt.stores 3) }
    sec := secKept s
    bus := { mgmt := { waiting := s.bus.mgmt.waiting }, dbg := { waiting := s.bus.dbg.waiting }
             latch := ({} : Buses).latch ++ s.bus.latch.filter (fun p => ldgOff p.1), held := s.bus.held.filter (fun p => ldgOff p.1) }
    pin := { s.pin with coreRst := false }
    dft := { s.dft with mbistBusy := false }
    free := s.free
    pending := s.pending }

/-- CORE_RESET_ASSERT: CORE_RST_N falls. -/
def execCoreResetAssert (s : State) : Res := whenOn s.pin.coreRst s (resetCore s)

/-- AO_RESET: the VDD_AO domain is cleared; CORE_RST_N is low throughout, and KEY_PERMIT is a level that stays (R416). -/
def execAoReset (s : State) : Res :=
  .next { resetCore s with
    clk := {}, ldg := {}, flt := {}, sec := { permit := s.sec.permit }
    bus := { mgmt := { waiting := s.bus.mgmt.waiting }, dbg := { waiting := s.bus.dbg.waiting } }
    pin := { isoEn := s.pin.isoEn, coreRst := false, firstRst := true } }

/-- The release of CORE_RST_N: TILE_ID and PWR_RET are sampled, CORE_RSTAT is set, the level falls to the ceiling, and the power-up zeroisation starts or is skipped (R416, R417). An alert that stands counts from here (14 R351). -/
def releaseReset (s : State) (tileId : BitVec 20) (pwrRet : Bool) : State :=
  let skip := pwrRet && !s.dft.intrusive
  let t := (s.modCore (fun k => { k with
      tileId := tileId, rstatZskip := skip
      rstatCause := if s.pin.firstRst then 0 else if pwrRet then 2 else 1 })).modDft (fun d => { d with intrusive := false })
  let u : State := { t with pin := { t.pin with coreRst := true, pwrRet := pwrRet, firstRst := false } }
  let v := (if skip then u.modMem (fun m => { m with zeroing := false }) else startZero u).modPst (fun x => { x with fresh := skip })
  reasons (updateReq (lowerLevel v))

/-- CORE_RESET: CORE_RST_N rises; accesses that waited are served. -/
def execCoreReset (tileId : BitVec 20) (pwrRet : Bool) (s : State) : Res :=
  whenOn (!s.pin.coreRst) s (drainBuses (releaseReset s tileId pwrRet))

/-- ISO_ENGAGE: ISO_EN rises. -/
def execIsoEngage (s : State) : Res := .next { s with pin := { s.pin with isoEn := true } }

/-- ISO_RELEASE: ISO_EN falls. -/
def execIsoRelease (s : State) : Res := .next { s with pin := { s.pin with isoEn := false } }

/-! What the ports carry (R420, R421). -/

/-- An intrusive test instruction is in force (R426). -/
def testOn (s : State) : Bool :=
  match s.dft.instr with
  | .intest => true
  | .scan => true
  | .mbistRun => true
  | .bypass => false
  | .extest => false
  | .mbistResult => false
  | .cap => false
  | .idreg => false

/-- The isolation clamps drive Table 7: TILE_ISO is 1. -/
def tileIso (s : State) : Bool := s.pin.isoEn || !s.pin.coreRst || testOn s

/-- Outputs of the core (Table 1). MG_ACK and DB_ACK are 0 in every state of the model, as a command is a whole access; a strobe of the reference clock stands until the next tick (log entry 90). -/
structure Ports where
  tileIso : Bool
  mgAck : Bool := false
  mgRd : Word := 0
  dbAck : Bool := false
  dbRd : Word := 0
  strInCred : Bool := false
  postInCred : Bool := false
  pwrReq : Half := 0
  pwrReqV : Bool := false
  ldgSvV : Bool := false
  ldgSvD : Word := 0
  wso : Bool := false
  scanSo : Word := 0
  xchOut : Option XOut
  strOut : Option StrOut
  postOut : Option PstOut
  syncArr : Bool
  syncZone : BitVec 2
  nrmV : Bool
  nrmSq : Word
  nrmNf : Bool
  nrmStep : Word
  faultOut : Bool
  keyBusy : Bool
  vreqCur : BitVec 6
  vreqNxt : BitVec 6
  ldgSvReq : Bool
deriving DecidableEq, Repr, Inhabited

/-- The outputs as the core's units drive them, clamped or not. -/
def unitPorts (s : State) : Ports :=
  if tileIso s then
    { tileIso := true, xchOut := none, strOut := none, postOut := none, syncArr := true, syncZone := 3, nrmV := true, nrmSq := 0,
      nrmNf := false, nrmStep := 0xFFFFFFFF, faultOut := false, keyBusy := false, vreqCur := 10, vreqNxt := 10, ldgSvReq := s.ldg.svReq,
      ldgSvV := s.ldg.svV, ldgSvD := s.ldg.svD, scanSo := if s.dft.instr = .scan then Config.scanOut s.free else 0 }
  else
    { tileIso := false, xchOut := s.xch.out, strOut := s.str.out, postOut := s.pst.out, syncArr := s.core.syncArr, syncZone := s.core.syncZone,
      nrmV := s.fac.nrmV, nrmSq := s.fac.nrmSq, nrmNf := s.fac.nrmNf, nrmStep := s.fac.nrmStep, faultOut := s.flt.fatal,
      keyBusy := s.sec.busy, vreqCur := s.gov.vreqCur, vreqNxt := s.gov.vreqNxt, ldgSvReq := s.ldg.svReq,
      mgRd := s.bus.mgmt.rd, dbRd := s.bus.dbg.rd, strInCred := s.str.inPulse, postInCred := s.pst.inPulse, pwrReq := s.gov.reqLast,
      pwrReqV := s.gov.reqV, ldgSvV := s.ldg.svV, ldgSvD := s.ldg.svD, wso := s.dft.dr.getLsbD 0 }

end Sys2Proof.Machine

namespace Sys2Proof.Config

/-- The outputs that the cells of a boundary register drive: the chain's order is stated nowhere (log entry 56). -/
opaque cells : Nat → Machine.Ports

end Sys2Proof.Config

namespace Sys2Proof.Machine

/-- The outputs: under WS_EXTEST the boundary cells drive them where no clamp does (R420, R426). -/
def ports (s : State) : Ports :=
  if s.dft.instr = .extest && !tileIso s then Config.cells s.dft.bnd else unitPorts s

end Sys2Proof.Machine
end

