-- ==== Sys2Proof/Machine/Dft.lean ====
section
/-! DEFINITION. The test wrapper (17 R426 to R428). -/

namespace Sys2Proof.Config

/-- The VDD_T domain after an intrusive test instruction, which leaves it arbitrary (17 R427, log entry 56). -/
opaque testState : Nat → Machine.State

end Sys2Proof.Config

namespace Sys2Proof.Machine

/-- A wrapper instruction is in the instruction register; its data register captures a value. -/
def wrapper (s : State) (i : WsInstr) (dr : BitVec 40) : State := s.modDft (fun d => { d with instr := i, dr := dr })

/-- WS_BYPASS. -/
def execWsBypass (s : State) : Res := .next (wrapper s .bypass 0)

/-- The boundary register takes what the serial port loads: no command carries it (log entry 56). -/
def loadBoundary (s : State) : State := { s.modDft (fun d => { d with bnd := Config.boundary s.free }) with free := s.free + 1 }

/-- WS_EXTEST: the boundary cells drive the outputs (`ports`); the core goes on. -/
def execWsExtest (s : State) : Res := .next (wrapper (loadBoundary s) .extest s.dft.dr)

/-- Cells of any list in the canonical form. -/
def canonCells (l : List Host.Cell) : List Host.Cell :=
  l.foldl (fun t c => if c.1 < memTop then tabSet 0 t c.1 c.2 else t) []

/-- The state after an intrusive instruction: VDD_T is arbitrary, VDD_AO is kept, and in a sealed state the job has ended first (R427). -/
def intrusive (s : State) (i : WsInstr) : State :=
  let t := if decide (s.sec.state = 0) then s else zeroEnds (endOfJob s)
  let f := Config.testState t.free
  { f with
    mem := { f.mem with bytes := canonCells f.mem.bytes }
    flt := { f.flt with log := f.flt.log.take 16, fatalRec := t.flt.fatalRec }
    clk := { f.clk with ticks := t.clk.ticks, suspend := t.clk.suspend }
    sec := { secKept t with codeOk := f.sec.codeOk, stop := f.sec.stop, busy := f.sec.busy }
    ldg := t.ldg, pin := t.pin, bus := t.bus, free := t.free + 1, pending := t.pending
    dft := { t.dft with instr := i, intrusive := true, mbistBusy := false } }

/-- WS_INTEST. -/
def execWsIntest (s : State) : Res := .next (intrusive (loadBoundary s) .intest)

/-- SCAN. -/
def execScan (s : State) : Res := .next (intrusive s .scan)

/-- MBIST_RUN: the march test starts; it requires TCLK and CORE_RST_N at 1. -/
def execMbistRun (s : State) : Res :=
  whenOn (busOn s) s ((intrusive s .mbistRun).modDft (fun d => { d with mbistBusy := true }))

/-- MBIST_DONE: the test ends with a zeroisation; bit 35 of the result is set (R428). -/
def execMbistDone (result : BitVec 40) (s : State) : Res :=
  whenOn (busOn s && s.dft.mbistBusy) s
    (startZero (s.modDft (fun d => { d with mbistBusy := false, mbistRes := result ||| 1 <<< 35 })))

/-- MBIST_RESULT selects the result register. -/
def execMbistResult (s : State) : Res := .next (wrapper s .mbistResult s.dft.mbistRes)

/-- CAP sets m_X; values above 64 act as 64 (14 R345). -/
def execCap (cap : BitVec 7) (s : State) : Res :=
  .next (reasons ((wrapper s .cap (cap.setWidth 40)).modGov (fun g => { g with mX := min cap.toNat 64 })))

/-- IDREG captures CORE_ID. -/
def execIdreg (s : State) : Res := .next (wrapper s .idreg 0xFA1C0302)

/-- The instruction that a code of Table 8 selects; a reserved code acts as WS_BYPASS. The cap is what CAP's register holds. -/
def wrapperCode (code : BitVec 5) (cap : BitVec 7) : Instr :=
  match code.toNat with
  | 1 => .wsExtest
  | 2 => .wsIntest
  | 3 => .scan
  | 4 => .mbistRun
  | 5 => .mbistResult
  | 6 => .cap cap
  | 7 => .idreg
  | _ => .wsBypass

end Sys2Proof.Machine
end

