-- ==== Sys2Proof/Machine/Dispatch.lean ====
section
/-! DEFINITION. What each command does: one arm per row of the opcode table. -/

namespace Sys2Proof.Machine

def exec (i : Instr) (s : State) : Host.Outcome State Fault Refusal :=
  match i with
  | .syncArrival => Sys2Proof.Machine.execSyncArrival s
  | .syncRelease r => Sys2Proof.Machine.execSyncRelease r s
  | .shadowCopyDone => Sys2Proof.Machine.execShadowCopyDone s
  | .exchStart => Sys2Proof.Machine.execExchStart s
  | .exchSendBeat off => Sys2Proof.Machine.execExchSendBeat off s
  | .exchRecvBeat off x => Sys2Proof.Machine.execExchRecvBeat off x s
  | .exchEnd => Sys2Proof.Machine.execExchEnd s
  | .itinLoadDone cyc => Sys2Proof.Machine.execItinLoadDone cyc s
  | .stageOpChange op => Sys2Proof.Machine.execStageOpChange op s
  | .suspendEntry => Sys2Proof.Machine.execSuspendEntry s
  | .alertFall => Sys2Proof.Machine.execAlertFall s
  | .alertRise => Sys2Proof.Machine.execAlertRise s
  | .alertReturn => Sys2Proof.Machine.execAlertReturn s
  | .droopTrip => Sys2Proof.Machine.execDroopTrip s
  | .stretchEnd limit => Sys2Proof.Machine.execStretchEnd limit s
  | .droopRearm low => Sys2Proof.Machine.execDroopRearm low s
  | .add f => Sys2Proof.Machine.execAdd f s
  | .sub f => Sys2Proof.Machine.execSub f s
  | .and f => Sys2Proof.Machine.execAnd f s
  | .or f => Sys2Proof.Machine.execOr f s
  | .xor f => Sys2Proof.Machine.execXor f s
  | .andn f => Sys2Proof.Machine.execAndn f s
  | .sll f => Sys2Proof.Machine.execSll f s
  | .srl f => Sys2Proof.Machine.execSrl f s
  | .sra f => Sys2Proof.Machine.execSra f s
  | .slt f => Sys2Proof.Machine.execSlt f s
  | .sltu f => Sys2Proof.Machine.execSltu f s
  | .min f => Sys2Proof.Machine.execMin f s
  | .max f => Sys2Proof.Machine.execMax f s
  | .minu f => Sys2Proof.Machine.execMinu f s
  | .maxu f => Sys2Proof.Machine.execMaxu f s
  | .sxw f => Sys2Proof.Machine.execSxw f s
  | .zxw f => Sys2Proof.Machine.execZxw f s
  | .difw f => Sys2Proof.Machine.execDifw f s
  | .mul f => Sys2Proof.Machine.execMul f s
  | .mulh f => Sys2Proof.Machine.execMulh f s
  | .mulhu f => Sys2Proof.Machine.execMulhu f s
  | .div f => Sys2Proof.Machine.execDiv f s
  | .divu f => Sys2Proof.Machine.execDivu f s
  | .rem f => Sys2Proof.Machine.execRem f s
  | .remu f => Sys2Proof.Machine.execRemu f s
  | .clz f => Sys2Proof.Machine.execClz f s
  | .popc f => Sys2Proof.Machine.execPopc f s
  | .addi f => Sys2Proof.Machine.execAddi f s
  | .andi f => Sys2Proof.Machine.execAndi f s
  | .ori f => Sys2Proof.Machine.execOri f s
  | .xori f => Sys2Proof.Machine.execXori f s
  | .slli f => Sys2Proof.Machine.execSlli f s
  | .srli f => Sys2Proof.Machine.execSrli f s
  | .srai f => Sys2Proof.Machine.execSrai f s
  | .slti f => Sys2Proof.Machine.execSlti f s
  | .orhi f => Sys2Proof.Machine.execOrhi f s
  | .ldd f => Sys2Proof.Machine.execLdd f s
  | .ldw f => Sys2Proof.Machine.execLdw f s
  | .ldwu f => Sys2Proof.Machine.execLdwu f s
  | .lds f => Sys2Proof.Machine.execLds f s
  | .ldsu f => Sys2Proof.Machine.execLdsu f s
  | .ldb f => Sys2Proof.Machine.execLdb f s
  | .ldbu f => Sys2Proof.Machine.execLdbu f s
  | .std f => Sys2Proof.Machine.execStd f s
  | .stw f => Sys2Proof.Machine.execStw f s
  | .sts f => Sys2Proof.Machine.execSts f s
  | .stb f => Sys2Proof.Machine.execStb f s
  | .br f => Sys2Proof.Machine.execBr f s
  | .jal f => Sys2Proof.Machine.execJal f s
  | .jalr f => Sys2Proof.Machine.execJalr f s
  | .arr f => Sys2Proof.Machine.execArr f s
  | .vec f => Sys2Proof.Machine.execVec f s
  | .fac f => Sys2Proof.Machine.execFac f s
  | .wgh f => Sys2Proof.Machine.execWgh f s
  | .str f => Sys2Proof.Machine.execStr f s
  | .pst f => Sys2Proof.Machine.execPst f s
  | .sth f => Sys2Proof.Machine.execSth f s
  | .sync f => Sys2Proof.Machine.execSync f s
  | .sig f => Sys2Proof.Machine.execSig f s
  | .sigBar f => Sys2Proof.Machine.execSigBar f s
  | .sigSet f => Sys2Proof.Machine.execSigSet f s
  | .wait f => Sys2Proof.Machine.execWait f s
  | .few f => Sys2Proof.Machine.execFew f s
  | .fer f => Sys2Proof.Machine.execFer f s
  | .wake slot => Sys2Proof.Machine.execWake slot s
  | .fence f => Sys2Proof.Machine.execFence f s
  | .fenceDone => Sys2Proof.Machine.execFenceDone s
  | .rng f => Sys2Proof.Machine.execRng f s
  | .phase f => Sys2Proof.Machine.execPhase f s
  | .manLoad f => Sys2Proof.Machine.execManLoad f s
  | .manArm f => Sys2Proof.Machine.execManArm f s
  | .mfs f => Sys2Proof.Machine.execMfs f s
  | .mts f => Sys2Proof.Machine.execMts f s
  | .ctx f => Sys2Proof.Machine.execCtx f s
  | .brk f => Sys2Proof.Machine.execBrk f s
  | .engineRetire q n => Sys2Proof.Machine.execEngineRetire q n s
  | .queueDiscard q => Sys2Proof.Machine.execQueueDiscard q s
  | .arrMm => Sys2Proof.Machine.execArrMm s
  | .arrConv => Sys2Proof.Machine.execArrConv s
  | .arrCar => Sys2Proof.Machine.execArrCar s
  | .arrList => Sys2Proof.Machine.execArrList s
  | .arrFlush => Sys2Proof.Machine.execArrFlush s
  | .itemClaim string => Sys2Proof.Machine.execItemClaim string s
  | .itemSteal string => Sys2Proof.Machine.execItemSteal string s
  | .listEntryClaim string => Sys2Proof.Machine.execListEntryClaim string s
  | .caravanDeadline string => Sys2Proof.Machine.execCaravanDeadline string s
  | .baleDrain => Sys2Proof.Machine.execBaleDrain s
  | .baleRead => Sys2Proof.Machine.execBaleRead s
  | .vecRun => Sys2Proof.Machine.execVecRun s
  | .vecProg => Sys2Proof.Machine.execVecProg s
  | .vecPerm => Sys2Proof.Machine.execVecPerm s
  | .vecShuf => Sys2Proof.Machine.execVecShuf s
  | .vecPack => Sys2Proof.Machine.execVecPack s
  | .vecUnpk => Sys2Proof.Machine.execVecUnpk s
  | .vecVld => Sys2Proof.Machine.execVecVld s
  | .vecVst => Sys2Proof.Machine.execVecVst s
  | .vecBcst => Sys2Proof.Machine.execVecBcst s
  | .vecRds => Sys2Proof.Machine.execVecRds s
  | .facStep => Sys2Proof.Machine.execFacStep s
  | .scheduleGroupEval => Sys2Proof.Machine.execScheduleGroupEval s
  | .facP1 => Sys2Proof.Machine.execFacP1 s
  | .facToken => Sys2Proof.Machine.execFacToken s
  | .facP2 => Sys2Proof.Machine.execFacP2 s
  | .facCommit => Sys2Proof.Machine.execFacCommit s
  | .facCnt => Sys2Proof.Machine.execFacCnt s
  | .wghRead => Sys2Proof.Machine.execWghRead s
  | .wghStep => Sys2Proof.Machine.execWghStep s
  | .wghLsread => Sys2Proof.Machine.execWghLsread s
  | .wghFlags => Sys2Proof.Machine.execWghFlags s
  | .wghClr => Sys2Proof.Machine.execWghClr s
  | .strGet => Sys2Proof.Machine.execStrGet s
  | .strPut => Sys2Proof.Machine.execStrPut s
  | .strRput => Sys2Proof.Machine.execStrRput s
  | .streamCredit => Sys2Proof.Machine.execStreamCredit s
  | .packetIssue => Sys2Proof.Machine.execPacketIssue s
  | .rdatReceived p => Sys2Proof.Machine.execRdatReceived p s
  | .ackReceived h0 => Sys2Proof.Machine.execAckReceived h0 s
  | .rputReceived p => Sys2Proof.Machine.execRputReceived p s
  | .pstSend => Sys2Proof.Machine.execPstSend s
  | .pstAck => Sys2Proof.Machine.execPstAck s
  | .pstOpen => Sys2Proof.Machine.execPstOpen s
  | .pstClose => Sys2Proof.Machine.execPstClose s
  | .postCredit => Sys2Proof.Machine.execPostCredit s
  | .postTransmit n => Sys2Proof.Machine.execPostTransmit n s
  | .inboundMessage header payload => Sys2Proof.Machine.execInboundMessage header payload s
  | .postResponse header => Sys2Proof.Machine.execPostResponse header s
  | .postResend n => Sys2Proof.Machine.execPostResend n s
  | .sthPut => Sys2Proof.Machine.execSthPut s
  | .sthGet => Sys2Proof.Machine.execSthGet s
  | .sthFree => Sys2Proof.Machine.execSthFree s
  | .sthQuery => Sys2Proof.Machine.execSthQuery s
  | .watchmanFire => Sys2Proof.Machine.execWatchmanFire s
  | .handSetVal => Sys2Proof.Machine.execHandSetVal s
  | .handSetState => Sys2Proof.Machine.execHandSetState s
  | .fePut => Sys2Proof.Machine.execFePut s
  | .feTake => Sys2Proof.Machine.execFeTake s
  | .fePeek => Sys2Proof.Machine.execFePeek s
  | .feForce bit => Sys2Proof.Machine.execFeForce bit s
  | .manCtrlLoad => Sys2Proof.Machine.execManCtrlLoad s
  | .manCtrlArm => Sys2Proof.Machine.execManCtrlArm s
  | .manCtrlDisarm => Sys2Proof.Machine.execManCtrlDisarm s
  | .manCtrlResume => Sys2Proof.Machine.execManCtrlResume s
  | .manCtrlDiscard => Sys2Proof.Machine.execManCtrlDiscard s
  | .manifestLoadDone => Sys2Proof.Machine.execManifestLoadDone s
  | .shadowWrite bus addr val => Sys2Proof.Machine.execShadowWrite bus addr val s
  | .debugLiveWrite val => Sys2Proof.Machine.execDebugLiveWrite val s
  | .coreCtxWrite val => Sys2Proof.Machine.execCoreCtxWrite val s
  | .coreCtxReload mask => Sys2Proof.Machine.execCoreCtxReload mask s
  | .reloadDone => Sys2Proof.Machine.execReloadDone s
  | .memCtrlZero => Sys2Proof.Machine.execMemCtrlZero s
  | .zeroisationDone => Sys2Proof.Machine.execZeroisationDone s
  | .scrubRead => Sys2Proof.Machine.execScrubRead s
  | .scrubWriteback => Sys2Proof.Machine.execScrubWriteback s
  | .memSthCtrlClear => Sys2Proof.Machine.execMemSthCtrlClear s
  | .jrnlCtrlReplay => Sys2Proof.Machine.execJrnlCtrlReplay s
  | .jrnlCtrlCancel => Sys2Proof.Machine.execJrnlCtrlCancel s
  | .facCtrlRollback mask => Sys2Proof.Machine.execFacCtrlRollback mask s
  | .fltCtrlClear => Sys2Proof.Machine.execFltCtrlClear s
  | .fltCtrlWrest => Sys2Proof.Machine.execFltCtrlWrest s
  | .fltCtrlInj => Sys2Proof.Machine.execFltCtrlInj s
  | .fltCtrlFclr => Sys2Proof.Machine.execFltCtrlFclr s
  | .fatalFault => Sys2Proof.Machine.execFatalFault s
  | .govCtrlMark => Sys2Proof.Machine.execGovCtrlMark s
  | .govCtrlTrfclr => Sys2Proof.Machine.execGovCtrlTrfclr s
  | .govDbgWrite val => Sys2Proof.Machine.execGovDbgWrite val s
  | .allowanceStrobe allow => Sys2Proof.Machine.execAllowanceStrobe allow s
  | .defaultWindow => Sys2Proof.Machine.execDefaultWindow s
  | .maskUpdate => Sys2Proof.Machine.execMaskUpdate s
  | .budgetRequest => Sys2Proof.Machine.execBudgetRequest s
  | .phaseBegin => Sys2Proof.Machine.execPhaseBegin s
  | .thermalChange level => Sys2Proof.Machine.execThermalChange level s
  | .marginReading reading => Sys2Proof.Machine.execMarginReading reading s
  | .operatingPointNotice opCode opn => Sys2Proof.Machine.execOperatingPointNotice opCode opn s
  | .ledgerTick => Sys2Proof.Machine.execLedgerTick s
  | .ldgCtrlSnap => Sys2Proof.Machine.execLdgCtrlSnap s
  | .snapshotCapture => Sys2Proof.Machine.execSnapshotCapture s
  | .autoSnapshot => Sys2Proof.Machine.execAutoSnapshot s
  | .ldgCtrlRestore => Sys2Proof.Machine.execLdgCtrlRestore s
  | .ldgCtrlInit => Sys2Proof.Machine.execLdgCtrlInit s
  | .ldgWallofsWrite val => Sys2Proof.Machine.execLdgWallofsWrite val s
  | .saveWord => Sys2Proof.Machine.execSaveWord s
  | .restoreWord w d => Sys2Proof.Machine.execRestoreWord w d s
  | .restoreGo => Sys2Proof.Machine.execRestoreGo s
  | .keyLd key id sealed => Sys2Proof.Machine.execKeyLd key id sealed s
  | .rekey => Sys2Proof.Machine.execRekey s
  | .keyEnd => Sys2Proof.Machine.execKeyEnd s
  | .keyPermitRise => Sys2Proof.Machine.execKeyPermitRise s
  | .keyPermitFall => Sys2Proof.Machine.execKeyPermitFall s
  | .secCtrlCode => Sys2Proof.Machine.execSecCtrlCode s
  | .codeLoadDone => Sys2Proof.Machine.execCodeLoadDone s
  | .secDbgReqWrite level => Sys2Proof.Machine.execSecDbgReqWrite level s
  | .secSeCurWrite val => Sys2Proof.Machine.execSecSeCurWrite val s
  | .xchTctrlWrite => Sys2Proof.Machine.execXchTctrlWrite s
  | .dbgCtrlHalt => Sys2Proof.Machine.execDbgCtrlHalt s
  | .dbgCtrlResume => Sys2Proof.Machine.execDbgCtrlResume s
  | .dbgCtrlStep => Sys2Proof.Machine.execDbgCtrlStep s
  | .dbgSdataAccess bus hi write val => Sys2Proof.Machine.execDbgSdataAccess bus hi write val s
  | .dbgPcset val => Sys2Proof.Machine.execDbgPcset val s
  | .memoryWindowAccess bus write addr val be => Sys2Proof.Machine.execMemoryWindowAccess bus write addr val be s
  | .wideRegisterRead bus addr => Sys2Proof.Machine.execWideRegisterRead bus addr s
  | .wideRegisterWrite bus addr val => Sys2Proof.Machine.execWideRegisterWrite bus addr val s
  | .registerWrite bus addr val be => Sys2Proof.Machine.execRegisterWrite bus addr val be s
  | .aoReset => Sys2Proof.Machine.execAoReset s
  | .coreReset tileId pwrRet => Sys2Proof.Machine.execCoreReset tileId pwrRet s
  | .coreResetAssert => Sys2Proof.Machine.execCoreResetAssert s
  | .isoEngage => Sys2Proof.Machine.execIsoEngage s
  | .isoRelease => Sys2Proof.Machine.execIsoRelease s
  | .wsBypass => Sys2Proof.Machine.execWsBypass s
  | .wsExtest => Sys2Proof.Machine.execWsExtest s
  | .wsIntest => Sys2Proof.Machine.execWsIntest s
  | .scan => Sys2Proof.Machine.execScan s
  | .mbistRun => Sys2Proof.Machine.execMbistRun s
  | .mbistDone result => Sys2Proof.Machine.execMbistDone result s
  | .mbistResult => Sys2Proof.Machine.execMbistResult s
  | .cap cap => Sys2Proof.Machine.execCap cap s
  | .idreg => Sys2Proof.Machine.execIdreg s
  | .suspendExit => Sys2Proof.Machine.execSuspendExit s
  | .reservedOpcode w => Sys2Proof.Machine.execReservedOpcode w s

end Sys2Proof.Machine
end

