-- ==== Sys2Proof/Machine/Tick.lean ====
section
/-! DEFINITION. What passes on an empty queue: one port-clock cycle (log entry 2). -/

namespace Sys2Proof.Machine

/-- The control core stalls on a full queue, or in WAIT, FEW, FER or FENCE (03 Table 15). -/
def tickStalls (k : Core) : Core :=
  match k.mode with
  | .full _ => { k with stallQ := k.stallQ + 1 }
  | .wait _ => { k with stallWait := k.stallWait + 1 }
  | .few _ _ => { k with stallWait := k.stallWait + 1 }
  | .fer _ _ => { k with stallWait := k.stallWait + 1 }
  | .fence _ => { k with stallWait := k.stallWait + 1 }
  | .idle => k
  | .run => k
  | .sync _ => k
  | .stopped => k

/-- A control-clock cycle falls on this port-clock cycle: each, or every second one while stretched (01 R30). -/
def ctlEdge (s : State) : Bool := !s.clk.stretch || decide (s.clk.pcyc % 2 = 0)

/-! The array's a-cycle (05 R143; 06 R167 to R169; log entry 84). -/

/-- String i has an item in progress, or one that it could begin. -/
def strWork (s : State) (i : Nat) : Bool := strRuns s i || (strNext s i).isSome

/-- String i advances in this a-cycle. -/
def strAdv (s : State) (i : Nat) : Bool := decide (i < strings s) && strRuns s i && !strPaused s i && !arrFrozen s

/-- String i forms products of an item in this a-cycle: that item, once its operands have come (06 R150, R153). -/
def strForms (s : State) (i : Nat) : Option ArrDesc :=
  if strAdv s i then (s.arr.bufs.find? (fun b => decide (b.string = i) && decide (b.left ≠ 0) && decide (b.lead = 0))).map (·.desc) else none

/-- String i has finished an item with both of its buffers occupied. -/
def strFull (s : State) (i : Nat) : Bool := !strRuns s i && decide (strBufs s i = 2)

/-- A string for which p holds. -/
def someStr (s : State) (p : Nat → Bool) : Bool := (List.range (strings s)).any p

/-- String to which drover d belongs. -/
def droverStr (s : State) (d : Nat) : Option Nat :=
  (List.range (strings s)).find? (fun i => decide (strFirst s i ≤ d) && decide (d < strFirst s i + strLen s i))

/-- The largest gap count, which a drover outside every string keeps. -/
def maxGap : Nat := 65535

/-- The drover at place p of a string has cells that form products of an item: of a convolution's lane the drovers that hold a kernel row (R130). -/
def placeForms (d : ArrDesc) (p : Nat) : Bool := !d.conv || decide (4 * (p % d.height) < d.r)

/-- Drover d forms products of its string's item. -/
def droverForms (s : State) (d : Nat) : Bool :=
  (droverStr s d).any (fun i => decide (d < strFirst s i + strLeff s i) && (strForms s i).any (fun x => placeForms x (d - strFirst s i)))

/-- Gap count of drover d in this a-cycle. One beyond the effective drovers of its string takes that of the first of them (log entry 84). -/
def gapOf (s : State) (d : Nat) : Nat :=
  match droverStr s d with
  | none => maxGap
  | some i =>
    let e := if d < strFirst s i + strLeff s i then d else strFirst s i
    if droverForms s e then 0 else tabGet maxGap s.arr.gap e

/-- Ballast level in 64ths (06 Table 5). -/
def ballastLevel (s : State) (g : Nat) : Nat :=
  match cfgBits s oGOV 1 0 with
  | 1 => if g < 48 then 64 else 0
  | 2 => if g < 48 then 64 else 64 - (g - 47) / max 1 (cfgBits s oGOV 15 8)
  | _ => 0

/-- Drover d is masked or droop-paused in this a-cycle. -/
def droverPaused (s : State) (d : Nat) : Bool := s.clk.stretch || !mayIssue s d

/-- Drover d forms ballast products in this a-cycle (06 R168). -/
def droverBallast (s : State) (d : Nat) : Bool :=
  let b := ballastLevel s (gapOf s d)
  !droverPaused s d && !droverForms s d && decide (gapOf s d * b % 64 < b)

/-- Gap counts after this a-cycle: 0 for a drover that was not idle, else one more. -/
def nextGaps (s : State) : Tab Nat :=
  (List.range 64).foldl (fun t d =>
    match droverStr s d with
    | none => t
    | some i =>
      if strFirst s i + strLeff s i ≤ d then t
      else tabSet maxGap t d (if droverPaused s d || droverForms s d then 0 else min (tabGet maxGap s.arr.gap d + 1) maxGap)) s.arr.gap

/-- A bale behind this a-cycle: that of an advancing string is one a-cycle nearer its end, which is noted. -/
def Bale.tick (s : State) (b : Bale) : Bale :=
  if b.left = 0 || !strAdv s b.string then b
  else if b.lead ≠ 0 then { b with lead := b.lead - 1 }
  else { b with left := b.left - 1, fin := s.gov.acyc }

def countIf (b : Bool) (n : Word) : Word := if b then n + 1 else n

/-- A finished bale waits outside the window of strict order. -/
def robWaits (s : State) : Bool := s.arr.bufs.any (fun b => decide (b.left = 0) && !drainable s b)

/-- The drain waits for a free entry of the bale queue. -/
def drainWaits (s : State) : Bool := (waitingBale s).any (fun b => decide (b.desc.out ≠ 2)) && decide (8 ≤ s.arr.bq.length)

/-- One a-cycle of the array: what its strings, drovers and drain count, and their ballast (06 R169). -/
def tickArr (s : State) : State :=
  let n := ((List.range 64).filter (droverBallast s)).length
  let t := (spend s 3 n).modArr (fun a => { a with
    adv := countIf (someStr s (strAdv s)) a.adv
    frzArb := countIf (arrFrozen s) a.frzArb
    frzBuf := countIf (someStr s (strFull s)) a.frzBuf
    frzThr := countIf (someStr s (fun i => strWork s i && strPaused s i)) a.frzThr
    robWait := countIf (robWaits s) a.robWait
    bqFullw := countIf (drainWaits s) a.bqFullw
    ballast := a.ballast + BitVec.ofNat 32 n
    gap := nextGaps s
    bufs := a.bufs.map (Bale.tick s) })
  if someStr s (fun i => (strForms s i).isSome) then progress t else t

/-- The vector engine's pipeline freezes: a read or a write of it waits for a bank (07 R189, R191). -/
def vecFrozen (s : State) : Bool := wantsAny s (fun r => decide (r = rqVRD) || decide (r = rqVWR))

/-- One a-cycle of the vector chain: it moves when every word that it reads or writes on it can be reached, and else its requests wait and it stands (08 R214, R215). -/
def tickChain (s : State) : State :=
  if vecFrozen s then s
  else
    let t := enterBeats s
    if spansWait s (chainReads t) then await s rqVRD (chainReads t)
    else if spansWait s (chainWrites t) then await s rqVWR (chainWrites t)
    else moveBeats t

/-- One a-cycle of the vector engine and of the Factor: the chain, and their cycle counters. -/
def tickEng (s : State) : State :=
  let t := tickChain s
  (t.modVec (fun v => { v with
    frzArb := countIf (vecFrozen t) v.frzArb
    bqWait := countIf (baleWaits s) v.bqWait
    serWait := countIf ((qOf s eVEC).wait.head?.any (fun x => !vecSerial s x)) v.serWait })).modFac (fun f =>
    { f with frzArb := countIf (wantsAny s (fun r => decide (r = rqFAC))) f.frzArb })

/-- An a-cycle of the arithmetic clock begins: root ÷ 4, and root ÷ 8 in a stretch (01 R20, R30). -/
def arithEdge (s : State) : Bool := decide (s.clk.pcyc % (if s.clk.stretch then 4 else 2) = 0)

/-- The root ÷ 4 divider, stretched or not, with every second port-clock cycle: the governor's count, the clock's energy and the ledger's a-cycles (14 R340, R342, R354); and what the arithmetic clock drives. -/
def tickDivider (s : State) : State :=
  if s.clk.pcyc % 2 = 0 then
    let t := ((spend s 8 1).modGov (fun g => { g with acyc := g.acyc + 1, tickGone := g.tickGone + acycParts s.clk.op })).modLdg
      (fun l => { l with acyc := tabMod 0 l.acyc s.clk.op.toNat (fun n => n + 1) })
    if arithEdge s then tickEng (tickArr t) else t
  else s

/-- Banks on which a request waits and that no exchange phase reserves. -/
def lostBanks (m : Mem) : Nat → Bool :=
  fun b => m.wants.any (fun w => w.banks.testBit b) && !(m.xph && m.xres.getLsbD b)

/-- A bank on which requests wait through a zeroisation: the c-cycle is lost for each of them. -/
def loseRound (m : Mem) (b : Nat) : Mem :=
  { m with
    bankLost := tabMod 0 m.bankLost b (fun n => n + 1)
    arb := tabMod {} m.arb b (fun a => (m.wants.filter (fun w => w.banks.testBit b)).foldl (fun x w => x.lose w.req) a) }

/-- A c-cycle of the bank arbiters: while a zeroisation runs, a request that waits loses a round (07 R186, R187); one that waits for a reserved bank loses none (R191). -/
def tickMem (s : State) : State :=
  if s.mem.zeroing then s.modMem (fun m => ((List.range 32).filter (lostBanks m)).foldl loseRound m) else s

/-- A credit that is owed is pulsed, one a c-cycle (13 R326; 17 R413). -/
def tickCredits (s : State) : State :=
  (s.modStr (fun x => { x with inPulse := decide (0 < x.inCred), inCred := x.inCred - 1 })).modPst (fun x =>
    { x with inPulse := decide (0 < x.inCred), inCred := x.inCred - 1 })

/-- Cycle counters of the sync unit: the watchman's count (12 R303) and SYN_WAIT_CYC. -/
def tickSyn (s : State) : State :=
  let hold := wmHeld s || decide (wmLimit s ≤ s.syn.wmCount.toNat)
  let waits := (List.range 8).any (fun k => (watchOf s k).active)
  s.modSyn (fun y => { y with
    wmCount := if hold then y.wmCount else y.wmCount + 1
    waitCyc := if waits then y.waitCyc + 1 else y.waitCyc })

/-- A packet waits for a tag or a write slot. -/
def tagShort (s : State) : Bool :=
  s.str.jobs.any (fun j => !j.dead && decide (j.issued < j.n) &&
    (if j.kind = .get then decide (64 ≤ s.str.reads.length) else decide (64 ≤ s.str.writes.length)))

/-- Cycle counters of the stream port (13 Table 18). -/
def tickStr (s : State) : State :=
  let c := decide (s.str.cred = 0) && ((nextJob s).isSome || !s.str.acks.isEmpty)
  let g := tagShort s
  s.modStr (fun x => { x with credWait := if c then x.credWait + 1 else x.credWait, tagWait := if g then x.tagWait + 1 else x.tagWait })

/-- The control core's cycle counters, and the wait at sync. -/
def tickCore (s : State) : State :=
  let arb := wantsAny s (fun r => decide (r ≤ 1))
  s.modCore (fun k =>
    let x := if ctlEdge s then (if arb then { k with stallArb := k.stallArb + 1 } else tickStalls k) else k
    { x with waitCnt := if k.syncArr then k.waitCnt + 1 else k.waitCnt })

/-- One port c-cycle of the units. The watchman counts first: progress on this c-cycle leaves 0 (12 R303). -/
def tickUnits (s : State) : State :=
  let t := tickCore (tickStr (tickDivider (tickMem (tickSyn s))))
  let u := pstResume (clearMbox (settleAll (t.modClk (fun c => { c with
    pcyc := c.pcyc + 1, ccyc := if ctlEdge s then c.ccyc + 1 else c.ccyc, rearm := c.rearm - 2 }))))
  (List.range 4).foldl meetStore u

/-- One port c-cycle. Credits are pulsed in the fatal state too, in which puts and posts are answered. -/
def tick (s : State) : State :=
  if unitsOn s then tickCredits (tickUnits s) else if busOn s then tickCredits s else s

end Sys2Proof.Machine
end

