-- ==== Sys2Proof/Laws/Word.lean ====
section
/-! SUPPORT. The fields of an instruction word that mkWord builds (03 Table 2). -/

namespace Sys2Proof.Laws

theorem mkWord_toNat (x : Bool) (op : Nat) (d a : SReg) (low : Nat) (ho : op < 64) (hl : low < 2 ^ 15) :
    (mkWord x op d a low).toNat = (if x then 2 ^ 31 else 0) + 2 ^ 25 * op + 2 ^ 20 * d.toNat + 2 ^ 15 * a.toNat + low := by
  have hd := d.isLt
  have ha := a.isLt
  simp only [mkWord, BitVec.toNat_ofNat]
  apply Nat.mod_eq_of_lt
  cases x <;> simp <;> omega

theorem wordBits_x (x : Bool) (op : Nat) (d a : SReg) (low : Nat) (ho : op < 64) (hl : low < 2 ^ 15) :
    wordBits (mkWord x op d a low) 31 31 = if x then 1 else 0 := by
  have hd := d.isLt
  have ha := a.isLt
  simp only [wordBits, mkWord_toNat x op d a low ho hl, Nat.shiftRight_eq_div_pow]
  cases x <;> simp <;> omega

theorem wordBits_op (x : Bool) (op : Nat) (d a : SReg) (low : Nat) (ho : op < 64) (hl : low < 2 ^ 15) :
    wordBits (mkWord x op d a low) 30 25 = op := by
  have hd := d.isLt
  have ha := a.isLt
  simp only [wordBits, mkWord_toNat x op d a low ho hl, Nat.shiftRight_eq_div_pow]
  cases x <;> simp <;> omega

theorem fD_mkWord (x : Bool) (op : Nat) (d a : SReg) (low : Nat) (ho : op < 64) (hl : low < 2 ^ 15) :
    fD (mkWord x op d a low) = d := by
  have hd := d.isLt
  have ha := a.isLt
  apply BitVec.eq_of_toNat_eq
  simp only [fD, wordBits, mkWord_toNat x op d a low ho hl, Nat.shiftRight_eq_div_pow, BitVec.toNat_ofNat]
  cases x <;> simp <;> omega

theorem fA_mkWord (x : Bool) (op : Nat) (d a : SReg) (low : Nat) (ho : op < 64) (hl : low < 2 ^ 15) :
    fA (mkWord x op d a low) = a := by
  have hd := d.isLt
  have ha := a.isLt
  apply BitVec.eq_of_toNat_eq
  simp only [fA, wordBits, mkWord_toNat x op d a low ho hl, Nat.shiftRight_eq_div_pow, BitVec.toNat_ofNat]
  cases x <;> simp <;> omega

/-- The low 15 bits, by a part of them. -/
theorem wordBits_low (x : Bool) (op : Nat) (d a : SReg) (low hi lo : Nat) (ho : op < 64) (hl : low < 2 ^ 15) (hh : hi < 15) :
    wordBits (mkWord x op d a low) hi lo = (low / 2 ^ lo) % 2 ^ (hi + 1 - lo) := by
  have e : (mkWord x op d a low).toNat = low + 2 ^ 15 * ((if x then 2 ^ 16 else 0) + 2 ^ 10 * op + 2 ^ 5 * d.toNat + a.toNat) := by
    rw [mkWord_toNat x op d a low ho hl]
    cases x <;> simp <;> omega
  simp only [wordBits, e, Nat.shiftRight_eq_div_pow]
  by_cases h : lo ≤ hi
  · have h15 : (2 : Nat) ^ 15 = 2 ^ lo * 2 ^ (15 - lo) := by rw [← Nat.pow_add]; congr 1; omega
    rw [h15, Nat.mul_assoc, Nat.add_mul_div_left _ _ (by positivity)]
    have h2 : (2 : Nat) ^ (15 - lo) = 2 ^ (hi + 1 - lo) * 2 ^ (15 - (hi + 1)) := by rw [← Nat.pow_add]; congr 1; omega
    rw [h2, Nat.mul_assoc, Nat.add_mul_mod_self_left]
  · have : hi + 1 - lo = 0 := by omega
    simp [this, Nat.mod_one]

theorem setWidth_mkWord (n : Nat) (x : Bool) (op : Nat) (d a : SReg) (low : Nat) (ho : op < 64) (hl : low < 2 ^ 15) (hn : n ≤ 15) :
    (mkWord x op d a low).setWidth n = BitVec.ofNat n low := by
  apply BitVec.eq_of_toNat_eq
  rw [BitVec.toNat_setWidth, BitVec.toNat_ofNat, mkWord_toNat x op d a low ho hl]
  have h15 : (2 : Nat) ^ 15 = 2 ^ n * 2 ^ (15 - n) := by rw [← Nat.pow_add]; congr 1; omega
  have e : (if x then 2 ^ 31 else 0) + 2 ^ 25 * op + 2 ^ 20 * d.toNat + 2 ^ 15 * a.toNat + low =
      low + 2 ^ 15 * ((if x then 2 ^ 16 else 0) + 2 ^ 10 * op + 2 ^ 5 * d.toNat + a.toNat) := by
    cases x <;> simp <;> omega
  rw [e, h15, Nat.mul_assoc, Nat.add_mul_mod_self_left]

theorem asR_encR (fn : Nat) (f : RForm) (hf : fn < 64) : asR (encR fn f) = f := by
  have hb := f.b.isLt
  have hg := f.f96.isLt
  have hl : 2 ^ 10 * f.b.toNat + 2 ^ 6 * f.f96.toNat + fn < 2 ^ 15 := by omega
  obtain ⟨x, d, a, b, g⟩ := f
  simp only at hl
  have h0 : 0 < 64 := by omega
  simp only [asR, encR, RForm.mk.injEq]
  refine ⟨?_, fD_mkWord x 0 d a _ h0 hl, fA_mkWord x 0 d a _ h0 hl, ?_, ?_⟩
  · have h := wordBits_x x 0 d a _ h0 hl
    simp only [h]; cases x <;> simp
  · simp only [fB, wordBits_low x 0 d a _ 14 10 h0 hl (by omega)]
    apply BitVec.eq_of_toNat_eq; simp only [BitVec.toNat_ofNat]; simp only at *; omega
  · rw [wordBits_low x 0 d a _ 9 6 h0 hl (by omega)]
    apply BitVec.eq_of_toNat_eq; simp only [BitVec.toNat_ofNat]; simp only at *; omega

theorem encR_op (fn : Nat) (f : RForm) (hf : fn < 64) : wordBits (encR fn f) 30 25 = 0 := by
  have hb := f.b.isLt
  have hg := f.f96.isLt
  exact wordBits_op f.x 0 f.d f.a (2 ^ 10 * f.b.toNat + 2 ^ 6 * f.f96.toNat + fn) (by omega) (by omega)

theorem encR_fn (fn : Nat) (f : RForm) (hf : fn < 64) : wordBits (encR fn f) 5 0 = fn := by
  have hb := f.b.isLt
  have hg := f.f96.isLt
  rw [encR, wordBits_low f.x 0 f.d f.a (2 ^ 10 * f.b.toNat + 2 ^ 6 * f.f96.toNat + fn) 5 0 (by omega) (by omega) (by omega)]; omega

theorem fX_mkWord (ext : Option Word) (op : Nat) (d a : SReg) (low : Nat) (ho : op < 64) (hl : low < 2 ^ 15) :
    fX (mkWord ext.isSome op d a low) (extWord ext) = ext := by
  simp only [fX, wordBits_x _ _ _ _ _ ho hl, extWord]
  cases ext <;> simp

theorem asI_encI (op : Nat) (f : IForm) (ho : op < 64) : asI (encI op f) (extWord f.ext) = f := by
  have hi := f.imm.isLt
  obtain ⟨x, d, a, i⟩ := f
  simp only [asI, encI, IForm.mk.injEq]
  refine ⟨fX_mkWord _ _ _ _ _ ho (by simpa using hi), fD_mkWord _ _ _ _ _ ho (by simpa using hi), fA_mkWord _ _ _ _ _ ho (by simpa using hi), ?_⟩
  rw [setWidth_mkWord _ _ _ _ _ _ ho (by simpa using hi) (by omega)]; simp

theorem encI_op (op : Nat) (f : IForm) (ho : op < 64) : wordBits (encI op f) 30 25 = op :=
  wordBits_op f.ext.isSome op f.d f.a f.imm.toNat ho (by have := f.imm.isLt; omega)

theorem asB_encB (op : Nat) (f : BForm) (ho : op < 64) : asB (encB op f) (extWord f.ext) = f := by
  have hb := f.b.isLt
  have hf := f.off.isLt
  have hl : 2 ^ 10 * f.b.toNat + f.off.toNat < 2 ^ 15 := by omega
  obtain ⟨x, c, a, b, g⟩ := f
  simp only [asB, encB, BForm.mk.injEq]
  refine ⟨fX_mkWord _ _ _ _ _ ho hl, fD_mkWord _ _ _ _ _ ho hl, fA_mkWord _ _ _ _ _ ho hl, ?_, ?_⟩
  · simp only [fB, wordBits_low _ _ _ _ _ 14 10 ho hl (by omega)]
    apply BitVec.eq_of_toNat_eq; simp only [BitVec.toNat_ofNat]; simp only at *; omega
  · rw [setWidth_mkWord _ _ _ _ _ _ ho hl (by omega)]
    apply BitVec.eq_of_toNat_eq; simp only [BitVec.toNat_ofNat]; simp only at *; omega

theorem encB_op (op : Nat) (f : BForm) (ho : op < 64) : wordBits (encB op f) 30 25 = op :=
  wordBits_op f.ext.isSome op f.cond f.a (2 ^ 10 * f.b.toNat + f.off.toNat) ho (by have := f.b.isLt; have := f.off.isLt; omega)

theorem encJ_toNat (op : Nat) (f : JForm) (ho : op < 64) :
    (encJ op f).toNat = (if f.x then 2 ^ 31 else 0) + 2 ^ 25 * op + 2 ^ 20 * f.d.toNat + f.off.toNat := by
  have hd := f.d.isLt
  have hf := f.off.isLt
  simp only [encJ, BitVec.toNat_ofNat]
  apply Nat.mod_eq_of_lt
  cases f.x <;> simp <;> omega

theorem encJ_op (op : Nat) (f : JForm) (ho : op < 64) : wordBits (encJ op f) 30 25 = op := by
  have hd := f.d.isLt
  have hf := f.off.isLt
  simp only [wordBits, encJ_toNat op f ho, Nat.shiftRight_eq_div_pow]
  cases f.x <;> simp <;> omega

theorem asJ_encJ (op : Nat) (f : JForm) (ho : op < 64) : asJ (encJ op f) = f := by
  have hd := f.d.isLt
  have hf := f.off.isLt
  have e := encJ_toNat op f ho
  obtain ⟨x, d, o⟩ := f
  simp only [asJ, JForm.mk.injEq]
  simp only at e hd hf
  refine ⟨?_, ?_, ?_⟩
  · simp only [wordBits, e, Nat.shiftRight_eq_div_pow]
    cases x <;> simp <;> omega
  · simp only [fD, wordBits, e, Nat.shiftRight_eq_div_pow]
    apply BitVec.eq_of_toNat_eq
    simp only [BitVec.toNat_ofNat]
    cases x <;> simp <;> omega
  · apply BitVec.eq_of_toNat_eq
    rw [BitVec.toNat_setWidth, e]
    cases x <;> simp <;> omega

theorem asE_encE (op : Nat) (f : EForm) (ho : op < 64) : asE (encE op f) (extWord f.ext) = f := by
  have hb := f.b.isLt
  have hf := f.fn.isLt
  have hs := f.sub.isLt
  have hl : 2 ^ 10 * f.b.toNat + 2 ^ 6 * f.fn.toNat + f.sub.toNat < 2 ^ 15 := by omega
  obtain ⟨x, d, a, b, g, u⟩ := f
  simp only [asE, encE, EForm.mk.injEq]
  refine ⟨fX_mkWord _ _ _ _ _ ho hl, fD_mkWord _ _ _ _ _ ho hl, fA_mkWord _ _ _ _ _ ho hl, ?_, ?_, ?_⟩
  · simp only [fB, wordBits_low _ _ _ _ _ 14 10 ho hl (by omega)]
    apply BitVec.eq_of_toNat_eq; simp only [BitVec.toNat_ofNat]; simp only at *; omega
  · rw [wordBits_low _ _ _ _ _ 9 6 ho hl (by omega)]
    apply BitVec.eq_of_toNat_eq; simp only [BitVec.toNat_ofNat]; simp only at *; omega
  · rw [setWidth_mkWord _ _ _ _ _ _ ho hl (by omega)]
    apply BitVec.eq_of_toNat_eq; simp only [BitVec.toNat_ofNat]; simp only at *; omega

theorem encE_op (op : Nat) (f : EForm) (ho : op < 64) : wordBits (encE op f) 30 25 = op :=
  wordBits_op f.ext.isSome op f.d f.a (2 ^ 10 * f.b.toNat + 2 ^ 6 * f.fn.toNat + f.sub.toNat) ho
    (by have := f.b.isLt; have := f.fn.isLt; have := f.sub.isLt; omega)

theorem asC_encC (op : Nat) (f : CForm) (ho : op < 64) : asC (encC op f) (extWord f.ext) = f := by
  have hb := f.b.isLt
  have hf := f.f.isLt
  have hl : 2 ^ 10 * f.b.toNat + f.f.toNat < 2 ^ 15 := by omega
  obtain ⟨x, d, a, b, g⟩ := f
  simp only [asC, encC, CForm.mk.injEq]
  refine ⟨fX_mkWord _ _ _ _ _ ho hl, fD_mkWord _ _ _ _ _ ho hl, fA_mkWord _ _ _ _ _ ho hl, ?_, ?_⟩
  · simp only [fB, wordBits_low _ _ _ _ _ 14 10 ho hl (by omega)]
    apply BitVec.eq_of_toNat_eq; simp only [BitVec.toNat_ofNat]; simp only at *; omega
  · rw [setWidth_mkWord _ _ _ _ _ _ ho hl (by omega)]
    apply BitVec.eq_of_toNat_eq; simp only [BitVec.toNat_ofNat]; simp only at *; omega

theorem encC_op (op : Nat) (f : CForm) (ho : op < 64) : wordBits (encC op f) 30 25 = op :=
  wordBits_op f.ext.isSome op f.d f.a (2 ^ 10 * f.b.toNat + f.f.toNat) ho (by have := f.b.isLt; have := f.f.isLt; omega)

/-- A part of F, read from the word. -/
theorem encC_f (op : Nat) (f : CForm) (hi lo : Nat) (ho : op < 64) (hh : hi < 10) :
    wordBits (encC op f) hi lo = (f.f.toNat / 2 ^ lo) % 2 ^ (hi + 1 - lo) := by
  have hb := f.b.isLt
  have hf := f.f.isLt
  rw [encC, wordBits_low f.ext.isSome op f.d f.a (2 ^ 10 * f.b.toNat + f.f.toNat) hi lo ho (by omega) (by omega)]
  by_cases h : lo ≤ hi
  · have h10 : (2 : Nat) ^ 10 = 2 ^ lo * 2 ^ (10 - lo) := by rw [← Nat.pow_add]; congr 1; omega
    have h2 : (2 : Nat) ^ (10 - lo) = 2 ^ (hi + 1 - lo) * 2 ^ (10 - (hi + 1)) := by rw [← Nat.pow_add]; congr 1; omega
    rw [Nat.add_comm, h10, Nat.mul_assoc, Nat.add_mul_div_left _ _ (by positivity), h2, Nat.mul_assoc, Nat.add_mul_mod_self_left]
  · have : hi + 1 - lo = 0 := by omega
    simp [this, Nat.mod_one]

/-- Every word spells an instruction of the control core. -/
theorem encodeCore_decodeCore_isSome (w e : Word) : (encodeCore (decodeCore w e)).isSome = true := by
  unfold decodeCore
  split <;> try rfl
  · unfold decodeAlu
    split <;> rfl
  · split <;> rfl
  · split <;> rfl

end Sys2Proof.Laws
end

