-- ==== Sys2Proof/WellFormed.lean ====
section
/-! DEFINITION. Well-formed commands: operands that the spec admits. Instruction words that break these checks are ILLEGAL (03 R76), and register accesses outside their window are reserved (00 R6). -/

namespace Sys2Proof

/-- Form R of an ALU function: X and F[9:6] are 0 (03 Table 4). -/
def rFormOk (f : RForm) : Bool := !f.x && decide (f.f96 = 0)

/-- A shift by an immediate below 64, without an extension word. -/
def shiftOk (f : IForm) : Bool := f.ext.isNone && decide (f.imm.toNat < 64)

/-- No extension word in form C. -/
def noExtOk (f : CForm) : Bool := f.ext.isNone

/-- Bits hi to lo of F. -/
def field (f : CForm) (hi lo : Nat) : Nat := (f.f.toNat >>> lo) % 2 ^ (hi + 1 - lo)

/-- SIG with an OP: D, B and F[9] are 0 (12 Table 4). -/
def sigOk (f : CForm) (op : Nat) : Bool :=
  noExtOk f && decide (f.d = 0) && decide (f.b = 0) && decide (field f 9 9 = 0) && decide (field f 8 7 = op)

/-- Opcodes of 03 Table 3. -/
def opcodes : List Nat :=
  [0, 1, 2, 3, 4, 5, 6, 7, 8, 9, 16, 17, 18, 19, 20, 21, 22, 23, 24, 25, 26, 28, 29, 30, 32, 33, 34, 35, 36, 37, 38,
   40, 41, 42, 43, 44, 45, 46, 47, 48, 49, 50, 51, 62]

/-- A word with a reserved opcode, or a reserved ALU function code. -/
def reservedOk (w : Word) : Bool :=
  let op := (w.toNat >>> 25) % 64
  !opcodes.contains op || (decide (op = 0) && decide (27 ≤ w.toNat % 64))

/-- A word address in the register window. -/
def regAddrOk (addr : BitVec 22) : Bool := decide (addr.toNat < 0x10000) && decide (addr.toNat % 4 = 0)

/-- A word address in the memory window. -/
def winAddrOk (addr : BitVec 22) : Bool := decide (0x100000 ≤ addr.toNat) && decide (addr.toNat < 0x280000) && decide (addr.toNat % 4 = 0)

/-- The operands are those that the row admits. -/
def WellFormed (i : Instr) : Bool :=
  match i with
  | .syncArrival => true
  | .syncRelease _ => true
  | .shadowCopyDone => true
  | .exchStart => true
  | .exchSendBeat _ => true
  | .exchRecvBeat _ _ => true
  | .exchEnd => true
  | .itinLoadDone _ => true
  | .stageOpChange op => decide (op.toNat < 5)
  | .suspendEntry => true
  | .alertFall => true
  | .alertRise => true
  | .alertReturn => true
  | .droopTrip => true
  | .stretchEnd _ => true
  | .droopRearm _ => true
  | .add f => rFormOk f
  | .sub f => rFormOk f
  | .and f => rFormOk f
  | .or f => rFormOk f
  | .xor f => rFormOk f
  | .andn f => rFormOk f
  | .sll f => rFormOk f
  | .srl f => rFormOk f
  | .sra f => rFormOk f
  | .slt f => rFormOk f
  | .sltu f => rFormOk f
  | .min f => rFormOk f
  | .max f => rFormOk f
  | .minu f => rFormOk f
  | .maxu f => rFormOk f
  | .sxw f => rFormOk f
  | .zxw f => rFormOk f
  | .difw f => rFormOk f
  | .mul f => rFormOk f
  | .mulh f => rFormOk f
  | .mulhu f => rFormOk f
  | .div f => rFormOk f
  | .divu f => rFormOk f
  | .rem f => rFormOk f
  | .remu f => rFormOk f
  | .clz f => rFormOk f
  | .popc f => rFormOk f
  | .addi _ => true
  | .andi _ => true
  | .ori _ => true
  | .xori _ => true
  | .slli f => shiftOk f
  | .srli f => shiftOk f
  | .srai f => shiftOk f
  | .slti _ => true
  | .orhi _ => true
  | .ldd _ => true
  | .ldw _ => true
  | .ldwu _ => true
  | .lds _ => true
  | .ldsu _ => true
  | .ldb _ => true
  | .ldbu _ => true
  | .std _ => true
  | .stw _ => true
  | .sts _ => true
  | .stb _ => true
  | .br f => decide (f.cond.toNat < 7)
  | .jal f => !f.x
  | .jalr _ => true
  | .arr f => decide (f.fn.toNat < 5)
  | .vec f => decide (f.fn.toNat < 10)
  | .fac f => decide (f.fn.toNat < 6)
  | .wgh f => decide (f.fn.toNat < 5)
  | .str f => decide (f.fn.toNat < 3)
  | .pst f => decide (f.fn.toNat < 4)
  | .sth f => decide (f.fn.toNat < 4)
  | .sync f => noExtOk f && decide (f.d = 0) && decide (f.a = 0) && decide (f.b = 0) && decide (f.f.toNat < 64) && decide (field f 2 1 ≠ 3)
  | .sig f => sigOk f 0
  | .sigBar f => sigOk f 1 && decide (field f 6 6 = 0)
  | .sigSet f => sigOk f 2 && decide (field f 6 6 = 0)
  | .wait f => noExtOk f && decide (f.b = 0) && decide (field f 9 8 = 0) && decide (field f 7 6 ≠ 3)
  | .few f => noExtOk f && decide (f.f = 0)
  | .fer f => noExtOk f && decide (f.f = 0)
  | .wake _ => true
  | .fence f => noExtOk f
  | .fenceDone => true
  | .rng _ => true
  | .phase _ => true
  | .manLoad f => noExtOk f && decide (field f 0 0 = 0)
  | .manArm f => noExtOk f && decide (field f 0 0 = 1)
  | .mfs f => noExtOk f
  | .mts f => noExtOk f && decide (16 ≤ field f 5 0) && decide (field f 5 0 ≤ 23)
  | .ctx f => noExtOk f
  | .brk f => noExtOk f
  | .engineRetire q _ => decide (q.toNat < 7)
  | .queueDiscard q => decide (q.toNat < 7)
  | .arrMm => true
  | .arrConv => true
  | .arrCar => true
  | .arrList => true
  | .arrFlush => true
  | .itemClaim _ => true
  | .itemSteal _ => true
  | .listEntryClaim _ => true
  | .caravanDeadline _ => true
  | .baleDrain => true
  | .baleRead => true
  | .vecRun => true
  | .vecProg => true
  | .vecPerm => true
  | .vecShuf => true
  | .vecPack => true
  | .vecUnpk => true
  | .vecVld => true
  | .vecVst => true
  | .vecBcst => true
  | .vecRds => true
  | .facStep => true
  | .scheduleGroupEval => true
  | .facP1 => true
  | .facToken => true
  | .facP2 => true
  | .facCommit => true
  | .facCnt => true
  | .wghRead => true
  | .wghStep => true
  | .wghLsread => true
  | .wghFlags => true
  | .wghClr => true
  | .strGet => true
  | .strPut => true
  | .strRput => true
  | .streamCredit => true
  | .packetIssue => true
  | .rdatReceived _ => true
  | .ackReceived _ => true
  | .rputReceived _ => true
  | .pstSend => true
  | .pstAck => true
  | .pstOpen => true
  | .pstClose => true
  | .postCredit => true
  | .postTransmit _ => true
  | .inboundMessage _ _ => true
  | .postResponse _ => true
  | .postResend _ => true
  | .sthPut => true
  | .sthGet => true
  | .sthFree => true
  | .sthQuery => true
  | .watchmanFire => true
  | .handSetVal => true
  | .handSetState => true
  | .fePut => true
  | .feTake => true
  | .fePeek => true
  | .feForce _ => true
  | .manCtrlLoad => true
  | .manCtrlArm => true
  | .manCtrlDisarm => true
  | .manCtrlResume => true
  | .manCtrlDiscard => true
  | .manifestLoadDone => true
  | .shadowWrite _ addr _ => regAddrOk addr
  | .debugLiveWrite _ => true
  | .coreCtxWrite _ => true
  | .coreCtxReload _ => true
  | .reloadDone => true
  | .memCtrlZero => true
  | .zeroisationDone => true
  | .scrubRead => true
  | .scrubWriteback => true
  | .memSthCtrlClear => true
  | .jrnlCtrlReplay => true
  | .jrnlCtrlCancel => true
  | .facCtrlRollback _ => true
  | .fltCtrlClear => true
  | .fltCtrlWrest => true
  | .fltCtrlInj => true
  | .fltCtrlFclr => true
  | .fatalFault => true
  | .govCtrlMark => true
  | .govCtrlTrfclr => true
  | .govDbgWrite _ => true
  | .allowanceStrobe _ => true
  | .defaultWindow => true
  | .maskUpdate => true
  | .budgetRequest => true
  | .phaseBegin => true
  | .thermalChange _ => true
  | .marginReading _ => true
  | .operatingPointNotice opCode opn => decide (opCode.toNat < 5) && decide (opn.toNat < 5)
  | .ledgerTick => true
  | .ldgCtrlSnap => true
  | .snapshotCapture => true
  | .autoSnapshot => true
  | .ldgCtrlRestore => true
  | .ldgCtrlInit => true
  | .ldgWallofsWrite _ => true
  | .saveWord => true
  | .restoreWord w _ => decide (w.toNat ≤ 33)
  | .restoreGo => true
  | .keyLd _ _ _ => true
  | .rekey => true
  | .keyEnd => true
  | .keyPermitRise => true
  | .keyPermitFall => true
  | .secCtrlCode => true
  | .codeLoadDone => true
  | .secDbgReqWrite level => decide (level ≠ 3)
  | .secSeCurWrite _ => true
  | .xchTctrlWrite => true
  | .dbgCtrlHalt => true
  | .dbgCtrlResume => true
  | .dbgCtrlStep => true
  | .dbgSdataAccess _ _ _ _ => true
  | .dbgPcset _ => true
  | .memoryWindowAccess _ _ addr _ _ => winAddrOk addr
  | .wideRegisterRead _ addr => regAddrOk addr
  | .wideRegisterWrite _ addr _ => regAddrOk addr
  | .registerWrite _ addr _ be => regAddrOk addr && decide (be = 0xF)
  | .aoReset => true
  | .coreReset _ _ => true
  | .coreResetAssert => true
  | .isoEngage => true
  | .isoRelease => true
  | .wsBypass => true
  | .wsExtest => true
  | .wsIntest => true
  | .scan => true
  | .mbistRun => true
  | .mbistDone _ => true
  | .mbistResult => true
  | .cap cap => decide (cap.toNat ≤ 64)
  | .idreg => true
  | .suspendExit => true
  | .reservedOpcode w => reservedOk w

end Sys2Proof
end

