-- ==== Sys2Proof/Laws/PerInstr.lean ====
section
/-! SUPPORT. Per command: a well-formed instruction of the control core is what its words spell, and no word spells a command that is none (family Decoding). -/

namespace Sys2Proof.Laws.Decoding

set_option Elab.async false

/-- What is said of one command. -/
def Statement (i : Instr) : Prop :=
  match encodeCore i with
  | some w => WellFormed i = true → decodeCore w.1 w.2 = i
  | none => ∀ w e : Word, decodeCore w e ≠ i

theorem noWord {i : Instr} (h : encodeCore i = none) : Statement i := by
  unfold Statement
  rw [h]
  intro w e hd
  have := encodeCore_decodeCore_isSome w e
  rw [hd, h] at this
  cases this

theorem syncArrival : Statement (.syncArrival) := noWord rfl

theorem syncRelease (r : ReleaseIn) : Statement (.syncRelease r) := noWord rfl

theorem shadowCopyDone : Statement (.shadowCopyDone) := noWord rfl

theorem exchStart : Statement (.exchStart) := noWord rfl

theorem exchSendBeat (off : Word) : Statement (.exchSendBeat off) := noWord rfl

theorem exchRecvBeat (off : Word) (x : XchBeat) : Statement (.exchRecvBeat off x) := noWord rfl

theorem exchEnd : Statement (.exchEnd) := noWord rfl

theorem itinLoadDone (cyc : Word) : Statement (.itinLoadDone cyc) := noWord rfl

theorem stageOpChange (op : BitVec 3) : Statement (.stageOpChange op) := noWord rfl

theorem suspendEntry : Statement (.suspendEntry) := noWord rfl

theorem alertFall : Statement (.alertFall) := noWord rfl

theorem alertRise : Statement (.alertRise) := noWord rfl

theorem alertReturn : Statement (.alertReturn) := noWord rfl

theorem droopTrip : Statement (.droopTrip) := noWord rfl

theorem stretchEnd (limit : Bool) : Statement (.stretchEnd limit) := noWord rfl

theorem droopRearm (low : Bool) : Statement (.droopRearm low) := noWord rfl

theorem add (f : RForm) : Statement (.add f) := by
  intro _
  simp only [decodeCore, encR_op 0 f (by decide)]
  simp only [decodeAlu, encR_fn 0 f (by decide), asR_encR 0 f (by decide)]

theorem sub (f : RForm) : Statement (.sub f) := by
  intro _
  simp only [decodeCore, encR_op 1 f (by decide)]
  simp only [decodeAlu, encR_fn 1 f (by decide), asR_encR 1 f (by decide)]

theorem and (f : RForm) : Statement (.and f) := by
  intro _
  simp only [decodeCore, encR_op 2 f (by decide)]
  simp only [decodeAlu, encR_fn 2 f (by decide), asR_encR 2 f (by decide)]

theorem or (f : RForm) : Statement (.or f) := by
  intro _
  simp only [decodeCore, encR_op 3 f (by decide)]
  simp only [decodeAlu, encR_fn 3 f (by decide), asR_encR 3 f (by decide)]

theorem xor (f : RForm) : Statement (.xor f) := by
  intro _
  simp only [decodeCore, encR_op 4 f (by decide)]
  simp only [decodeAlu, encR_fn 4 f (by decide), asR_encR 4 f (by decide)]

theorem andn (f : RForm) : Statement (.andn f) := by
  intro _
  simp only [decodeCore, encR_op 5 f (by decide)]
  simp only [decodeAlu, encR_fn 5 f (by decide), asR_encR 5 f (by decide)]

theorem sll (f : RForm) : Statement (.sll f) := by
  intro _
  simp only [decodeCore, encR_op 6 f (by decide)]
  simp only [decodeAlu, encR_fn 6 f (by decide), asR_encR 6 f (by decide)]

theorem srl (f : RForm) : Statement (.srl f) := by
  intro _
  simp only [decodeCore, encR_op 7 f (by decide)]
  simp only [decodeAlu, encR_fn 7 f (by decide), asR_encR 7 f (by decide)]

theorem sra (f : RForm) : Statement (.sra f) := by
  intro _
  simp only [decodeCore, encR_op 8 f (by decide)]
  simp only [decodeAlu, encR_fn 8 f (by decide), asR_encR 8 f (by decide)]

theorem slt (f : RForm) : Statement (.slt f) := by
  intro _
  simp only [decodeCore, encR_op 9 f (by decide)]
  simp only [decodeAlu, encR_fn 9 f (by decide), asR_encR 9 f (by decide)]

theorem sltu (f : RForm) : Statement (.sltu f) := by
  intro _
  simp only [decodeCore, encR_op 10 f (by decide)]
  simp only [decodeAlu, encR_fn 10 f (by decide), asR_encR 10 f (by decide)]

theorem min (f : RForm) : Statement (.min f) := by
  intro _
  simp only [decodeCore, encR_op 11 f (by decide)]
  simp only [decodeAlu, encR_fn 11 f (by decide), asR_encR 11 f (by decide)]

theorem max (f : RForm) : Statement (.max f) := by
  intro _
  simp only [decodeCore, encR_op 12 f (by decide)]
  simp only [decodeAlu, encR_fn 12 f (by decide), asR_encR 12 f (by decide)]

theorem minu (f : RForm) : Statement (.minu f) := by
  intro _
  simp only [decodeCore, encR_op 13 f (by decide)]
  simp only [decodeAlu, encR_fn 13 f (by decide), asR_encR 13 f (by decide)]

theorem maxu (f : RForm) : Statement (.maxu f) := by
  intro _
  simp only [decodeCore, encR_op 14 f (by decide)]
  simp only [decodeAlu, encR_fn 14 f (by decide), asR_encR 14 f (by decide)]

theorem sxw (f : RForm) : Statement (.sxw f) := by
  intro _
  simp only [decodeCore, encR_op 15 f (by decide)]
  simp only [decodeAlu, encR_fn 15 f (by decide), asR_encR 15 f (by decide)]

theorem zxw (f : RForm) : Statement (.zxw f) := by
  intro _
  simp only [decodeCore, encR_op 16 f (by decide)]
  simp only [decodeAlu, encR_fn 16 f (by decide), asR_encR 16 f (by decide)]

theorem difw (f : RForm) : Statement (.difw f) := by
  intro _
  simp only [decodeCore, encR_op 17 f (by decide)]
  simp only [decodeAlu, encR_fn 17 f (by decide), asR_encR 17 f (by decide)]

theorem mul (f : RForm) : Statement (.mul f) := by
  intro _
  simp only [decodeCore, encR_op 18 f (by decide)]
  simp only [decodeAlu, encR_fn 18 f (by decide), asR_encR 18 f (by decide)]

theorem mulh (f : RForm) : Statement (.mulh f) := by
  intro _
  simp only [decodeCore, encR_op 19 f (by decide)]
  simp only [decodeAlu, encR_fn 19 f (by decide), asR_encR 19 f (by decide)]

theorem mulhu (f : RForm) : Statement (.mulhu f) := by
  intro _
  simp only [decodeCore, encR_op 20 f (by decide)]
  simp only [decodeAlu, encR_fn 20 f (by decide), asR_encR 20 f (by decide)]

theorem div (f : RForm) : Statement (.div f) := by
  intro _
  simp only [decodeCore, encR_op 21 f (by decide)]
  simp only [decodeAlu, encR_fn 21 f (by decide), asR_encR 21 f (by decide)]

theorem divu (f : RForm) : Statement (.divu f) := by
  intro _
  simp only [decodeCore, encR_op 22 f (by decide)]
  simp only [decodeAlu, encR_fn 22 f (by decide), asR_encR 22 f (by decide)]

theorem rem (f : RForm) : Statement (.rem f) := by
  intro _
  simp only [decodeCore, encR_op 23 f (by decide)]
  simp only [decodeAlu, encR_fn 23 f (by decide), asR_encR 23 f (by decide)]

theorem remu (f : RForm) : Statement (.remu f) := by
  intro _
  simp only [decodeCore, encR_op 24 f (by decide)]
  simp only [decodeAlu, encR_fn 24 f (by decide), asR_encR 24 f (by decide)]

theorem clz (f : RForm) : Statement (.clz f) := by
  intro _
  simp only [decodeCore, encR_op 25 f (by decide)]
  simp only [decodeAlu, encR_fn 25 f (by decide), asR_encR 25 f (by decide)]

theorem popc (f : RForm) : Statement (.popc f) := by
  intro _
  simp only [decodeCore, encR_op 26 f (by decide)]
  simp only [decodeAlu, encR_fn 26 f (by decide), asR_encR 26 f (by decide)]

theorem addi (f : IForm) : Statement (.addi f) := by
  intro _
  simp only [decodeCore, encI_op 1 f (by decide), asI_encI 1 f (by decide)]

theorem andi (f : IForm) : Statement (.andi f) := by
  intro _
  simp only [decodeCore, encI_op 2 f (by decide), asI_encI 2 f (by decide)]

theorem ori (f : IForm) : Statement (.ori f) := by
  intro _
  simp only [decodeCore, encI_op 3 f (by decide), asI_encI 3 f (by decide)]

theorem xori (f : IForm) : Statement (.xori f) := by
  intro _
  simp only [decodeCore, encI_op 4 f (by decide), asI_encI 4 f (by decide)]

theorem slli (f : IForm) : Statement (.slli f) := by
  intro _
  simp only [decodeCore, encI_op 5 f (by decide), asI_encI 5 f (by decide)]

theorem srli (f : IForm) : Statement (.srli f) := by
  intro _
  simp only [decodeCore, encI_op 6 f (by decide), asI_encI 6 f (by decide)]

theorem srai (f : IForm) : Statement (.srai f) := by
  intro _
  simp only [decodeCore, encI_op 7 f (by decide), asI_encI 7 f (by decide)]

theorem slti (f : IForm) : Statement (.slti f) := by
  intro _
  simp only [decodeCore, encI_op 8 f (by decide), asI_encI 8 f (by decide)]

theorem orhi (f : IForm) : Statement (.orhi f) := by
  intro _
  simp only [decodeCore, encI_op 9 f (by decide), asI_encI 9 f (by decide)]

theorem ldd (f : IForm) : Statement (.ldd f) := by
  intro _
  simp only [decodeCore, encI_op 16 f (by decide), asI_encI 16 f (by decide)]

theorem ldw (f : IForm) : Statement (.ldw f) := by
  intro _
  simp only [decodeCore, encI_op 17 f (by decide), asI_encI 17 f (by decide)]

theorem ldwu (f : IForm) : Statement (.ldwu f) := by
  intro _
  simp only [decodeCore, encI_op 18 f (by decide), asI_encI 18 f (by decide)]

theorem lds (f : IForm) : Statement (.lds f) := by
  intro _
  simp only [decodeCore, encI_op 19 f (by decide), asI_encI 19 f (by decide)]

theorem ldsu (f : IForm) : Statement (.ldsu f) := by
  intro _
  simp only [decodeCore, encI_op 20 f (by decide), asI_encI 20 f (by decide)]

theorem ldb (f : IForm) : Statement (.ldb f) := by
  intro _
  simp only [decodeCore, encI_op 21 f (by decide), asI_encI 21 f (by decide)]

theorem ldbu (f : IForm) : Statement (.ldbu f) := by
  intro _
  simp only [decodeCore, encI_op 22 f (by decide), asI_encI 22 f (by decide)]

theorem std (f : IForm) : Statement (.std f) := by
  intro _
  simp only [decodeCore, encI_op 23 f (by decide), asI_encI 23 f (by decide)]

theorem stw (f : IForm) : Statement (.stw f) := by
  intro _
  simp only [decodeCore, encI_op 24 f (by decide), asI_encI 24 f (by decide)]

theorem sts (f : IForm) : Statement (.sts f) := by
  intro _
  simp only [decodeCore, encI_op 25 f (by decide), asI_encI 25 f (by decide)]

theorem stb (f : IForm) : Statement (.stb f) := by
  intro _
  simp only [decodeCore, encI_op 26 f (by decide), asI_encI 26 f (by decide)]

theorem br (f : BForm) : Statement (.br f) := by
  intro _
  simp only [decodeCore, encB_op 28 f (by decide), asB_encB 28 f (by decide)]

theorem jal (f : JForm) : Statement (.jal f) := by
  intro _
  simp only [decodeCore, encJ_op 29 f (by decide), asJ_encJ 29 f (by decide)]

theorem jalr (f : IForm) : Statement (.jalr f) := by
  intro _
  simp only [decodeCore, encI_op 30 f (by decide), asI_encI 30 f (by decide)]

theorem arr (f : EForm) : Statement (.arr f) := by
  intro _
  simp only [decodeCore, encE_op 32 f (by decide), asE_encE 32 f (by decide)]

theorem vec (f : EForm) : Statement (.vec f) := by
  intro _
  simp only [decodeCore, encE_op 33 f (by decide), asE_encE 33 f (by decide)]

theorem fac (f : EForm) : Statement (.fac f) := by
  intro _
  simp only [decodeCore, encE_op 34 f (by decide), asE_encE 34 f (by decide)]

theorem wgh (f : EForm) : Statement (.wgh f) := by
  intro _
  simp only [decodeCore, encE_op 35 f (by decide), asE_encE 35 f (by decide)]

theorem str (f : EForm) : Statement (.str f) := by
  intro _
  simp only [decodeCore, encE_op 36 f (by decide), asE_encE 36 f (by decide)]

theorem pst (f : EForm) : Statement (.pst f) := by
  intro _
  simp only [decodeCore, encE_op 37 f (by decide), asE_encE 37 f (by decide)]

theorem sth (f : EForm) : Statement (.sth f) := by
  intro _
  simp only [decodeCore, encE_op 38 f (by decide), asE_encE 38 f (by decide)]

theorem sync (f : CForm) : Statement (.sync f) := by
  intro _
  simp only [decodeCore, encC_op 40 f (by decide), asC_encC 40 f (by decide)]

theorem sig (f : CForm) : Statement (.sig f) := by
  intro h
  have hf : wordBits (encC 41 f) 8 7 = 0 := by
    rw [encC_f 41 f 8 7 (by decide) (by decide)]
    simp only [WellFormed, sigOk, field, Nat.shiftRight_eq_div_pow, Bool.and_eq_true, decide_eq_true_eq] at h
    omega
  simp only [decodeCore, encC_op 41 f (by decide), hf, asC_encC 41 f (by decide)]

theorem sigBar (f : CForm) : Statement (.sigBar f) := by
  intro h
  have hf : wordBits (encC 41 f) 8 7 = 1 := by
    rw [encC_f 41 f 8 7 (by decide) (by decide)]
    simp only [WellFormed, sigOk, field, Nat.shiftRight_eq_div_pow, Bool.and_eq_true, decide_eq_true_eq] at h
    omega
  simp only [decodeCore, encC_op 41 f (by decide), hf, asC_encC 41 f (by decide)]

theorem sigSet (f : CForm) : Statement (.sigSet f) := by
  intro h
  have hf : wordBits (encC 41 f) 8 7 = 2 := by
    rw [encC_f 41 f 8 7 (by decide) (by decide)]
    simp only [WellFormed, sigOk, field, Nat.shiftRight_eq_div_pow, Bool.and_eq_true, decide_eq_true_eq] at h
    omega
  simp only [decodeCore, encC_op 41 f (by decide), hf, asC_encC 41 f (by decide)]

theorem wait (f : CForm) : Statement (.wait f) := by
  intro _
  simp only [decodeCore, encC_op 42 f (by decide), asC_encC 42 f (by decide)]

theorem few (f : CForm) : Statement (.few f) := by
  intro _
  simp only [decodeCore, encC_op 43 f (by decide), asC_encC 43 f (by decide)]

theorem fer (f : CForm) : Statement (.fer f) := by
  intro _
  simp only [decodeCore, encC_op 44 f (by decide), asC_encC 44 f (by decide)]

theorem wake (slot : BitVec 5) : Statement (.wake slot) := noWord rfl

theorem fence (f : CForm) : Statement (.fence f) := by
  intro _
  simp only [decodeCore, encC_op 50 f (by decide), asC_encC 50 f (by decide)]

theorem fenceDone : Statement (.fenceDone) := noWord rfl

theorem rng (f : CForm) : Statement (.rng f) := by
  intro _
  simp only [decodeCore, encC_op 45 f (by decide), asC_encC 45 f (by decide)]

theorem phase (f : CForm) : Statement (.phase f) := by
  intro _
  simp only [decodeCore, encC_op 46 f (by decide), asC_encC 46 f (by decide)]

theorem manLoad (f : CForm) : Statement (.manLoad f) := by
  intro h
  have hf : wordBits (encC 47 f) 0 0 = 0 := by
    rw [encC_f 47 f 0 0 (by decide) (by decide)]
    simp only [WellFormed, field, Nat.shiftRight_eq_div_pow, Bool.and_eq_true, decide_eq_true_eq] at h
    omega
  simp [decodeCore, encC_op 47 f (by decide), hf, asC_encC 47 f (by decide)]

theorem manArm (f : CForm) : Statement (.manArm f) := by
  intro h
  have hf : wordBits (encC 47 f) 0 0 = 1 := by
    rw [encC_f 47 f 0 0 (by decide) (by decide)]
    simp only [WellFormed, field, Nat.shiftRight_eq_div_pow, Bool.and_eq_true, decide_eq_true_eq] at h
    omega
  simp [decodeCore, encC_op 47 f (by decide), hf, asC_encC 47 f (by decide)]

theorem mfs (f : CForm) : Statement (.mfs f) := by
  intro _
  simp only [decodeCore, encC_op 48 f (by decide), asC_encC 48 f (by decide)]

theorem mts (f : CForm) : Statement (.mts f) := by
  intro _
  simp only [decodeCore, encC_op 49 f (by decide), asC_encC 49 f (by decide)]

theorem ctx (f : CForm) : Statement (.ctx f) := by
  intro _
  simp only [decodeCore, encC_op 51 f (by decide), asC_encC 51 f (by decide)]

theorem brk (f : CForm) : Statement (.brk f) := by
  intro _
  simp only [decodeCore, encC_op 62 f (by decide), asC_encC 62 f (by decide)]

theorem engineRetire (q : BitVec 3) (n : Nat) : Statement (.engineRetire q n) := noWord rfl

theorem queueDiscard (q : BitVec 3) : Statement (.queueDiscard q) := noWord rfl

theorem arrMm : Statement (.arrMm) := noWord rfl

theorem arrConv : Statement (.arrConv) := noWord rfl

theorem arrCar : Statement (.arrCar) := noWord rfl

theorem arrList : Statement (.arrList) := noWord rfl

theorem arrFlush : Statement (.arrFlush) := noWord rfl

theorem itemClaim (string : BitVec 6) : Statement (.itemClaim string) := noWord rfl

theorem itemSteal (string : BitVec 6) : Statement (.itemSteal string) := noWord rfl

theorem listEntryClaim (string : BitVec 6) : Statement (.listEntryClaim string) := noWord rfl

theorem caravanDeadline (string : BitVec 6) : Statement (.caravanDeadline string) := noWord rfl

theorem baleDrain : Statement (.baleDrain) := noWord rfl

theorem baleRead : Statement (.baleRead) := noWord rfl

theorem vecRun : Statement (.vecRun) := noWord rfl

theorem vecProg : Statement (.vecProg) := noWord rfl

theorem vecPerm : Statement (.vecPerm) := noWord rfl

theorem vecShuf : Statement (.vecShuf) := noWord rfl

theorem vecPack : Statement (.vecPack) := noWord rfl

theorem vecUnpk : Statement (.vecUnpk) := noWord rfl

theorem vecVld : Statement (.vecVld) := noWord rfl

theorem vecVst : Statement (.vecVst) := noWord rfl

theorem vecBcst : Statement (.vecBcst) := noWord rfl

theorem vecRds : Statement (.vecRds) := noWord rfl

theorem facStep : Statement (.facStep) := noWord rfl

theorem scheduleGroupEval : Statement (.scheduleGroupEval) := noWord rfl

theorem facP1 : Statement (.facP1) := noWord rfl

theorem facToken : Statement (.facToken) := noWord rfl

theorem facP2 : Statement (.facP2) := noWord rfl

theorem facCommit : Statement (.facCommit) := noWord rfl

theorem facCnt : Statement (.facCnt) := noWord rfl

theorem wghRead : Statement (.wghRead) := noWord rfl

theorem wghStep : Statement (.wghStep) := noWord rfl

theorem wghLsread : Statement (.wghLsread) := noWord rfl

theorem wghFlags : Statement (.wghFlags) := noWord rfl

theorem wghClr : Statement (.wghClr) := noWord rfl

theorem strGet : Statement (.strGet) := noWord rfl

theorem strPut : Statement (.strPut) := noWord rfl

theorem strRput : Statement (.strRput) := noWord rfl

theorem streamCredit : Statement (.streamCredit) := noWord rfl

theorem packetIssue : Statement (.packetIssue) := noWord rfl

theorem rdatReceived (p : StrPacket) : Statement (.rdatReceived p) := noWord rfl

theorem ackReceived (h0 : Dword) : Statement (.ackReceived h0) := noWord rfl

theorem rputReceived (p : StrPacket) : Statement (.rputReceived p) := noWord rfl

theorem pstSend : Statement (.pstSend) := noWord rfl

theorem pstAck : Statement (.pstAck) := noWord rfl

theorem pstOpen : Statement (.pstOpen) := noWord rfl

theorem pstClose : Statement (.pstClose) := noWord rfl

theorem postCredit : Statement (.postCredit) := noWord rfl

theorem postTransmit (n : BitVec 2) : Statement (.postTransmit n) := noWord rfl

theorem inboundMessage (header : Dword) (payload : BitVec 512) : Statement (.inboundMessage header payload) := noWord rfl

theorem postResponse (header : Dword) : Statement (.postResponse header) := noWord rfl

theorem postResend (n : BitVec 2) : Statement (.postResend n) := noWord rfl

theorem sthPut : Statement (.sthPut) := noWord rfl

theorem sthGet : Statement (.sthGet) := noWord rfl

theorem sthFree : Statement (.sthFree) := noWord rfl

theorem sthQuery : Statement (.sthQuery) := noWord rfl

theorem watchmanFire : Statement (.watchmanFire) := noWord rfl

theorem handSetVal : Statement (.handSetVal) := noWord rfl

theorem handSetState : Statement (.handSetState) := noWord rfl

theorem fePut : Statement (.fePut) := noWord rfl

theorem feTake : Statement (.feTake) := noWord rfl

theorem fePeek : Statement (.fePeek) := noWord rfl

theorem feForce (bit : Bool) : Statement (.feForce bit) := noWord rfl

theorem manCtrlLoad : Statement (.manCtrlLoad) := noWord rfl

theorem manCtrlArm : Statement (.manCtrlArm) := noWord rfl

theorem manCtrlDisarm : Statement (.manCtrlDisarm) := noWord rfl

theorem manCtrlResume : Statement (.manCtrlResume) := noWord rfl

theorem manCtrlDiscard : Statement (.manCtrlDiscard) := noWord rfl

theorem manifestLoadDone : Statement (.manifestLoadDone) := noWord rfl

theorem shadowWrite (bus : Bus) (addr : BitVec 22) (val : Word) : Statement (.shadowWrite bus addr val) := noWord rfl

theorem debugLiveWrite (val : Word) : Statement (.debugLiveWrite val) := noWord rfl

theorem coreCtxWrite (val : Word) : Statement (.coreCtxWrite val) := noWord rfl

theorem coreCtxReload (mask : BitVec 4) : Statement (.coreCtxReload mask) := noWord rfl

theorem reloadDone : Statement (.reloadDone) := noWord rfl

theorem memCtrlZero : Statement (.memCtrlZero) := noWord rfl

theorem zeroisationDone : Statement (.zeroisationDone) := noWord rfl

theorem scrubRead : Statement (.scrubRead) := noWord rfl

theorem scrubWriteback : Statement (.scrubWriteback) := noWord rfl

theorem memSthCtrlClear : Statement (.memSthCtrlClear) := noWord rfl

theorem jrnlCtrlReplay : Statement (.jrnlCtrlReplay) := noWord rfl

theorem jrnlCtrlCancel : Statement (.jrnlCtrlCancel) := noWord rfl

theorem facCtrlRollback (mask : BitVec 4) : Statement (.facCtrlRollback mask) := noWord rfl

theorem fltCtrlClear : Statement (.fltCtrlClear) := noWord rfl

theorem fltCtrlWrest : Statement (.fltCtrlWrest) := noWord rfl

theorem fltCtrlInj : Statement (.fltCtrlInj) := noWord rfl

theorem fltCtrlFclr : Statement (.fltCtrlFclr) := noWord rfl

theorem fatalFault : Statement (.fatalFault) := noWord rfl

theorem govCtrlMark : Statement (.govCtrlMark) := noWord rfl

theorem govCtrlTrfclr : Statement (.govCtrlTrfclr) := noWord rfl

theorem govDbgWrite (val : Word) : Statement (.govDbgWrite val) := noWord rfl

theorem allowanceStrobe (allow : Half) : Statement (.allowanceStrobe allow) := noWord rfl

theorem defaultWindow : Statement (.defaultWindow) := noWord rfl

theorem maskUpdate : Statement (.maskUpdate) := noWord rfl

theorem budgetRequest : Statement (.budgetRequest) := noWord rfl

theorem phaseBegin : Statement (.phaseBegin) := noWord rfl

theorem thermalChange (level : BitVec 2) : Statement (.thermalChange level) := noWord rfl

theorem marginReading (reading : Byte) : Statement (.marginReading reading) := noWord rfl

theorem operatingPointNotice (opCode opn : BitVec 3) : Statement (.operatingPointNotice opCode opn) := noWord rfl

theorem ledgerTick : Statement (.ledgerTick) := noWord rfl

theorem ldgCtrlSnap : Statement (.ldgCtrlSnap) := noWord rfl

theorem snapshotCapture : Statement (.snapshotCapture) := noWord rfl

theorem autoSnapshot : Statement (.autoSnapshot) := noWord rfl

theorem ldgCtrlRestore : Statement (.ldgCtrlRestore) := noWord rfl

theorem ldgCtrlInit : Statement (.ldgCtrlInit) := noWord rfl

theorem ldgWallofsWrite (val : Dword) : Statement (.ldgWallofsWrite val) := noWord rfl

theorem saveWord : Statement (.saveWord) := noWord rfl

theorem restoreWord (w : BitVec 6) (d : Word) : Statement (.restoreWord w d) := noWord rfl

theorem restoreGo : Statement (.restoreGo) := noWord rfl

theorem keyLd (key : BitVec 256) (id : Word) (sealed : Bool) : Statement (.keyLd key id sealed) := noWord rfl

theorem rekey : Statement (.rekey) := noWord rfl

theorem keyEnd : Statement (.keyEnd) := noWord rfl

theorem keyPermitRise : Statement (.keyPermitRise) := noWord rfl

theorem keyPermitFall : Statement (.keyPermitFall) := noWord rfl

theorem secCtrlCode : Statement (.secCtrlCode) := noWord rfl

theorem codeLoadDone : Statement (.codeLoadDone) := noWord rfl

theorem secDbgReqWrite (level : BitVec 2) : Statement (.secDbgReqWrite level) := noWord rfl

theorem secSeCurWrite (val : BitVec 23) : Statement (.secSeCurWrite val) := noWord rfl

theorem xchTctrlWrite : Statement (.xchTctrlWrite) := noWord rfl

theorem dbgCtrlHalt : Statement (.dbgCtrlHalt) := noWord rfl

theorem dbgCtrlResume : Statement (.dbgCtrlResume) := noWord rfl

theorem dbgCtrlStep : Statement (.dbgCtrlStep) := noWord rfl

theorem dbgSdataAccess (bus : Bus) (hi write : Bool) (val : Word) : Statement (.dbgSdataAccess bus hi write val) := noWord rfl

theorem dbgPcset (val : Word) : Statement (.dbgPcset val) := noWord rfl

theorem memoryWindowAccess (bus : Bus) (write : Bool) (addr : BitVec 22) (val : Word) (be : BitVec 4) : Statement (.memoryWindowAccess bus write addr val be) := noWord rfl

theorem wideRegisterRead (bus : Bus) (addr : BitVec 22) : Statement (.wideRegisterRead bus addr) := noWord rfl

theorem wideRegisterWrite (bus : Bus) (addr : BitVec 22) (val : Word) : Statement (.wideRegisterWrite bus addr val) := noWord rfl

theorem registerWrite (bus : Bus) (addr : BitVec 22) (val : Word) (be : BitVec 4) : Statement (.registerWrite bus addr val be) := noWord rfl

theorem aoReset : Statement (.aoReset) := noWord rfl

theorem coreReset (tileId : BitVec 20) (pwrRet : Bool) : Statement (.coreReset tileId pwrRet) := noWord rfl

theorem coreResetAssert : Statement (.coreResetAssert) := noWord rfl

theorem isoEngage : Statement (.isoEngage) := noWord rfl

theorem isoRelease : Statement (.isoRelease) := noWord rfl

theorem wsBypass : Statement (.wsBypass) := noWord rfl

theorem wsExtest : Statement (.wsExtest) := noWord rfl

theorem wsIntest : Statement (.wsIntest) := noWord rfl

theorem scan : Statement (.scan) := noWord rfl

theorem mbistRun : Statement (.mbistRun) := noWord rfl

theorem mbistDone (result : BitVec 40) : Statement (.mbistDone result) := noWord rfl

theorem mbistResult : Statement (.mbistResult) := noWord rfl

theorem cap (cap : BitVec 7) : Statement (.cap cap) := noWord rfl

theorem idreg : Statement (.idreg) := noWord rfl

theorem suspendExit : Statement (.suspendExit) := noWord rfl

theorem reservedOpcode (w : Word) : Statement (.reservedOpcode w) := by
  intro h
  have hop : wordBits w 30 25 = (w.toNat >>> 25) % 64 := rfl
  have hfn : wordBits w 5 0 = w.toNat % 64 := rfl
  simp only [WellFormed, reservedOk, opcodes, Bool.or_eq_true, Bool.not_eq_true', Bool.and_eq_true, decide_eq_true_eq] at h
  rw [← hop, ← hfn] at h
  simp only [decodeCore]
  split <;> rename_i hw <;> first | rfl | simp only [hw] at h
  · rcases h with h | h
    · simp at h
    · simp only [decodeAlu]
      split <;> rename_i hv <;> first | rfl | simp [hv] at h
  all_goals simp at h

end Sys2Proof.Laws.Decoding
end

