-- ==== Sys2Proof/Safety.lean ====
section
/-! DEFINITION. What counts as a safe state and a safe run, and the shapes of effect that statements name: an instruction that writes one register, a dispatch, a command that changes one unit. -/

namespace Sys2Proof.Machine

/-- Local memory is in its canonical form and holds nothing at or above 0x18_0000 (07 R171). -/
def State.MemOk (s : State) : Prop := Memory.wf s.mem.bytes = true ∧ ∀ c ∈ s.mem.bytes, c.1 < memTop

/-- The fault log holds at most 16 records (16 R394). -/
def State.LogOk (s : State) : Prop := s.flt.log.length ≤ 16

/-- A command ends in a next state: the model never faults and refuses nothing. -/
def Answers (r : Res) : Prop := ∃ t, r = .next t

/-- Every byte of local memory reads in t as in s. -/
def SameBytes (s t : State) : Prop := ∀ a, memByte t.mem.bytes a = memByte s.mem.bytes a

/-- The n bytes at a hold bs in t, and every other byte reads in t as in s. -/
def Stored (s t : State) (a : Nat) (bs : List Byte) : Prop :=
  ∀ x, memByte t.mem.bytes x = if a ≤ x ∧ x < a + bs.length then bs.getD (x - a) 0 else memByte s.mem.bytes x

/-- Writings reach local memory in order: each byte reads as the last of them that takes it in left it, and every other byte reads as before. -/
def Landed (s t : State) (ws : Writes) : Prop :=
  ∀ x, memByte t.mem.bytes x =
    ws.foldl (fun b w => if w.1 ≤ x ∧ x < w.1 + w.2.length then w.2.getD (x - w.1) 0 else b) (memByte s.mem.bytes x)

/-- Every byte of these writings lies in local memory. -/
def InMemory (ws : Writes) : Prop := ∀ w ∈ ws, w.1 + w.2.length ≤ memTop

/-! Instructions of the control core. -/

/-- An instruction of n bytes executes: the core runs, its words lie in CODE, no bank holds the fetch back, and no word of it is uncorrectable (03 R78; 07 R184). -/
def Runs (s : State) (n : Nat) : Prop :=
  coreOn s = true ∧ fetchOk s (curCtx s).pc.toNat n = true ∧ memWaits s (curCtx s).pc.toNat n = false ∧
    hasDouble s (curCtx s).pc.toNat n = false

/-- s after the fetch of n bytes at its program counter: its bank accesses are modelled, the bank serves the fetch, and corrected errors are counted (07 R183, R187; 14 R340); nothing else changes. -/
def fetched (s : State) (n : Nat) : State := touchRead s rqFETCH (curCtx s).pc.toNat n

/-- The instructions of a form, in the order of the opcode map (03 Tables 3 and 4). -/
def rInstrs (f : RForm) : List Instr :=
  [.add f, .sub f, .and f, .or f, .xor f, .andn f, .sll f, .srl f, .sra f, .slt f, .sltu f, .min f, .max f, .minu f, .maxu f, .sxw f,
   .zxw f, .difw f, .mul f, .mulh f, .mulhu f, .div f, .divu f, .rem f, .remu f, .clz f, .popc f]
def iInstrs (f : IForm) : List Instr :=
  [.addi f, .andi f, .ori f, .xori f, .slli f, .srli f, .srai f, .slti f, .orhi f, .ldd f, .ldw f, .ldwu f, .lds f, .ldsu f, .ldb f,
   .ldbu f, .std f, .stw f, .sts f, .stb f, .jalr f]
def eInstrs (f : EForm) : List Instr := [.arr f, .vec f, .fac f, .wgh f, .str f, .pst f, .sth f]
def cInstrs (f : CForm) : List Instr :=
  [.sync f, .sig f, .sigBar f, .sigSet f, .wait f, .few f, .fer f, .fence f, .manLoad f, .manArm f, .mfs f, .mts f, .ctx f, .brk f,
   .rng f, .phase f]

/-- t is s with the instruction at its program counter completed: register d of the running context holds v (a write to s0 is discarded), the program counter is pc, and nothing else of the machine changed but the debug unit's record of a halt or step and the watchman's count. -/
structure Completed (s t : State) (d : SReg) (v : Dword) (pc : Addr) : Prop where
  units : t = { s with core := t.core, dbg := t.dbg, syn := t.syn }
  core : t.core = { s.core with ctxs := t.core.ctxs, mode := .run }
  others : ∀ c, c ≠ s.core.cur → ctxOf t c = ctxOf s c
  context : curCtx t = { curCtx s with pc := pc, regs := (curCtx t).regs }
  regs : ∀ r, rd t r = if r = 0 then 0 else if r = d then v else rd s r
  debug : t.dbg = (dbgDone s).dbg
  watchman : t.syn = { s.syn with wmCount := 0 }

/-- The same, with the program counter n bytes on. -/
def Wrote (s t : State) (d : SReg) (v : Dword) (n : Nat) : Prop := Completed s t d v ((curCtx s).pc + BitVec.ofNat 21 n)

/-- t is s with the control core stopped at its instruction by a contained fault of a code: the instruction had no effect on its context, the fault is recorded, and the context halts at the next release (03 R95; 16 R389, R393). -/
structure FaultStopped (s t : State) (code : Nat) : Prop where
  stopped : t.core = { s.core with mode := .stopped }
  pending : t.flt.cont = true ∧ t.flt.pend = true ∧ t.flt.haltCtx = some s.core.cur ∧ t.flt.cntCont = s.flt.cntCont + 1
  record : t.flt.log.head? = some (faultRec s code 1 0 (curCtx s).pc 0)
  queues : t.q = s.q
  units : t.man = s.man ∧ t.mem = s.mem ∧ t.str = s.str ∧ t.pst = s.pst ∧ t.sth = s.sth ∧ t.jrnl = s.jrnl ∧ t.xch = s.xch ∧ t.sec = s.sec

/-- No codeword holds an uncorrectable error. -/
def NoDouble (s : State) : Prop := ∀ p ∈ s.mem.ecc, p.2 ≠ .double

/-- A write through the management bus is served at once: the core can serve it and none waits before it (17 R406, R409). -/
def Served (s : State) : Prop := busOn s = true ∧ s.bus.mgmt.waiting = []

/-- Nothing waits for banks: no full/empty operation, inbound packet, inbound message or bus access. -/
def NothingWaits (s : State) : Prop :=
  s.syn.fePend = none ∧ s.str.waiting = [] ∧ s.pst.waiting = [] ∧ s.bus.mgmt.waiting = [] ∧ s.bus.dbg.waiting = []

/-! Engine operations. -/

/-- The head of queue e is function fn, its wait is met, and no contained fault discards it: it can dispatch (03 R84). -/
def Head (s : State) (e fn : Nat) (ent : QEntry) : Prop :=
  headFn s e fn = some ent ∧ (∀ o, ent.wv = some o → condHolds 2 (objOf s o).val 0 = true) ∧ faultDiscards s e ent = false

/-- s after the entry has left the head of queue e, with the take that its WV asks for (12 R286). -/
def left (s : State) (e : Nat) (ent : QEntry) : State :=
  match ent.wv with
  | none => popHead s e
  | some o => take (popHead s e) o

/-- After a dispatch the next head of queue e registers its watch and an issue that the full queue stalled proceeds (03 R81; 12 R291). -/
def settled (s : State) (e : Nat) : State := unstall (armHead s e)

end Sys2Proof.Machine
end

