-- ==== Sys2Proof/Certificates/Slice0/Obligations.lean ====
section
/-! DEFINITION. The statements about the model: one definition for each entry of OBLIGATIONS.json. -/

open Sys2Proof Sys2Proof.Machine

/-! The block as a whole. -/

/-- A command at the front of the queue is done with the rest of the queue left waiting. -/
def Obligations.StepRunsFront : Prop :=
  ∀ (c : Instr) (s : State) (rest : List Instr),
    step { s with pending := c :: rest } = exec c { s with pending := rest }

/-- Every command answers a next state: none faults the model, none is refused; and, row by row, a command whose condition does not hold leaves the state as it is. That it does so is the model's choice (log 1). -/
def Obligations.EveryCommandAnswers : Prop :=
  (∀ (c : Instr) (s : State), Answers (exec c s)) ∧ (∀ s : State, Answers (step s)) ∧
  -- the control core cannot execute: it is stopped, waits, is halted, or is not clocked
  (∀ s : State, coreOn s = false →
    (∀ f, ∀ i ∈ rInstrs f, exec i s = .next s) ∧ (∀ f, ∀ i ∈ iInstrs f, exec i s = .next s) ∧
    (∀ f, ∀ i ∈ eInstrs f, exec i s = .next s) ∧ (∀ f, ∀ i ∈ cInstrs f, exec i s = .next s) ∧
    (∀ f, exec (.br f) s = .next s) ∧ (∀ f, exec (.jal f) s = .next s) ∧ (∀ w, exec (.reservedOpcode w) s = .next s)) ∧
  -- the head of the engine's queue is not this function
  (∀ (s : State) (i : Instr) (e fn : Nat),
    (i, e, fn) ∈ [(Instr.arrMm, eARR, 0), (.arrConv, eARR, 1), (.arrCar, eARR, 2), (.arrList, eARR, 3), (.arrFlush, eARR, 4),
      (.vecRun, eVEC, 0), (.vecProg, eVEC, 1), (.vecPerm, eVEC, 2), (.vecShuf, eVEC, 3), (.vecPack, eVEC, 4), (.vecUnpk, eVEC, 5),
      (.vecVld, eVEC, 6), (.vecVst, eVEC, 7), (.vecBcst, eVEC, 8), (.vecRds, eVEC, 9), (.facStep, eFAC, 0), (.facP1, eFAC, 1),
      (.facToken, eFAC, 2), (.facP2, eFAC, 3), (.facCommit, eFAC, 4), (.facCnt, eFAC, 5), (.wghRead, eWGH, 0), (.wghStep, eWGH, 1),
      (.wghLsread, eWGH, 2), (.wghFlags, eWGH, 3), (.wghClr, eWGH, 4), (.strGet, eSTR, 0), (.strPut, eSTR, 1), (.strRput, eSTR, 2),
      (.pstSend, ePST, 0), (.pstAck, ePST, 1), (.pstOpen, ePST, 2), (.pstClose, ePST, 3), (.sthPut, eSTH, 0), (.sthGet, eSTH, 1),
      (.sthFree, eSTH, 2), (.sthQuery, eSTH, 3)] →
    headFn s e fn = none → exec i s = .next s) ∧
  -- the engine cannot accept the head yet, or memory cannot be reached: then its request stays pending
  (∀ (s : State) (e fn req : Nat) (ent : QEntry) (can : QEntry → Bool) (sp : QEntry → List (Nat × Nat)) (body : QEntry → State → State),
    Head s e fn ent →
    (can ent = false → dispatchMem s e fn can req sp body = .next s) ∧
    (can ent = true → spansWait s (sp ent) = true →
      ∃ t, dispatchMem s e fn can req sp body = .next t ∧ t = { s with mem := { s.mem with wants := t.mem.wants } } ∧
        ∃ w ∈ t.mem.wants, w.req = req)) ∧
  -- a fatal fault, a core reset or SUSPEND stops the units
  (∀ (s : State) (i : Instr), unitsOn s = false →
    (∃ (n : Nat) (q : BitVec 3) (str : BitVec 6) (slot : BitVec 5) (m2 : BitVec 2) (cyc off : Word) (hd : Dword) (half : Half)
        (bt : XchBeat) (rl : ReleaseIn) (lim : Bool) (rdg : Byte) (op opn : BitVec 3),
      i ∈ [Instr.wake slot, .fenceDone, .engineRetire q n, .queueDiscard q, .itemClaim str, .itemSteal str, .listEntryClaim str,
        .caravanDeadline str, .baleDrain, .baleRead, .scheduleGroupEval, .postTransmit m2, .postResend m2,
        .postResponse hd, .watchmanFire, .manifestLoadDone, .reloadDone, .scrubRead, .scrubWriteback, .allowanceStrobe half,
        .defaultWindow, .maskUpdate, .budgetRequest, .phaseBegin, .thermalChange m2, .marginReading rdg, .operatingPointNotice op opn,
        .rekey, .codeLoadDone, .stageOpChange op, .syncArrival, .syncRelease rl, .exchStart, .exchSendBeat off, .exchRecvBeat off bt,
        .exchEnd, .itinLoadDone cyc, .shadowCopyDone, .droopTrip, .stretchEnd lim, .droopRearm lim]) →
    exec i s = .next s) ∧
  -- each row's own condition
  (∀ (s : State) (x : Instr × Prop),
    (∃ (n : Nat) (q : BitVec 3) (str : BitVec 6) (m2 : BitVec 2) (cyc off : Word) (hd : Dword) (pl : BitVec 512)
        (pk : StrPacket) (rl : ReleaseIn) (lim : Bool) (rdg : Byte) (op : BitVec 3) (key : BitVec 256) (id : Word) (tile : BitVec 20)
        (slot : BitVec 5) (mb : BitVec 40),
      x ∈ [(Instr.engineRetire q n, ∀ y, (qOf s q.toNat).infl[n]? = some y → y.done = false),
        (.queueDiscard q, (qOf s q.toNat).wait ≠ [] ∧ (qOf s q.toNat).failed = false),
        (.wake slot, slot.toNat ≠ 7 ∧ watchMet s slot.toNat = false),
        (.fenceDone, ∀ m, s.core.mode = .fence m → fenced s m = false),
        (.itemClaim str, strNext s str.toNat = none ∨ strCan s str.toNat = false),
        (.itemSteal str, victims s str.toNat = [] ∨ strIdle s str.toNat = false),
        (.listEntryClaim str, groupList s (strGrp s str.toNat) = none ∨ strIdle s str.toNat = false),
        (.baleDrain, nextBale s = none), (.baleRead, baleRun s = none ∨ presented s = none),
        (.scheduleGroupEval, ∀ y ∈ (qOf s eFAC).infl, y.ent.fn ≠ 0 ∨ y.done = true),
        (.packetIssue, busOn s = false ∨ s.str.cred = 0 ∨ (s.flt.fatal = false ∧ s.sec.rekey ≠ none) ∨
          (s.str.acks = [] ∧ (s.flt.fatal = true ∨ nextJob s = none))),
        (.streamCredit, busOn s = false), (.postCredit, busOn s = false),
        (.rdatReceived pk, (unitsOn s = false ∧ (busOn s = false ∨ s.sec.stop = false)) ∨ pk.h0.extractLsb' 0 4 ≠ 4 ∨ ∀ y ∈ s.str.reads, y.tag ≠ pk.h0.extractLsb' 4 6),
        (.ackReceived hd, (unitsOn s = false ∧ (busOn s = false ∨ s.sec.stop = false)) ∨ hd.extractLsb' 0 4 ≠ 5 ∨ ∀ y ∈ s.str.writes, y.tag ≠ hd.extractLsb' 4 6),
        (.rputReceived pk, busOn s = false ∨ pk.h0.extractLsb' 0 4 ≠ 3 ∨ s.str.inbuf = 0),
        (.postTransmit m2, s.pst.cred = 0 ∨ ∀ y, s.pst.msgs[m2.toNat]? = some y → y.st ≠ .held),
        (.postResend m2, s.pst.cred = 0 ∨ ∀ y, s.pst.msgs[m2.toNat]? = some y → y.st ≠ .retry),
        (.inboundMessage hd pl, busOn s = false ∨ hd.extractLsb' 0 4 ≠ 1 ∨ s.pst.waiting ≠ []),
        (.postResponse hd, hd.extractLsb' 0 4 ≠ 2 ∨ answered s hd = none),
        (.watchmanFire, wmHeld s = true ∨ s.syn.wmCount.toNat < max s.syn.wmThresh.toNat 0x1000),
        (.manifestLoadDone, s.man.load = none), (.shadowCopyDone, s.man.syncing = false),
        (.reloadDone, s.core.rldBusy = false ∨ enginesDone s = false ∨ streamDrained s = false),
        (.zeroisationDone, busOn s = false ∨ s.mem.zeroing = false), (.scrubRead, s.mem.zeroing = true), (.scrubWriteback, s.mem.wbq = []),
        (.fatalFault, s.pin.coreRst = false),
        (.defaultWindow, s.gov.noStrobe < 12 ∨ (s.gov.winOwn = true ∧ s.gov.winTick < 10)),
        (.budgetRequest, s.gov.winOwn = true ∨ s.gov.reqFixed = true ∨ s.gov.winTick < 8),
        (.phaseBegin, s.gov.pend = none), (.marginReading rdg, s.clk.stretch = true ∨ s.gov.mmInt = 0),
        (.snapshotCapture, s.ldg.snapReq = false ∨ s.ldg.savebusy = true), (.autoSnapshot, s.ldg.auto_ = 0 ∨ s.ldg.savebusy = true),
        (.saveWord, s.ldg.svReq = false), (.keyLd key id lim, busOn s = false ∨ s.sec.busy = true),
        (.keyEnd, busOn s = false ∨ s.sec.busy = true),
        (.rekey, s.sec.rekey = none ∨ s.str.reads ≠ [] ∨ s.str.writes ≠ []), (.codeLoadDone, s.sec.codeLoad = none),
        (.stageOpChange op, s.core.syncArr = false ∨ 5 ≤ op.toNat), (.syncArrival, s.core.syncArr = true ∨ s.core.rldBusy = true),
        (.syncRelease rl, s.core.syncArr = false), (.exchStart, s.core.phase ≠ 2), (.exchEnd, s.core.phase ≠ 3),
        (.exchSendBeat off, exchRuns s = false), (.itinLoadDone cyc, s.xch.load = none),
        (.alertRise, s.clk.alert = false), (.alertReturn, s.clk.alert = false ∨ s.clk.alertHold = false),
        (.droopTrip, s.gov.droopEn = false ∨ s.clk.armed = false ∨ s.clk.stretch = true), (.stretchEnd lim, s.clk.stretch = false),
        (.droopRearm lim, s.clk.armed = true ∨ s.clk.stretch = true),
        (.suspendEntry, s.pin.coreRst = false ∨ s.clk.suspend = true), (.suspendExit, s.pin.coreRst = false ∨ s.clk.suspend = false),
        (.coreReset tile lim, s.pin.coreRst = true), (.coreResetAssert, s.pin.coreRst = false),
        (.mbistRun, busOn s = false), (.mbistDone mb, busOn s = false ∨ s.dft.mbistBusy = false)]) →
    x.2 → exec x.1 s = .next s)

/-- The words of a well-formed control-core instruction decode to it with every operand, and no word decodes to a command that is no instruction. -/
def Obligations.DecodeEncode : Prop := ∀ i : Instr, Laws.Decoding.Statement i

/-- Local memory keeps its canonical form and its bound, whatever command runs, and on an empty queue. The canonical form, and 0 for what is not listed, are the model's (log 7). -/
def Obligations.StepKeepsMemory : Prop := ∀ s t : State, s.MemOk → step s = .next t → t.MemOk

/-- The fault log never grows beyond its 16 records. -/
def Obligations.StepKeepsLog : Prop := ∀ s t : State, s.LogOk → step s = .next t → t.LogOk

/-- What reset leaves: the zeroisation runs and SYNC_ARR is driven with zone 3; no manifest is live, the state is OPEN, the tile is at OP-E, the queue is empty, and both invariants hold. What the spec leaves open at power-up is the model's choice (log 7 and 8). -/
def Obligations.ResetState : Prop :=
  State.reset.MemOk ∧ State.reset.LogOk ∧ State.reset.mem.zeroing = true ∧
  State.reset.core.syncArr = true ∧ State.reset.core.syncZone = 3 ∧ State.reset.man.isLive = false ∧
  State.reset.sec.state = 0 ∧ State.reset.clk.op = 4 ∧ State.reset.pin.isoEn = true ∧ State.reset.pending = [] ∧
  (∀ r, rd State.reset r = 0) ∧ (∀ a, memByte State.reset.mem.bytes a = 0) ∧ (∀ o, (objOf State.reset o).val = 0)

/-! The control core (03). -/

/-- The register functions of Table 4: each completes, writes its value to D and changes nothing else. -/
def Obligations.AluRegister : Prop :=
  ∀ (s : State) (f : RForm), Runs s 4 → f.x = false → f.f96 = 0 →
    let a := rd s f.a
    let b := rd s f.b
    let n := (b.extractLsb' 0 6).toNat
    let gives := fun (i : Instr) (v : Dword) => ∃ t, exec i s = .next t ∧ Wrote (fetched s 4) t f.d v 4
    gives (.add f) (a + b) ∧ gives (.sub f) (a - b) ∧
    gives (.and f) (a &&& b) ∧ gives (.or f) (a ||| b) ∧ gives (.xor f) (a ^^^ b) ∧ gives (.andn f) (a &&& ~~~b) ∧
    gives (.sll f) (a <<< n) ∧ gives (.srl f) (a >>> n) ∧ gives (.sra f) (a.sshiftRight n) ∧
    gives (.slt f) (if a.slt b then 1 else 0) ∧ gives (.sltu f) (if a.ult b then 1 else 0) ∧
    gives (.min f) (if a.slt b then a else b) ∧ gives (.max f) (if b.slt a then a else b) ∧
    gives (.minu f) (if a.ult b then a else b) ∧ gives (.maxu f) (if b.ult a then a else b) ∧
    gives (.sxw f) ((a.extractLsb' 0 32).signExtend 64) ∧ gives (.zxw f) ((a.extractLsb' 0 32).zeroExtend 64) ∧
    gives (.difw f) (((a - b).extractLsb' 0 32).signExtend 64)

/-- Multiplication, division and bit counts of Table 4. -/
def Obligations.MulDivCount : Prop :=
  ∀ (s : State) (f : RForm), Runs s 4 → f.x = false → f.f96 = 0 →
    let a := rd s f.a
    let b := rd s f.b
    let gives := fun (i : Instr) (v : Dword) => ∃ t, exec i s = .next t ∧ Wrote (fetched s 4) t f.d v 4
    gives (.mul f) ((a.signExtend 128 * b.signExtend 128).extractLsb' 0 64) ∧
    gives (.mulh f) ((a.signExtend 128 * b.signExtend 128).extractLsb' 64 64) ∧
    gives (.mulhu f) ((a.zeroExtend 128 * b.zeroExtend 128).extractLsb' 64 64) ∧
    gives (.div f) (if b = 0 then -1 else a.sdiv b) ∧ gives (.divu f) (if b = 0 then -1 else a / b) ∧
    gives (.rem f) (if b = 0 then a else a.srem b) ∧ gives (.remu f) (if b = 0 then a else a % b) ∧
    (∃ k : Nat, gives (.clz f) (BitVec.ofNat 64 k) ∧ k ≤ 64 ∧ (∀ i, 64 - k ≤ i → a.getLsbD i = false) ∧
      (k < 64 → a.getLsbD (63 - k) = true)) ∧
    gives (.popc f) (BitVec.ofNat 64 ((List.range 64).map (fun i => if a.getLsbD i then 1 else 0)).sum)

/-- The immediate functions of Table 3: each completes, writes its value to D and changes nothing else. -/
def Obligations.AluImmediate : Prop :=
  ∀ (s : State) (f : IForm), Runs s (lenOf f.ext) →
    let a := rd s f.a
    let imm : Dword := match f.ext with
      | none => f.imm.signExtend 64
      | some e => (e ++ f.imm).signExtend 64
    let gives := fun (i : Instr) (v : Dword) =>
      ∃ t, exec i s = .next t ∧ Wrote (fetched s (lenOf f.ext)) t f.d v (lenOf f.ext)
    gives (.addi f) (a + imm) ∧ gives (.andi f) (a &&& imm) ∧ gives (.ori f) (a ||| imm) ∧ gives (.xori f) (a ^^^ imm) ∧
    gives (.slti f) (if a.slt imm then 1 else 0) ∧
    (f.ext = none → f.imm.toNat < 64 →
      gives (.slli f) (a <<< f.imm.toNat) ∧ gives (.srli f) (a >>> f.imm.toNat) ∧ gives (.srai f) (a.sshiftRight f.imm.toNat)) ∧
    (∀ e, f.ext = some e → f.imm = 0 → gives (.orhi f) (a ||| (e ++ (0 : Word))))

/-- Loads read the aligned little-endian word, extend it and write D; every byte of memory stays. A store is written with its instruction, so no store buffer stands between (log 9). -/
def Obligations.Loads : Prop :=
  ∀ (s : State) (f : IForm) (i : Instr) (k : Nat) (sgn : Bool),
    (i, k, sgn) ∈ [(Instr.ldd f, 3, false), (.ldw f, 2, true), (.ldwu f, 2, false), (.lds f, 1, true), (.ldsu f, 1, false),
      (.ldb f, 0, true), (.ldbu f, 0, false)] →
    let a := accAddr s f k
    let n := 2 ^ k
    let v := memNat s.mem.bytes a n
    Runs s (lenOf f.ext) → permits s loadParts a n = true → memWaits s a n = false → hasDouble s a n = false →
    ∃ t, exec i s = .next t ∧
      Wrote (touchRead (fetched s (lenOf f.ext)) rqDATA a n) t f.d
        (if sgn then (BitVec.ofNat (8 * n) v).signExtend 64 else BitVec.ofNat 64 v) (lenOf f.ext) ∧
      SameBytes s t ∧ n ∣ a ∧ a ≤ (rd s f.a + immOf f.ext f.imm).toNat ∧ (rd s f.a + immOf f.ext f.imm).toNat < a + n

/-- Stores write the low bytes of D, little-endian, at the aligned address, and no other byte. A store is written with its instruction, so no store buffer stands between (log 9). -/
def Obligations.Stores : Prop :=
  ∀ (s : State) (f : IForm) (i : Instr) (k : Nat),
    (i, k) ∈ [(Instr.std f, 3), (.stw f, 2), (.sts f, 1), (.stb f, 0)] →
    let a := accAddr s f k
    let n := 2 ^ k
    let bs := leBytes n (rd s f.d)
    Runs s (lenOf f.ext) → permits s storeParts a n = true → memWaits s a n = false → hasDouble s a n = false →
    ∃ t, exec i s = .next t ∧ Wrote (memWr (fetched s (lenOf f.ext)) rqDATA a bs) t 0 0 (lenOf f.ext) ∧
      Stored s t a bs ∧ bs.length = n ∧ leNat bs = (rd s f.d).toNat % 2 ^ (8 * n) ∧ n ∣ a

/-- Branches and jumps: the program counter takes the target when the condition holds, and D the address of the next instruction. -/
def Obligations.Branches : Prop :=
  (∀ (s : State) (f : BForm) (taken : Bool), Runs s (lenOf f.ext) →
    let a := rd s f.a
    let b := rd s f.b
    let pc := (curCtx s).pc
    let target : Int := pc.toNat + 4 * (match f.ext with | none => f.off.toInt | some e => e.toInt)
    (f.cond, taken) ∈ [((0 : BitVec 5), a == b), (1, a != b), (2, a.slt b), (3, !a.slt b), (4, a.ult b), (5, !a.ult b), (6, true)] →
    (taken = true → 0 ≤ target ∧ target < 2 ^ 21) →
    ∃ t, exec (.br f) s = .next t ∧
      Completed (fetched s (lenOf f.ext)) t 0 0 (if taken then BitVec.ofInt 21 target else pc + BitVec.ofNat 21 (lenOf f.ext))) ∧
  (∀ (s : State) (f : JForm), Runs s 4 → f.x = false →
    let pc := (curCtx s).pc
    let target : Int := pc.toNat + 4 * f.off.toInt
    0 ≤ target → target < 2 ^ 21 →
    ∃ t, exec (.jal f) s = .next t ∧ Completed (fetched s 4) t f.d (pc.zeroExtend 64 + 4) (BitVec.ofInt 21 target)) ∧
  (∀ (s : State) (f : IForm), Runs s (lenOf f.ext) →
    let pc := (curCtx s).pc
    let target := (rd s f.a + immOf f.ext f.imm) &&& ~~~3
    target.toNat < 2 ^ 21 →
    ∃ t, exec (.jalr f) s = .next t ∧
      Completed (fetched s (lenOf f.ext)) t f.d (pc.zeroExtend 64 + BitVec.ofNat 64 (lenOf f.ext)) (target.setWidth 21))

/-- An engine issue puts one entry at the tail of its engine's queue, with the values of the registers that D, A and B name; on a full queue it stalls, and the program counter stays. -/
def Obligations.EngineIssue : Prop :=
  (∀ (s : State) (f : EForm) (i : Instr) (e fns : Nat) (ent : QEntry),
    (i, e, fns) ∈ [(Instr.arr f, eARR, 5), (.vec f, eVEC, 10), (.fac f, eFAC, 6), (.wgh f, eWGH, 5), (.str f, eSTR, 3),
      (.pst f, ePST, 4), (.sth f, eSTH, 4)] →
    Runs s (lenOf f.ext) → f.fn.toNat < fns → entryOf s f = some ent → qFull s e = false →
    ∃ t, exec i s = .next t ∧ Wrote (enqueue (fetched s (lenOf f.ext)) e ent) t 0 0 (lenOf f.ext) ∧
      (qOf t e).wait = (qOf s e).wait ++ [ent] ∧ (qOf t e).infl = (qOf s e).infl ∧ (∀ k, k ≠ e → qOf t k = qOf s k) ∧
      ent.ctx = s.core.cur ∧ ent.fn = f.fn ∧ ent.sub = f.sub ∧ ent.dreg = f.d ∧
      ent.d = rd s f.d ∧ ent.a = rd s f.a ∧ ent.b = rd s f.b ∧ ent.fs = (f.ext.getD 0).setWidth 18 ∧ SameBytes s t) ∧
  (∀ (s : State) (f : EForm) (i : Instr) (e fns : Nat) (ent : QEntry),
    (i, e, fns) ∈ [(Instr.arr f, eARR, 5), (.vec f, eVEC, 10), (.fac f, eFAC, 6), (.wgh f, eWGH, 5), (.str f, eSTR, 3),
      (.pst f, ePST, 4), (.sth f, eSTH, 4)] →
    Runs s (lenOf f.ext) → f.fn.toNat < fns → entryOf s f = some ent → qFull s e = true →
    ∃ t, exec i s = .next t ∧ t = { fetched s (lenOf f.ext) with core := { s.core with mode := .full i } } ∧
      (∀ k, qOf t k = qOf s k) ∧ (curCtx t).pc = (curCtx s).pc)

/-- SYNC stops the core with the program counter behind it, keeps its zone and close flag, and requests the context switch of its SW. -/
def Obligations.SyncStops : Prop :=
  ∀ (s : State) (f : CForm), Runs s 4 → f.ext = none → f.d = 0 → f.a = 0 → f.b = 0 → f.f.toNat < 64 → f.f.extractLsb' 1 2 ≠ 3 →
    ∃ t, exec (.sync f) s = .next t ∧ t.core.mode = .sync (f.f.getLsbD 0) ∧ (curCtx t).pc = (curCtx s).pc + 4 ∧
      (curCtx t).atSync = true ∧ (curCtx t).zone = some (f.f.extractLsb' 1 2) ∧
      t.core.next = (if f.f.getLsbD 3 then f.f.extractLsb' 4 2 else s.core.next) ∧
      t.core.switch = (s.core.switch || f.f.getLsbD 3) ∧ (∀ r, rd t r = rd s r) ∧
      (∀ c, c ≠ s.core.cur → ctxOf t c = ctxOf s c) ∧ (∀ o ∈ t.arr.ops, o.open_ = false) ∧
      t = { fetched s 4 with core := t.core, dbg := t.dbg, syn := { s.syn with wmCount := 0 }, arr := t.arr }

/-- SIG adds to a counter, opens a barrier or sets an object, and writes no register. -/
def Obligations.SigCompletes : Prop :=
  ∀ (s : State) (f : CForm) (o : Byte), Runs s 4 → f.ext = none → f.d = 0 → f.b = 0 → f.f.getLsbD 9 = false →
    mapId s s.core.cur.toNat (f.f.extractLsb' 0 6).toNat = some o →
    let u := fetched s 4
    let a := rd s f.a
    (f.f.extractLsb' 7 2 = 0 →
      ∃ t, exec (.sig f) s = .next t ∧
        Wrote (signalAmt u 1 o (if f.f.getLsbD 6 then (a.extractLsb' 0 32).toNat else 1) 1) t 0 0 4) ∧
    (f.f.extractLsb' 7 2 = 1 → f.f.getLsbD 6 = false → a.extractLsb' 0 8 ≠ 0 →
      ∃ t, exec (.sigBar f) s = .next t ∧
        Wrote (setObj u o { objOf s o with mode := true, n := a.extractLsb' 0 8, arr := 0, lastSrc := 11, lastCtx := s.core.cur }) t 0 0 4) ∧
    (f.f.extractLsb' 7 2 = 1 → f.f.getLsbD 6 = false → a.extractLsb' 0 8 = 0 →
      ∃ t, exec (.sigBar f) s = .next t ∧ FaultStopped u t fcILLEGAL ∧ SameBytes s t ∧ ∀ p, objOf t p = objOf s p) ∧
    (f.f.extractLsb' 7 2 = 2 → f.f.getLsbD 6 = false →
      ∃ t, exec (.sigSet f) s = .next t ∧
        Wrote (setObj u o { objOf s o with val := a.extractLsb' 0 32, mode := false, arr := 0, lastSrc := 11, lastCtx := s.core.cur }) t 0 0 4)

/-- What a signal does to an object: a counter adds the amount modulo 2^32; a barrier counts arrivals modulo N and adds N for each round, one with N = 0 adds and keeps ARR at 0; no other object changes. -/
def Obligations.SignalArithmetic : Prop :=
  ∀ (s : State) (src : BitVec 4) (o : Byte) (a cnt : Nat),
    let x := objOf s o
    let t := signalAmt s src o a cnt
    let y := objOf t o
    y.lastSrc = src ∧ y.lastCtx = s.core.cur ∧ y.mode = x.mode ∧ y.n = x.n ∧ (∀ p, p ≠ o → objOf t p = objOf s p) ∧
    (x.mode = false ∨ x.n = 0 → y.val.toNat = (x.val.toNat + a) % 2 ^ 32 ∧ y.arr = if x.mode then 0 else x.arr) ∧
    (x.mode = true → x.n ≠ 0 → ∃ rounds rest, x.arr.toNat + a = rounds * x.n.toNat + rest ∧ rest < x.n.toNat ∧
      y.arr.toNat = rest ∧ y.val.toNat = (x.val.toNat + rounds * x.n.toNat) % 2 ^ 32) ∧
    (x.mode = false ∨ x.n = 0 ∨ y.val.toNat ≤ x.n.toNat → t.flt = s.flt ∧ t.syn.ovf = s.syn.ovf ∧ t.mem = s.mem ∧ t.core = s.core) ∧
    (x.mode = true → x.n ≠ 0 → x.n.toNat < y.val.toNat →
      (∃ r, t.flt.log.head? = some r ∧ r.w0.extractLsb' 0 8 = 0x1B ∧ r.w0.extractLsb' 8 2 = 1) ∧ t.flt.cont = true ∧
      t.flt.cntCont = s.flt.cntCont + 1 ∧ t.syn.ovf = true ∧ (s.syn.ovf = false → t.syn.errObj = o))

/-- WAIT completes when its condition holds: D takes the value before the take that COND TAKE makes; otherwise it stalls with its watch in slot 7. -/
def Obligations.WaitCompletes : Prop :=
  ∀ (s : State) (f : CForm) (o : Byte), Runs s 4 → f.ext = none → f.b = 0 → f.f.extractLsb' 8 2 = 0 → f.f.extractLsb' 6 2 ≠ 3 →
    mapId s s.core.cur.toNat (f.f.extractLsb' 0 6).toNat = some o →
    let cond := f.f.extractLsb' 6 2
    let x := objOf s o
    let tgt := (rd s f.a).extractLsb' 0 32
    let holds := (cond = 0 ∧ (x.val - tgt).toNat < 2 ^ 31) ∨ (cond = 1 ∧ x.val = tgt) ∨ (cond = 2 ∧ 0 < x.val.toInt)
    ∃ t, exec (.wait f) s = .next t ∧
      (holds → rd t f.d = (if f.d = 0 then 0 else x.val.zeroExtend 64) ∧ (∀ r, r ≠ f.d → rd t r = rd s r) ∧
        (curCtx t).pc = (curCtx s).pc + 4 ∧ t.core.mode = .run ∧ (watchOf t 7).active = false ∧
        objOf t o = (if cond = 2 then { x with val := x.val - 1 } else x) ∧ (∀ p, p ≠ o → objOf t p = objOf s p)) ∧
      (¬ holds → t.core.mode = .wait f.d ∧ (curCtx t).pc = (curCtx s).pc ∧ (∀ r, rd t r = rd s r) ∧
        watchOf t 7 = { obj := o, cond := cond, active := true, tgt := tgt } ∧ (∀ p, objOf t p = objOf s p)) ∧
      SameBytes s t

/-- FEW fills an empty word of the FE partition and FER empties a full one; FEW of a full word and FER of an empty one stall. A parity error of the full bit is met first (07 R175). -/
def Obligations.FullEmptyInstr : Prop :=
  ∀ (s : State) (f : CForm), Runs s 4 → f.ext = none → f.f = 0 →
    let a := (rd s f.a).toNat
    feOk s a = true → memWaits s a 8 = false → hasDouble s a 8 = false →
    (∃ t, exec (.few f) s = .next t ∧
      (feFull s a = false → Wrote (dropWatch (setFull (memWr (readFull (fetched s 4) rqDATA a) rqDATA a (leBytes 8 (rd s f.b))) a true) 7) t 0 0 4 ∧
        Stored s t a (leBytes 8 (rd s f.b)) ∧ feFull t a = true) ∧
      (feFull s a = true → t.core.mode = .few (BitVec.ofNat 21 a) (rd s f.b) ∧ (curCtx t).pc = (curCtx s).pc ∧ SameBytes s t)) ∧
    (∃ t, exec (.fer f) s = .next t ∧
      (feFull s a = true → Wrote (dropWatch (setFull (touchRead (readFull (fetched s 4) rqDATA a) rqDATA a 8) a false) 7) t f.d
          (BitVec.ofNat 64 (memNat s.mem.bytes a 8)) 4 ∧ SameBytes s t ∧ feFull t a = false) ∧
      (feFull s a = false → t.core.mode = .fer (BitVec.ofNat 21 a) f.d ∧ (curCtx t).pc = (curCtx s).pc ∧ SameBytes s t))

/-- FENCE completes when every engine of its mask is idle, stalls otherwise, and completes then by FENCE_DONE; wakes complete what stalls in slot 7, mark a queue head's slot and set HIT of a management watch. -/
def Obligations.FenceAndWake : Prop :=
  (∀ (s : State) (f : CForm), Runs s 4 → f.ext = none →
    let idle := ∀ e, e < 7 → f.f.getLsbD e = true → (qOf s e).wait = [] ∧ (qOf s e).infl = []
    (idle → ∃ t, exec (.fence f) s = .next t ∧ Wrote (fetched s 4) t 0 0 4) ∧
    (¬ idle → exec (.fence f) s = .next { fetched s 4 with core := { s.core with mode := .fence (f.f.setWidth 7) } })) ∧
  (∀ (s : State) (m : BitVec 7), unitsOn s = true → s.core.mode = .fence m →
    (∀ e, e < 7 → m.getLsbD e = true → (qOf s e).wait = [] ∧ (qOf s e).infl = []) →
    ∃ t, exec .fenceDone s = .next t ∧ Wrote s t 0 0 4) ∧
  (∀ (s : State) (slot : BitVec 5), unitsOn s = true → watchMet s slot.toNat = true →
    let w := watchOf s slot.toNat
    (slot.toNat < 7 → w.active = true → w.woken = false →
      ∃ t, exec (.wake slot) s = .next t ∧ t = { s with syn := t.syn } ∧ watchOf t slot.toNat = { w with woken := true } ∧
        t.syn.wakes = s.syn.wakes + 1) ∧
    (7 < slot.toNat → w.en = true → w.hit = false →
      ∃ t, exec (.wake slot) s = .next t ∧ t = { s with syn := t.syn } ∧ watchOf t slot.toNat = { w with hit := true } ∧
        t.syn.wakes = s.syn.wakes + 1) ∧
    (∀ d, slot = 7 → s.core.mode = .wait d →
      ∃ t, exec (.wake slot) s = .next t ∧ t.core.mode = .run ∧ (curCtx t).pc = (curCtx s).pc + 4 ∧
        rd t d = (if d = 0 then 0 else (objOf s w.obj).val.zeroExtend 64) ∧
        t.syn.wakes = s.syn.wakes + 1 ∧ SameBytes s t)) ∧
  (∀ (s : State) (a : Addr), unitsOn s = true → memWaits s a.toNat 8 = false → hasDouble s a.toNat 8 = false →
    feOk s a.toNat = true →
    (∀ v, s.core.mode = .few a v → feFull s a.toNat = false →
      ∃ t, exec (.wake 7) s = .next t ∧ t.core.mode = .run ∧ (curCtx t).pc = (curCtx s).pc + 4 ∧
        Stored s t a.toNat (leBytes 8 v) ∧ feFull t a.toNat = true ∧ t.syn.wakes = s.syn.wakes + 1) ∧
    (∀ d, s.core.mode = .fer a d → feFull s a.toNat = true →
      ∃ t, exec (.wake 7) s = .next t ∧ t.core.mode = .run ∧ (curCtx t).pc = (curCtx s).pc + 4 ∧
        rd t d = (if d = 0 then 0 else BitVec.ofNat 64 (memNat s.mem.bytes a.toNat 8)) ∧ SameBytes s t ∧
        feFull t a.toNat = false ∧ t.syn.wakes = s.syn.wakes + 1))

/-- MFS, MTS, CTX and BRK of the control core. -/
def Obligations.SystemInstructions : Prop :=
  ∀ (s : State) (f : CForm), Runs s 4 → f.ext = none →
    let n := (f.f.extractLsb' 0 6).toNat
    let u := fetched s 4
    (∃ t, exec (.mfs f) s = .next t ∧ Wrote u t f.d (specialReg s n) 4) ∧
    (16 ≤ n → n ≤ 23 → ∃ t, exec (.mts f) s = .next t ∧
      (curCtx t).scr = tabSet 0 (curCtx s).scr (n - 16) (rd s f.a) ∧ (∀ r, rd t r = rd s r) ∧
      (curCtx t).pc = (curCtx s).pc + 4 ∧ t.core.mode = .run ∧ t = { u with core := t.core, dbg := t.dbg, syn := t.syn }) ∧
    (∃ t, exec (.ctx f) s = .next t ∧ t.core.next = f.f.extractLsb' 0 2 ∧ t.core.switch = f.f.getLsbD 2 ∧
      (curCtx t).pc = (curCtx s).pc + 4 ∧ (∀ r, rd t r = rd s r) ∧ t = { u with core := t.core, dbg := t.dbg, syn := t.syn }) ∧
    (∃ t, exec (.brk f) s = .next t ∧ (curCtx t).pc = (curCtx s).pc + 4 ∧ (∀ r, rd t r = rd s r) ∧
      (s.sec.level = 2 → t.dbg.halted = true ∧ t.dbg.cause = 2) ∧
      (s.sec.level ≠ 2 → t.dbg = (dbgDone s).dbg) ∧ t = { u with core := t.core, dbg := t.dbg, syn := t.syn })

/-- RNG writes the half of the generator's output that F[0] selects, PHASE makes its phase pending, MAN loads or arms and puts its answer in D. What LOAD_ST shows while a load waits for the live copy is the model's reading (log 81). -/
def Obligations.GeneratorPhaseManifest : Prop :=
  (∀ (s : State) (f : CForm), Runs s (lenOf f.ext) →
    let n := lenOf f.ext
    let o := draw128 s ((rd s f.a).extractLsb' 0 48).toNat ((f.ext.getD 0).extractLsb' 0 16).toNat (stepField s s.core.cur).toNat
      ((rd s f.b).extractLsb' 0 16).toNat
    (∃ t, exec (.rng f) s = .next t ∧
      Wrote (fetched s n) t f.d (if f.f.getLsbD 0 then (BitVec.ofNat 128 o).extractLsb' 64 64 else (BitVec.ofNat 128 o).extractLsb' 0 64) n) ∧
    (∃ t p, exec (.phase f) s = .next t ∧ t.gov = { (fetched s n).gov with pend := some p } ∧ p.phase = f.f.extractLsb' 0 6 ∧
      p.start = s.gov.acyc + ((f.ext.getD 0).extractLsb' 0 24).toNat ∧ (curCtx t).pc = (curCtx s).pc + BitVec.ofNat 21 n ∧
      (∀ r, rd t r = rd s r) ∧ SameBytes s t)) ∧
  (∀ (s : State) (f : CForm), Runs s 4 → f.ext = none →
    let u := fetched s 4
    (f.f.getLsbD 0 = false →
      let v := u.modMan (fun m => { m with loadAddr := (rd s f.a).extractLsb' 0 21 &&& ~~~3, loadLen := (rd s f.b).extractLsb' 0 17 })
      ∃ t, exec (.manLoad f) s = .next t ∧ Wrote (startLoad v).1 t f.d (BitVec.ofNat 64 (startLoad v).2) 4 ∧
        (s.man.armed = none → s.man.load = none → s.man.loadWait = none →
          rd t f.d = 0 ∧ t.man.loadSt = 1 ∧
          (s.man.syncing = false → t.man.load = some (((rd s f.a).extractLsb' 0 21 &&& ~~~3).toNat, ((rd s f.b).extractLsb' 0 17).toNat)))) ∧
    (f.f.getLsbD 0 = true →
      let e := (rd s f.a).extractLsb' 0 32
      ∃ t, exec (.manArm f) s = .next t ∧ Wrote (armWith u e).1 t f.d (BitVec.ofNat 64 (armWith u e).2) 4 ∧
        (s.man.load = none → s.man.loadWait = none → e = s.man.epochShadow → e ≠ s.man.epochCur → rd t f.d = 0 ∧ t.man.armed = some e) ∧
        (s.man.load = none → s.man.loadWait = none → e = s.man.epochCur ∨ e ≠ s.man.epochShadow →
          rd t f.d = (if f.d = 0 then 0 else 10) ∧ t.man.armed = s.man.armed)))

/-- Encodings that R76 forbids and sync IDs that no object has raise ILLEGAL; accesses outside the partitions of Table 6, fetches and targets outside CODE, and full/empty addresses that are misaligned or foreign raise BOUNDS: the instruction has no effect and the core stops at it, or at the target. -/
def Obligations.InstructionFaults : Prop :=
  ∀ s : State,
    let illegal := fun (i : Instr) (n : Nat) => ∃ t, exec i s = .next t ∧ FaultStopped (fetched s n) t fcILLEGAL ∧ SameBytes s t
    let bounds := fun (i : Instr) (n : Nat) => ∃ t, exec i s = .next t ∧ FaultStopped (fetched s n) t fcBOUNDS ∧ SameBytes s t
    let nofetch := fun (i : Instr) => ∃ t, exec i s = .next t ∧ FaultStopped s t fcBOUNDS ∧ SameBytes s t
    let away := fun (i : Instr) (n : Nat) (d : SReg) (v : Dword) (pc : Addr) =>
      ∃ u t, exec i s = .next t ∧ Completed (fetched s n) u d v pc ∧ FaultStopped u t fcBOUNDS ∧ SameBytes s t
    let pc := (curCtx s).pc
    (∀ (f : IForm) (i : Instr) (k : Nat) (ps : List Nat),
      (i, k, ps) ∈ [(Instr.ldd f, 3, loadParts), (.ldw f, 2, loadParts), (.ldwu f, 2, loadParts), (.lds f, 1, loadParts),
        (.ldsu f, 1, loadParts), (.ldb f, 0, loadParts), (.ldbu f, 0, loadParts), (.std f, 3, storeParts), (.stw f, 2, storeParts),
        (.sts f, 1, storeParts), (.stb f, 0, storeParts)] →
      Runs s (lenOf f.ext) → permits s ps (accAddr s f k) (2 ^ k) = false → bounds i (lenOf f.ext)) ∧
    (∀ w : Word, Runs s 4 → illegal (.reservedOpcode w) 4) ∧
    (∀ f : RForm, Runs s 4 → f.x = true ∨ f.f96 ≠ 0 → ∀ i ∈ rInstrs f, illegal i 4) ∧
    (∀ f : IForm, Runs s (lenOf f.ext) →
      (f.ext ≠ none ∨ 64 ≤ f.imm.toNat → ∀ i ∈ [Instr.slli f, .srli f, .srai f], illegal i (lenOf f.ext)) ∧
      (f.ext = none ∨ f.imm ≠ 0 → illegal (.orhi f) (lenOf f.ext)) ∧
      (let target := (rd s f.a + immOf f.ext f.imm) &&& ~~~3
       2 ^ 21 ≤ target.toNat →
        away (.jalr f) (lenOf f.ext) f.d (pc.zeroExtend 64 + BitVec.ofNat 64 (lenOf f.ext)) (target.setWidth 21))) ∧
    (∀ f : BForm, Runs s (lenOf f.ext) →
      (7 ≤ f.cond.toNat → illegal (.br f) (lenOf f.ext)) ∧
      (let target : Int := pc.toNat + 4 * (match f.ext with | none => f.off.toInt | some e => e.toInt)
       (target < 0 ∨ 2 ^ 21 ≤ target) → brTaken f.cond (rd s f.a) (rd s f.b) = some true →
        away (.br f) (lenOf f.ext) 0 0 (BitVec.ofInt 21 target))) ∧
    (∀ f : JForm, Runs s 4 →
      (f.x = true → illegal (.jal f) 4) ∧
      (let target : Int := pc.toNat + 4 * f.off.toInt
       f.x = false → (target < 0 ∨ 2 ^ 21 ≤ target) → away (.jal f) 4 f.d (pc.zeroExtend 64 + 4) (BitVec.ofInt 21 target))) ∧
    (∀ f : CForm, Runs s (lenOf f.ext) →
      (f.ext ≠ none → ∀ i ∈ (cInstrs f).take 14, illegal i (lenOf f.ext)) ∧
      (f.f.extractLsb' 1 2 = 3 ∨ f.d ≠ 0 ∨ f.a ≠ 0 ∨ f.b ≠ 0 ∨ 64 ≤ f.f.toNat → illegal (.sync f) (lenOf f.ext)) ∧
      (f.d ≠ 0 ∨ f.b ≠ 0 ∨ f.f.getLsbD 9 = true → ∀ i ∈ [Instr.sig f, .sigBar f, .sigSet f], illegal i (lenOf f.ext)) ∧
      (f.f.getLsbD 6 = true → ∀ i ∈ [Instr.sigBar f, .sigSet f], illegal i (lenOf f.ext)) ∧
      (f.f.extractLsb' 7 2 = 3 → illegal (.sig f) (lenOf f.ext)) ∧
      (f.b ≠ 0 ∨ f.f.extractLsb' 8 2 ≠ 0 ∨ f.f.extractLsb' 6 2 = 3 → illegal (.wait f) (lenOf f.ext)) ∧
      (f.f ≠ 0 → ∀ i ∈ [Instr.few f, .fer f], illegal i (lenOf f.ext)) ∧
      ((f.f.extractLsb' 0 6).toNat < 16 ∨ 23 < (f.f.extractLsb' 0 6).toNat → illegal (.mts f) (lenOf f.ext)) ∧
      (mapId s s.core.cur.toNat (f.f.extractLsb' 0 6).toNat = none →
        ∀ i ∈ [Instr.sig f, .sigBar f, .sigSet f, .wait f], illegal i (lenOf f.ext)) ∧
      (f.ext = none → f.f = 0 → feOk s (rd s f.a).toNat = false → ∀ i ∈ [Instr.few f, .fer f], bounds i 4)) ∧
    (∀ (f : EForm) (i : Instr) (fns : Nat),
      (i, fns) ∈ [(Instr.arr f, 5), (.vec f, 10), (.fac f, 6), (.wgh f, 5), (.str f, 3), (.pst f, 4), (.sth f, 4)] →
      Runs s (lenOf f.ext) → fns ≤ f.fn.toNat ∨ entryOf s f = none → illegal i (lenOf f.ext)) ∧
    (coreOn s = true →
      (∀ (f : RForm), fetchOk s pc.toNat 4 = false → ∀ i ∈ rInstrs f, nofetch i) ∧
      (∀ (f : IForm), fetchOk s pc.toNat (lenOf f.ext) = false → ∀ i ∈ iInstrs f, nofetch i) ∧
      (∀ (f : BForm), fetchOk s pc.toNat (lenOf f.ext) = false → nofetch (.br f)) ∧
      (∀ (f : JForm), fetchOk s pc.toNat 4 = false → nofetch (.jal f)) ∧
      (∀ (f : CForm), fetchOk s pc.toNat (lenOf f.ext) = false → ∀ i ∈ cInstrs f, nofetch i) ∧
      (∀ (f : EForm), fetchOk s pc.toNat (lenOf f.ext) = false → ∀ i ∈ eInstrs f, nofetch i) ∧
      (∀ w : Word, fetchOk s pc.toNat 4 = false → nofetch (.reservedOpcode w)))

/-! Engines: queues, weighers, array, vector engine, Factor, stash (03 to 06, 08 to 10). -/

/-- A finished operation retires: its last writings and lanes land, D takes its writeback, and its signal is given; the contributors of a caravan retire together. A queue that failed a check discards its entries, each with its signal. A chain operation that still has beats in the chain retires as the statement VectorChains says. That what another operation writes lands at its retirement is the model's choice (log 5); so is a discard that leaves one entry at a time (log 78). -/
def Obligations.RetireAndDiscard : Prop :=
  (∀ (s : State) (q : BitVec 3) (n : Nat) (x : Infl), unitsOn s = true → (qOf s q.toNat).infl[n]? = some x → x.done = true →
    inOrder s q.toNat n x = true → spansWait s x.spans = false → (q = 0 → x.car = none) → (q = 1 → vecRunOf s x.id = none) →
    let signals := if x.mute then none else x.ent.sv
    ∃ t, exec (.engineRetire q n) s = .next t ∧ (qOf t q.toNat).infl = (qOf s q.toNat).infl.eraseIdx n ∧
      (qOf t q.toNat).wait = (qOf s q.toNat).wait ∧ (∀ k, k ≠ q.toNat → qOf t k = qOf s k) ∧
      (∀ v, x.wb = some v → (ctxOf t x.ent.ctx).reg x.ent.dreg = if x.ent.dreg = 0 then 0 else v) ∧
      (∀ r, x.wb = none ∨ r ≠ x.ent.dreg → (ctxOf t x.ent.ctx).reg r = (ctxOf s x.ent.ctx).reg r) ∧
      (∀ c, c ≠ x.ent.ctx → ctxOf t c = ctxOf s c) ∧
      (∀ o, signals = some o → (objOf t o).lastSrc = BitVec.ofNat 4 (q.toNat + 2)) ∧
      (∀ o, signals ≠ some o → objOf t o = objOf s o) ∧
      (x.wr = [] → SameBytes s t) ∧ (NoDouble s → InMemory x.wr.flatten → Landed s t x.wr.flatten) ∧
      (∀ k, tabGet 0 t.vec.v k = ((x.lanes.reverse.find? (fun p => decide (p.1 = k))).map (·.2)).getD (tabGet 0 s.vec.v k)) ∧
      t.jrnl.toArr = s.jrnl.toArr ++ x.units.map (fun u => unitOfData 3 u.1 u.2)) ∧
  (∀ (s : State) (n : Nat) (x : Infl) (c : Nat), unitsOn s = true → (qOf s eARR).infl[n]? = some x → x.done = true →
    x.car = some c → spansWait s x.spans = false →
    ∃ t, exec (.engineRetire 0 n) s = .next t ∧ (qOf t eARR).infl = (qOf s eARR).infl.filter (fun y => decide (y.car ≠ some c)) ∧
      (qOf t eARR).wait = (qOf s eARR).wait ∧ (∀ k, k ≠ eARR → qOf t k = qOf s k) ∧
      (∀ o, (∃ y ∈ (qOf s eARR).infl, y.car = some c ∧ y.ent.sv = some o) → (objOf t o).lastSrc = 2) ∧
      (∀ o, (∀ y ∈ (qOf s eARR).infl, y.car = some c → y.ent.sv ≠ some o) → objOf t o = objOf s o) ∧
      (∀ k, ctxOf t k = ctxOf s k) ∧ SameBytes s t) ∧
  (∀ (s : State) (q : BitVec 3) (ent : QEntry) (rest : List QEntry), unitsOn s = true → (qOf s q.toNat).failed = true →
    (qOf s q.toNat).wait = ent :: rest → (∀ i, s.core.mode ≠ .full i) →
    ∃ t, exec (.queueDiscard q) s = .next t ∧ (qOf t q.toNat).wait = rest ∧ (qOf t q.toNat).infl = (qOf s q.toNat).infl ∧
      (qOf t q.toNat).failed = true ∧ (∀ k, k ≠ q.toNat → qOf t k = qOf s k) ∧
      (∀ o, ent.sv = some o → (objOf t o).lastSrc = BitVec.ofNat 4 (q.toNat + 2)) ∧
      (∀ o, ent.sv ≠ some o → objOf t o = objOf s o) ∧ (∀ r, rd t r = rd s r) ∧ SameBytes s t)

/-- An operation leaves its queue with the take of its wait, and only the queue and the sync unit change; a head whose wait is not met stays, whatever its function, and registers its watch. That an operation acts at its dispatch is the model's choice (log 5). -/
def Obligations.QueueHeads : Prop :=
  (∀ (s : State) (e fn : Nat) (ent : QEntry), Head s e fn ent →
    let u := left s e ent
    ent.fn.toNat = fn ∧ (qOf s e).wait.head? = some ent ∧ (qOf s e).failed = false ∧
    (qOf u e).wait = (qOf s e).wait.drop 1 ∧ (qOf u e).infl = (qOf s e).infl ∧ (∀ k, k ≠ e → qOf u k = qOf s k) ∧
    u = { s with q := u.q, syn := u.syn } ∧
    (∀ o, ent.wv = some o → 0 < (objOf s o).val.toInt ∧ objOf u o = { objOf s o with val := (objOf s o).val - 1 }) ∧
    (∀ o, ent.wv ≠ some o → objOf u o = objOf s o) ∧ (watchOf u e).active = false) ∧
  (∀ (s : State) (i : Instr) (e fn : Nat) (ent : QEntry) (o : Byte),
    (i, e, fn) ∈ [(Instr.arrMm, eARR, 0), (.arrConv, eARR, 1), (.arrList, eARR, 3), (.arrFlush, eARR, 4),
      (.vecRun, eVEC, 0), (.vecProg, eVEC, 1), (.vecPerm, eVEC, 2), (.vecShuf, eVEC, 3), (.vecPack, eVEC, 4), (.vecUnpk, eVEC, 5),
      (.vecVld, eVEC, 6), (.vecVst, eVEC, 7), (.vecBcst, eVEC, 8), (.vecRds, eVEC, 9), (.facStep, eFAC, 0), (.facP1, eFAC, 1),
      (.facToken, eFAC, 2), (.facP2, eFAC, 3), (.facCommit, eFAC, 4), (.facCnt, eFAC, 5), (.wghRead, eWGH, 0), (.wghStep, eWGH, 1),
      (.wghLsread, eWGH, 2), (.wghFlags, eWGH, 3), (.wghClr, eWGH, 4), (.strGet, eSTR, 0), (.strPut, eSTR, 1), (.strRput, eSTR, 2),
      (.pstSend, ePST, 0), (.pstAck, ePST, 1), (.pstOpen, ePST, 2), (.pstClose, ePST, 3), (.sthPut, eSTH, 0), (.sthGet, eSTH, 1), (.sthFree, eSTH, 2), (.sthQuery, eSTH, 3)] →
    headFn s e fn = some ent → ent.wv = some o → ¬ (0 < (objOf s o).val.toInt) →
    ∃ t, exec i s = .next t ∧ t = { s with syn := { s.syn with watch := t.syn.watch } } ∧ (watchOf t e).active = true)

/-- The weigher functions: READ, LSREAD and FLAGS give their writeback, STEP opens a new gathering, CLR clears the flags of its mask. That an operation acts at its dispatch, and WGH.STEP at its retirement, is the model's choice (log 5). -/
def Obligations.WeigherOps : Prop :=
  ∀ (s : State) (ent : QEntry), (qOf s eWGH).infl = [] →
    let u := left s eWGH ent
    let w := s.wgh
    let x := tabGet ({} : Weigher) w.w (ent.a.extractLsb' 0 4).toNat
    let gives := fun (i : Instr) (v : Dword) => exec i s = .next (settled (putInfl u eWGH ent (some v) true) eWGH)
    let acts := fun (i : Instr) (w' : Wgh) => exec i s = .next (settled { putInfl u eWGH ent none true with wgh := w' } eWGH)
    (Head s eWGH 0 ent → ∃ v, gives .wghRead v ∧ v.extractLsb' 0 32 = x.acc.amax ∧ v.extractLsb' 32 8 = x.s ∧
      v.extractLsb' 40 5 = x.fill ∧ v.extractLsb' 45 3 = 0 ∧ v.extractLsb' 48 4 = x.acc.fmt ∧ v.extractLsb' 52 12 = 0) ∧
    (Head s eWGH 1 ent → acts .wghStep
      { w with stepping := true, acc2 := [], stepTok := w.tok, stepTokNf := w.tokNf, tok := false, tokNf := false }) ∧
    (Head s eWGH 2 ent → ∃ v, gives .wghLsread v ∧ v.extractLsb' 0 8 = w.l ∧ v.extractLsb' 8 16 = w.good ∧
      v.getLsbD 24 = w.lsdown ∧ v.getLsbD 25 = w.notoken ∧ v.getLsbD 26 = lsDyn s ∧ v.extractLsb' 27 37 = 0) ∧
    (Head s eWGH 3 ent → ∃ v, gives .wghFlags v ∧ v.extractLsb' 0 16 = w.nonfin ∧ v.extractLsb' 16 16 = w.sat ∧
      v.extractLsb' 32 16 = w.mixed ∧ v.getLsbD 48 = w.nanAny ∧ v.getLsbD 49 = w.infAny ∧ v.getLsbD 50 = w.lsdown ∧
      v.getLsbD 51 = w.notoken ∧ v.extractLsb' 52 12 = 0) ∧
    (Head s eWGH 4 ent → acts .wghClr
      { w with nonfin := w.nonfin &&& ~~~(ent.a.extractLsb' 0 16), sat := w.sat &&& ~~~(ent.a.extractLsb' 16 16)
               mixed := w.mixed &&& ~~~(ent.a.extractLsb' 32 16), nanAny := w.nanAny && !ent.a.getLsbD 48
               infAny := w.infAny && !ent.a.getLsbD 49, lsdown := w.lsdown && !ent.a.getLsbD 50
               notoken := w.notoken && !ent.a.getLsbD 51 })

/-- What a weigher gathers from values that a unit narrows, its step update with the new scale, and the retirement of WGH.STEP: the copy of what it replaces, every enabled weigher, and the loss scale. -/
def Obligations.WeigherStep : Prop :=
  (∀ (s : State) (tensor fmt : Nat) (xs : List Seen) (k : Nat), k < 16 → fmt < 16 →
    let t := observe s tensor fmt xs
    let mine := fun (i : Nat) => wghEn s i = true ∧ wghTensor s i = tensor
    let got := fun (u : State) => if s.wgh.stepping then tabGet ({} : WAcc) u.wgh.acc2 k else (tabGet ({} : Weigher) u.wgh.w k).acc
    let x := tabGet ({} : Weigher) s.wgh.w k
    let y := tabGet ({} : Weigher) t.wgh.w k
    let bad := fun (v : Seen) => !f32IsFinite v.v || v.toInf
    t = { s with wgh := t.wgh } ∧ t.wgh.stepping = s.wgh.stepping ∧
    (mine k → y.obs = x.obs + BitVec.ofNat 32 xs.length ∧ y.hist = x.hist ∧ y.fill = x.fill ∧ y.s = x.s ∧
      (got t).cnt = (got s).cnt + xs.length ∧ (xs ≠ [] → (got t).fmt = BitVec.ofNat 4 fmt) ∧
      (got t).nonfin = ((got s).nonfin || xs.any bad) ∧
      (got t).amax = xs.foldl (fun m v => if f32IsFinite v.v = true ∧ m.toNat < (f32Abs v.v).toNat then f32Abs v.v else m) (got s).amax ∧
      t.wgh.nonfin.getLsbD k = (s.wgh.nonfin.getLsbD k || xs.any bad) ∧
      t.wgh.sat.getLsbD k = (s.wgh.sat.getLsbD k || xs.any (fun v => f32IsFinite v.v && v.sat)) ∧
      t.wgh.mixed.getLsbD k = (s.wgh.mixed.getLsbD k || (!xs.isEmpty && decide ((got s).cnt ≠ 0) && decide ((got s).fmt ≠ BitVec.ofNat 4 fmt)))) ∧
    (¬ mine k → y = x ∧ got t = got s ∧ t.wgh.nonfin.getLsbD k = s.wgh.nonfin.getLsbD k ∧
      t.wgh.sat.getLsbD k = s.wgh.sat.getLsbD k ∧ t.wgh.mixed.getLsbD k = s.wgh.mixed.getLsbD k) ∧
    (mine k → t.wgh.nanAny = (s.wgh.nanAny || xs.any (fun v => f32IsNaN v.v)) ∧
      t.wgh.infAny = (s.wgh.infAny || xs.any (fun v => f32IsInf v.v || v.toInf)))) ∧
  (∀ (s : State) (k : Nat) (x : Weigher) (a : WAcc),
    let y := weigherStep s k x a
    y.obs = x.obs ∧ y.acc.cnt = a.cnt ∧ y.acc.amax = a.amax ∧
    (x.acc.nonfin = true ∨ x.acc.cnt = 0 → y.hist = x.hist ∧ y.fill = x.fill ∧ y.s = x.s) ∧
    (x.acc.nonfin = false → x.acc.cnt ≠ 0 →
      tabGet 0 y.hist 0 = x.acc.amax ∧
      (∀ i, i + 1 < wghDepth s k → tabGet 0 y.hist (i + 1) = tabGet 0 x.hist i) ∧
      y.fill.toNat = min (x.fill.toNat + 1) (wghDepth s k) ∧
      (let h := histMax y.hist y.fill.toNat
       let f := x.acc.fmt.toNat
       (∀ i, i < y.fill.toNat → (tabGet 0 y.hist i).toNat ≤ h.toNat) ∧
       (h = 0 ∨ ∃ p ∈ y.hist, p.1 < y.fill.toNat ∧ p.2 = h) ∧
       (f = 0 ∨ f = 2 ∨ fmtIsMx f = true → y.s = 0) ∧
       (¬ (f = 0 ∨ f = 2 ∨ fmtIsMx f = true) → h = 0 → y.s = x.s) ∧
       (¬ (f = 0 ∨ f = 2 ∨ fmtIsMx f = true) → h ≠ 0 →
         y.s.toInt = max (-128) (min (fmtEf f - f32FloorLog2 h - 1 - wghMargin s k) 127))))) ∧
  (∀ (s : State) (n : Nat) (x : Infl), unitsOn s = true → (qOf s eWGH).infl[n]? = some x → x.done = true → x.ent.fn = 1 →
    x.wr = [] → x.units = [] → s.wgh.stepping = true →
    let w := s.wgh
    ∃ t, exec (.engineRetire 3 n) s = .next t ∧ t.jrnl.wstep = true ∧ t.wgh.stepping = false ∧ t.wgh.acc2 = [] ∧
      t.wgh.copyL = w.l ∧ t.wgh.copyGood = w.good ∧
      (∀ k, k < 16 →
        let y := tabGet ({} : Weigher) w.w k
        tabGet ({} : WCopy) t.wgh.copy k = { hist := y.hist, fill := y.fill, s := y.s } ∧
        tabGet ({} : Weigher) t.wgh.w k = if wghEn s k then weigherStep s k y (tabGet {} w.acc2 k) else y) ∧
      (lsDyn s = false → t.wgh.l = lsInit s ∧ t.wgh.good = w.good ∧ t.wgh.lsdown = w.lsdown ∧ t.wgh.notoken = w.notoken) ∧
      (lsDyn s = true → w.stepTok = false → t.wgh.l = w.l ∧ t.wgh.good = w.good ∧ t.wgh.notoken = true) ∧
      (lsDyn s = true → w.stepTok = true → w.stepTokNf = true →
        t.wgh.l.toInt = max (w.l.toInt - 1) (lsMin s) ∧ t.wgh.good = 0 ∧ t.wgh.lsdown = true) ∧
      (lsDyn s = true → w.stepTok = true → w.stepTokNf = false →
        ((w.good + 1).toNat = lsGrow s → t.wgh.l.toInt = min (w.l.toInt + 1) (lsMax s) ∧ t.wgh.good = 0) ∧
        ((w.good + 1).toNat ≠ lsGrow s → t.wgh.l = w.l ∧ t.wgh.good = w.good + 1)))

/-- Accepted array operations: MM and CONV put their items on their string at the next sequence positions, LIST its entries on its group with the weighers' scales of its dispatch, FLUSH makes every open caravan depart. That an operation is checked at its dispatch is the model's choice (log 5); a LIST takes its positions when it is accepted (log 36). -/
def Obligations.ArrayAccepts : Prop :=
  (∀ (s : State) (ent : QEntry) (d : ArrDesc) (i : Instr) (conv : Bool) (fn : Nat),
    (i, conv, fn) ∈ [(Instr.arrMm, false, 0), (.arrConv, true, 1)] →
    let src : ArrSrc := ⟨ent.d.toNat, ent.a, ent.sub.toNat, conv⟩
    Head s eARR fn ent → arrRoom s ent = true → spansWait s (descSpans s src) = false →
    let u := left s eARR ent
    let w := touchSpans u rqDRAIN (descSpans u src)
    arrEval w src (arrPre w ent) (fun _ => []) (stepField s ent.ctx) = .ok d →
    let v := departStr w ent.sub.toNat .force
    ∃ t, exec i s = .next (settled t eARR) ∧
      t.arr.ops = v.arr.ops ++
        [{ id := s.opId, string := ent.sub.toNat, descAddr := ent.d.toNat, tag := ent.fs.extractLsb' 0 8
           nosteal := ent.fs.getLsbD 8, desc := d, lo := 0, hi := d.items, items := d.items, pos := v.arr.nextPos, ctx := ent.ctx }] ∧
      t.arr.nextPos = (if d.out = 2 then v.arr.nextPos else v.arr.nextPos + d.items) ∧ t.opId = s.opId + 1 ∧
      t = { v with arr := t.arr, q := t.q, opId := t.opId } ∧ SameBytes s t) ∧
  (∀ (s : State) (ent : QEntry), Head s eARR 3 ent →
    let g := (ent.sub.extractLsb' 0 4).toNat
    let n := ent.b.toNat
    let u := left s eARR ent
    groupList s g = none → ent.fs = 0 → ent.sub.toNat < 16 → groupUsed u g = true → 0 < n → n ≤ 4096 →
    dataAt u ent.d.toNat 8 (8 * n) = true →
    ∃ t, exec .arrList s = .next (settled t eARR) ∧
      t.arr.ops = s.arr.ops ++
        [{ id := s.opId, string := 64, isList := true, group := g, lo := 0, hi := n, items := n
           pos := s.arr.nextPos, a := ent.a, addr := ent.d.toNat, ctx := ent.ctx, desc := { stepField := stepField s ent.ctx }
           scales := scalesOf s }] ∧
      t.arr.nextPos = s.arr.nextPos + n ∧ t = { u with arr := t.arr, q := t.q, opId := s.opId + 1 }) ∧
  (∀ (s : State) (ent : QEntry), Head s eARR 4 ent →
    ∃ t, exec .arrFlush s = .next (settled t eARR) ∧ (∀ o ∈ t.arr.ops, o.open_ = false) ∧ t.arr.ops.length = s.arr.ops.length ∧
      t = { left s eARR ent with arr := t.arr, q := t.q, opId := s.opId + 1 })

/-- CAR: a contributor joins the open caravan of its string, or opens one; the caravan departs when it is full, forced or caravans are off, and at its deadline; a contributor that cannot join makes it depart if its own checks pass. That no departure counter moves for a caravan of its own with CARAVAN_EN 0 is the model's reading (log 72), and so is when a descriptor is one of a convolution (log 87). -/
def Obligations.Caravans : Prop :=
  (∀ (s : State) (ent : QEntry) (d : ArrDesc), unitsOn s = true →
    let s' := carDepart s
    let str := ent.sub.toNat
    let rows := ent.b.toNat
    Head s' eARR 2 ent → carJoins s' ent = true ∨ arrRoom s' ent = true → spansWait s' (descSpans s' (carSrc s' ent)) = false →
    let l := left s' eARR ent
    let u := touchSpans l rqDRAIN (descSpans l (carSrc l ent))
    carEval u ent = .ok d →
    let j : CarJoin := { id := s.opId, rows := rows, x := d.x }
    let fill := match openCar s' str with | some o => o.fill + rows | none => rows
    let car := match openCar s' str with | some o => o.id | none => s.opId
    let a : Arr := match openCar s' str with
      | some o => { s'.arr with ops := s'.arr.ops.map (fun x => if x.id = o.id then { x with joins := x.joins ++ [j] } else x) }
      | none => { s'.arr with ops := s'.arr.ops ++
          [{ id := s.opId, string := str, joins := [j], open_ := true, descAddr := ent.d.toNat, offW := (ent.a.extractLsb' 21 21).toNat
             capRows := d.m, tag := ent.fs.extractLsb' 0 8, desc := d, ctx := ent.ctx }] }
    ∃ t, exec .arrCar s = .next (settled t eARR) ∧
      t.arr = (if fill = d.m then departId a car .full else if ent.fs.getLsbD 8 then departId a car .force
        else if caravanEn s then a else departId a car .off) ∧ t.opId = s.opId + 1 ∧ SameBytes s t ∧
      ∃ x ∈ (qOf t eARR).infl, x.ent = ent ∧ x.id = s.opId ∧ x.done = false) ∧
  (∀ (s : State) (ent : QEntry) (o : ArrOp), headFn s eARR 2 = some ent → openCar s ent.sub.toNat = some o →
    o.descAddr ≠ ent.d.toNat ∨ o.offW ≠ (ent.a.extractLsb' 21 21).toNat ∨ o.capRows < o.fill + ent.b.toNat →
    spansWait s (descSpans s (carSrc s ent)) = false → ent.wv = none →
    (∀ d, carEval s ent = .ok d → (carDepart s).arr = departId s.arr o.id .force) ∧
    (∀ c, carEval s ent = .error c → carDepart s = s)) ∧
  (∀ (s : State) (i : BitVec 6) (o : ArrOp), unitsOn s = true → openCar s i.toNat = some o →
    (∀ x ∈ s.arr.ops, x.id = o.id → x = o) →
    let n := (o.fill + 15) / 16 * (o.desc.n / 16)
    ∃ t, exec (.caravanDeadline i) s = .next t ∧ t = { s with arr := t.arr } ∧ t.arr.nextPos = s.arr.nextPos + n ∧
      t.arr.cardepDl = s.arr.cardepDl + 1 ∧ t.arr.carRows = s.arr.carRows + BitVec.ofNat 32 o.fill ∧
      t.arr.ops = s.arr.ops.map (fun x => if x.id = o.id then
        { o with open_ := false, lo := 0, hi := n, items := n, pos := s.arr.nextPos } else x))

/-- Claims: a string whose drovers may issue takes the lowest unclaimed item of its own first operation; an idle one the highest of the victim with the most, the lowest idle string of a group first; its bale takes one of the string's buffers, with the a-cycles to its end, and its products count. That a claimed item is computed from memory at the claim is the model's choice (log 5), as is that its time runs from the claim (log 84). -/
def Obligations.ItemClaims : Prop :=
  (∀ (s : State) (i : BitVec 6) (o : ArrOp), strNext s i.toNat = some o → strCan s i.toNat = true →
    spansWait s (itemSpans o.joins o.desc o.lo) = false →
    ∃ t b, exec (.itemClaim i) s = .next t ∧ t.arr.bufs = s.arr.bufs ++ [b] ∧ b.opId = o.id ∧ b.string = i.toNat ∧ b.item = o.lo ∧
      b.pos = o.pos + o.lo ∧ b.tag = o.tag ∧ b.last = decide (o.lo + 1 = o.items) ∧ b.desc = o.desc ∧
      b.vals = itemVals o.joins o.desc s.mem.bytes o.lo ∧
      t.arr.ops = s.arr.ops.map (fun x => if x.id = o.id then { x with lo := x.lo + 1 } else x) ∧
      b.lead = 0 ∧ b.left = itemTime o.desc (strLeff s i.toNat) ∧
      t.arr.steals = s.arr.steals ∧ t.arr.mac = s.arr.mac + BitVec.ofNat 64 (itemProducts o.desc) ∧ t.syn.wmCount = 0 ∧ SameBytes s t) ∧
  (∀ (s : State) (i : BitVec 6) (o : ArrOp), bestVictim (victims s i.toNat) = some o → strIdle s i.toNat = true →
    groupList s (strGrp s i.toNat) = none → servedFirst s i.toNat (fun j => (bestVictim (victims s j)).isSome) = false →
    spansWait s (itemSpans o.joins o.desc (o.hi - 1)) = false →
    ∃ t b, exec (.itemSteal i) s = .next t ∧ t.arr.bufs = s.arr.bufs ++ [b] ∧ b.opId = o.id ∧ b.string = i.toNat ∧
      b.item = o.hi - 1 ∧ b.pos = o.pos + (o.hi - 1) ∧ b.desc = o.desc ∧ b.vals = itemVals o.joins o.desc s.mem.bytes (o.hi - 1) ∧
      t.arr.ops = s.arr.ops.map (fun x => if x.id = o.id then { x with hi := x.hi - 1 } else x) ∧
      b.lead = 2 + strLeff s i.toNat ∧ b.left = itemTime o.desc (strLeff s i.toNat) ∧
      t.arr.steals = s.arr.steals + 1 ∧ o.nosteal = false ∧ o.lo + 2 ≤ o.hi ∧
      t.arr.mac = s.arr.mac + BitVec.ofNat 64 (itemProducts o.desc) ∧
      (∀ p ∈ victims s i.toNat, p.hi - p.lo ≤ o.hi - o.lo) ∧ SameBytes s t)

/-- A work-list entry that passes its checks is claimed by the lowest idle string: its bale carries the entry's tag and item and the list's next position; one that fails ends the list and its queue. The position a claimed entry takes is the model's reading (log 36); that the entry is computed from memory at its claim is the model's choice (log 5). -/
def Obligations.ListClaims : Prop :=
  ∀ (s : State) (i : BitVec 6) (o : ArrOp), groupList s (strGrp s i.toNat) = some o → strIdle s i.toNat = true →
    servedFirst s i.toNat (fun _ => true) = false → spansWait s (entrySpans s o i.toNat) = false →
    let e := mNat s (o.addr + 8 * o.lo) 8
    let u := (touchSpans s rqDRAIN ((o.addr + 8 * o.lo, 8) :: descSpans s (entrySrc s o i.toNat))).modArr
      (fun a => { a with listEnt := a.listEnt + 1 })
    (∀ d, entryEval u o i.toNat = .ok d →
      let skip := decide (d.out = 2)
      let claimed : Arr := { s.arr with
        listEnt := s.arr.listEnt + 1
        ops := s.arr.ops.map (fun x => if x.id = o.id then { x with lo := x.lo + 1, pos := if skip then x.pos else x.pos + 1 } else x) }
      let a := if skip then dropPositions claimed o.pos 1 else claimed
      ∃ t b, exec (.listEntryClaim i) s = .next t ∧ t.arr.bufs = a.bufs ++ [b] ∧ t.arr.ops = a.ops ∧ t.arr.nextPos = a.nextPos ∧
        t.arr.listEnt = s.arr.listEnt + 1 ∧ b.opId = o.id ∧ b.string = i.toNat ∧ b.item = bitsOf e 43 32 ∧
        b.tag = BitVec.ofNat 8 (bitsOf e 51 44) ∧ b.pos = o.pos ∧ b.desc = d ∧ b.last = decide (o.lo + 1 = o.hi) ∧
        b.vals = itemVals o.joins d s.mem.bytes b.item ∧ SameBytes s t) ∧
    (∀ c, entryEval u o i.toNat = .error c → (∀ k, s.core.mode ≠ .full k) →
      ∃ t, exec (.listEntryClaim i) s = .next t ∧ (qOf t eARR).wait = [] ∧ (qOf t eARR).failed = true ∧ t.flt.cont = true ∧
        t.arr.derr = true ∧ (∀ x ∈ t.arr.ops, x.id = o.id → x.lo = x.hi) ∧ SameBytes s t)

/-- The drain moves a finished bale into the bale queue with its record and its values, after derivative Table 1 and in the output format where its operation asks for them, or adds it into Y; the bale becomes a journal unit. Of the finished bales that it may take, it takes the one that finished earliest, of equal ones that of the lowest string. When a bale is drained is the sender's (log 79). -/
def Obligations.BaleDrain : Prop :=
  (∀ (s : State) (b : Bale), nextBale s = some b →
    b ∈ s.arr.bufs ∧ b.left = 0 ∧ (b.desc.out ≠ 2 → s.arr.bq.length < 8) ∧
    (baleStrict s = true → b.desc.out ≠ 2 → s.arr.relPos ≤ b.pos ∧ b.pos < s.arr.relPos + 8) ∧
    ∀ c ∈ s.arr.bufs, c.left = 0 →
      (baleStrict s = false ∨ c.desc.out = 2 ∨ (s.arr.relPos ≤ c.pos ∧ c.pos < s.arr.relPos + 8)) →
      b.fin < c.fin ∨ (b.fin = c.fin ∧ b.string ≤ c.string)) ∧
  ∀ (s : State) (b : Bale), nextBale s = some b → unitsOn s = true → spansWait s (codeSpans b ++ accSpans b) = false →
    let d := b.desc
    let cols := baleCols b
    let vals := b.vals.mapIdx (fun p v =>
      if d.deriv = true ∧ d.pmask.getLsbD (outCol d b.item (p % 16)) = false then
        let q := outPlace d d.c b.item (p / 16) (p % 16)
        fMul v (dt1 s (d.c.rawCode s.mem.bytes q.1 q.2))
      else v)
    (d.out ≠ 2 →
      let conv := decide (d.out = 1) && !fmtIsMx d.y.fmt && decide (cols = 0)
      let fmt := if conv then d.y.fmt else 0
      let narrowed := vals.mapIdx (fun p v =>
        narrowCode d.y.fmt d.y.s (roundingOf d.y.sr (rndOf s d.y d.stepField) (d.y.index (b.place p).1 (b.place p).2)) v)
      ∃ t q, exec .baleDrain s = .next t ∧ t.arr.bq = s.arr.bq ++ [q] ∧ q.pos = b.pos ∧
        q.codes = (if conv then narrowed.map (·.code) else vals.map (·.toNat)) ∧
        q.rcd.extractLsb' 0 8 = b.tag ∧
        (b.item < 4096 → b.string < 64 → fmt < 16 →
          (q.rcd.extractLsb' 8 12).toNat = b.item ∧ (q.rcd.extractLsb' 20 6).toNat = b.string ∧ (q.rcd.extractLsb' 26 4).toNat = fmt ∧
          q.rcd.getLsbD 30 = decide (cols ≠ 0) ∧ q.rcd.getLsbD 31 = b.last ∧ (q.rcd.extractLsb' 32 16).toNat = cols) ∧
        (∀ c, c < 16 → cols.testBit c = (d.deriv && d.pmask.getLsbD (outCol d b.item c))) ∧
        t.arr.bufs = s.arr.bufs.erase b ∧ t.arr.bales = s.arr.bales + 1 ∧
        t.jrnl.toArr = s.jrnl.toArr ++ [unitOfData 2 (baleRecord b 0 fmt cols).toNat (packCodes (fmtWidth fmt) q.codes)] ∧ SameBytes s t) ∧
    (d.out = 2 →
      let y := d.y
      let ws := vals.mapIdx (fun p v =>
        let r := (b.place p).1
        let c := (b.place p).2
        (y.elemAddr r c, codeBytes y.width (narrowCode y.fmt y.s (roundingOf y.sr (rndOf s y d.stepField) (y.index r c))
          (fAdd (y.widen s.mem.bytes r c) v)).code))
      ∃ t, exec .baleDrain s = .next t ∧ t.arr.bq = s.arr.bq ∧ t.arr.bufs = s.arr.bufs.erase b ∧ t.arr.bales = s.arr.bales + 1 ∧
        t.jrnl.toArr.length = s.jrnl.toArr.length + 1 ∧ (NoDouble s → InMemory ws → Landed s t ws))

/-- A chain operation that passes its checks enters the vector engine behind those before it, whose beats have then entered; one without a bale input may retire. Its beats enter, its micro-ops act and its writes land until it has retired, and its RED results come with its retirement. What the programs LOAD and STORE, and LOAD and RED SUM, give is stated element by element. When a beat enters, and that a dispatch and a retirement find the beats before them entered and landed, is the model's choice (log 5). -/
def Obligations.VectorChains : Prop :=
  (∀ (s : State) (ent : QEntry) (i : Instr) (fn : Nat), (i, fn) ∈ [(Instr.vecRun, 0), (.vecProg, 1)] → Head s eVEC fn ent →
    let p := (ent.sub.extractLsb' 0 4).toNat
    let n := min (ent.fs.extractLsb' 0 5).toNat 16
    let a := if fn = 0 then ent.d.toNat else ent.a.toNat
    let srcOf := fun (z : State) => ({
      addr := a
      count := if fn = 0 then (ent.a.extractLsb' 0 32).toNat else if dataAt z a 64 64 then rdWord z a 5 else 0
      progAt := fn == 0 || dataAt z ent.d.toNat 64 (4 * n)
      progMem := if fn = 0 then [] else [(ent.d.toNat, 4 * n)]
      prog := if fn = 0 then presetWords z p else (List.range n).map (fun k => BitVec.ofNat 32 (rdWord z ent.d.toNat k)) } : ChainSrc)
    let resv := if fn = 0 then decide (16 ≤ ent.sub.toNat) || decide (ent.fs.extractLsb' 0 17 ≠ 0)
      else decide (ent.sub ≠ 0) || decide (ent.fs.extractLsb' 5 12 ≠ 0)
    let bad := if fn = 0 then !presetOn s p || decide (stagesOf s p = 0) || decide (8 < stagesOf s p)
      else decide (ent.fs.extractLsb' 0 5 = 0) || decide (16 < (ent.fs.extractLsb' 0 5).toNat)
    chainFree s ent = true → spansWait s (chainSpans s (srcOf s)) = false →
    let v := forceAll (left s eVEC ent)
    let x := srcOf v
    let u := touchSpans v rqVRD (runReads v x)
    let rd := runDescOf u a x.count
    (runCause u a x.count x.progAt x.prog resv bad).1 = 0 →
    let bale := (rd.ins.getD 0 .none).isBale
    let r : VRun := { id := s.opId, prog := x.prog, rd := rd, scal := ent.b, done := 0, avail := if bale then 0 else rd.count
                      wait := 7 + fn, red := [], touched := [], stepField := stepField v ent.ctx }
    ∃ t y, exec i s = .next (settled t eVEC) ∧ t.opId = s.opId + 1 ∧ SameBytes v t ∧ t.vec.v = v.vec.v ∧ t.vec.runm = v.vec.runm ∧
      t.vec.runs = v.vec.runs ++ (if rd.count = 0 then [] else [r]) ∧
      y ∈ (qOf t eVEC).infl ∧ y.ent = ent ∧ y.id = s.opId ∧ y.wr = [] ∧ y.lanes = [] ∧ y.done = decide (rd.count = 0 ∨ bale = false) ∧
      (∀ z ∈ s.vec.runs, (∀ k ∈ s.vec.runs, k.id = z.id → k = z) → ∀ w ∈ t.vec.runs, w.id = z.id → w.id ≠ s.opId → w.done = max z.done z.avail) ∧
      (s.vec.runs = [] → SameBytes s t ∧ t.vec.v = s.vec.v ∧ t.vec.runm = s.vec.runm)) ∧
  (∀ (s : State) (n : Nat) (x : Infl) (r : VRun) (ld op : Word) (l : Layout),
    unitsOn s = true → (qOf s eVEC).infl[n]? = some x → x.done = true → inOrder s eVEC n x = true → x.wr = [] → x.lanes = [] →
    x.units = [] → s.vec.runs = [r] → r.id = x.id → r.bale = none → r.done = 0 → r.avail = r.rd.count → r.beats = [] → r.red = [] →
    spansWait s r.rd.spans = false → NoDouble s →
    r.prog = [ld, op] → uType ld = 0 → uSrc ld = 0 → ld.getLsbD 8 = false → uSrc op = uDst ld → r.rd.ins.getD 0 .none = .mem l →
    let count := r.rd.count
    let at_ := fun e => r.rd.place 0 e
    let val := fun e => l.widen s.mem.bytes (at_ e).1 (at_ e).2
    ∃ t, exec (.engineRetire 1 n) s = .next t ∧ t.vec.runs = [] ∧ (qOf t eVEC).infl = (qOf s eVEC).infl.eraseIdx n ∧
      t.vec.beats = s.vec.beats + BitVec.ofNat 32 ((count + 63) / 64) ∧ t.vec.ops = s.vec.ops + 1 ∧
      (∀ k, uType op = 7 → op.getLsbD 8 = false → r.rd.outs.getD 0 .none = .reg k →
        SameBytes s t ∧ ∀ j, tabGet 0 t.vec.v j = if 64 * k ≤ j ∧ j < 64 * k + count then val (j - 64 * k) else tabGet 0 s.vec.v j) ∧
      (∀ o, uType op = 7 → op.getLsbD 8 = false → r.rd.outs.getD 0 .none = .mem o → o.isMx = false → o.kind = 0 →
        (count ≤ 64 ∨ (l.isMx = false ∧ ∀ e e' k k', e < count → e' < count → k < 4 → k' < 4 →
          l.elemAddr (at_ e).1 (at_ e).2 + k ≠ o.elemAddr (at_ e').1 (at_ e').2 + k')) →
        let ws := (List.range count).map (fun e =>
          (o.elemAddr (at_ e).1 (at_ e).2, codeBytes o.width (narrowCode o.fmt o.s
            (roundingOf o.sr (rndOf s o r.stepField) (o.index (at_ e).1 (at_ e).2)) (val e)).code))
        InMemory ws → Landed s t ws ∧ t.vec.v = s.vec.v) ∧
      (uType op = 4 → op.extractLsb' 8 4 = 0 → SameBytes s t ∧
        let vr := (op.extractLsb' 12 5).toNat
        let sum := (laneTree fAdd ((List.range 64).map (fun k => ((List.range count).filter (fun e => decide (e % 64 = k))).foldl
          (fun (acc : Option Word) e => some (fAdd (acc.getD 0) (val e))) none))).getD 0
        ∀ j, tabGet 0 t.vec.v j = if j = 64 * vr then sum else if 64 * vr < j ∧ j < 64 * vr + 64 then 0 else tabGet 0 s.vec.v j))

/-- A chain operation that waits for bales reads the presented one, whose entry of the bale queue is freed, when the beats of the bale before it have entered, and its 256 elements may enter; after the last it may retire, and what a program LOADs of the last bale and STOREs into registers stands there when it has. When a beat enters is the model's choice (log 5). -/
def Obligations.BaleRead : Prop :=
  (∀ (s : State) (r : VRun) (q : QBale), baleRun s = some r → presented s = some q → unitsOn s = true →
    spansWait s r.rd.spans = false → (∀ x ∈ s.vec.runs, x.id = r.id → x = r) →
    let u := forceEntry s r.id
    ∃ t, exec .baleRead s = .next (progress (unstall t)) ∧ t.arr.bq = s.arr.bq.erase q ∧ t.arr.relPos = s.arr.relPos + 1 ∧
      (baleStrict s = true → q.pos = s.arr.relPos) ∧ t.mem = u.mem ∧ t.vec.v = u.vec.v ∧
      (∃ y ∈ t.vec.runs, y.id = r.id ∧ y.avail = r.avail + 256 ∧ y.bale = some q ∧ y.done = max r.done r.avail ∧ y.prog = r.prog ∧
        y.rd = r.rd) ∧
      (r.avail + 256 < r.rd.count → t.q = s.q) ∧
      (r.rd.count ≤ r.avail + 256 → ∀ x ∈ (qOf t eVEC).infl, x.id = r.id → x.done = true) ∧
      (r.avail ≤ r.done → SameBytes s t ∧ t.vec.v = s.vec.v)) ∧
  (∀ (s : State) (n : Nat) (x : Infl) (r : VRun) (q : QBale) (ld st : Word) (l : Layout) (k : Nat),
    unitsOn s = true → (qOf s eVEC).infl[n]? = some x → x.done = true → inOrder s eVEC n x = true → x.lanes = [] →
    s.vec.runs = [r] → r.id = x.id → r.bale = some q → r.done + 256 = r.avail → r.avail = r.rd.count → r.beats = [] → r.red = [] →
    r.done % 256 = 0 → spansWait s (x.spans ++ r.rd.spans) = false →
    r.prog = [ld, st] → uType ld = 0 → uSrc ld = 0 → ld.getLsbD 8 = false → uType st = 7 → uSrc st = uDst ld → st.getLsbD 8 = false →
    r.rd.ins.getD 0 .none = .bale l → r.rd.outs.getD 0 .none = .reg k →
    ∃ t, exec (.engineRetire 1 n) s = .next t ∧ t.vec.runs = [] ∧ t.vec.beats = s.vec.beats + 4 ∧ ∀ e, e < 256 →
      tabGet 0 t.vec.v (64 * k + r.done + e) =
        (let fmt := (q.rcd.extractLsb' 26 4).toNat
         if fmt = 0 then BitVec.ofNat 32 (q.codes.getD e 0) else widenCode fmt l.s (q.codes.getD e 0)))

/-- Register operations without memory: SHUF, BCST and RDS compute what their rule says; the register that SHUF or BCST writes takes it at the retirement, and RDS has it as its writeback. That an operation reads its registers at its dispatch is the model's choice (log 5). -/
def Obligations.VectorRegisters : Prop :=
  ∀ (s : State) (ent : QEntry), vecSerial s ent = true → ent.sub.toNat < 32 →
    let vd := (ent.sub.extractLsb' 0 5).toNat
    let a := vReg s (ent.a.extractLsb' 0 5).toNat
    let b := vReg s (ent.a.extractLsb' 5 5).toNat
    let writes := fun (i : Instr) (xs : List (Nat × Word)) => ∃ t, exec i s = .next (settled t eVEC) ∧
      t = { left s eVEC ent with q := t.q, opId := s.opId + 1 } ∧ SameBytes s t ∧
      ∃ x ∈ (qOf t eVEC).infl, x.ent = ent ∧ x.id = s.opId ∧ x.done = true ∧ x.wb = none ∧ x.wr = [] ∧ x.lanes = xs
    (Head s eVEC 3 ent → ent.fs.extractLsb' 0 17 = 0 → (ent.a.extractLsb' 10 4).toNat ≤ 6 →
      writes .vecShuf ((List.range 64).map (fun i => (64 * vd + i,
        match (ent.a.extractLsb' 10 4).toNat with
        | 0 => if i % 2 = 0 then a.getD (i / 2) 0 else b.getD (i / 2) 0
        | 1 => if i % 2 = 0 then a.getD (i / 2 + 32) 0 else b.getD (i / 2 + 32) 0
        | 2 => if i < 32 then a.getD (2 * i) 0 else b.getD (2 * i - 64) 0
        | 3 => if i < 32 then a.getD (2 * i + 1) 0 else b.getD (2 * i - 63) 0
        | 4 => a.getD ((i + (ent.a.extractLsb' 14 6).toNat) % 64) 0
        | 5 => a.getD (63 - i) 0
        | _ => a.getD (8 * (i % 8) + i / 8) 0)))) ∧
    (Head s eVEC 8 ent → ent.fs.getLsbD 16 = false →
      writes .vecBcst (((List.range 64).filter (fun i => ent.fs.getLsbD (i / 4))).map (fun i => (64 * vd + i, ent.a.extractLsb' 0 32)))) ∧
    (Head s eVEC 9 ent → ent.fs.extractLsb' 10 7 = 0 → (ent.fs.extractLsb' 0 4).toNat ≤ 5 →
      let xs := (vReg s vd).map some
      let op := (ent.fs.extractLsb' 0 4).toNat
      ∃ t v, exec .vecRds s = .next (settled t eVEC) ∧ t = { left s eVEC ent with q := t.q, opId := s.opId + 1 } ∧
        (∃ x ∈ (qOf t eVEC).infl, x.id = s.opId ∧ x.done = true ∧ x.wb = some v ∧ x.wr = [] ∧ x.lanes = []) ∧ v.toNat < 2 ^ 32 ∧
        (op = 0 → laneTree fAdd xs = some (v.setWidth 32)) ∧ (op = 1 → laneTree fMax xs = some (v.setWidth 32)) ∧
        (op = 2 → laneTree fMin xs = some (v.setWidth 32)) ∧
        (op = 3 → laneTree (fun x y => fMax (f32Abs x) (f32Abs y)) xs = some (v.setWidth 32)) ∧
        (op = 4 → v = (vLane s vd (ent.fs.extractLsb' 4 6).toNat).zeroExtend 64) ∧
        (op = 5 → ∀ k, v.getLsbD k = (List.range 64).any (fun i => (vLane s vd i).getLsbD k)))

/-- Register operations with memory: PERM, PACK, UNPK, VLD and VST compute what their rule says; the lanes and bytes that they write land at the retirement. That an operation reads at its dispatch is the model's choice (log 5). -/
def Obligations.VectorMemory : Prop :=
  ∀ (s : State) (ent : QEntry), vecSerial s ent = true → ent.sub.toNat < 32 → ent.fs.extractLsb' 0 17 = 0 →
    let vd := (ent.sub.extractLsb' 0 5).toNat
    let va := (ent.a.extractLsb' 0 5).toNat
    let vb := (ent.a.extractLsb' 5 5).toNat
    let u := left s eVEC ent
    let addr := (ent.d.toNat / 32) * 32
    let acts := fun (i : Instr) (ws : Writes) (xs : List (Nat × Word)) => ∃ t, exec i s = .next (settled t eVEC) ∧
      t.vec = s.vec ∧ SameBytes s t ∧
      ∃ x ∈ (qOf t eVEC).infl, x.ent = ent ∧ x.id = s.opId ∧ x.done = true ∧ x.wb = none ∧ x.wr.flatten = ws ∧ x.lanes = xs
    (Head s eVEC 2 ent → dataAt s ent.d.toNat 64 64 = true → memWaits s ent.d.toNat 64 = false →
      acts .vecPerm [] ((List.range 64).map (fun i => (64 * vd + i,
        let x := memByte s.mem.bytes (ent.d.toNat + i)
        let k := (x.extractLsb' 0 7).toNat
        if x.getLsbD 7 then 0 else if k < 64 then vLane s va k else vLane s vb (k - 64))))) ∧
    (Head s eVEC 6 ent → permits s [pDATA, pSTASH] addr 256 = true → memWaits s addr 256 = false →
      acts .vecVld [] ((List.range 64).map (fun i => (64 * vd + i, BitVec.ofNat 32 (memNat s.mem.bytes (addr + 4 * i) 4))))) ∧
    (Head s eVEC 7 ent → permits s [pDATA] addr 256 = true → memWaits s addr 256 = false →
      acts .vecVst [(addr, (vReg s vd).flatMap (fun w => leBytes 4 w))] []) ∧
    (∀ l, readLayout u ent.d.toNat = some l → vldescAt s ent.d.toNat = true → memWaits s ent.d.toNat 32 = false →
      l.isMx = false → l.kind = 0 →
      let m := 32 / l.width
      (Head s eVEC 4 ent → va + m ≤ 32 →
        let vals := (List.range m).flatMap (fun i => vReg s (va + i))
        let codes := vals.mapIdx (fun j v => narrowCode l.fmt l.s
          (roundingOf l.sr (rndOf s l (stepField s ent.ctx)) ((l.idxBase + (ent.a.extractLsb' 16 48).toNat + j) % 2 ^ 48)) v)
        let bytes := codes.flatMap (fun n => codeBytes l.width n.code)
        acts .vecPack [] ((List.range 64).map (fun i => (64 * vd + i, BitVec.ofNat 32 (leNat ((bytes.drop (4 * i)).take 4)))))) ∧
      (Head s eVEC 5 ent → vd + m ≤ 32 →
        let bytes := (vReg s va).flatMap (fun w => leBytes 4 w)
        acts .vecUnpk [] ((List.range (64 * m)).map (fun k =>
          (64 * vd + k, widenCode l.fmt l.s (leNat ((bytes.drop (l.width / 8 * k)).take (l.width / 8))))))))

/-- The Factor's functions up to the token: STEP opens a step and asks for its schedule, a group is evaluated when its schedule has landed, P1 adds a span's squared gradients, TOKEN and CNT give their writeback. That an operation acts at its dispatch is the model's choice (log 5). -/
def Obligations.FactorPass1 : Prop :=
  (∀ (s : State) (ent : QEntry), Head s eFAC 0 ent → facFree s = true → ent.sub = 0 → ent.fs = 0 → ent.a.extractLsb' 34 30 = 0 →
    let c := ent.ctx
    let set := ent.a.getLsbD 32
    let n := if set then ent.a.extractLsb' 0 32 else (facOf s c).step
    let wr := if set then ent.a.getLsbD 33 else (facOf s c).wrapped
    let lat := stepLatch s n wr
    let g := BitVec.ofNat 6 lat.schedReg
    let blocks := ceilDiv (lat.schedOff % 512 + 1024 * (lat.groupsM1 + 1)) 512
    regionCheck s c g .get (lat.schedOff / 512) blocks = 0 →
    ∃ t j, exec .facStep s = .next (settled t eFAC) ∧ (facOf t c).step = n ∧ (facOf t c).wrapped = wr ∧ (facOf t c).st = 0 ∧
      (facOf t c).lat.n = n + 1 ∧ (facOf t c).lat.l = s.wgh.l ∧ (facOf t c).lat.groups = [] ∧ (facOf t c).lanes = [] ∧
      t.jrnl.step = s.core.stage ∧ t.str.jobs = s.str.jobs ++ [j] ∧ j.id = s.opId ∧ j.user = .fac ∧ j.kind = .get ∧ j.ctx = c ∧
      j.region = g ∧ j.blk = lat.schedOff / 512 ∧ j.n = blocks ∧ SameBytes s t) ∧
  (∀ (s : State) (i : Infl) (bs : List Byte), (qOf s eFAC).infl.find? (fun x => decide (x.ent.fn = 0) && !x.done) = some i →
    unitsOn s = true →
    let x := facOf s i.ent.ctx
    schedBytes s x.lat.schedOff x.lat.groups.length = some bs →
    ∃ t, exec .scheduleGroupEval s = .next t ∧
      (facOf t i.ent.ctx).lat.groups = x.lat.groups ++ [(groupEval bs x.lat.n x.lat.wrapped).1] ∧
      t.fac.schederr = (s.fac.schederr || (groupEval bs x.lat.n x.lat.wrapped).2) ∧
      (x.lat.groups.length = x.lat.groupsM1 → ∀ y ∈ (qOf t eFAC).infl, y.id = i.id → y.done = true) ∧ t.mem = s.mem) ∧
  (∀ (s : State) (ent : QEntry), Head s eFAC 1 ent → facFree s = true → NoDouble s →
    spansWait s (thenSpans s (p1Heads s ent) (p1Body s ent)) = false → p1Fails (left s eFAC ent) ent = 0 →
    let l := spanLd s (readSpan s (spanAddr ent)).gradLd
    ∃ t, exec .facP1 s = .next (settled t eFAC) ∧
      facOf t ent.ctx = { addLanes s l ent.b.toNat (facOf s ent.ctx) with st := 2 } ∧
      (∀ c, c ≠ ent.ctx → facOf t c = facOf s c) ∧ (∃ x ∈ (qOf t eFAC).infl, x.ent = ent ∧ x.id = s.opId ∧ x.done = true) ∧ SameBytes s t) ∧
  (∀ (s : State) (ent : QEntry), facFree s = true → ent.sub = 0 → ent.fs = 0 →
    let x := facOf s ent.ctx
    let gives := fun (i : Instr) (v : Dword) => exec i s = .next (settled (putInfl (left s eFAC ent) eFAC ent (some v) true) eFAC)
    (Head s eFAC 2 ent → x.st.toNat ∈ [3, 4, 5] → gives .facToken (x.tok.c ++ x.tok.norm)) ∧
    (Head s eFAC 5 ent → ∃ v, gives .facCnt v ∧ v.extractLsb' 0 32 = x.step ∧ v.getLsbD 32 = x.wrapped ∧ v.getLsbD 33 = x.rollok ∧
      v.extractLsb' 34 3 = x.st ∧ v.getLsbD 37 = x.tok.nf ∧ v.getLsbD 38 = (x.tok.min != x.tok.max) ∧ v.extractLsb' 39 25 = 0))

/-- The lanes of the partial sum: parameter j of a span adds the square of its gradient to one lane, in parameter order. -/
def Obligations.PartialSum : Prop :=
  ∀ (s : State) (l : Layout) (b : Nat) (x : FacCtx), x.q < 8 →
    (addLanes s l b x).q = (x.q + b) % 8 ∧ (addLanes s l b x).lat = x.lat ∧ (addLanes s l b x).st = x.st ∧
    (addLanes s l b x).partNf = (x.partNf || (List.range b).any (fun j => !f32IsFinite (gradOf s l x.lat.l j))) ∧
    ∀ k, k < 8 → tabGet 0 (addLanes s l b x).lanes k =
      ((List.range b).filter (fun j => (x.q + j) % 8 = k)).foldl
        (fun acc j => fFma (gradOf s l x.lat.l j) (gradOf s l x.lat.l j) acc) (tabGet 0 x.lanes k)

/-- P2 skips or updates a span: an update computes every parameter of the span, and the version tag, the master weights, the moments and the working weights of the next slot land at its retirement, no other byte with them; COMMIT records what its retirement will do, and the retirement advances version and step, or counts the skip. That P2 computes at its dispatch and COMMIT acts at its retirement is the model's choice (log 5). -/
def Obligations.FactorPass2 : Prop :=
  (∀ (s : State) (ent : QEntry), Head s eFAC 3 ent → facFree s = true →
    let x := facOf s ent.ctx
    let skip := x.st = 5 ∨ (x.st = 3 ∧ (x.tok.nf = true ∨ (x.tok.min ≠ x.tok.max ∧ x.lat.skewOk = false)))
    lowest (spanOperands s ent [3, 4, 5]) = 0 → skip →
    ∃ t, exec .facP2 s = .next (settled t eFAC) ∧ SameBytes s t ∧ t.fac.params = s.fac.params ∧
      (∃ y ∈ (qOf t eFAC).infl, y.ent = ent ∧ y.id = s.opId ∧ y.done = true ∧ y.wr = [] ∧ y.units = []) ∧
      (x.st = 5 ∨ x.tok.nf = true → (facOf t ent.ctx).st = 5) ∧ (x.st = 3 → x.tok.nf = true → (facOf t ent.ctx).skip = 1) ∧
      (x.st = 3 → x.tok.nf = false → t.flt.cont = true)) ∧
  (∀ (s : State) (ent : QEntry), Head s eFAC 3 ent → facFree s = true → NoDouble s →
    let x := facOf s ent.ctx
    let sp := readSpan s (spanAddr ent)
    let rs := x.ver.toNat % 2
    let ws := 1 - rs
    let gl := spanLd s sp.gradLd
    let wl := spanLd s (sp.wout.getD ws 0)
    spansWait s (p2Spans s ent) = false →
    (x.st = 3 ∧ x.tok.nf = false ∧ (x.tok.min = x.tok.max ∨ x.lat.skewOk = true)) ∨ x.st = 4 →
    p2Fails (left s eFAC ent) ent = 0 →
    let ys := (List.range ent.b.toNat).map (fun j =>
      let k := x.lat.groups.getD (groupOf (g0Of ent) sp.cnt j) {}
      updateParam x.lat k (fMul x.tok.c (gradOf s gl x.lat.l j))
        (BitVec.ofNat 32 (memNat s.mem.bytes (sp.master.getD rs 0 + 4 * j) 4))
        (ofBf16 (memNat s.mem.bytes (sp.mom.getD rs 0 + 4 * j) 2)) (ofBf16 (memNat s.mem.bytes (sp.mom.getD rs 0 + 4 * j + 2) 2)))
    ∃ t y, exec .facP2 s = .next (settled t eFAC) ∧ (facOf t ent.ctx).st = 4 ∧ (facOf t ent.ctx).ver = x.ver ∧
      t.fac.params = s.fac.params + BitVec.ofNat 64 ent.b.toNat ∧
      t.fac.p2nonfin = (s.fac.p2nonfin || ys.any (fun z => !f32IsFinite z.w || !f32IsFinite (ofBf16 (toBf16 z.m)) ||
        (decide (x.lat.rule = 1) && !f32IsFinite (ofBf16 (toBf16 z.v))))) ∧ SameBytes s t ∧
      y ∈ (qOf t eFAC).infl ∧ y.ent = ent ∧ y.id = s.opId ∧ y.done = true ∧ y.units.length = (ent.b.toNat + 7) / 8 ∧
      y.wr.flatten = (sp.vrec + 4 * ws, leBytes 2 (x.ver + 1)) ::
        ys.mapIdx (fun j z => (sp.master.getD ws 0 + 4 * j, leBytes 4 z.w)) ++
        ys.mapIdx (fun j z => (sp.mom.getD ws 0 + 4 * j, momBytes x.lat.rule z)) ++
        ys.mapIdx (fun j z => (wl.elemAddr (j / wl.cols) (j % wl.cols), codeBytes wl.width (narrowCode wl.fmt wl.s
          (roundingOf wl.sr (rndOf s wl (p2Step ent x)) (wl.index (j / wl.cols) (j % wl.cols))) z.w).code))) ∧
  (∀ (s : State) (ent : QEntry), Head s eFAC 4 ent → facFree s = true → ent.sub = 0 → ent.fs = 0 → ent.a.extractLsb' 32 32 = 0 →
    let x := facOf s ent.ctx
    (x.st = 4 ∧ ent.a.extractLsb' 0 32 = x.ver + 1) ∨ x.st = 5 →
    exec .facCommit s = .next (settled (putInfl { left s eFAC ent with
      fac := { s.fac with committing := some (ent.ctx, decide (x.st = 5)) } } eFAC ent none true) eFAC)) ∧
  (∀ (s : State) (n : Nat) (x : Infl) (c : BitVec 2) (skip : Bool), unitsOn s = true → (qOf s eFAC).infl[n]? = some x →
    x.done = true → x.ent.fn = 4 → x.wb = none → x.wr = [] → s.fac.committing = some (c, skip) →
    let y := facOf s c
    ∃ t, exec (.engineRetire 2 n) s = .next t ∧ t.fac.committing = none ∧ (facOf t c).st = 0 ∧
      (skip = true → (facOf t c).ver = y.ver ∧ (facOf t c).step = y.step ∧ t.fac.skips = s.fac.skips + 1) ∧
      (skip = false → (facOf t c).ver = y.ver + 1 ∧ (facOf t c).step = y.step + 1 ∧ (facOf t c).rollok = true ∧
        (facOf t c).wrapped = (y.wrapped || decide (y.step = 0xFFFFFFFF)) ∧ t.fac.commits = s.fac.commits + 1 ∧
        t.jrnl.commit = s.core.stage ∧ (c = 0 → t.sec.seV = s.sec.seCur ∧ t.sec.seV1 = s.sec.seV)))

/-! Stash, stream, post (09, 13). -/

/-- PUT drops an entry, or places it where the ring has room, once what must be evicted is; its bytes are copied or converted into STASH at its retirement, and in spill mode go to the depot at once; where no room can be made the queue fails with STASH_FULL. FREE empties an entry; QUERY gives its word. That an operation acts at its dispatch and its bytes land at its retirement is the model's choice (log 5). -/
def Obligations.StashPutFreeQuery : Prop :=
  (∀ (s : State) (ent : QEntry) (l : Layout), Head s eSTH 0 ent → sthFree s = true → spansWait s (putSpans s ent) = false →
    let b := ent.b.toNat
    let u := left s eSTH ent
    let p := putInfl (touchAt u b) eSTH ent none false
    let id := (ent.a.extractLsb' 0 10).toNat
    let tok := (ent.a.extractLsb' 32 25).toNat
    let e := putEnt s ent l
    let drops := stashMode s = 2 ∧ ent.sub.getLsbD 0 = true
    ldescAt s b = true → readLayout u b = some l → putCause u ent (some l) = 0 →
    (drops → ∃ t, exec .sthPut s = .next (settled t eSTH) ∧ entOf t id = { e with st := .dropped } ∧ t.sth.drops = s.sth.drops + 1 ∧
        t.sth.mbpeak.toNat = max s.sth.mbpeak.toNat tok ∧ (∃ x ∈ (qOf t eSTH).infl, x.ent = ent ∧ x.done = true ∧ x.wr = []) ∧
        (∀ k, k ≠ id → entOf t k = entOf s k) ∧ t.sth.order = s.sth.order ∧ SameBytes s t) ∧
    (∀ v line, ¬ drops → place p s.opId ent.fs.toNat = (v, .at_ line) →
      let d := entLayout e (lineAddr s line)
      let spills := stashMode s = 1 ∧ depotRoom v (depotBlocks e) = true ∧
        regionCheck v v.core.cur (depotReg v) .put v.sth.dptr.toNat (depotBlocks e) = 0
      ∃ t x, exec .sthPut s = .next (settled t eSTH) ∧ (entOf t id).st = .lcl ∧ (entOf t id).line = line ∧
        (entOf t id).size = e.size ∧ (entOf t id).elig = ent.sub.getLsbD 0 ∧ (entOf t id).mb = ent.a.extractLsb' 16 16 ∧
        (∀ k, k ≠ id → entOf t k = entOf v k) ∧ t.sth.order = v.sth.order ++ [id] ∧ t.sth.mbpeak.toNat = max v.sth.mbpeak.toNat tok ∧
        SameBytes s t ∧ x ∈ (qOf t eSTH).infl ∧ x.ent = ent ∧
        (putCopies s l = true → x.wr.flatten = (copyPairs l d).map (fun q => (q.2.1, memBytes s.mem.bytes q.1 q.2.2))) ∧
        (putCopies s l = false → x.wr.flatten = (putData s e line l (stepField s ent.ctx)).writes) ∧
        (¬ spills → (entOf t id).dcopy = false) ∧
        (spills → (entOf t id).dcopy = true ∧ (entOf t id).doff = v.sth.dptr.toNat ∧
          t.sth.dptr = v.sth.dptr + BitVec.ofNat 32 (depotBlocks e) ∧
          ∃ j bs, t.str.jobs = v.str.jobs ++ [j] ∧ j.user = .sth ∧ j.kind = .put ∧ j.id = s.opId ∧ j.blk = v.sth.dptr.toNat ∧
            j.n = depotBlocks e ∧ j.data = some bs ∧ bs.length = 512 * depotBlocks e ∧
            bs.take (128 * e.size.toNat) = memBytes (memWith s.mem.bytes x.wr) (lineAddr s line) (128 * e.size.toNat))) ∧
    (∀ v, ¬ drops → place p s.opId ent.fs.toNat = (v, .full) →
      ∃ t, exec .sthPut s = .next (settled t eSTH) ∧ (∀ k, entOf t k = entOf v k) ∧ t.sth.order = v.sth.order ∧
        t.sth.fullCnt = s.sth.fullCnt + 1 ∧ t.sth.mbpeak = s.sth.mbpeak ∧ (qOf t eSTH).failed = true ∧ (qOf t eSTH).wait = [] ∧
        t.flt.cont = true ∧ SameBytes s t)) ∧
  (∀ (s : State) (ent : QEntry), Head s eSTH 2 ent → sthFree s = true → ent.sub = 0 → ent.fs = 0 →
    let id := (ent.a.extractLsb' 0 16).toNat
    (id < 1024 → (entOf s id).st ≠ .empty →
      ∃ t, exec .sthFree s = .next (settled t eSTH) ∧ entOf t id = {} ∧ (∀ k, k ≠ id → entOf t k = entOf s k) ∧
        t.sth.order = s.sth.order.filter (fun k => decide (k ≠ id)) ∧ t = { left s eSTH ent with sth := t.sth, q := t.q, opId := s.opId + 1 }) ∧
    (id = 0xFFFF → depotBusy s = false → ∃ t, exec .sthFree s = .next (settled t eSTH) ∧ (∀ k, entOf t k = {}) ∧ t.sth.order = [] ∧ t.sth.dptr = 0 ∧
      t.sth.hwm = 0 ∧ SameBytes s t)) ∧
  (∀ (s : State) (ent : QEntry), Head s eSTH 3 ent → sthFree s = true → ent.sub = 0 → ent.fs = 0 →
    let id := (ent.a.extractLsb' 0 16).toNat
    let e := entOf s id
    id < 1024 → (e.st = .lcl → lineAddr s e.line < memTop) →
    ∃ v, exec .sthQuery s = .next (settled (putInfl (left s eSTH ent) eSTH ent (some v) true) eSTH) ∧
      (v.extractLsb' 0 2).toNat = (match e.st with | .empty => 0 | .lcl => 1 | .depot => 2 | .dropped => 3) ∧
      v.getLsbD 2 = e.elig ∧ v.getLsbD 3 = e.pinned ∧ v.getLsbD 4 = e.dcopy ∧
      (v.extractLsb' 8 21).toNat = (if e.st = .lcl then lineAddr s e.line else 0) ∧ v.extractLsb' 32 14 = e.size ∧ v.extractLsb' 46 16 = e.mb ∧
      v.extractLsb' 5 3 = 0 ∧ v.extractLsb' 29 3 = 0 ∧ v.extractLsb' 62 2 = 0)

/-- GET of a dropped entry, of a local entry in place, of a local entry to a destination, whose bytes land at the retirement, of a depot entry to a destination, and of a depot entry in place, which is placed, fails with STASH_FULL where it cannot be, and is local and pinned when its last block has landed. That an operation acts at its dispatch is the model's choice (log 5); that a GET of a dropped entry counts whatever descriptor B names, and that a placement evicts within the dispatch, are its readings (log 71); the codes of a copy are read as log 27 says. -/
def Obligations.StashGet : Prop :=
  (∀ (s : State) (ent : QEntry), Head s eSTH 1 ent → sthFree s = true → spansWait s (getSpans s ent) = false → ent.sub = 0 → ent.fs = 0 →
    let u := left s eSTH ent
    let id := (ent.a.extractLsb' 0 16).toNat
    let e := entOf s id
    id < 1024 →
    (e.st = .dropped → ∃ t, exec .sthGet s = .next (settled t eSTH) ∧ t.sth.dropget = s.sth.dropget + 1 ∧
      (∀ k, entOf t k = entOf s k) ∧ (∃ x ∈ (qOf t eSTH).infl, x.ent = ent ∧ x.done = true ∧ x.wr = []) ∧ SameBytes s t) ∧
    (e.st = .lcl → ent.b = 0 → ∃ t, exec .sthGet s = .next (settled t eSTH) ∧ entOf t id = { e with pinned := true } ∧
      (∀ k, k ≠ id → entOf t k = entOf s k) ∧ (∃ x ∈ (qOf t eSTH).infl, x.ent = ent ∧ x.done = true ∧ x.wr = []) ∧ SameBytes s t) ∧
    (∀ l, ent.b ≠ 0 → ldescAt s ent.b.toNat = true → readLayout u ent.b.toNat = some l → getCause u e l = 0 →
      (e.st = .lcl → ∃ t x, exec .sthGet s = .next (settled t eSTH) ∧ (∀ k, entOf t k = entOf s k) ∧ SameBytes s t ∧
        x ∈ (qOf t eSTH).infl ∧ x.ent = ent ∧ x.done = true ∧
        (getCopies e l = true → x.wr.flatten = (copyPairs (entLayout e (lineAddr s e.line)) l).map (fun q => (q.2.1, memBytes s.mem.bytes q.1 q.2.2))) ∧
        (getCopies e l = false → x.wr.flatten =
          (getData s s.mem.bytes e (lineAddr s e.line) l (stepField s ent.ctx) (fun _ _ => true)).writes)) ∧
      (e.st = .depot → regionCheck s s.core.cur (depotReg s) .get e.doff (depotBlocks e) = 0 →
        ∃ t j r, exec .sthGet s = .next (settled t eSTH) ∧ t.str.jobs = s.str.jobs ++ [j] ∧ j.user = .sth ∧ j.kind = .get ∧
          j.id = s.opId ∧ j.blk = e.doff ∧ j.n = depotBlocks e ∧ t.sth.rd = some r ∧ r.ent = id ∧ r.dst = some l ∧
          r.left = depotBlocks e ∧ SameBytes s t)) ∧
    (let p := putInfl u eSTH ent none false
     e.st = .depot → ent.b = 0 →
      (∀ v line, place p s.opId e.size.toNat = (v, .at_ line) → regionCheck v v.core.cur (depotReg v) .get e.doff (depotBlocks e) = 0 →
        ∃ t j r, exec .sthGet s = .next (settled t eSTH) ∧ t.str.jobs = v.str.jobs ++ [j] ∧ j.user = .sth ∧ j.kind = .get ∧
          j.id = s.opId ∧ j.blk = e.doff ∧ j.n = depotBlocks e ∧ t.sth.rd = some r ∧ r.ent = id ∧ r.dst = none ∧ r.line = line ∧
          r.left = depotBlocks e ∧ (∀ k, entOf t k = entOf v k) ∧ t.sth.order = v.sth.order ∧ SameBytes s t) ∧
      (∀ v, place p s.opId e.size.toNat = (v, .full) →
        ∃ t, exec .sthGet s = .next (settled t eSTH) ∧ (∀ k, entOf t k = entOf v k) ∧ t.sth.fullCnt = s.sth.fullCnt + 1 ∧
          (qOf t eSTH).failed = true ∧ (qOf t eSTH).wait = [] ∧ t.flt.cont = true ∧ SameBytes s t))) ∧
  (∀ (s : State) (p : StrPacket) (r : StrRead) (j : StrJob) (d : SthRead) (b : List Byte), unitsOn s = true →
    p.h0.extractLsb' 0 4 = 4 → p.h0.extractLsb' 10 2 = 0 → s.str.waiting = [] → s.sec.stop = false → s.mem.zeroing = false → NoDouble s →
    s.str.reads.find? (fun x => decide (x.tag = p.h0.extractLsb' 4 6)) = some r → r.lost = false →
    s.str.jobs.find? (fun x => decide (x.id = r.job) && decide (x.kind = .get)) = some j → j.user = .sth →
    s.sth.rd = some d → d.dst = none → d.left = 1 → s.sth.clearPend = false →
    gcmOpen (if r.retired then s.sec.rkey else s.sec.key) (streamIv r.ctxIv r.region r.epoch r.block) [] (blockBytes p.data) (tagBytes p.tag) = some b →
    let e := entOf s d.ent
    let a := lineAddr s d.line + 512 * r.i
    memWaits s a 512 = false → a + 512 ≤ memTop →
    ∃ t, exec (.rdatReceived p) s = .next (unstall t) ∧ Stored s t a (b.take (128 * e.size.toNat - 512 * r.i)) ∧
      entOf t d.ent = { e with st := .lcl, line := d.line, pinned := true } ∧ (∀ k, k ≠ d.ent → entOf t k = entOf s k) ∧
      t.sth.order = s.sth.order ++ [d.ent] ∧ t.sth.rd = none)

/-- Eviction: the oldest local entry that is not pinned goes to the depot, or is dropped when it may be and the depot has no room; a placement evicts while the ring has no room. That an eviction happens within the PUT that needs it is the model's choice (log 5 and 71). -/
def Obligations.StashEviction : Prop :=
  ∀ (s : State) (op id : Nat) (rest : List Nat), s.sth.order = id :: rest →
    let e := entOf s id
    let r := evict s op
    (e.pinned = true → r = (s, 8)) ∧
    (e.pinned = false → e.dcopy = true → r.2 = 0 ∧ entOf r.1 id = { e with st := .depot } ∧ r.1.sth.spills = s.sth.spills ∧ r.1.str = s.str) ∧
    (e.pinned = false → e.dcopy = false → depotRoom s (depotBlocks e) = true →
      regionCheck s s.core.cur (depotReg s) .put s.sth.dptr.toNat (depotBlocks e) = 0 →
      r.2 = 0 ∧ (entOf r.1 id).st = .depot ∧ (entOf r.1 id).dcopy = true ∧ (entOf r.1 id).doff = s.sth.dptr.toNat ∧
      r.1.sth.spills = s.sth.spills + 1 ∧ r.1.sth.dptr = s.sth.dptr + BitVec.ofNat 32 (depotBlocks e) ∧
      ∃ j bs, r.1.str.jobs = s.str.jobs ++ [j] ∧ j.user = .sth ∧ j.kind = .put ∧ j.n = depotBlocks e ∧ j.data = some bs ∧
        bs.length = 512 * depotBlocks e ∧ bs.take (128 * e.size.toNat) = memBytes s.mem.bytes (lineAddr s e.line) (128 * e.size.toNat)) ∧
    (e.pinned = false → e.dcopy = false → depotRoom s (depotBlocks e) = false →
      (e.elig = true → r.2 = 0 ∧ entOf r.1 id = { e with st := .dropped } ∧ r.1.sth.drops = s.sth.drops + 1) ∧
      (e.elig = false → r = (s, 8))) ∧
    (∀ n line, placeAt s n = some line → place s op n = (s, .at_ line)) ∧
    (∀ n, placeAt s n = none → r.2 = 8 → place s op n = (r.1, .full)) ∧
    (∀ n line, placeAt s n = none → r.2 = 0 → placeAt r.1 n = some line → place s op n = (r.1, .at_ line)) ∧
    (r.2 = 0 → r.1.sth.order = (id :: rest).filter (fun k => decide (k ≠ id)) ∧ (∀ k, k ≠ id → entOf r.1 k = entOf s k) ∧ SameBytes s r.1)

/-- A STR operation that passes its checks becomes a transfer with its region values latched. That an operation is accepted at its dispatch is the model's choice (log 5). -/
def Obligations.StreamAccepts : Prop :=
  ∀ (s : State) (ent : QEntry) (i : Instr) (k : StrKind) (fn : Nat),
    (i, k, fn) ∈ [(Instr.strGet, StrKind.get, 0), (.strPut, .put, 1), (.strRput, .rput, 2)] →
    Head s eSTR fn ent → s.sec.stop = false → strCause (left s eSTR ent) ent k = 0 →
    ∃ t j, exec i s = .next (settled t eSTR) ∧ t.str.jobs = s.str.jobs ++ [j] ∧ j.id = s.opId ∧ j.user = .str ∧ j.kind = k ∧
      j.ctx = ent.ctx ∧ j.region = ent.sub ∧ j.base.toNat = (regionEnt s ent.ctx ent.sub).base ∧ j.addr = ent.b.toNat ∧
      512 * j.blk = ent.a.toNat ∧ j.n = ent.fs.toNat ∧ 0 < j.n ∧ j.issued = 0 ∧ j.landed = 0 ∧
      (j.att = if k = .rput ∧ ent.sv.isSome = true ∧ attachedOn s ent.ctx.toNat = true then some ent.sid else none) ∧
      (∃ x ∈ (qOf t eSTR).infl, x.ent = ent ∧ x.id = s.opId ∧ x.done = false) ∧
      t = { left s eSTR ent with str := t.str, q := t.q, opId := s.opId + 1 }

/-- Decryption under the key, IV and additional data of an encryption gives the block back. -/
def Obligations.SealedBlocksOpen : Prop :=
  ∀ (key : BitVec 256) (iv : BitVec 96) (aad plain : List Byte),
    gcmOpen key iv aad (gcmCrypt key iv plain) (gcmTag key iv aad (gcmCrypt key iv plain)) = some plain

/-- Outbound packets: an ACK goes before any other; a read request and a write packet each take a credit and leave with their fields, and a write's block decrypts to the block that was read: the local block, the block that the mover holds, or the records of a journal copy after its header. The tag of a packet is free among those that no outstanding packet has (log 23). -/
def Obligations.StreamIssues : Prop :=
  (∀ (s : State) (a : Dword) (rest : List Dword), busOn s = true → 0 < s.str.cred → s.sec.rekey = none ∨ s.flt.fatal = true →
    s.str.acks = a :: rest →
    ∃ t o, exec .packetIssue s = .next t ∧ t.str.out = some o ∧ o.h0 = a ∧ t.str.acks = rest ∧ t.str.cred = s.str.cred - 1 ∧
      t.str.jobs = s.str.jobs ∧ SameBytes s t) ∧
  (∀ (s : State) (j : StrJob) (c : BitVec 2) (e : BitVec 24) (r : Bool), busOn s = true → s.flt.fatal = false → 0 < s.str.cred →
    s.sec.rekey = none → s.str.acks = [] → nextJob s = some j →
    (j.kind = .get → readCheck s j.stepBound j.ctx j.region j.block = .ok c e r →
      ∃ t o x, exec .packetIssue s = .next (unstall t) ∧ t.str.out = some o ∧ o.h0.extractLsb' 0 4 = 1 ∧ o.h0.extractLsb' 4 6 = x.tag ∧
        o.h1 = BitVec.ofNat 64 (j.base.toNat + 512 * (j.blk + j.issued)) ∧ t.str.reads = s.str.reads ++ [x] ∧ x.job = j.id ∧
        x.i = j.issued ∧ x.epoch = e ∧ x.retired = r ∧ t.str.cred = s.str.cred - 1 ∧ SameBytes s t) ∧
    (j.kind ≠ .get → writeCheck s j.stepBound j.ctx j.region j.block = .ok c e r →
      let slots := tabGet [] s.jrnl.copySlots j.id
      let recs := if j.issued = 0 then slots.take 15 else (slots.drop (16 * j.issued - 1)).take 16
      let plain := if j.user = .jrnl then
          ((if j.issued = 0 then j.data.getD [] else []) ++ recs.flatMap (fun a => memBytes s.mem.bytes a 32) ++ List.replicate 512 0).take 512
        else match j.data with
          | some d => (d.drop (512 * j.issued)).take 512
          | none => memBytes s.mem.bytes (j.addr + 512 * j.issued) 512
      plain.length = 512 →
      j.block = (if j.kind = .rput then BitVec.ofNat 64 (j.blk + j.issued) else BitVec.ofNat 64 ((j.base.toNat + 512 * (j.blk + j.issued)) / 512)) ∧
      ∃ t o x, exec .packetIssue s = .next (unstall t) ∧ t.str.out = some o ∧
        o.h0.extractLsb' 0 4 = (if j.kind = .rput then 3 else 2) ∧ o.h0.extractLsb' 4 6 = x.tag ∧
        o.h0.extractLsb' 22 24 = e ∧ t.str.writes = s.str.writes ++ [x] ∧ x.job = j.id ∧ t.str.cred = s.str.cred - 1 ∧
        gcmOpen s.sec.key (streamIv c j.region e j.block) (if j.kind = .rput then rputAad o.h0 o.h1 o.h2 else [])
          (blockBytes o.data) (tagBytes o.tag) = some plain ∧
        t.sec.blkOut = s.sec.blkOut + 1 ∧ SameBytes s t))

/-- Inbound packets: a block that opens is written where its job says, a block of an abandoned read is checked and lands nowhere, an ACK frees its slot, a put that opens and lies in DATA is written and acknowledged with 0, one outside DATA or in a stream stop is refused with 1, and its buffer's credit is granted again. A put's bytes count as written when its packet is (log 66); reads that a stream stop abandoned are discarded unchecked (log 91). -/
def Obligations.StreamReceives : Prop :=
  (∀ (s : State) (p : StrPacket) (r : StrRead) (j : StrJob) (b : List Byte), unitsOn s = true → p.h0.extractLsb' 0 4 = 4 →
    s.str.waiting = [] → s.str.reads.find? (fun x => decide (x.tag = p.h0.extractLsb' 4 6)) = some r → r.lost = false → NoDouble s →
    s.str.jobs.find? (fun x => decide (x.id = r.job) && decide (x.kind = .get)) = some j → j.user = .str → s.sec.stop = false →
    p.h0.extractLsb' 10 2 = 0 → s.mem.zeroing = false → memWaits s (j.addr + 512 * r.i) 512 = false →
    j.addr + 512 * r.i + 512 ≤ memTop →
    gcmOpen (if r.retired then s.sec.rkey else s.sec.key) (streamIv r.ctxIv r.region r.epoch r.block) [] (blockBytes p.data) (tagBytes p.tag) = some b →
    ∃ t, exec (.rdatReceived p) s = .next (unstall t) ∧ Stored s t (j.addr + 512 * r.i) b ∧
      t.str.reads = s.str.reads.filter (fun x => decide (x.tag ≠ r.tag)) ∧ t.str.rdBlk = s.str.rdBlk + 1 ∧ t.sec.blkIn = s.sec.blkIn + 1 ∧
      t.jrnl.toClose.length = s.jrnl.toClose.length + 1) ∧
  (∀ (s : State) (p : StrPacket) (r : StrRead), unitsOn s = true ∨ (busOn s = true ∧ s.sec.stop = true) → p.h0.extractLsb' 0 4 = 4 →
    s.str.waiting = [] → s.str.reads.find? (fun x => decide (x.tag = p.h0.extractLsb' 4 6)) = some r →
    s.str.jobs.find? (fun x => decide (x.id = r.job) && decide (x.kind = .get)) = none →
    let nowhere := fun (t : State) => SameBytes s t ∧ t.str.reads = s.str.reads.filter (fun x => decide (x.tag ≠ r.tag)) ∧
      t.str.rdBlk = s.str.rdBlk ∧ t.str.jobs = s.str.jobs
    ∃ t, exec (.rdatReceived p) s = .next (unstall t) ∧
      (s.sec.stop = true ∨ r.lost = true → nowhere t ∧ t.sec = s.sec ∧ t.flt = s.flt) ∧
      (s.sec.stop = false → r.lost = false →
        (p.h0.extractLsb' 10 2 ≠ 0 → nowhere t ∧ t.str.resp = true ∧ t.flt.cont = true ∧ t.sec = s.sec) ∧
        (p.h0.extractLsb' 10 2 = 0 → t.sec.blkIn = s.sec.blkIn + 1 ∧
          ∀ b, gcmOpen (if r.retired then s.sec.rkey else s.sec.key) (streamIv r.ctxIv r.region r.epoch r.block) [] (blockBytes p.data)
            (tagBytes p.tag) = some b → nowhere t ∧ t.flt = s.flt))) ∧
  (∀ (s : State) (h0 : Dword) (w : StrWrite), unitsOn s = true ∨ (busOn s = true ∧ s.sec.stop = true) → h0.extractLsb' 0 4 = 5 →
    s.str.writes.find? (fun x => decide (x.tag = h0.extractLsb' 4 6)) = some w →
    ∃ t, exec (.ackReceived h0) s = .next t ∧ t.str.writes = s.str.writes.filter (fun x => decide (x.tag ≠ w.tag)) ∧ SameBytes s t ∧
      (h0.extractLsb' 10 2 = 0 → w.put = true → t.str.wrBlk = s.str.wrBlk + 1) ∧
      (h0.extractLsb' 10 2 ≠ 0 → t.str.resp = true ∧ t.flt.cont = true)) ∧
  (∀ (s : State) (p : StrPacket) (b : List Byte), busOn s = true → s.flt.fatal = false → p.h0.extractLsb' 0 4 = 3 → 0 < s.str.inbuf →
    s.sec.stop = false → NoDouble s →
    let a := 128 * (p.h1.extractLsb' 20 14).toNat
    let e := p.h0.extractLsb' 22 24
    let ok := if s.man.isLive then permits s [pDATA] a 512 else decide (a + 512 ≤ memTop)
    memWaits s a 512 = false → (e.getLsbD 23 = true → e = seEpoch s.sec.seCur) →
    gcmOpen s.sec.key (streamIv (p.h0.extractLsb' 14 2) (p.h0.extractLsb' 16 6) e ((p.h2.extractLsb' 0 32).zeroExtend 64))
      (rputAad p.h0 p.h1 p.h2) (blockBytes p.data) (tagBytes p.tag) = some b →
    ∃ t ack, t.str.inbuf = s.str.inbuf ∧ t.str.inCred = s.str.inCred + 1 ∧ exec (.rputReceived p) s = .next (unstall t) ∧ t.str.acks = s.str.acks ++ [ack] ∧ ack.extractLsb' 0 4 = 5 ∧
      ack.extractLsb' 4 6 = p.h0.extractLsb' 4 6 ∧
      (ok = true → Stored s t a b ∧ ack.extractLsb' 10 2 = 0 ∧ t.str.rpIn = s.str.rpIn + 1) ∧
      (ok = false → SameBytes s t ∧ ack.extractLsb' 10 2 = 1 ∧ t.str.nackIn = s.str.nackIn + 1)) ∧
  (∀ (s : State) (p : StrPacket), busOn s = true → p.h0.extractLsb' 0 4 = 3 → 0 < s.str.inbuf → s.sec.stop = true ∨ s.flt.fatal = true →
    ∃ t ack, exec (.rputReceived p) s = .next (unstall t) ∧ t.str.acks = s.str.acks ++ [ack] ∧ ack.extractLsb' 0 4 = 5 ∧
      ack.extractLsb' 4 6 = p.h0.extractLsb' 4 6 ∧ ack.extractLsb' 10 2 = 1 ∧ t.str.inCred = s.str.inCred + 1 ∧ SameBytes s t) ∧
  (∀ s : State, busOn s = true → exec .streamCredit s = .next { s with str := { s.str with cred := s.str.cred + 1 } }) ∧
  (∀ s : State, busOn s = true → exec .postCredit s = .next { s with pst := { s.pst with cred := s.pst.cred + 1 } })

/-- The post engine out: SEND holds its message, TRANSMIT and RESEND hand it to the fabric, a response retires it or keeps it; ACK, OPEN and CLOSE change their part of the status word. That a message sent again takes a credit is the model's reading (log 41), and a response that fits several messages picks one freely (log 42). -/
def Obligations.PostOut : Prop :=
  (∀ (s : State) (ent : QEntry), Head s ePST 0 ent → s.pst.msgs.length < 4 → memWaits s ent.b.toNat 64 = false →
    ent.sub.toNat < 8 → ent.fs = 0 → ent.a.toNat < 2 ^ 20 → dataAt s ent.b.toNat 64 64 = true →
    ∃ t, exec .pstSend s = .next (settled t ePST) ∧ t.pst.msgs = s.pst.msgs ++
      [{ id := s.opId, target := ent.a.extractLsb' 0 20, queue := ent.sub.extractLsb' 0 3
         payload := BitVec.ofNat 512 (memNat s.mem.bytes ent.b.toNat 64), st := .held }] ∧ SameBytes s t) ∧
  (∀ (s : State) (n : BitVec 2) (m : PstMsg), unitsOn s = true → 0 < s.pst.cred → s.pst.msgs[n.toNat]? = some m →
    let sent := fun (t : State) => t.pst.cred = s.pst.cred - 1 ∧ t.pst.msgs = s.pst.msgs.set n.toNat { m with st := .sent } ∧
      (∃ o, t.pst.out = some o ∧ o.payload = some m.payload ∧ o.header.extractLsb' 0 4 = 1 ∧ o.header.extractLsb' 4 20 = m.target ∧
        o.header.extractLsb' 24 20 = s.core.tileId ∧ o.header.extractLsb' 44 3 = m.queue ∧ o.header.getLsbD 47 = false) ∧ SameBytes s t
    (m.st = .held → pairFirst s n.toNat m = true → ∃ t, exec (.postTransmit n) s = .next t ∧ sent t ∧ t.pst.resends = s.pst.resends) ∧
    (m.st = .retry → ∃ t, exec (.postResend n) s = .next t ∧ sent t ∧ t.pst.resends = s.pst.resends + 1)) ∧
  (∀ (s : State) (h : Dword) (m : PstMsg), unitsOn s = true → h.extractLsb' 0 4 = 2 → answered s h = some m →
    ∃ t, exec (.postResponse h) s = .next t ∧ SameBytes s t ∧
      (h.extractLsb' 48 2 = 0 → t.pst.msgs = s.pst.msgs.filter (fun y => decide (y.id ≠ m.id)) ∧ t.pst.sent = s.pst.sent + 1 ∧
        (∀ x ∈ (qOf t ePST).infl, x.id = m.id → x.done = true ∧ x.wb = some 0)) ∧
      (h.extractLsb' 48 2 = 2 → t.pst.msgs = s.pst.msgs.filter (fun y => decide (y.id ≠ m.id)) ∧ t.pst.closed = s.pst.closed + 1 ∧
        (∀ x ∈ (qOf t ePST).infl, x.id = m.id → x.done = true ∧ x.wb = some 1)) ∧
      (h.extractLsb' 48 2 = 1 → t.pst.msgs = s.pst.msgs.map (fun y => if y.id = m.id then { y with st := .retry } else y) ∧
        t.pst.sent = s.pst.sent ∧ t.q = s.q)) ∧
  (∀ (s : State) (ent : QEntry) (i : Instr) (fn : Nat), (i, fn) ∈ [(Instr.pstAck, 1), (.pstOpen, 2), (.pstClose, 3)] →
    Head s ePST fn ent → s.pst.mbinit = false → NoDouble s → ent.sub.toNat < 8 → ent.fs = 0 → ent.d = 0 → ent.a = 0 → ent.b = 0 →
    let q := ent.sub.toNat
    let a := statusAddr s q
    let w := statusOf s q
    partSize s pMBOX ≠ 0 → a + 8 ≤ memTop → memWaits s a 8 = false → (fn = 1 → mbHead w ≠ mbTail w) →
    ∃ t, exec i s = .next (settled t ePST) ∧ (∀ x, x < a ∨ a + 8 ≤ x → memByte t.mem.bytes x = memByte s.mem.bytes x) ∧
      (let v := statusOf t q
       mbTail v = mbTail w ∧ bitsOf v 63 32 = bitsOf w 63 32 ∧
       mbHead v = (if fn = 1 then (mbHead w + 1) % 256 else mbHead w) ∧
       mbOpen v = (if fn = 1 then mbOpen w else if fn = 2 then true else false)))

/-- The post engine in: a message to an open queue with room is stored with its sender and answered ACCEPT; a full queue answers FULL; a closed one counts the message and answers CLOSED; in a sealed state an agent's message to a queue other than 7 is answered CLOSED and not stored. The fields of a response are the model's choice (log 42), as is that OPEN is tested before that refusal (log 89). -/
def Obligations.PostIn : Prop :=
  ∀ (s : State) (h : Dword) (p : BitVec 512), busOn s = true → s.flt.fatal = false → h.extractLsb' 0 4 = 1 → s.pst.waiting = [] →
    NoDouble s → s.pst.mbinit = false → partSize s pMBOX ≠ 0 → partBase s pMBOX + 0x2400 ≤ memTop → msgWaits s h = false →
    let ext := h.getLsbD 47 && decide (s.sec.state ≠ 0) && decide (h.extractLsb' 44 3 ≠ 7)
    let q := (h.extractLsb' 44 3).toNat
    let b := partBase s pMBOX
    let w := statusOf s q
    let slot := mbTail w % 16
    ∃ t o, exec (.inboundMessage h p) s = .next t ∧ t.pst.out = some o ∧ o.payload = none ∧ o.header.extractLsb' 0 4 = 2 ∧
      o.header.extractLsb' 4 20 = h.extractLsb' 24 20 ∧ o.header.extractLsb' 44 3 = h.extractLsb' 44 3 ∧ t.pst.inCred = s.pst.inCred + 1 ∧
      (mbOpen w = true → ext = true → o.header.extractLsb' 48 2 = 2 ∧ t.pst.inClosed = s.pst.inClosed + 1 ∧ SameBytes s t) ∧
      (mbOpen w = true → ext = false → mbCount w ≠ 16 → o.header.extractLsb' 48 2 = 0 ∧ t.pst.recv = s.pst.recv + 1 ∧
        memBytes t.mem.bytes (b + 0x400 + 1024 * q + 64 * slot) 64 = leBytes 64 p ∧
        bitsOf (memNat t.mem.bytes (b + 0x100 + 64 * q + 4 * slot) 4) 19 0 = (h.extractLsb' 24 20).toNat ∧
        (memNat t.mem.bytes (b + 0x100 + 64 * q + 4 * slot) 4).testBit 20 = h.getLsbD 47 ∧
        mbHead (statusOf t q) = mbHead w ∧ mbTail (statusOf t q) = (mbTail w + 1) % 256 ∧ mbOpen (statusOf t q) = true ∧
        (∀ x, x < b ∨ b + 0x2400 ≤ x → memByte t.mem.bytes x = memByte s.mem.bytes x)) ∧
      (mbOpen w = true → ext = false → mbCount w = 16 → o.header.extractLsb' 48 2 = 1 ∧ t.pst.inFull = s.pst.inFull + 1 ∧ SameBytes s t) ∧
      (mbOpen w = false → o.header.extractLsb' 48 2 = 2 ∧ t.pst.inClosed = s.pst.inClosed + 1 ∧
        bitsOf (statusOf t q) 63 32 = (bitsOf w 63 32 + 1) % 2 ^ 32 ∧ mbOpen (statusOf t q) = false ∧
        (∀ x, x < b + 8 * q ∨ b + 8 * q + 8 ≤ x → memByte t.mem.bytes x = memByte s.mem.bytes x))

/-! Stage, exchange, clocks (01, 02, 13). -/

/-- Arrival drives the zone of the last SYNC and the norm fields, and zone 3 where no program position is; a release that passes its checks begins the lead-in, with the context that a switch request names; one whose zone or epoch differs puts the tile in hold, and a held tile without MAN_CTRL_RESUME stays in hold; an armed release makes the shadow live, a zone 2 release gives the token or records NORM_SPLIT, and a pending halt is made; the phase's end counts the stage. Which values SYNC_NRM_* take at an arrival is the model's reading (log 43), as are a switch request to the running context that lapses without SWREJ (log 60), an arrival without a program position that does not wait for the engines (log 61), and the status words of a changed MBOX area, which are written by the end of the live copy or when memory can be reached (log 67). -/
def Obligations.StageSequence : Prop :=
  (∀ s : State, unitsOn s = true → s.core.syncArr = false → s.core.rldBusy = false →
    (∀ c, noProgram s = false → stopClose s = some c → arrivalMet s c = true →
      let x := facOf s s.core.cur
      ∃ t, exec .syncArrival s = .next t ∧ t = { s with core := t.core, fac := t.fac, jrnl := t.jrnl } ∧
        t.core = { s.core with syncArr := true, syncZone := (curCtx s).zone.getD 3, phase := 1, waitCnt := 0 } ∧
        t.fac.ctxs = s.fac.ctxs ∧ t.fac.nrmV = decide (x.st = 2) ∧ t.fac.nrmSq = partSum x ∧
        t.fac.nrmNf = (x.partNf || decide (partSum x = 0x7F800000)) ∧ t.fac.nrmStep = x.step ∧
        t.jrnl.cred = s.jrnl.cred ++ s.jrnl.toArr ++ (if c then s.jrnl.toClose else []) ∧ t.jrnl.toArr = []) ∧
    (noProgram s = true → s.core.phase.toNat < 2 → s.dbg.halted = false →
      ∃ t, exec .syncArrival s = .next t ∧ t = { s with core := t.core, fac := t.fac, jrnl := t.jrnl } ∧
        t.core = { s.core with syncArr := true, syncZone := 3, phase := 1, waitCnt := 0 } ∧ t.fac.nrmV = false ∧
        t.jrnl.cred = s.jrnl.cred ++ s.jrnl.toArr ∧ t.jrnl.toArr = [])) ∧
  (∀ (s : State) (r : ReleaseIn), unitsOn s = true → s.core.syncArr = true → s.man.isLive = true → (s.man.hold = true → s.man.resume = true) →
    r.zone = s.core.syncZone ∨ s.core.syncZone = 3 → s.core.switch = false →
    (s.man.armed = none → r.epoch = s.man.epochCur → s.flt.haltCtx = none → (curCtx s).halted = false → s.sec.codeOk = true →
      s.core.rldBusy = false → r.zone ≠ 2 →
      ∃ t, exec (.syncRelease r) s = .next t ∧ t.core.phase = 2 ∧ t.core.phaseZone = r.zone ∧ t.core.syncArr = false ∧
        t.core.mode = .run ∧ t.core.exchLen = 64 + meantLen s ∧ t.core.cur = s.core.cur ∧ t.core.stage = s.core.stage ∧
        (curCtx t).pc = (if (curCtx s).ran then (curCtx s).pc else tabGet 0 s.core.entry s.core.cur.toNat) ∧
        (∀ k, rd t k = rd s k) ∧ t.mem.xph = true ∧ t.mem.xres = BitVec.ofNat 32 (cfg s (oPART + 0x18) 4) ∧
        t.man = { s.man with lwin := false, hold := false, resume := false } ∧ t.flt.pend = false ∧
        (∀ e, (qOf t e).failed = false ∨ 7 ≤ e) ∧ SameBytes s t) ∧
    (s.man.armed = some r.epoch →
      ∃ t, exec (.syncRelease r) s = .next t ∧ t.man.live = s.man.shadow ∧ t.man.epochCur = r.epoch ∧ t.man.armed = none ∧
        t.man.commits = s.man.commits + 1 ∧ t.man.syncing = true ∧ t.man.hold = false) ∧
    (r.epoch ≠ s.man.armed.getD s.man.epochCur →
      ∃ t k, exec (.syncRelease r) s = .next t ∧ t.man.hold = true ∧ t.man.resume = false ∧ t.man.holdEpoch = r.epoch ∧
        t.man.live = s.man.live ∧ t.man.armed = s.man.armed ∧ t.man.epochCur = s.man.epochCur ∧
        t.core.phase = 1 ∧ t.flt.cont = true ∧ t.flt.log.head? = some k ∧ k.w0.extractLsb' 0 8 = 0x14 ∧ t.xch.run = .off ∧ SameBytes s t) ∧
    (∀ c, s.flt.haltCtx = some c → ∃ t, exec (.syncRelease r) s = .next t ∧ (ctxOf t c).halted = true ∧ t.flt.cntHalt = s.flt.cntHalt + 1)) ∧
  (∀ (s : State) (r : ReleaseIn), unitsOn s = true → s.core.syncArr = true → s.man.isLive = true → s.core.syncZone ≠ 3 →
    r.zone ≠ s.core.syncZone →
    ∃ t k, exec (.syncRelease r) s = .next t ∧ t.man.hold = true ∧ t.man.resume = false ∧ t.man.holdEpoch = r.epoch ∧ t.man.live = s.man.live ∧
      t.man.armed = s.man.armed ∧ t.man.epochCur = s.man.epochCur ∧ t.man.commits = s.man.commits ∧ t.core.phase = 1 ∧ t.core.cur = s.core.cur ∧
      t.flt.log.head? = some k ∧ k.w0.extractLsb' 0 8 = 0x13 ∧ k.w0.extractLsb' 8 2 = 1 ∧ t.flt.cntCont = s.flt.cntCont + 1 ∧
      t.xch.run = .off ∧ SameBytes s t) ∧
  (∀ (s : State) (r : ReleaseIn), unitsOn s = true → s.core.syncArr = true → s.man.isLive = true → s.man.hold = true → s.man.resume = false →
    r.zone = s.core.syncZone ∨ s.core.syncZone = 3 → s.fac.nrmV = false →
    ∃ t, exec (.syncRelease r) s = .next t ∧ t.man = { s.man with lwin := false } ∧ t.core.phase = 1 ∧ t.core.mode = s.core.mode ∧
      t.core.cur = s.core.cur ∧ t.core.switch = s.core.switch ∧ t.core.syncArr = false ∧ t.flt.log = s.flt.log ∧
      t.flt.cntCont = s.flt.cntCont ∧ t.xch.run = .off ∧ t.jrnl.cred = [] ∧ SameBytes s t) ∧
  (∀ (s : State) (r : ReleaseIn), unitsOn s = true → s.core.syncArr = true → s.man.isLive = true → s.man.hold = false →
    r.zone = s.core.syncZone ∨ s.core.syncZone = 3 → r.zone ≠ 2 → s.man.armed = none → r.epoch = s.man.epochCur → s.flt.haltCtx = none →
    s.core.switch = true →
    let n := s.core.next
    let ready := ctxPresent s n.toNat = true ∧ (ctxOf s n).halted = false
    (ready → n ≠ s.core.cur → s.sec.codeOk = true → s.core.rldBusy = false →
      ∃ t, exec (.syncRelease r) s = .next t ∧ t.core.cur = n ∧ t.core.switch = false ∧ t.core.swrej = s.core.swrej ∧ t.core.phase = 2 ∧
        t.core.mode = .run ∧ t.core.exchLen = 64 ∧ t.xch.run = .switch ∧
        (curCtx t).pc = (if (ctxOf s n).ran then (ctxOf s n).pc else tabGet 0 s.core.entry n.toNat) ∧
        (∀ c, (ctxOf t c).regs = (ctxOf s c).regs) ∧ (∀ c, c ≠ n → ctxOf t c = ctxOf s c) ∧
        tabGet 0 t.xch.resume s.core.cur.toNat = (inactBank s).image ∧ t.xch.load = some (n, tabGet 0 s.xch.resume n.toNat) ∧ SameBytes s t) ∧
    (ready → n = s.core.cur → ∃ t, exec (.syncRelease r) s = .next t ∧ t.core.cur = s.core.cur ∧ t.core.switch = false ∧
      t.core.swrej = s.core.swrej) ∧
    (¬ ready → ∃ t, exec (.syncRelease r) s = .next t ∧ t.core.cur = s.core.cur ∧ t.core.switch = false ∧ t.core.swrej = true)) ∧
  (∀ (s : State) (r : ReleaseIn), unitsOn s = true → s.core.syncArr = true → s.core.switch = false → r.zone = 2 → s.core.syncZone = 2 →
    s.fac.nrmV = true → r.nrmAll = true →
    let k := tokenOf (facOf s s.core.cur).lat r.nrmSq r.nrmNf r.nrmMin r.nrmMax
    ∃ t, exec (.syncRelease r) s = .next t ∧ (facOf t s.core.cur).st = 3 ∧ (facOf t s.core.cur).tok = k ∧
      t.wgh.tok = true ∧ t.wgh.tokNf = k.nf) ∧
  (∀ (s : State) (r : ReleaseIn), unitsOn s = true → s.core.syncArr = true → s.man.isLive = true → s.man.hold = false → s.core.switch = false →
    r.zone = 2 → s.core.syncZone = 2 → s.fac.nrmV = true → r.nrmAll = false → s.man.armed = none → r.epoch = s.man.epochCur →
    ∃ t k, exec (.syncRelease r) s = .next t ∧ t.flt.log.head? = some k ∧ k.w0.extractLsb' 0 8 = 0x18 ∧ k.w0.extractLsb' 8 2 = 1 ∧
      t.flt.cont = true ∧ t.flt.cntCont = s.flt.cntCont + 1 ∧ t.fac.tok = s.fac.tok ∧ SameBytes s t) ∧
  (∀ (lat : StepLatch) (sq : Word) (nf : Bool) (mn mx : Word),
    let k := tokenOf lat sq nf mn mx
    let q := fDiv lat.clipMax (fAdd (fSqrt sq) lat.normEps)
    k.sq = sq ∧ k.nf = (nf || decide (sq = 0x7F800000)) ∧ k.min = mn ∧ k.max = mx ∧ k.norm = fSqrt sq ∧
      (lat.clipEn = false → k.c = 0x3F800000) ∧ (lat.clipEn = true → f32IsNaN q = false → k.c = fMin 0x3F800000 q)) ∧
  (∀ s : State, unitsOn s = true → s.man.syncing = true →
    ∃ t, exec .shadowCopyDone s = .next t ∧ t.man.syncing = false ∧ t.man.waiting = [] ∧ t.man.live = s.man.live ∧
      (∀ l, s.man.loadWait = some l → t.man.load = some l ∧ t.man.loadWait = none) ∧
      (s.man.waiting = [] → t.man.shadow = s.man.shadow) ∧
      (∀ o m v, s.man.waiting = [.store o m v] → t.man.shadow = tWord s.man.shadow o m v) ∧
      (let open_ := s.pst.mbclear = false ∨ mboxOn s = false ∨ memWaits s (statusAddr s 0) 64 = false
       (open_ → t.pst.mbinit = false ∧ t.pst.mbclear = false) ∧ (¬ open_ → t.pst.mbinit = s.pst.mbinit ∧ t.pst.mbclear = true)) ∧
      (s.pst.mbclear = true → mboxOn s = true → memWaits s (statusAddr s 0) 64 = false → partBase s pMBOX + 64 ≤ memTop →
        s.pst.waiting = [] → NoDouble s → ∀ x, memByte t.mem.bytes x =
          if partBase s pMBOX ≤ x ∧ x < partBase s pMBOX + 64 then 0 else memByte s.mem.bytes x)) ∧
  (∀ s : State, unitsOn s = true → s.core.phase = 3 → NothingWaits s →
    ∃ t, exec .exchEnd s = .next t ∧ t.core.phase = 0 ∧ t.core.stage = s.core.stage + 1 ∧ t.mem.xph = false ∧ t.xch.run = .off ∧
      t.xch.failed = false ∧ t.xch.due = [])

/-- The exchange port: the banks swap when the inactive one is ready, the load that the new itinerary chooses starts with its descriptor taken, a failed image gives an empty phase, a load that still runs is late; an entry starts or is skipped on the c-cycle of its beat 0, a send drives what its bank holds, a matching beat is written, others are not, one that meets the next send's bank is discarded, which is recorded behind that c-cycle, and a loaded image fills the inactive bank. That an image is read when its load ends is the model's reading (log 65), as is the order in which overlapping entries start (log 88). -/
def Obligations.ExchangePort : Prop :=
  (∀ s : State, unitsOn s = true → s.core.phase = 2 → s.xch.run ≠ .switch →
    let words := oITIN + 64 * s.core.cur.toNat
    (s.xch.load = none → (inactBank s).st = .ready →
      ∃ t, exec .exchStart s = .next t ∧ t.core.phase = 3 ∧ t.xch.act = (!s.xch.act) ∧ t.xch.run = .run ∧ actBank t = inactBank s ∧
        ((inactBank s).selV = false →
          let n := (inactBank s).next
          t.xch.load = some (s.core.cur, n) ∧ t.xch.loadLen = BitVec.ofNat 32 (cfg s (words + 8 * n.toNat + 4) 4) ∧
          t.xch.loadDesc = BitVec.ofNat 32 (cfg s (words + 8 * n.toNat) 4) ∧ t.xch.loadTiles = s.core.tileCount ∧ t.xch.loadBad = false) ∧
        ((inactBank s).selV = true →
          let a := (inactBank s).selAddr.toNat
          (dataAt s a 8 8 = false → t.xch.loadBad = true) ∧
          (dataAt s a 8 8 = true → memWaits s a 8 = false →
            let n := BitVec.ofNat 3 (memNat s.mem.bytes a 4)
            t.xch.load = some (s.core.cur, n) ∧ t.xch.loadLen = BitVec.ofNat 32 (cfg s (words + 8 * n.toNat + 4) 4) ∧
            t.xch.loadDesc = BitVec.ofNat 32 (cfg s (words + 8 * n.toNat) 4) ∧ t.xch.loadSel = none ∧ t.xch.loadBad = false) ∧
          (dataAt s a 8 8 = true → memWaits s a 8 = true → t.xch.loadSel = some (inactBank s).selAddr ∧ t.xch.loadBad = false ∧
            ∀ k, k < 16 → t.xch.loadItin.getD k 0 = BitVec.ofNat 32 (cfg s (words + 4 * k) 4)))) ∧
    (s.xch.load = none → (inactBank s).st = .failed →
      ∃ t, exec .exchStart s = .next t ∧ t.core.phase = 3 ∧ t.xch.act = (!s.xch.act) ∧ t.xch.run = .bare ∧ actBank t = inactBank s ∧
        (inactBank t).st = .empty ∧ (inactBank t).ents = []) ∧
    (s.xch.load = none → (inactBank s).st = .empty →
      ∃ t, exec .exchStart s = .next t ∧ t.core.phase = 3 ∧ t.xch = { s.xch with run := .bare }) ∧
    (s.xch.load ≠ none → ∃ t, exec .exchStart s = .next t ∧ t.core.phase = 3 ∧ t.xch = { s.xch with run := .bare, late := true } ∧
      t.flt.cont = true)) ∧
  (∀ s : State, unitsOn s = true → s.core.phase = 2 → s.xch.run = .switch →
    exec .exchStart s = .next { s with core := { s.core with phase := 3 } }) ∧
  (∀ (s : State) (e : XEnt), beatOf s e = 0 → latchOf s e.num = none → slotErrOf s s.xch.act e.num.toNat = .clean →
    let t := startEnt s e
    t = { s with xch := t.xch } ∧
    (e.gone = true → t = s) ∧
    (e.gone = false → overlapped s e = true → latchOf t e.num = none ∧ beatOf t e = e.beats ∧ t.xch.skips = s.xch.skips + 1) ∧
    (e.gone = false → overlapped s e = false → latchOf t e.num = some e ∧ beatOf t e = 0 ∧ t.xch.skips = s.xch.skips)) ∧
  (∀ (s : State) (off : Word), unitsOn s = true → s.core.phase = 3 → s.xch.run = .run →
    let u := startAll (catchUp s off.toNat) false (off.toNat + 1)
    (∀ e, openEnt u false off.toNat = some e →
      let k := off.toNat - e.off
      ∃ t x, exec (.exchSendBeat off) s = .next t ∧ t.xch.out = some x ∧ x.src = s.core.tileId ∧ x.ent = e.num ∧
        x.beat = BitVec.ofNat 16 k ∧ x.rt = e.route ∧ x.mc = e.mcast ∧
        x.data = (if s.mem.zeroing then 0 else BitVec.ofNat 256 (memNat s.mem.bytes (e.addr + 32 * k) 32)) ∧
        t.xch.beatsOut = s.xch.beatsOut + 1 ∧ beatOf t e = k + 1 ∧ SameBytes s t) ∧
    (openEnt u false off.toNat = none → exec (.exchSendBeat off) s = .next u ∧ SameBytes s u)) ∧
  (∀ (s : State) (off : Word) (x : XchBeat), unitsOn s = true → s.core.phase = 3 → s.xch.run = .run →
    beatDiscarded s = false → s.mem.zeroing = false → NoDouble s →
    let u := startAll (catchUp s off.toNat) true (off.toNat + 1)
    (∀ e, openEnt u true off.toNat = some e →
      let k := off.toNat - e.off
      let a := e.addr + 32 * k
      let meets := (sendBanks u (off.toNat + 1)).contains (bankOf a)
      let fails := fun (cause : BitVec 2) => ∃ t, exec (.exchRecvBeat off x) s = .next t ∧ SameBytes s t ∧ t.xch.rerrs = u.xch.rerrs + 1 ∧
        t.xch.rerr = true ∧ t.xch.failed = true ∧ beatOf t e = k + 1 ∧ (u.xch.rerr = false → t.xch.rerrCause = cause ∧ t.xch.rerrOff = off)
      (x.src = e.route → x.ent = e.sent → x.beat.toNat = k → meets = false → a + 32 ≤ memTop →
        ∃ t, exec (.exchRecvBeat off x) s = .next t ∧ Stored s t a (leBytes 32 x.data) ∧ t.xch.beatsIn = u.xch.beatsIn + 1 ∧
          t.xch.rerrs = u.xch.rerrs ∧ beatOf t e = k + 1) ∧
      (x.src = e.route → x.ent = e.sent → x.beat.toNat = k → meets = true →
        ∃ t, exec (.exchRecvBeat off x) s = .next t ∧ SameBytes s t ∧ t.xch.due = u.xch.due ++ [(off.toNat + 1, 0x21)] ∧
          t.xch.coll = u.xch.coll ∧ beatOf t e = k + 1) ∧
      (x.src ≠ e.route ∨ x.ent ≠ e.sent → fails 1) ∧
      (x.src = e.route → x.ent = e.sent → x.beat.toNat < k → fails 2) ∧
      (x.src = e.route → x.ent = e.sent → k < x.beat.toNat → fails 3)) ∧
    (openEnt u true off.toNat = none →
      ∃ t, exec (.exchRecvBeat off x) s = .next t ∧ SameBytes s t ∧ t.xch.rerrs = u.xch.rerrs + 1 ∧ t.xch.rerr = true ∧ t.xch.failed = true)) ∧
  (∀ (s : State) (off : Word) (o : Nat), unitsOn s = true → s.core.phase = 3 → s.xch.run = .run → s.xch.due = [(o, 0x21)] → o < off.toNat →
    ∃ t, exec (.exchSendBeat off) s = .next t ∧ t.xch.coll = true ∧ t.flt.cont = true ∧ SameBytes s t ∧
      (s.xch.coll = false → t.xch.collOff = BitVec.ofNat 32 o) ∧ ((o, 0x21) ∉ t.xch.due)) ∧
  (∀ (s : State) (off : Word) (x : XchBeat), unitsOn s = true → beatDiscarded s = true →
    ∃ t, exec (.exchRecvBeat off x) s = .next t ∧ t.xch = { s.xch with inDisc := s.xch.inDisc + 1 } ∧ SameBytes s t) ∧
  (∀ (s : State) (cyc : Word) (c : BitVec 2) (img : BitVec 3), unitsOn s = true → s.xch.load = some (c, img) → s.xch.loadSel = none →
    spansWait s (loadSpans s) = false →
    (∀ b, readImage s c img = .ok b →
      ∃ t, exec (.itinLoadDone cyc) s = .next t ∧ inactBank t = b ∧ b.st = .ready ∧ b.image = img ∧ b.exchLen = s.xch.loadLen ∧
        actBank t = actBank s ∧ t.xch.load = none ∧ t.xch.loads = s.xch.loads + 1 ∧ t.xch.loadCyc = cyc ∧ SameBytes s t) ∧
    (∀ cause n, readImage s c img = .error (cause, n) →
      ∃ t, exec (.itinLoadDone cyc) s = .next t ∧ (inactBank t).st = .failed ∧ (inactBank t).ents = [] ∧ actBank t = actBank s ∧
        t.xch.load = none ∧ t.xch.lerr = true ∧ t.flt.cont = true ∧
        (s.xch.lerr = false → t.xch.lerrCause = BitVec.ofNat 3 cause ∧ t.xch.lerrEnt = BitVec.ofNat 10 n) ∧ SameBytes s t)) ∧
  (∀ s : State, Served s →
    let b := if s.xch.tselBank then s.xch.bank1 else s.xch.bank0
    let w := fun i => (tabGet (0 : Word) s.xch.tdata i).toNat
    let ok := s.xch.testEn = true ∧ s.sec.state = 0 ∧ entryCause s s.core.cur.toNat b.exchLen.toNat 0 w = 0
    (ok → ∃ t, exec .xchTctrlWrite s = .next t ∧ t = { s with xch := t.xch } ∧ t.xch.trej = s.xch.trej ∧
      { entryWords s s.core.cur.toNat s.xch.tselEnt.toNat w with
        test := true, gone := decide (s.xch.tselBank = s.xch.act) && exchRuns s && decide ((w 0) < s.xch.seen) } ∈ (if s.xch.tselBank then t.xch.bank1 else t.xch.bank0).ents) ∧
    (¬ ok → exec .xchTctrlWrite s = .next { s with xch := { s.xch with trej := true } }))

/-- Operating points, the alert, droop stretches and SUSPEND. Durations are the sender's (log 3), and how many ticks a change holds is free (log 46); that a change is in force at its command, and that the alert acts in SUSPEND and in a core reset, is the model's choice (log 80). -/
def Obligations.ClockEvents : Prop :=
  (∀ (s : State) (op : BitVec 3), unitsOn s = true → s.core.syncArr = true → op.toNat < 5 →
    ∃ t, exec (.stageOpChange op) s = .next t ∧ t.clk.target = op ∧ t.clk.op = (if s.clk.alert then s.clk.op else op) ∧
      t.clk.alert = s.clk.alert ∧ (s.clk.alert = false → t.clk.stretch = false) ∧
      t = { s with clk := t.clk, gov := t.gov, free := t.free }) ∧
  (∀ s : State,
    ∃ t, exec .alertFall s = .next t ∧ t.clk.op = 4 ∧ t.clk.alert = true ∧ t.clk.alertHold = false ∧ t.clk.stretch = false ∧
      t.clk.target = s.clk.target ∧ t = { s with clk := t.clk, gov := t.gov }) ∧
  (∀ s : State, s.clk.alert = true →
    exec .alertRise s = .next { s with clk := { s.clk with alertHold := true } } ∧
    (s.clk.alertHold = true → ∃ t, exec .alertReturn s = .next t ∧ t.clk.op = s.clk.target ∧ t.clk.alert = false ∧
      t.clk.alertHold = false ∧ t = { s with clk := t.clk, gov := t.gov })) ∧
  (∀ s : State, unitsOn s = true →
    (s.gov.droopEn = true → s.clk.armed = true → s.clk.stretch = false →
      ∃ t, exec .droopTrip s = .next t ∧ t.clk = { s.clk with stretch := true, armed := false } ∧ t = { s with clk := t.clk, gov := t.gov }) ∧
    (∀ limit, s.clk.stretch = true → ∃ t, exec (.stretchEnd limit) s = .next t ∧
      t.clk = { s.clk with stretch := false, armed := false, rearm := if limit then 64 else 16 } ∧ t = { s with clk := t.clk, gov := t.gov }) ∧
    (∀ low, s.clk.armed = false → s.clk.stretch = false → ∃ t, exec (.droopRearm low) s = .next t ∧ t.clk.rearm = 0 ∧
      t.clk.armed = !(low && s.gov.droopEn) ∧ t.clk.stretch = (low && s.gov.droopEn) ∧ t = { s with clk := t.clk, gov := t.gov })) ∧
  (∀ s : State, s.pin.coreRst = true →
    (s.clk.suspend = false → exec .suspendEntry s = .next { s with clk := { s.clk with suspend := true } }) ∧
    (s.clk.suspend = true → s.bus.mgmt.waiting = [] → s.bus.dbg.waiting = [] →
      exec .suspendExit s = .next { s with clk := { s.clk with suspend := false } }))

/-! Sync registers, manifest commands, contexts, memory (02, 03, 07, 09, 11, 12). -/

/-- Hand sets and full/empty operations at level INVASIVE, their refusal below it, outside FE and while one is busy, a request that waits for a zeroisation with the address and data it took, and the watchman, which fires when its count has reached the threshold: SYNC_ARR, hold, a halt and threshold 0 hold the count. That a request which waits keeps the address and data that it took is the model's reading (log 68), as is the operand as two registers, each with its own access (log 10). -/
def Obligations.SyncRegisters : Prop :=
  (∀ s : State, Served s →
    let o := s.syn.osel
    let x := objOf s o
    (s.sec.level = 2 →
      (∃ t, exec .handSetVal s = .next t ∧ t = { s with syn := t.syn } ∧
        objOf t o = { x with val := s.syn.osetVal, lastSrc := 12, lastCtx := s.core.cur } ∧ ∀ p, p ≠ o → objOf t p = objOf s p) ∧
      (∃ t, exec .handSetState s = .next t ∧ t = { s with syn := t.syn } ∧
        objOf t o = { x with mode := s.syn.osetMode, n := s.syn.osetN, arr := (if s.syn.osetMode = true ∧ s.syn.osetN = 0 then 0 else s.syn.osetArr), lastSrc := 12, lastCtx := s.core.cur } ∧
        ∀ p, p ≠ o → objOf t p = objOf s p)) ∧
    (s.sec.level ≠ 2 → exec .handSetVal s = .next { s with syn := { s.syn with hsrej := true } } ∧
      exec .handSetState s = .next { s with syn := { s.syn with hsrej := true } })) ∧
  (∀ s : State, Served s → s.sec.level = 2 → s.syn.fePend = none →
    let a := s.syn.feAddr.toNat
    feOk s a = true → s.mem.zeroing = false → hasDouble s a 8 = false →
    (∃ t, exec .fePut s = .next t ∧
      (feFull s a = false → Stored s t a (leBytes 8 (s.syn.feDhi ++ s.syn.feDlo)) ∧ feFull t a = true ∧ t.syn.feDone = true ∧ t.syn.feFull = true) ∧
      (feFull s a = true → SameBytes s t ∧ feFull t a = true ∧ t.syn.feDone = false ∧ t.syn.feRefused = true)) ∧
    (∃ t, exec .feTake s = .next t ∧ SameBytes s t ∧ feFull t a = false ∧
      (feFull s a = true → t.syn.feDhi ++ t.syn.feDlo = BitVec.ofNat 64 (memNat s.mem.bytes a 8) ∧ t.syn.feDone = true) ∧
      (feFull s a = false → t.syn.feDone = false ∧ t.syn.feRefused = true)) ∧
    (∃ t, exec .fePeek s = .next t ∧ SameBytes s t ∧ feFull t a = feFull s a ∧
      t.syn.feDhi ++ t.syn.feDlo = BitVec.ofNat 64 (memNat s.mem.bytes a 8) ∧ t.syn.feDone = true ∧ t.syn.feFull = feFull s a) ∧
    (∀ bit, ∃ t, exec (.feForce bit) s = .next t ∧ SameBytes s t ∧ feFull t a = bit ∧ t.syn.feDone = true)) ∧
  (∀ (s : State) (i : Instr) (op : FeOp), Served s →
    (i, op) ∈ [(Instr.fePut, FeOp.put), (.feTake, .take), (.fePeek, .peek), (.feForce false, .force false), (.feForce true, .force true)] →
    (s.syn.fePend.isSome = true ∨ s.sec.level ≠ 2 ∨ feOk s s.syn.feAddr.toNat = false →
      exec i s = .next { s with syn := { s.syn with feDone := false, feRefused := true } }) ∧
    (s.syn.fePend = none → s.sec.level = 2 → feOk s s.syn.feAddr.toNat = true → s.mem.zeroing = true →
      exec i s = .next { s with syn := { s.syn with
        feDone := false, feRefused := false, fePend := some ⟨op, s.syn.feAddr, s.syn.feDhi ++ s.syn.feDlo⟩ } })) ∧
  (∀ s : State, unitsOn s = true → wmHeld s = false → max s.syn.wmThresh.toNat 0x1000 ≤ s.syn.wmCount.toNat →
    ∃ t, exec .watchmanFire s = .next t ∧ t.syn.dlock = true ∧ t.syn.wmFires = s.syn.wmFires + 1 ∧ t.syn.wmCount = 0 ∧
      (∀ e, (qOf t e).wait = [] ∧ (qOf t e).infl = []) ∧ (∀ k, k < 8 → (watchOf t k).active = false) ∧ t.arr.ops = [] ∧
      t.vec.runs = [] ∧ t.pst.msgs = [] ∧ (s.core.mode ≠ .idle → t.core.mode = .stopped) ∧ t.flt.cont = true ∧
      (∀ o, objOf t o = objOf s o) ∧ SameBytes s t)

/-- Manifest commands: load, arm, disarm, resume, discard, the end of a load, shadow writes and live writes. What a live write does while the core runs is the model's choice (log 63); that a waiting write lands after DISCARD, that a second load and an arm are BUSY while a load waits, and that reserved bits are not held are its readings (log 52, 81 and 83). -/
def Obligations.ManifestCommands : Prop :=
  (∀ s : State, Served s →
    (s.man.armed = none → s.man.load = none → s.man.loadWait = none → s.man.syncing = false →
      exec .manCtrlLoad s = .next { s with man := { s.man with load := some (s.man.loadAddr.toNat, s.man.loadLen.toNat), loadSt := 1 } }) ∧
    (s.man.armed = none → s.man.load = none → s.man.loadWait = none → s.man.syncing = true →
      exec .manCtrlLoad s = .next { s with man := { s.man with loadWait := some (s.man.loadAddr.toNat, s.man.loadLen.toNat), loadSt := 1 } }) ∧
    (s.man.armed = none → s.man.load = none → s.man.loadWait = none →
      exec .manCtrlDiscard s = .next { s with man := { s.man with shadow := s.man.live } }) ∧
    (s.man.armed ≠ none ∨ s.man.load ≠ none ∨ s.man.loadWait ≠ none → ∀ i ∈ [Instr.manCtrlLoad, .manCtrlDiscard],
      (s.man.err = false → exec i s = .next { s with man := { s.man with err := true, errCode := 9, errType := 0, errOff := 0 } }) ∧
      (s.man.err = true → exec i s = .next s)) ∧
    (s.man.load = none → s.man.loadWait = none → s.man.armEpoch = s.man.epochShadow → s.man.armEpoch ≠ s.man.epochCur →
      exec .manCtrlArm s = .next { s with man := { s.man with armed := some s.man.armEpoch } }) ∧
    exec .manCtrlDisarm s = .next { s with man := { s.man with armed := none } } ∧
    exec .manCtrlResume s = .next { s with man := { s.man with resume := s.man.hold } }) ∧
  (∀ (s : State) (a n : Nat) (sh : Tab Byte) (ep : Word), unitsOn s = true → s.man.load = some (a, n) → NoDouble s →
    memWaits s a n = false → loadEval s a n = .pass sh ep →
    ∃ t, exec .manifestLoadDone s = .next t ∧ t.man.load = none ∧ t.man.loadSt = 2 ∧ t.man.shadow = sh ∧ t.man.epochShadow = ep ∧
      t.man.isLive = true ∧ (s.man.isLive = false → t.man.live = sh ∧ t.man.epochCur = ep ∧ t.man.lwin = true) ∧
      (s.man.isLive = true → t.man.live = s.man.live ∧ t.man.epochCur = s.man.epochCur ∧ t.man.lwin = s.man.lwin) ∧
      (s.man.isLive = true ∨ s.pst.fresh = false → SameBytes s t)) ∧
  (∀ (s : State) (b : Bus) (val : Word), busOn s = true → (busOf s b).waiting = [] →
    let cfgOff := s.man.cfgAddr.toNat / 4 * 4
    (s.sec.state = 0 → s.man.syncing = false →
      exec (.shadowWrite b 0x418 val) s = .next { s with man := { s.man with epochShadow := val } } ∧
      (s.man.cfgLive = false → cfgOff < 0x20C0 →
        exec (.shadowWrite b 0x434 val) s = .next { s with man := { s.man with shadow := tWord s.man.shadow cfgOff (storeMask cfgOff) val } })) ∧
    (s.sec.state = 0 → s.man.syncing = true →
      exec (.shadowWrite b 0x418 val) s = .next { s with man := { s.man with waiting := s.man.waiting ++ [.epoch val] } }) ∧
    (s.sec.state ≠ 0 → exec (.shadowWrite b 0x418 val) s = .next { s with man := { s.man with wrej := true } }) ∧
    (b = .dbg → s.man.cfgLive = true → s.sec.state = 0 → s.sec.level = 2 → cfgOff < 0x20C0 →
      exec (.debugLiveWrite val) s = .next { s with man := { s.man with
        live := tWord s.man.live cfgOff (storeMask cfgOff) val, shadow := tWord s.man.shadow cfgOff (storeMask cfgOff) val } }) ∧
    (b = .dbg → s.man.cfgLive = false ∨ s.sec.state ≠ 0 ∨ s.sec.level ≠ 2 → exec (.debugLiveWrite val) s = .next s))

/-- Contexts and reload, rollback, replay and the stash's CLEAR. What the end of a reload leaves of the exchange phase and the load window is the model's reading (log 53). -/
def Obligations.ContextsAndReplay : Prop :=
  (∀ (s : State) (v : Word), Served s →
    ∃ t, exec (.coreCtxWrite v) s = .next t ∧ t = { s with core := { s.core with
      next := v.extractLsb' 4 2, switch := v.getLsbD 8, swrej := s.core.swrej && !v.getLsbD 9
      preSync := { s.core.preSync with sw := none } } }) ∧
  (∀ (s : State) (m : BitVec 4), Served s → m ≠ 0 → s.core.rldBusy = false →
    ∃ t, exec (.coreCtxReload m) s = .next t ∧ t.core = { s.core with mode := .idle, rldBusy := true, rldMask := s.core.rldMask ||| m } ∧
      (∀ e, e < 7 → (qOf t e).wait = [] ∧ (qOf t e).infl = (qOf s e).infl) ∧ (∀ o ∈ t.arr.ops, o.open_ = false) ∧ SameBytes s t) ∧
  (∀ s : State, unitsOn s = true → s.core.rldBusy = true → enginesDone s = true → streamDrained s = true → NothingWaits s → s.xch.due = [] →
    ∃ t, exec .reloadDone s = .next t ∧ t.core.rldBusy = false ∧ t.core.cur = s.core.next ∧ t.core.switch = false ∧ t.core.mode = .idle ∧
      t.man.isLive = false ∧ t.man.armed = none ∧ t.man.hold = false ∧ t.man.lwin = s.man.lwin ∧
      t.core.syncZone = (if s.core.syncArr then 3 else s.core.syncZone) ∧ t.fac.nrmV = (s.fac.nrmV && !s.core.syncArr) ∧
      t.jrnl.cred = [] ∧ t.jrnl.toArr = [] ∧ t.jrnl.toClose = [] ∧ t.jrnl.skip = false ∧ t.xch.failed = false ∧
      (∀ c : BitVec 2, s.core.rldMask.getLsbD c.toNat = true → ctxOf t c = { pc := tabGet 0 s.core.entry c.toNat } ∧ (facOf t c).st = 0) ∧
      (∀ c : BitVec 2, s.core.rldMask.getLsbD c.toNat = false → ctxOf t c = ctxOf s c ∧ facOf t c = facOf s c) ∧ SameBytes s t) ∧
  (∀ (s : State) (m : BitVec 4), Served s →
    ∃ t, exec (.facCtrlRollback m) s = .next t ∧ t = { s with fac := t.fac, sec := t.sec } ∧
      ∀ c : BitVec 2,
        let x := facOf s c
        (m.getLsbD c.toNat = true → x.st = 0 → x.rollok = true → facOf t c = { x with ver := x.ver - 1, step := x.step - 1, rollok := false }) ∧
        (m.getLsbD c.toNat = true → x.st ≠ 0 ∨ x.rollok = false → facOf t c = x ∧ t.fac.rbrej = true) ∧
        (m.getLsbD c.toNat = false → facOf t c = x)) ∧
  (∀ s : State, Served s →
    (s.man.lwin = true → s.jrnl.count ≠ 0 →
      ∃ t, exec .jrnlCtrlReplay s = .next t ∧ t.jrnl.rparm = true ∧ t.jrnl.rpact = false ∧ t.jrnl.skip = false ∧ t.jrnl.rpEnd = s.jrnl.last ∧
        t.core = { s.core with stage := s.jrnl.step - 1 } ∧ (s.jrnl.wstep = true → t.wgh = (wghRestore s).wgh) ∧
        (s.jrnl.wstep = false → t.wgh = s.wgh) ∧ t = { s with core := t.core, wgh := t.wgh, jrnl := t.jrnl }) ∧
    (s.man.lwin = false ∨ s.jrnl.count = 0 → exec .jrnlCtrlReplay s = .next { s with jrnl := { s.jrnl with rprej := true } }) ∧
    (s.jrnl.rparm = true ∨ s.jrnl.rpact = true →
      exec .jrnlCtrlCancel s = .next { s with jrnl := { s.jrnl with rparm := false, rpact := false, rpdone := true, skip := true } }) ∧
    (s.jrnl.rparm = false → s.jrnl.rpact = false → exec .jrnlCtrlCancel s = .next s) ∧
    (depotBusy s = false → ∃ t, exec .memSthCtrlClear s = .next t ∧ (∀ k, entOf t k = {}) ∧ t.sth.order = [] ∧ t.sth.dptr = 0 ∧
      t.sth.clearPend = false ∧ SameBytes s t))

/-- Zeroisation clears memory and what depends on it, its end lets memory be used again but for what the exchange phase reserves, and models the access of every bank word, and the scrubber reads row after row and writes corrected codewords back. When KEY_BUSY falls is the model's reading (log 50); codewords in error come from the state alone (log 76). -/
def Obligations.MemoryUpkeep : Prop :=
  (∀ s : State, Served s →
    ∃ t, exec .memCtrlZero s = .next t ∧ (∀ a, memByte t.mem.bytes a = 0) ∧ t.mem.full = [] ∧ t.mem.ecc = [] ∧ t.mem.zeroing = true ∧
      t.mem.zeroCount = s.mem.zeroCount + 1 ∧ t.sec.codeOk = false ∧ t.sth.ents = [] ∧ t.sth.order = [] ∧ t.jrnl.count = 0 ∧
      t.core = s.core ∧ t.syn = s.syn ∧ t.q = s.q ∧ t.vec.v = [] ∧ t.mem.fullErr = []) ∧
  (∀ s : State, busOn s = true → s.mem.zeroing = true → s.flt.fatal = false → NothingWaits s → s.xch.loadSel = none → s.jrnl.recs = [] →
    ∃ t, exec .zeroisationDone s = .next t ∧ t.mem = { s.mem with zeroing := false, scrubRow := 0, wants := t.mem.wants } ∧ t.sec.stop = false ∧
      (s.mem.xph = false → t.mem.wants = []) ∧
      (∀ w, w ∈ t.mem.wants ↔ s.mem.xph = true ∧ w.banks ≠ 0 ∧ ∃ v ∈ s.mem.wants, w = { v with banks := v.banks &&& s.mem.xres.toNat }) ∧
      t.gov.energy = s.gov.energy + 49152 * coefOf s 4 * scale16 s.gov.vreqCur ∧
      t.sec.endJob = false ∧ (s.sec.endJob = true → t.sec.key = 0 ∧ t.sec.rkey = 0 ∧ t.sec.state = 0) ∧
      (s.sec.endJob = false → t.sec.key = s.sec.key ∧ t.sec.state = s.sec.state)) ∧
  (∀ s : State, unitsOn s = true → s.mem.zeroing = false →
    (∃ t, exec .scrubRead s = .next t ∧ SameBytes s t ∧ t.mem.scrubRow = (s.mem.scrubRow + 1) % 1536 ∧
      (s.mem.scrubRow = 1535 → t.mem.scrubPass = s.mem.scrubPass + 1) ∧ (s.mem.scrubRow < 1535 → t.mem.scrubPass = s.mem.scrubPass)) ∧
    (∀ cw rest, s.mem.wbq = cw :: rest → memWaits s (8 * cw) 8 = false →
      ∃ t, exec .scrubWriteback s = .next t ∧ SameBytes s t ∧ t.mem.wbq = rest ∧
        (tabGet .clean s.mem.ecc cw = .single → tabGet .clean t.mem.ecc cw = .clean) ∧
        (∀ k, k ≠ cw → tabGet .clean t.mem.ecc k = tabGet .clean s.mem.ecc k)))

/-! Faults, governor, ledger, security, debug, resets (14 to 17). -/

/-- The fault unit's commands and a fatal fault. What an injected 0x13 or 0x14 does is the model's reading (log 59), the code of a fatal fault free (log 47), and what AO_UE does in OPEN a reading (log 58); FLT_FATAL takes the new record whatever older one it holds (log 57). -/
def Obligations.FaultCommands : Prop :=
  (∀ s : State, Served s →
    exec .fltCtrlClear s = .next { s with flt := { s.flt with log := [], first := none } } ∧
    (s.man.lwin = true → ∃ t, exec .fltCtrlWrest s = .next t ∧ t = { s with wgh := t.wgh } ∧ t.wgh.l = s.wgh.copyL ∧
      t.wgh.good = s.wgh.copyGood ∧ ∀ k, k < 16 →
        (tabGet ({} : Weigher) t.wgh.w k).s = (tabGet ({} : WCopy) s.wgh.copy k).s ∧
        (tabGet ({} : Weigher) t.wgh.w k).hist = (tabGet ({} : WCopy) s.wgh.copy k).hist ∧
        (tabGet ({} : Weigher) t.wgh.w k).acc = (tabGet ({} : Weigher) s.wgh.w k).acc) ∧
    (s.man.lwin = false → exec .fltCtrlWrest s = .next s) ∧
    (s.flt.fatal = false → exec .fltCtrlFclr s = .next { s with flt := { s.flt with fatalRec := none } }) ∧
    (s.flt.fatal = true → exec .fltCtrlFclr s = .next s) ∧
    (s.sec.level = 2 → 0x10 ≤ s.flt.injCode.toNat → s.flt.injCode.toNat ≤ 0x29 →
      (s.flt.injCode = 0x13 ∨ s.flt.injCode = 0x14 → s.xch.due = [] ∧ s.str.waiting = [] ∧ s.pst.waiting = []) →
      ∃ t r, exec .fltCtrlInj s = .next t ∧ t.flt.log.head? = some r ∧ r.w0.extractLsb' 0 8 = s.flt.injCode ∧ r.w0.extractLsb' 8 2 = 1 ∧
        r.w0.extractLsb' 12 4 = 15 ∧ t.flt.cont = true ∧ t.flt.cntCont = s.flt.cntCont + 1 ∧
        (ctxRuns s = true → s.flt.injCode ≠ 0x13 → s.flt.injCode ≠ 0x14 → t.flt.pend = true ∧ t.flt.haltCtx = some s.core.cur) ∧
        (ctxRuns s = true → s.flt.injCode = 0x13 ∨ s.flt.injCode = 0x14 → t.flt.pend = true ∧ t.man.hold = true ∧
          t.flt.haltCtx = s.flt.haltCtx ∧ t.core.phase = 1 ∧ t.core.mode = s.core.mode ∧ t.xch.run = .off ∧ t.xch.out = none ∧
          t.mem.xph = false ∧ (s.core.syncArr = true → t.core.syncZone = 3 ∧ t.fac.nrmV = false)) ∧
        (ctxRuns s = false → t.flt.pend = s.flt.pend ∧ t.flt.haltCtx = s.flt.haltCtx ∧ t.man = s.man) ∧
        SameBytes s t) ∧
    (s.sec.level = 2 → s.flt.fatal = false → 0x30 ≤ s.flt.injCode.toNat → s.flt.injCode.toNat ≤ 0x34 →
      ∃ t r, exec .fltCtrlInj s = .next t ∧ t.flt.fatal = true ∧ t.flt.fatalRec = some r ∧ r.w0.extractLsb' 0 8 = s.flt.injCode ∧
        r.w0.extractLsb' 8 2 = 2 ∧ r.w0.extractLsb' 12 4 = 15 ∧ t.core.syncArr = false ∧ t.xch.out = none ∧ t.str.out = none) ∧
    (s.sec.level = 2 → s.flt.injCode = 1 ∨ s.flt.injCode = 2 →
      exec .fltCtrlInj s = .next { s with flt := { s.flt with cntCe := s.flt.cntCe + 1 } }) ∧
    (s.flt.injCode = 0 ∨ (3 ≤ s.flt.injCode.toNat ∧ s.flt.injCode.toNat < 0x10) ∨ (0x29 < s.flt.injCode.toNat ∧ s.flt.injCode.toNat < 0x30) ∨
      0x34 < s.flt.injCode.toNat → exec .fltCtrlInj s = .next s) ∧
    (s.sec.level ≠ 2 → exec .fltCtrlInj s = .next s)) ∧
  (∀ s : State, s.pin.coreRst = true → s.flt.fatal = false →
    ∃ t r, exec .fatalFault s = .next t ∧ t.flt.fatal = true ∧ t.flt.fatalRec = some r ∧
      r.w0.extractLsb' 0 8 ∈ [0x30#8, 0x31#8, 0x32#8, 0x33#8, 0x34#8] ∧ r.w0.extractLsb' 8 2 = 2 ∧
      t.core.syncArr = false ∧ t.xch.out = none ∧ t.str.out = none ∧ t.pst.waiting = [] ∧ t.str.waiting = [] ∧
      (s.sec.state = 0 → SameBytes s t ∧ t.sec = s.sec) ∧
      (s.sec.state ≠ 0 → (∀ a, memByte t.mem.bytes a = 0) ∧ t.mem.zeroing = true ∧ t.sec.stop = true ∧ t.sec.key = s.sec.key))

/-- The governor: marker, tariff table, debug cap, windows, mask, request, phases, thermal level, margin monitor and operating point. The rounding of a window's energy and of the voltage factor is the model's reading (log 35 and 44), as is m_last of the mask (log 44). The target of the mask is stated as the floor that R343 gives, over the integers. -/
def Obligations.Governor : Prop :=
  (∀ s : State, Served s →
    exec .govCtrlMark s = .next { s with gov := { s.gov with markArm := true } } ∧
    (∃ t, exec .govCtrlTrfclr s = .next t ∧ t = { s with gov := { s.gov with tariff := t.gov.tariff } } ∧
      ∀ p : BitVec 6, tariffOf t p = { tariffOf s p with n := 0 }) ∧
    (∀ v, s.sec.level = 2 → ∃ t, exec (.govDbgWrite v) s = .next t ∧ t.gov.dbgMask = v.extractLsb' 0 7 ∧ t.gov.dbgEn = v.getLsbD 8 ∧
      effMask t = min (min s.gov.mB (mT s)) (min (if v.getLsbD 8 then min (v.extractLsb' 0 7).toNat 64 else 64) s.gov.mX) ∧
      t = { s with gov := t.gov }) ∧
    (∀ v, s.sec.level ≠ 2 → exec (.govDbgWrite v) s = .next s)) ∧
  (∀ s : State, unitsOn s = true →
    let spent := (s.gov.energy - s.gov.winEnergy) / (65536 * 1000000)
    let allowed := (if s.gov.winAny then s.gov.allowCur else s.gov.allowDflt).toNat
    let budget := allowed - s.gov.debt.toNat
    (∀ allow, ∃ t, exec (.allowanceStrobe allow) s = .next t ∧ t.gov.allowCur = allow ∧ t.gov.winTick = 0 ∧ t.gov.noStrobe = 0 ∧
      t.gov.winOwn = false ∧ t.gov.winAny = true ∧ t.gov.debt.toNat = min (spent - budget) allowed ∧ t.gov.allowMiss = s.gov.allowMiss ∧
      t = { s with gov := t.gov }) ∧
    (12 ≤ s.gov.noStrobe → s.gov.winOwn = false ∨ 10 ≤ s.gov.winTick →
      ∃ t, exec .defaultWindow s = .next t ∧ t.gov.allowCur = s.gov.allowDflt ∧ t.gov.noallow = true ∧
        t.gov.allowMiss = s.gov.allowMiss + 1 ∧ t.gov.winTick = 0 ∧ t.gov.winOwn = true ∧ t = { s with gov := t.gov }) ∧
    (∃ t, exec .maskUpdate s = .next t ∧ t = { s with gov := t.gov } ∧
      s.gov.mB - max 1 s.gov.slew.toNat ≤ t.gov.mB ∧ t.gov.mB ≤ s.gov.mB + max 1 s.gov.slew.toNat ∧ (s.gov.mB ≤ 64 → t.gov.mB ≤ 64) ∧
      (budget * (65536 * 1000000) ≤ s.gov.energy - s.gov.winEnergy → t.gov.mB = s.gov.mB - max 1 s.gov.slew.toNat) ∧
      (s.gov.energy - s.gov.winEnergy < budget * (65536 * 1000000) →
        let r : Int := (budget * (65536 * 1000000) : Nat) - (s.gov.energy - s.gov.winEnergy : Nat)
        -- the a-cycles left in the window at the current point: ten ticks of 6,000 parts each
        let left := ((10 - s.gov.winTick) * 6000 - s.gov.tickGone) * acycTick s.clk.op / 6000
        let n : Int := if left = 0 then 64 else left
        let m := effMask s
        -- drover energy per a-cycle at full issue, as p / d
        let p : Int := if m = 0 then s.gov.pdNum else (s.gov.drover - s.gov.ivDrover : Nat)
        let d : Int := if m = 0 then s.gov.pdDen else m
        let other : Int := (s.gov.energy - s.gov.ivEnergy : Nat) - (s.gov.drover - s.gov.ivDrover : Nat)
        let held := fun (x : Int) => max ((s.gov.mB - max 1 s.gov.slew.toNat : Nat) : Int) (min x (s.gov.mB + max 1 s.gov.slew.toNat : Nat))
        (p = 0 → (t.gov.mB : Int) = held 64) ∧
        (p ≠ 0 → ∃ x : Int, x * (n * p) ≤ (64 * r - n * other) * d ∧ (64 * r - n * other) * d < (x + 1) * (n * p) ∧
          (t.gov.mB : Int) = held (max 0 (min x 64))))) ∧
    (s.gov.winOwn = false → s.gov.reqFixed = false → 8 ≤ s.gov.winTick →
      exec .budgetRequest s = .next { s with gov := { s.gov with reqLast := BitVec.ofNat 16 (nextRequest s), reqV := true, reqFixed := true } }) ∧
    (∀ p, s.gov.pend = some p →
      let n := s.gov.acyc - s.gov.phStart
      let x := tariffOf s s.gov.phaseCur
      ∃ t, exec .phaseBegin s = .next t ∧ t.gov.phaseCur = p.phase ∧ t.gov.pend = none ∧ t.gov.phStart = s.gov.acyc ∧ t.gov.phEnergy = 0 ∧
        (n < 64 → tariffOf t s.gov.phaseCur = x) ∧
        (64 ≤ n → x.n = 0 → tariffOf t s.gov.phaseCur = { e := BitVec.ofNat 32 (s.gov.phEnergy / n), d := BitVec.ofNat 32 n, n := 1 }) ∧
        (64 ≤ n → x.n ≠ 0 →
          (tariffOf t s.gov.phaseCur).e = BitVec.ofInt 32 ((x.e.toNat : Int) + ((s.gov.phEnergy / n : Nat) - (x.e.toNat : Int)) / 8) ∧
          (tariffOf t s.gov.phaseCur).d = BitVec.ofInt 32 ((x.d.toNat : Int) + ((n : Int) - (x.d.toNat : Int)) / 8)) ∧
        t.gov.late = (s.gov.late || p.lateNow) ∧
        (64 ≤ n → (tariffOf t s.gov.phaseCur).n.toNat = min (x.n.toNat + 1) 255) ∧ t = { s with gov := t.gov }) ∧
    (∀ level, ∃ t, exec (.thermalChange level) s = .next t ∧ t.gov.therm = level ∧
      mT t = (if level = 2 then min s.gov.cap2.toNat 64 else if level = 3 then min s.gov.cap3.toNat 64 else 64) ∧
      t.ldg.thex = s.ldg.thex + (if s.gov.therm.toNat < 2 ∧ 2 ≤ level.toNat then 1 else 0) ∧ t = { s with gov := t.gov, ldg := t.ldg }) ∧
    (∀ reading : Byte, s.clk.stretch = false → s.gov.mmInt ≠ 0 → ∃ t, exec (.marginReading reading) s = .next t ∧
      t.gov.mmRead = reading ∧ t.ldg.mmrd = s.ldg.mmrd + 1 ∧ t.ldg.mmlow = s.ldg.mmlow + (if reading.slt s.gov.mmLow then 1 else 0) ∧
      (reading.slt s.gov.mmLow = true → s.gov.runOp = s.clk.op → s.gov.runLow = 2 → s.clk.op.toNat < 5 → trimOf s s.clk.op < 8 →
        trimOf t s.clk.op = trimOf s s.clk.op + 1) ∧
      (reading.slt s.gov.mmLow = false → reading.slt s.gov.mmHigh = true → t.ldg.trim = s.ldg.trim)) ∧
    (∀ op opn : BitVec 3, op.toNat < 5 → opn.toNat < 5 →
      let code := fun (o : BitVec 3) => max 10 (min ([44, 34, 24, 16, 10].getD o.toNat 10 + trimOf s o) 60)
      ∃ t, exec (.operatingPointNotice op opn) s = .next t ∧ t.clk.op = op ∧ t.clk.opn = opn ∧
        (t.gov.vreqCur.toNat : Int) = code op ∧ (t.gov.vreqNxt.toNat : Int) = code opn ∧ t = { s with clk := t.clk, gov := t.gov }))

/-- The ledger: ticks, snapshots, the save port, restore, INIT and the wall-time offset; a record captured from a valid ledger passes the checks of a restore on its own part. What AUTO_SNAPSHOT does during a save, and that a restore shows at once, is the model's reading (log 45 and 69), as are commands of the LDG block that join the MGMT queue in a core reset or behind an access that waits (log 6), how many ticks a change holds (log 46), what a reason's duration counts (log 75), and a strobe of the save port that stands until the next tick (log 90). -/
def Obligations.LedgerCommands : Prop :=
  (∀ s : State, ∃ t, exec .ledgerTick s = .next t ∧ t.ldg = { s.ldg with time := s.ldg.time + 1, pticks := s.ldg.pticks + 1, svV := false } ∧
    t.clk = { s.clk with ticks := s.clk.ticks + 1, opWait := s.clk.opWait - 1 } ∧ t = { s with ldg := t.ldg, clk := t.clk, gov := t.gov } ∧
    (s.pin.coreRst = false ∨ s.flt.fatal = true → t.gov = s.gov) ∧
    (s.pin.coreRst = true → s.flt.fatal = false → ∀ i, i < 8 →
      let x := tabGet ({} : Reason) s.gov.rsn i
      (tabGet ({} : Reason) t.gov.rsn i).dur = x.dur + (if x.on || x.seen then 1 else 0))) ∧
  (∀ s : State, s.pin.coreRst = true → s.bus.mgmt.waiting = [] →
    (s.ldg.savebusy = false → exec .ldgCtrlSnap s = .next { s with ldg := { s.ldg with snapReq := true } }) ∧
    (s.ldg.savebusy = true → exec .ldgCtrlSnap s = .next { s with ldg := { s.ldg with snaprej := true } }) ∧
    (∀ v, exec (.ldgWallofsWrite v) s = .next { s with ldg := { s.ldg with wallofs := v } }) ∧
    (s.ldg.valid = false → s.sec.state = 0 → exec .ldgCtrlInit s = .next { s with ldg := { s.ldg with valid := true } }) ∧
    (s.ldg.valid = true ∨ s.sec.state ≠ 0 → exec .ldgCtrlInit s = .next { s with ldg := { s.ldg with rsterr := true, rsterrCause := 6 } }) ∧
    exec .ldgCtrlRestore s = exec .restoreGo s) ∧
  (∀ (s : State) (i : Instr), s.pin.coreRst = false ∨ s.bus.mgmt.waiting ≠ [] → i ∈ [Instr.ldgCtrlSnap, .ldgCtrlRestore, .ldgCtrlInit] →
    exec i s = .next { s with bus := { s.bus with mgmt := { s.bus.mgmt with waiting := s.bus.mgmt.waiting ++ [i] } } }) ∧
  (∀ s : State,
    (s.ldg.valid = true → exec .restoreGo s = .next { s with ldg := { s.ldg with rsterr := true, rsterrCause := 6 } }) ∧
    (s.ldg.valid = false → restoreCause s = 0 → ∃ t, exec .restoreGo s = .next t ∧ t.ldg.valid = true ∧
      t.ldg.time = s.ldg.time + rbufWord s 2 ∧ t.ldg.wallofs = rbufWord s 3 ∧ t.ldg.pticks = s.ldg.pticks + rbufWord s 4 ∧
      (∀ k, k < 5 → tabGet 0 t.ldg.acyc k = tabGet 0 s.ldg.acyc k + rbufWord s (5 + k)) ∧ t.ldg.mac = s.ldg.mac + rbufWord s 10 ∧
      (∀ k, k < 5 → tabGet 0 t.ldg.trim k = (rbufWord s 15).extractLsb' (5 * k) 5) ∧ t = { s with ldg := t.ldg, gov := t.gov }) ∧
    (∀ (w : BitVec 6) (d : Word), 33 < w.toNat → exec (.restoreWord w d) s = .next s) ∧
    (∀ (w : BitVec 6) (d : Word), w.toNat ≤ 33 → ∃ t, exec (.restoreWord w d) s = .next t ∧ tabGet 0 t.ldg.rbuf w.toNat = d ∧
      (∀ k, k ≠ w.toNat → tabGet 0 t.ldg.rbuf k = tabGet 0 s.ldg.rbuf k) ∧ t = { s with ldg := t.ldg }) ∧
    (s.ldg.snapReq = true → s.ldg.savebusy = false → ∃ t, exec .snapshotCapture s = .next t ∧ t.ldg.seq = s.ldg.seq + 1 ∧ t.ldg.snaprdy = true ∧
      t.ldg.snapReq = false ∧ t.ldg.svReq = true ∧ t.ldg.svIdx = 0 ∧ tabGet 0 t.ldg.snap 5 ++ tabGet 0 t.ldg.snap 4 = s.ldg.time ∧
      tabGet 0 t.ldg.snap 9 ++ tabGet 0 t.ldg.snap 8 = s.ldg.pticks ∧ t = { s with ldg := t.ldg }) ∧
    (s.ldg.auto_ ≠ 0 → s.ldg.savebusy = false → ∃ t, exec .autoSnapshot s = .next t ∧ t.ldg.seq = s.ldg.seq + 1 ∧ t.ldg.svReq = true ∧
      t.ldg.svIdx = 0 ∧ t = { s with ldg := t.ldg }) ∧
    (s.ldg.svReq = true → ∃ t, exec .saveWord s = .next t ∧ t.ldg.svD = tabGet 0 s.ldg.snap s.ldg.svIdx ∧ t.ldg.svIdx = s.ldg.svIdx + 1 ∧
      t.ldg.svReq = decide (s.ldg.svIdx < 33) ∧ t.ldg.savebusy = decide (s.ldg.svIdx < 33) ∧ t.ldg.svV = true ∧ t = { s with ldg := t.ldg })) ∧
  (∀ s u : State, s.ldg.valid = true → u.core.tileId = s.core.tileId → u.ldg.rbuf = (capture s).ldg.snap → restoreCause u = 0)

/-- Obtur: keys, sealing, rekeying, the end of a job, whose keys are cleared and whose state becomes OPEN when its zeroisation has ended, KEY_PERMIT, code loads, the debug level and the step epoch. When KEY_BUSY rises, and the bounds of a code image, are the model's reading (log 50 and 51). -/
def Obligations.SecurityCommands : Prop :=
  (∀ (s : State) (key : BitVec 256) (id : Word), busOn s = true → s.sec.busy = false →
    (s.sec.state = 0 → ∃ t, exec (.keyLd key id false) s = .next t ∧ t.sec.key = key ∧ t.sec.keyId = id ∧ t.sec.state = 0 ∧
      t.sec.seCur = 0 ∧ t = { s with sec := t.sec }) ∧
    (s.sec.state = 0 → ∃ t, exec (.keyLd key id true) s = .next t ∧ t.sec.key = key ∧ t.sec.keyId = id ∧
      t.sec.state = (if s.sec.permit then 2 else 1) ∧ t.sec.busy = true ∧ t.sec.stop = true ∧ t.sec.codeOk = false ∧
      (∀ a, memByte t.mem.bytes a = 0) ∧ t.mem.zeroing = true ∧ t.core.rldBusy = true ∧ t.core.rldMask = 0xF ∧ t.core.mode = .idle) ∧
    (s.sec.state ≠ 0 → exec (.keyLd key id true) s = .next { s with sec := { s.sec with busy := true, rekey := some (key, id) } } ∧
      exec (.keyLd key id false) s = .next s) ∧
    (∃ t, exec .keyEnd s = .next t ∧ t.sec.endJob = true ∧ t.sec.key = s.sec.key ∧ t.sec.state = s.sec.state ∧ t.sec.busy = true ∧
      t.sec.stop = true ∧ t.sec.codeOk = false ∧ t.mem.zeroing = true ∧
      (∀ a, memByte t.mem.bytes a = 0) ∧ t.core.rldBusy = true ∧ t.core.rldMask = 0xF ∧ t.core.mode = .idle ∧
      t.str.jobs = [] ∧ t.str.waiting = [] ∧
      t.str.acks.length = s.str.acks.length + (s.str.waiting.filter (fun p => decide (p.h0.extractLsb' 0 4 = 3))).length)) ∧
  (∀ s : State, busOn s = true → s.mem.zeroing = true → s.sec.endJob = true → s.flt.fatal = false → NothingWaits s → s.xch.loadSel = none →
    ∃ t, exec .zeroisationDone s = .next t ∧ t.sec.key = 0 ∧ t.sec.keyId = 0 ∧ t.sec.rkey = 0 ∧ t.sec.rkeyHeld = false ∧ t.sec.state = 0 ∧
      t.sec.endJob = false ∧ t.sec.stop = false ∧ t.sec.busy = (s.sec.busy && s.sec.rekey.isSome)) ∧
  (∀ (s : State) (key : BitVec 256) (id : Word), unitsOn s = true → s.sec.rekey = some (key, id) → s.str.reads = [] → s.str.writes = [] →
    ∃ t, exec .rekey s = .next t ∧ t.sec.key = key ∧ t.sec.keyId = id ∧ t.sec.rkey = s.sec.key ∧ t.sec.rkeyId = s.sec.keyId ∧
      t.sec.rkeyHeld = true ∧ t.sec.rekey = none ∧ t.sec.busy = false ∧ t.sec.seCur = 0 ∧ t = { s with sec := t.sec }) ∧
  (∀ s : State,
    exec .keyPermitRise s = .next { s with sec := { s.sec with permit := true, state := if s.sec.state = 1 then 2 else s.sec.state } } ∧
    ∃ t, exec .keyPermitFall s = .next t ∧ t.sec.permit = false ∧ t.sec.state = (if s.sec.state = 2 then 1 else s.sec.state) ∧
      t.sec.level.toNat ≤ (ceiling t).toNat ∧ (t.sec.level.toNat < 2 → s.sec.level = 2 → t.dbg.halted = false) ∧
      t = { s with sec := t.sec, dbg := t.dbg }) ∧
  (∀ s : State, Served s →
    (s.sec.codeLoad = none → exec .secCtrlCode s = .next { s with sec := { s.sec with
      codeLoad := some (s.sec.codeAddr.toNat, s.sec.codeLen.toNat), codeState := 1 } }) ∧
    (s.sec.codeLoad ≠ none → exec .secCtrlCode s = .next { s with sec := { s.sec with codeErr := 9 } }) ∧
    exec (.secDbgReqWrite 3) s = .next s ∧
    (∀ l : BitVec 2, l ≠ 3 → l.toNat ≤ (ceiling s).toNat →
      exec (.secDbgReqWrite l) s = .next { s with sec := { s.sec with dbgReq := l, level := l } }) ∧
    (∀ l : BitVec 2, l ≠ 3 → (ceiling s).toNat < l.toNat → ∃ t, exec (.secDbgReqWrite l) s = .next t ∧ t.sec.level = s.sec.level ∧
      t.sec.escal = s.sec.escal + 1 ∧ t.sec.stop = true ∧ t.mem.zeroing = true ∧ (∀ a, memByte t.mem.bytes a = 0) ∧ t.flt.cont = true) ∧
    (∀ v : BitVec 23, s.man.lwin = true → s.sec.seCur.toNat < v.toNat →
      exec (.secSeCurWrite v) s = .next { s with sec := { s.sec with seCur := v } }) ∧
    (∀ v : BitVec 23, s.man.lwin = false ∨ v.toNat ≤ s.sec.seCur.toNat → exec (.secSeCurWrite v) s = .next s)) ∧
  (∀ (s : State) (a n dest : Nat) (p : List Byte), unitsOn s = true → s.sec.codeLoad = some (a, n) → NoDouble s →
    spansWait s (codeLoadSpans s a n) = false → codeEval s a n = .pass dest p → dest + p.length ≤ memTop →
    ∃ t, exec .codeLoadDone s = .next t ∧ Stored s t dest p ∧ t.sec.codeOk = true ∧ t.sec.codeState = 2 ∧ t.sec.codeErr = 0 ∧
      t.sec.codeLoad = none)

/-- The debug unit and the register buses: halt, resume, step, which executes the instruction at the program counter and stays halted, scalar data, program counter, memory window, 64-bit registers, and accesses that wait. How accesses wait, which bus a row takes, and what STEP does outside a halt are the model's reading (log 6, 10 and 64). -/
def Obligations.DebugAndBuses : Prop :=
  (∀ s : State, Served s →
    (s.sec.level = 2 → s.dbg.halted = false → s.core.mode = .run →
      exec .dbgCtrlHalt s = .next { s with dbg := { s.dbg with halted := true, cause := 1 } }) ∧
    (s.sec.level ≠ 2 → exec .dbgCtrlHalt s = .next { s with dbg := { s.dbg with rej := true } } ∧
      exec .dbgCtrlStep s = .next { s with dbg := { s.dbg with rej := true } }) ∧
    exec .dbgCtrlResume s = .next { s with dbg := { s.dbg with halted := false, haltReq := false, stepping := false } } ∧
    (s.sec.level = 2 → s.dbg.halted = true →
      let u := { s with dbg := { s.dbg with stepping := true } }
      (coreOn u = false → exec .dbgCtrlStep s = .next s) ∧
      (coreOn u = true → ∃ t, exec .dbgCtrlStep s = .next t ∧ exec (instrAt u) u = .next t) ∧
      (∀ f : RForm, Runs u 4 → instrAt u = .add f → f.x = false → f.f96 = 0 →
        ∃ t, exec .dbgCtrlStep s = .next t ∧ Wrote (fetched u 4) t f.d (rd s f.a + rd s f.b) 4 ∧
          t.dbg = { s.dbg with halted := true, cause := if s.dbg.haltReq then 1 else 3, haltReq := false, stepping := false } ∧
          (curCtx t).pc = (curCtx s).pc + 4)) ∧
    (∀ v, s.dbg.halted = true → ∃ t, exec (.dbgPcset v) s = .next t ∧ (curCtx t).pc = v.extractLsb' 0 21 &&& ~~~3 ∧
      (∀ r, rd t r = rd s r) ∧ t = { s with core := { s.core with ctxs := t.core.ctxs } })) ∧
  (∀ (s : State) (b : Bus) (v : Word), busOn s = true → (busOf s b).waiting = [] → s.dbg.halted = true →
    let r := s.dbg.ssel
    (∃ t, exec (.dbgSdataAccess b true true v) s = .next t ∧ heldHi t 0x700C = some v ∧ ∀ k, rd t k = rd s k) ∧
    (∃ t, exec (.dbgSdataAccess b false true v) s = .next t ∧ (∀ k, k ≠ r → rd t k = rd s k) ∧
      rd t r = (if r = 0 then 0 else (heldHi s 0x700C).getD ((rd s r).extractLsb' 32 32) ++ v) ∧ heldHi t 0x700C = none) ∧
    (s.sec.level = 2 → ∃ t, exec (.dbgSdataAccess b false false v) s = .next t ∧ (busOf t b).rd = (rd s r).extractLsb' 0 32 ∧
      tabGet 0 t.bus.latch 0x700C = (rd s r).extractLsb' 32 32)) ∧
  (∀ (s : State) (b : Bus) (addr : BitVec 22) (v : Word) (be : BitVec 4), busOn s = true → (busOf s b).waiting = [] → s.sec.level = 2 →
    0x100000 ≤ addr.toNat → addr.toNat < 0x280000 → be ≠ 0 →
    let a := addr.toNat / 4 * 4 - 0x100000
    s.mem.zeroing = false → NoDouble s →
    (∃ t, exec (.memoryWindowAccess b true addr v be) s = .next t ∧
      ∀ x, memByte t.mem.bytes x = if a ≤ x ∧ x < a + 4 ∧ be.getLsbD (x - a) = true then v.extractLsb' (8 * (x - a)) 8 else memByte s.mem.bytes x) ∧
    (∃ t, exec (.memoryWindowAccess b false addr v be) s = .next t ∧ SameBytes s t ∧
      ∀ i, i < 4 → be.getLsbD i = true → (busOf t b).rd.extractLsb' (8 * i) 8 = memByte s.mem.bytes (a + i))) ∧
  (∀ (s : State) (b : Bus) (addr : BitVec 22), busOn s = true → (busOf s b).waiting = [] → addr.toNat < 0x10000 →
    let off := addr.toNat / 4 * 4
    (∀ x : Dword, wideReg s off = some x → allowed s (readNeed off) = true →
      ∃ t, exec (.wideRegisterRead b addr) s = .next t ∧ (busOf t b).rd = x.extractLsb' 0 32 ∧
        tabGet 0 t.bus.latch off = x.extractLsb' 32 32 ∧ t = { s with bus := t.bus }) ∧
    (∀ x : Dword, 4 ≤ off → wideReg s off = none → wideReg s (off - 4) = some x → allowed s (readNeed off) = true →
      (off = 0x7010 → s.dbg.halted = true) →
      ∃ t, exec (.wideRegisterRead b addr) s = .next t ∧ (busOf t b).rd = tabGet 0 s.bus.latch (off - 4) ∧ t = { s with bus := t.bus }) ∧
    (off = 0x7010 → s.dbg.halted = false → allowed s (readNeed off) = true →
      ∃ t, exec (.wideRegisterRead b addr) s = .next t ∧ (busOf t b).rd = 0 ∧ t = { s with bus := t.bus }) ∧
    (∀ v, s.man.lwin = true → addr = 0x10 → ∃ t, exec (.wideRegisterWrite b addr v) s = .next t ∧
      t.core = { s.core with stage := (heldHi s 0x10).getD (s.core.stage.extractLsb' 32 32) ++ v } ∧ heldHi t 0x10 = none) ∧
    (∀ v, s.man.lwin = true → addr = 0x14 → ∃ t, exec (.wideRegisterWrite b addr v) s = .next t ∧ t.core = s.core ∧ heldHi t 0x10 = some v) ∧
    (∀ v, exec (.registerWrite b addr v 0xF) s = .next (writeReg b s off v)) ∧
    (∀ v, exec (.registerWrite b 0x134 v 0xF) s = .next { s with core := { s.core with tileCount := v.extractLsb' 0 21 } }) ∧
    (∀ v be, be ≠ 0xF → exec (.registerWrite b addr v be) s = .next s)) ∧
  (∀ (s : State) (i : Instr), busOn s = false ∨ s.bus.mgmt.waiting ≠ [] →
    i ∈ [Instr.handSetVal, .handSetState, .fePut, .feTake, .fePeek, .manCtrlLoad, .manCtrlArm, .manCtrlDisarm, .manCtrlResume,
      .manCtrlDiscard, .memCtrlZero, .memSthCtrlClear, .jrnlCtrlReplay, .jrnlCtrlCancel, .fltCtrlClear, .fltCtrlWrest, .fltCtrlInj,
      .fltCtrlFclr, .govCtrlMark, .govCtrlTrfclr, .secCtrlCode, .xchTctrlWrite, .dbgCtrlHalt, .dbgCtrlResume, .dbgCtrlStep] →
    exec i s = .next { s with bus := { s.bus with mgmt := { s.bus.mgmt with waiting := s.bus.mgmt.waiting ++ [i] } } })

/-- Resets, isolation and the test wrapper. What a reset drops, and what test operation leaves, is the model's choice (log 55 and 56); so is the clock state that an AO reset leaves (log 8). -/
def Obligations.ResetsAndTest : Prop :=
  (∀ s : State, s.pin.coreRst = true →
    ∃ t, exec .coreResetAssert s = .next t ∧ t.core = {} ∧ t.man = {} ∧ t.syn = {} ∧ t.q = [] ∧ t.arr = {} ∧ t.vec = {} ∧ t.fac = {} ∧
      t.xch = {} ∧ t.str = {} ∧ t.pst = {} ∧ t.gov = {} ∧ t.mem.bytes = s.mem.bytes ∧ t.ldg = s.ldg ∧ t.flt.fatalRec = s.flt.fatalRec ∧
      t.pin.coreRst = false ∧ t.sec.state = (if s.sec.endJob then 0 else s.sec.state) ∧ t.sec.key = (if s.sec.endJob then 0 else s.sec.key) ∧
      (∀ off, 0x5800 ≤ off → off < 0x6000 → heldHi t off = heldHi s off)) ∧
  (∀ s : State, ∃ t, exec .aoReset s = .next t ∧ t.ldg = {} ∧ t.clk = {} ∧ t.flt = {} ∧ t.sec = { permit := s.sec.permit } ∧
    t.pin.coreRst = false ∧ t.pin.firstRst = true ∧ t.core = {} ∧ t.man = {} ∧ ∀ off, heldHi t off = none) ∧
  (∀ (s : State) (id : BitVec 20) (ret : Bool), s.pin.coreRst = false → s.bus.mgmt.waiting = [] → s.bus.dbg.waiting = [] →
    let skip := ret && !s.dft.intrusive
    ∃ t, exec (.coreReset id ret) s = .next t ∧ t.pin.coreRst = true ∧ t.pin.firstRst = false ∧ t.core.tileId = id ∧
      t.core.rstatZskip = skip ∧ t.core.rstatCause = (if s.pin.firstRst then 0 else if ret then 2 else 1) ∧
      t.mem.zeroing = !skip ∧ (skip = true → t.mem.bytes = s.mem.bytes) ∧ (skip = false → t.mem.bytes = []) ∧
      t.dft.intrusive = false ∧ t.sec.level.toNat ≤ (ceiling t).toNat ∧ t.ldg = s.ldg ∧ t.pst.fresh = skip ∧ t.str.inCred = 4 ∧ t.pst.inCred = 1) ∧
  (∀ s : State,
    exec .isoEngage s = .next { s with pin := { s.pin with isoEn := true } } ∧
    exec .isoRelease s = .next { s with pin := { s.pin with isoEn := false } } ∧
    (s.pin.isoEn = true → (ports s).tileIso = true ∧ (ports s).xchOut = none ∧ (ports s).strOut = none ∧ (ports s).postOut = none ∧
      (ports s).syncArr = true ∧ (ports s).syncZone = 3 ∧ (ports s).faultOut = false) ∧
    (s.pin.isoEn = false → s.pin.coreRst = true → s.dft.instr = .bypass →
      (ports s).tileIso = false ∧ (ports s).xchOut = s.xch.out ∧ (ports s).strOut = s.str.out ∧ (ports s).postOut = s.pst.out ∧
      (ports s).syncArr = s.core.syncArr ∧ (ports s).syncZone = s.core.syncZone ∧ (ports s).faultOut = s.flt.fatal ∧
      (ports s).keyBusy = s.sec.busy ∧ (ports s).vreqCur = s.gov.vreqCur ∧ (ports s).vreqNxt = s.gov.vreqNxt ∧
      (ports s).pwrReq = s.gov.reqLast ∧ (ports s).pwrReqV = s.gov.reqV ∧ (ports s).strInCred = s.str.inPulse ∧
      (ports s).postInCred = s.pst.inPulse ∧ (ports s).mgRd = s.bus.mgmt.rd ∧ (ports s).dbRd = s.bus.dbg.rd ∧
      (ports s).ldgSvReq = s.ldg.svReq ∧ (ports s).ldgSvV = s.ldg.svV ∧ (ports s).ldgSvD = s.ldg.svD) ∧
    (s.pin.isoEn = false → s.pin.coreRst = true → s.dft.instr = .extest → ports s = Config.cells s.dft.bnd) ∧
    (∀ (code : BitVec 5) (c : BitVec 7), code = 0 ∨ 8 ≤ code.toNat → wrapperCode code c = .wsBypass) ∧
    exec .wsBypass s = .next { s with dft := { s.dft with instr := .bypass, dr := 0 } } ∧
    exec .wsExtest s = .next { s with free := s.free + 1, dft := { s.dft with instr := .extest, bnd := Config.boundary s.free } } ∧
    exec .mbistResult s = .next { s with dft := { s.dft with instr := .mbistResult, dr := s.dft.mbistRes } } ∧
    exec .idreg s = .next { s with dft := { s.dft with instr := .idreg, dr := 0xFA1C0302 } } ∧
    (∀ c : BitVec 7, ∃ t, exec (.cap c) s = .next t ∧ t.gov.mX = min c.toNat 64 ∧ t.dft.instr = .cap ∧ t = { s with dft := t.dft, gov := t.gov })) ∧
  (∀ (s : State) (i : Instr) (w : WsInstr), (i, w) ∈ [(Instr.wsIntest, WsInstr.intest), (.scan, .scan), (.mbistRun, .mbistRun)] →
    w ≠ .mbistRun ∨ busOn s = true →
    ∃ t, exec i s = .next t ∧ t.dft.instr = w ∧ t.dft.intrusive = true ∧ t.dft.mbistBusy = decide (w = .mbistRun) ∧ t.ldg = s.ldg ∧ t.pin = s.pin ∧
      t.MemOk ∧ t.LogOk ∧ (s.sec.state ≠ 0 → t.sec.key = 0 ∧ t.sec.rkey = 0 ∧ t.sec.state = 0) ∧
      (s.sec.state = 0 → s.sec.endJob = false → t.sec.key = s.sec.key)) ∧
  (∀ (s : State) (r : BitVec 40), busOn s = true → s.dft.mbistBusy = true →
    ∃ t, exec (.mbistDone r) s = .next t ∧ t.dft.mbistBusy = false ∧ t.dft.mbistRes.getLsbD 35 = true ∧
      (∀ k, k ≠ 35 → t.dft.mbistRes.getLsbD k = r.getLsbD k) ∧ t.mem.zeroing = true ∧ ∀ a, memByte t.mem.bytes a = 0)
end

