-- ==== Sys2Proof/Laws/Bytes.lean ====
section
/-! SUPPORT. Bytes and numbers: little-endian round trips, and the lengths of what the cipher gives. -/

namespace Sys2Proof.Machine

theorem leBytes_length {w : Nat} (n : Nat) (v : BitVec w) : (leBytes n v).length = n := by simp [leBytes]

theorem leNat_lt (bs : List Byte) : leNat bs < 256 ^ bs.length := by
  induction bs with
  | nil => simp [leNat]
  | cons b t ih =>
    have hb : b.toNat < 256 := b.isLt
    simp only [leNat, List.length_cons, Nat.pow_succ]
    omega

/-- Byte i of the number that bytes spell is byte i. -/
theorem leNat_byte (bs : List Byte) (i : Nat) (h : i < bs.length) : leNat bs / 256 ^ i % 256 = bs[i].toNat := by
  induction bs generalizing i with
  | nil => cases h
  | cons b t ih =>
    have hb : b.toNat < 256 := b.isLt
    cases i with
    | zero => simp [leNat]; omega
    | succ k =>
      have e : (b.toNat + 256 * leNat t) / 256 ^ (k + 1) = leNat t / 256 ^ k := by
        rw [Nat.pow_succ', ← Nat.div_div_eq_div_mul]
        congr 1
        omega
      simp only [leNat, e, List.getElem_cons_succ]
      exact ih k (by simpa using h)

theorem leBytes_leNat (bs : List Byte) (n : Nat) (h : bs.length = n) : leBytes n (BitVec.ofNat (8 * n) (leNat bs)) = bs := by
  subst h
  have hl : leNat bs % 2 ^ (8 * bs.length) = leNat bs := by
    apply Nat.mod_eq_of_lt
    rw [Nat.pow_mul]
    exact leNat_lt bs
  apply List.ext_getElem (by simp [leBytes])
  intro i h1 h2
  apply BitVec.eq_of_toNat_eq
  have hp : 2 ^ (8 * i) = 256 ^ i := by rw [Nat.pow_mul]
  simp only [leBytes, List.getElem_map, List.getElem_range, BitVec.toNat_ofNat, Nat.shiftRight_eq_div_pow, hl, hp]
  exact leNat_byte bs i h2

theorem tagBytes_tagBits (bs : List Byte) (h : bs.length = 16) : tagBytes (tagBits bs) = bs := leBytes_leNat bs 16 h

theorem blockBytes_blockBits (bs : List Byte) (h : bs.length = 512) : blockBytes (blockBits bs) = bs := leBytes_leNat bs 512 h

theorem gcmTag_length (key : BitVec 256) (iv : BitVec 96) (aad c : List Byte) : (gcmTag key iv aad c).length = 16 := by
  simp [gcmTag, beBytes]

/-- A ciphertext with its own tag opens. -/
theorem gcmOpen_tag (key : BitVec 256) (iv : BitVec 96) (aad c : List Byte) :
    gcmOpen key iv aad c (tagBytes (tagBits (gcmTag key iv aad c))) = some (gcmCrypt key iv c) := by
  rw [tagBytes_tagBits _ (gcmTag_length ..)]
  simp [gcmOpen]

end Sys2Proof.Machine
end

