-- ==== Sys2Proof/Laws/State.lean ====
section
/-! SUPPORT. What an update of one unit leaves in every field of State: one lemma per field per update. -/

namespace Sys2Proof.Machine

variable (s : State)

@[simp] theorem State.modClk_clk (f : Clk → Clk) : (s.modClk f).clk = f s.clk := rfl
@[simp] theorem State.modClk_core (f : Clk → Clk) : (s.modClk f).core = s.core := rfl
@[simp] theorem State.modClk_man (f : Clk → Clk) : (s.modClk f).man = s.man := rfl
@[simp] theorem State.modClk_mem (f : Clk → Clk) : (s.modClk f).mem = s.mem := rfl
@[simp] theorem State.modClk_syn (f : Clk → Clk) : (s.modClk f).syn = s.syn := rfl
@[simp] theorem State.modClk_q (f : Clk → Clk) : (s.modClk f).q = s.q := rfl
@[simp] theorem State.modClk_opId (f : Clk → Clk) : (s.modClk f).opId = s.opId := rfl
@[simp] theorem State.modClk_wgh (f : Clk → Clk) : (s.modClk f).wgh = s.wgh := rfl
@[simp] theorem State.modClk_arr (f : Clk → Clk) : (s.modClk f).arr = s.arr := rfl
@[simp] theorem State.modClk_vec (f : Clk → Clk) : (s.modClk f).vec = s.vec := rfl
@[simp] theorem State.modClk_fac (f : Clk → Clk) : (s.modClk f).fac = s.fac := rfl
@[simp] theorem State.modClk_sth (f : Clk → Clk) : (s.modClk f).sth = s.sth := rfl
@[simp] theorem State.modClk_jrnl (f : Clk → Clk) : (s.modClk f).jrnl = s.jrnl := rfl
@[simp] theorem State.modClk_xch (f : Clk → Clk) : (s.modClk f).xch = s.xch := rfl
@[simp] theorem State.modClk_str (f : Clk → Clk) : (s.modClk f).str = s.str := rfl
@[simp] theorem State.modClk_pst (f : Clk → Clk) : (s.modClk f).pst = s.pst := rfl
@[simp] theorem State.modClk_gov (f : Clk → Clk) : (s.modClk f).gov = s.gov := rfl
@[simp] theorem State.modClk_ldg (f : Clk → Clk) : (s.modClk f).ldg = s.ldg := rfl
@[simp] theorem State.modClk_flt (f : Clk → Clk) : (s.modClk f).flt = s.flt := rfl
@[simp] theorem State.modClk_sec (f : Clk → Clk) : (s.modClk f).sec = s.sec := rfl
@[simp] theorem State.modClk_dbg (f : Clk → Clk) : (s.modClk f).dbg = s.dbg := rfl
@[simp] theorem State.modClk_bus (f : Clk → Clk) : (s.modClk f).bus = s.bus := rfl
@[simp] theorem State.modClk_pin (f : Clk → Clk) : (s.modClk f).pin = s.pin := rfl
@[simp] theorem State.modClk_dft (f : Clk → Clk) : (s.modClk f).dft = s.dft := rfl
@[simp] theorem State.modClk_free (f : Clk → Clk) : (s.modClk f).free = s.free := rfl
@[simp] theorem State.modClk_pending (f : Clk → Clk) : (s.modClk f).pending = s.pending := rfl

@[simp] theorem State.modCore_clk (f : Core → Core) : (s.modCore f).clk = s.clk := rfl
@[simp] theorem State.modCore_core (f : Core → Core) : (s.modCore f).core = f s.core := rfl
@[simp] theorem State.modCore_man (f : Core → Core) : (s.modCore f).man = s.man := rfl
@[simp] theorem State.modCore_mem (f : Core → Core) : (s.modCore f).mem = s.mem := rfl
@[simp] theorem State.modCore_syn (f : Core → Core) : (s.modCore f).syn = s.syn := rfl
@[simp] theorem State.modCore_q (f : Core → Core) : (s.modCore f).q = s.q := rfl
@[simp] theorem State.modCore_opId (f : Core → Core) : (s.modCore f).opId = s.opId := rfl
@[simp] theorem State.modCore_wgh (f : Core → Core) : (s.modCore f).wgh = s.wgh := rfl
@[simp] theorem State.modCore_arr (f : Core → Core) : (s.modCore f).arr = s.arr := rfl
@[simp] theorem State.modCore_vec (f : Core → Core) : (s.modCore f).vec = s.vec := rfl
@[simp] theorem State.modCore_fac (f : Core → Core) : (s.modCore f).fac = s.fac := rfl
@[simp] theorem State.modCore_sth (f : Core → Core) : (s.modCore f).sth = s.sth := rfl
@[simp] theorem State.modCore_jrnl (f : Core → Core) : (s.modCore f).jrnl = s.jrnl := rfl
@[simp] theorem State.modCore_xch (f : Core → Core) : (s.modCore f).xch = s.xch := rfl
@[simp] theorem State.modCore_str (f : Core → Core) : (s.modCore f).str = s.str := rfl
@[simp] theorem State.modCore_pst (f : Core → Core) : (s.modCore f).pst = s.pst := rfl
@[simp] theorem State.modCore_gov (f : Core → Core) : (s.modCore f).gov = s.gov := rfl
@[simp] theorem State.modCore_ldg (f : Core → Core) : (s.modCore f).ldg = s.ldg := rfl
@[simp] theorem State.modCore_flt (f : Core → Core) : (s.modCore f).flt = s.flt := rfl
@[simp] theorem State.modCore_sec (f : Core → Core) : (s.modCore f).sec = s.sec := rfl
@[simp] theorem State.modCore_dbg (f : Core → Core) : (s.modCore f).dbg = s.dbg := rfl
@[simp] theorem State.modCore_bus (f : Core → Core) : (s.modCore f).bus = s.bus := rfl
@[simp] theorem State.modCore_pin (f : Core → Core) : (s.modCore f).pin = s.pin := rfl
@[simp] theorem State.modCore_dft (f : Core → Core) : (s.modCore f).dft = s.dft := rfl
@[simp] theorem State.modCore_free (f : Core → Core) : (s.modCore f).free = s.free := rfl
@[simp] theorem State.modCore_pending (f : Core → Core) : (s.modCore f).pending = s.pending := rfl

@[simp] theorem State.modMan_clk (f : Man → Man) : (s.modMan f).clk = s.clk := rfl
@[simp] theorem State.modMan_core (f : Man → Man) : (s.modMan f).core = s.core := rfl
@[simp] theorem State.modMan_man (f : Man → Man) : (s.modMan f).man = f s.man := rfl
@[simp] theorem State.modMan_mem (f : Man → Man) : (s.modMan f).mem = s.mem := rfl
@[simp] theorem State.modMan_syn (f : Man → Man) : (s.modMan f).syn = s.syn := rfl
@[simp] theorem State.modMan_q (f : Man → Man) : (s.modMan f).q = s.q := rfl
@[simp] theorem State.modMan_opId (f : Man → Man) : (s.modMan f).opId = s.opId := rfl
@[simp] theorem State.modMan_wgh (f : Man → Man) : (s.modMan f).wgh = s.wgh := rfl
@[simp] theorem State.modMan_arr (f : Man → Man) : (s.modMan f).arr = s.arr := rfl
@[simp] theorem State.modMan_vec (f : Man → Man) : (s.modMan f).vec = s.vec := rfl
@[simp] theorem State.modMan_fac (f : Man → Man) : (s.modMan f).fac = s.fac := rfl
@[simp] theorem State.modMan_sth (f : Man → Man) : (s.modMan f).sth = s.sth := rfl
@[simp] theorem State.modMan_jrnl (f : Man → Man) : (s.modMan f).jrnl = s.jrnl := rfl
@[simp] theorem State.modMan_xch (f : Man → Man) : (s.modMan f).xch = s.xch := rfl
@[simp] theorem State.modMan_str (f : Man → Man) : (s.modMan f).str = s.str := rfl
@[simp] theorem State.modMan_pst (f : Man → Man) : (s.modMan f).pst = s.pst := rfl
@[simp] theorem State.modMan_gov (f : Man → Man) : (s.modMan f).gov = s.gov := rfl
@[simp] theorem State.modMan_ldg (f : Man → Man) : (s.modMan f).ldg = s.ldg := rfl
@[simp] theorem State.modMan_flt (f : Man → Man) : (s.modMan f).flt = s.flt := rfl
@[simp] theorem State.modMan_sec (f : Man → Man) : (s.modMan f).sec = s.sec := rfl
@[simp] theorem State.modMan_dbg (f : Man → Man) : (s.modMan f).dbg = s.dbg := rfl
@[simp] theorem State.modMan_bus (f : Man → Man) : (s.modMan f).bus = s.bus := rfl
@[simp] theorem State.modMan_pin (f : Man → Man) : (s.modMan f).pin = s.pin := rfl
@[simp] theorem State.modMan_dft (f : Man → Man) : (s.modMan f).dft = s.dft := rfl
@[simp] theorem State.modMan_free (f : Man → Man) : (s.modMan f).free = s.free := rfl
@[simp] theorem State.modMan_pending (f : Man → Man) : (s.modMan f).pending = s.pending := rfl

@[simp] theorem State.modMem_clk (f : Mem → Mem) : (s.modMem f).clk = s.clk := rfl
@[simp] theorem State.modMem_core (f : Mem → Mem) : (s.modMem f).core = s.core := rfl
@[simp] theorem State.modMem_man (f : Mem → Mem) : (s.modMem f).man = s.man := rfl
@[simp] theorem State.modMem_mem (f : Mem → Mem) : (s.modMem f).mem = f s.mem := rfl
@[simp] theorem State.modMem_syn (f : Mem → Mem) : (s.modMem f).syn = s.syn := rfl
@[simp] theorem State.modMem_q (f : Mem → Mem) : (s.modMem f).q = s.q := rfl
@[simp] theorem State.modMem_opId (f : Mem → Mem) : (s.modMem f).opId = s.opId := rfl
@[simp] theorem State.modMem_wgh (f : Mem → Mem) : (s.modMem f).wgh = s.wgh := rfl
@[simp] theorem State.modMem_arr (f : Mem → Mem) : (s.modMem f).arr = s.arr := rfl
@[simp] theorem State.modMem_vec (f : Mem → Mem) : (s.modMem f).vec = s.vec := rfl
@[simp] theorem State.modMem_fac (f : Mem → Mem) : (s.modMem f).fac = s.fac := rfl
@[simp] theorem State.modMem_sth (f : Mem → Mem) : (s.modMem f).sth = s.sth := rfl
@[simp] theorem State.modMem_jrnl (f : Mem → Mem) : (s.modMem f).jrnl = s.jrnl := rfl
@[simp] theorem State.modMem_xch (f : Mem → Mem) : (s.modMem f).xch = s.xch := rfl
@[simp] theorem State.modMem_str (f : Mem → Mem) : (s.modMem f).str = s.str := rfl
@[simp] theorem State.modMem_pst (f : Mem → Mem) : (s.modMem f).pst = s.pst := rfl
@[simp] theorem State.modMem_gov (f : Mem → Mem) : (s.modMem f).gov = s.gov := rfl
@[simp] theorem State.modMem_ldg (f : Mem → Mem) : (s.modMem f).ldg = s.ldg := rfl
@[simp] theorem State.modMem_flt (f : Mem → Mem) : (s.modMem f).flt = s.flt := rfl
@[simp] theorem State.modMem_sec (f : Mem → Mem) : (s.modMem f).sec = s.sec := rfl
@[simp] theorem State.modMem_dbg (f : Mem → Mem) : (s.modMem f).dbg = s.dbg := rfl
@[simp] theorem State.modMem_bus (f : Mem → Mem) : (s.modMem f).bus = s.bus := rfl
@[simp] theorem State.modMem_pin (f : Mem → Mem) : (s.modMem f).pin = s.pin := rfl
@[simp] theorem State.modMem_dft (f : Mem → Mem) : (s.modMem f).dft = s.dft := rfl
@[simp] theorem State.modMem_free (f : Mem → Mem) : (s.modMem f).free = s.free := rfl
@[simp] theorem State.modMem_pending (f : Mem → Mem) : (s.modMem f).pending = s.pending := rfl

@[simp] theorem State.modSyn_clk (f : Syn → Syn) : (s.modSyn f).clk = s.clk := rfl
@[simp] theorem State.modSyn_core (f : Syn → Syn) : (s.modSyn f).core = s.core := rfl
@[simp] theorem State.modSyn_man (f : Syn → Syn) : (s.modSyn f).man = s.man := rfl
@[simp] theorem State.modSyn_mem (f : Syn → Syn) : (s.modSyn f).mem = s.mem := rfl
@[simp] theorem State.modSyn_syn (f : Syn → Syn) : (s.modSyn f).syn = f s.syn := rfl
@[simp] theorem State.modSyn_q (f : Syn → Syn) : (s.modSyn f).q = s.q := rfl
@[simp] theorem State.modSyn_opId (f : Syn → Syn) : (s.modSyn f).opId = s.opId := rfl
@[simp] theorem State.modSyn_wgh (f : Syn → Syn) : (s.modSyn f).wgh = s.wgh := rfl
@[simp] theorem State.modSyn_arr (f : Syn → Syn) : (s.modSyn f).arr = s.arr := rfl
@[simp] theorem State.modSyn_vec (f : Syn → Syn) : (s.modSyn f).vec = s.vec := rfl
@[simp] theorem State.modSyn_fac (f : Syn → Syn) : (s.modSyn f).fac = s.fac := rfl
@[simp] theorem State.modSyn_sth (f : Syn → Syn) : (s.modSyn f).sth = s.sth := rfl
@[simp] theorem State.modSyn_jrnl (f : Syn → Syn) : (s.modSyn f).jrnl = s.jrnl := rfl
@[simp] theorem State.modSyn_xch (f : Syn → Syn) : (s.modSyn f).xch = s.xch := rfl
@[simp] theorem State.modSyn_str (f : Syn → Syn) : (s.modSyn f).str = s.str := rfl
@[simp] theorem State.modSyn_pst (f : Syn → Syn) : (s.modSyn f).pst = s.pst := rfl
@[simp] theorem State.modSyn_gov (f : Syn → Syn) : (s.modSyn f).gov = s.gov := rfl
@[simp] theorem State.modSyn_ldg (f : Syn → Syn) : (s.modSyn f).ldg = s.ldg := rfl
@[simp] theorem State.modSyn_flt (f : Syn → Syn) : (s.modSyn f).flt = s.flt := rfl
@[simp] theorem State.modSyn_sec (f : Syn → Syn) : (s.modSyn f).sec = s.sec := rfl
@[simp] theorem State.modSyn_dbg (f : Syn → Syn) : (s.modSyn f).dbg = s.dbg := rfl
@[simp] theorem State.modSyn_bus (f : Syn → Syn) : (s.modSyn f).bus = s.bus := rfl
@[simp] theorem State.modSyn_pin (f : Syn → Syn) : (s.modSyn f).pin = s.pin := rfl
@[simp] theorem State.modSyn_dft (f : Syn → Syn) : (s.modSyn f).dft = s.dft := rfl
@[simp] theorem State.modSyn_free (f : Syn → Syn) : (s.modSyn f).free = s.free := rfl
@[simp] theorem State.modSyn_pending (f : Syn → Syn) : (s.modSyn f).pending = s.pending := rfl

@[simp] theorem State.modWgh_clk (f : Wgh → Wgh) : (s.modWgh f).clk = s.clk := rfl
@[simp] theorem State.modWgh_core (f : Wgh → Wgh) : (s.modWgh f).core = s.core := rfl
@[simp] theorem State.modWgh_man (f : Wgh → Wgh) : (s.modWgh f).man = s.man := rfl
@[simp] theorem State.modWgh_mem (f : Wgh → Wgh) : (s.modWgh f).mem = s.mem := rfl
@[simp] theorem State.modWgh_syn (f : Wgh → Wgh) : (s.modWgh f).syn = s.syn := rfl
@[simp] theorem State.modWgh_q (f : Wgh → Wgh) : (s.modWgh f).q = s.q := rfl
@[simp] theorem State.modWgh_opId (f : Wgh → Wgh) : (s.modWgh f).opId = s.opId := rfl
@[simp] theorem State.modWgh_wgh (f : Wgh → Wgh) : (s.modWgh f).wgh = f s.wgh := rfl
@[simp] theorem State.modWgh_arr (f : Wgh → Wgh) : (s.modWgh f).arr = s.arr := rfl
@[simp] theorem State.modWgh_vec (f : Wgh → Wgh) : (s.modWgh f).vec = s.vec := rfl
@[simp] theorem State.modWgh_fac (f : Wgh → Wgh) : (s.modWgh f).fac = s.fac := rfl
@[simp] theorem State.modWgh_sth (f : Wgh → Wgh) : (s.modWgh f).sth = s.sth := rfl
@[simp] theorem State.modWgh_jrnl (f : Wgh → Wgh) : (s.modWgh f).jrnl = s.jrnl := rfl
@[simp] theorem State.modWgh_xch (f : Wgh → Wgh) : (s.modWgh f).xch = s.xch := rfl
@[simp] theorem State.modWgh_str (f : Wgh → Wgh) : (s.modWgh f).str = s.str := rfl
@[simp] theorem State.modWgh_pst (f : Wgh → Wgh) : (s.modWgh f).pst = s.pst := rfl
@[simp] theorem State.modWgh_gov (f : Wgh → Wgh) : (s.modWgh f).gov = s.gov := rfl
@[simp] theorem State.modWgh_ldg (f : Wgh → Wgh) : (s.modWgh f).ldg = s.ldg := rfl
@[simp] theorem State.modWgh_flt (f : Wgh → Wgh) : (s.modWgh f).flt = s.flt := rfl
@[simp] theorem State.modWgh_sec (f : Wgh → Wgh) : (s.modWgh f).sec = s.sec := rfl
@[simp] theorem State.modWgh_dbg (f : Wgh → Wgh) : (s.modWgh f).dbg = s.dbg := rfl
@[simp] theorem State.modWgh_bus (f : Wgh → Wgh) : (s.modWgh f).bus = s.bus := rfl
@[simp] theorem State.modWgh_pin (f : Wgh → Wgh) : (s.modWgh f).pin = s.pin := rfl
@[simp] theorem State.modWgh_dft (f : Wgh → Wgh) : (s.modWgh f).dft = s.dft := rfl
@[simp] theorem State.modWgh_free (f : Wgh → Wgh) : (s.modWgh f).free = s.free := rfl
@[simp] theorem State.modWgh_pending (f : Wgh → Wgh) : (s.modWgh f).pending = s.pending := rfl

@[simp] theorem State.modArr_clk (f : Arr → Arr) : (s.modArr f).clk = s.clk := rfl
@[simp] theorem State.modArr_core (f : Arr → Arr) : (s.modArr f).core = s.core := rfl
@[simp] theorem State.modArr_man (f : Arr → Arr) : (s.modArr f).man = s.man := rfl
@[simp] theorem State.modArr_mem (f : Arr → Arr) : (s.modArr f).mem = s.mem := rfl
@[simp] theorem State.modArr_syn (f : Arr → Arr) : (s.modArr f).syn = s.syn := rfl
@[simp] theorem State.modArr_q (f : Arr → Arr) : (s.modArr f).q = s.q := rfl
@[simp] theorem State.modArr_opId (f : Arr → Arr) : (s.modArr f).opId = s.opId := rfl
@[simp] theorem State.modArr_wgh (f : Arr → Arr) : (s.modArr f).wgh = s.wgh := rfl
@[simp] theorem State.modArr_arr (f : Arr → Arr) : (s.modArr f).arr = f s.arr := rfl
@[simp] theorem State.modArr_vec (f : Arr → Arr) : (s.modArr f).vec = s.vec := rfl
@[simp] theorem State.modArr_fac (f : Arr → Arr) : (s.modArr f).fac = s.fac := rfl
@[simp] theorem State.modArr_sth (f : Arr → Arr) : (s.modArr f).sth = s.sth := rfl
@[simp] theorem State.modArr_jrnl (f : Arr → Arr) : (s.modArr f).jrnl = s.jrnl := rfl
@[simp] theorem State.modArr_xch (f : Arr → Arr) : (s.modArr f).xch = s.xch := rfl
@[simp] theorem State.modArr_str (f : Arr → Arr) : (s.modArr f).str = s.str := rfl
@[simp] theorem State.modArr_pst (f : Arr → Arr) : (s.modArr f).pst = s.pst := rfl
@[simp] theorem State.modArr_gov (f : Arr → Arr) : (s.modArr f).gov = s.gov := rfl
@[simp] theorem State.modArr_ldg (f : Arr → Arr) : (s.modArr f).ldg = s.ldg := rfl
@[simp] theorem State.modArr_flt (f : Arr → Arr) : (s.modArr f).flt = s.flt := rfl
@[simp] theorem State.modArr_sec (f : Arr → Arr) : (s.modArr f).sec = s.sec := rfl
@[simp] theorem State.modArr_dbg (f : Arr → Arr) : (s.modArr f).dbg = s.dbg := rfl
@[simp] theorem State.modArr_bus (f : Arr → Arr) : (s.modArr f).bus = s.bus := rfl
@[simp] theorem State.modArr_pin (f : Arr → Arr) : (s.modArr f).pin = s.pin := rfl
@[simp] theorem State.modArr_dft (f : Arr → Arr) : (s.modArr f).dft = s.dft := rfl
@[simp] theorem State.modArr_free (f : Arr → Arr) : (s.modArr f).free = s.free := rfl
@[simp] theorem State.modArr_pending (f : Arr → Arr) : (s.modArr f).pending = s.pending := rfl

@[simp] theorem State.modVec_clk (f : Vec → Vec) : (s.modVec f).clk = s.clk := rfl
@[simp] theorem State.modVec_core (f : Vec → Vec) : (s.modVec f).core = s.core := rfl
@[simp] theorem State.modVec_man (f : Vec → Vec) : (s.modVec f).man = s.man := rfl
@[simp] theorem State.modVec_mem (f : Vec → Vec) : (s.modVec f).mem = s.mem := rfl
@[simp] theorem State.modVec_syn (f : Vec → Vec) : (s.modVec f).syn = s.syn := rfl
@[simp] theorem State.modVec_q (f : Vec → Vec) : (s.modVec f).q = s.q := rfl
@[simp] theorem State.modVec_opId (f : Vec → Vec) : (s.modVec f).opId = s.opId := rfl
@[simp] theorem State.modVec_wgh (f : Vec → Vec) : (s.modVec f).wgh = s.wgh := rfl
@[simp] theorem State.modVec_arr (f : Vec → Vec) : (s.modVec f).arr = s.arr := rfl
@[simp] theorem State.modVec_vec (f : Vec → Vec) : (s.modVec f).vec = f s.vec := rfl
@[simp] theorem State.modVec_fac (f : Vec → Vec) : (s.modVec f).fac = s.fac := rfl
@[simp] theorem State.modVec_sth (f : Vec → Vec) : (s.modVec f).sth = s.sth := rfl
@[simp] theorem State.modVec_jrnl (f : Vec → Vec) : (s.modVec f).jrnl = s.jrnl := rfl
@[simp] theorem State.modVec_xch (f : Vec → Vec) : (s.modVec f).xch = s.xch := rfl
@[simp] theorem State.modVec_str (f : Vec → Vec) : (s.modVec f).str = s.str := rfl
@[simp] theorem State.modVec_pst (f : Vec → Vec) : (s.modVec f).pst = s.pst := rfl
@[simp] theorem State.modVec_gov (f : Vec → Vec) : (s.modVec f).gov = s.gov := rfl
@[simp] theorem State.modVec_ldg (f : Vec → Vec) : (s.modVec f).ldg = s.ldg := rfl
@[simp] theorem State.modVec_flt (f : Vec → Vec) : (s.modVec f).flt = s.flt := rfl
@[simp] theorem State.modVec_sec (f : Vec → Vec) : (s.modVec f).sec = s.sec := rfl
@[simp] theorem State.modVec_dbg (f : Vec → Vec) : (s.modVec f).dbg = s.dbg := rfl
@[simp] theorem State.modVec_bus (f : Vec → Vec) : (s.modVec f).bus = s.bus := rfl
@[simp] theorem State.modVec_pin (f : Vec → Vec) : (s.modVec f).pin = s.pin := rfl
@[simp] theorem State.modVec_dft (f : Vec → Vec) : (s.modVec f).dft = s.dft := rfl
@[simp] theorem State.modVec_free (f : Vec → Vec) : (s.modVec f).free = s.free := rfl
@[simp] theorem State.modVec_pending (f : Vec → Vec) : (s.modVec f).pending = s.pending := rfl

@[simp] theorem State.modFac_clk (f : Fac → Fac) : (s.modFac f).clk = s.clk := rfl
@[simp] theorem State.modFac_core (f : Fac → Fac) : (s.modFac f).core = s.core := rfl
@[simp] theorem State.modFac_man (f : Fac → Fac) : (s.modFac f).man = s.man := rfl
@[simp] theorem State.modFac_mem (f : Fac → Fac) : (s.modFac f).mem = s.mem := rfl
@[simp] theorem State.modFac_syn (f : Fac → Fac) : (s.modFac f).syn = s.syn := rfl
@[simp] theorem State.modFac_q (f : Fac → Fac) : (s.modFac f).q = s.q := rfl
@[simp] theorem State.modFac_opId (f : Fac → Fac) : (s.modFac f).opId = s.opId := rfl
@[simp] theorem State.modFac_wgh (f : Fac → Fac) : (s.modFac f).wgh = s.wgh := rfl
@[simp] theorem State.modFac_arr (f : Fac → Fac) : (s.modFac f).arr = s.arr := rfl
@[simp] theorem State.modFac_vec (f : Fac → Fac) : (s.modFac f).vec = s.vec := rfl
@[simp] theorem State.modFac_fac (f : Fac → Fac) : (s.modFac f).fac = f s.fac := rfl
@[simp] theorem State.modFac_sth (f : Fac → Fac) : (s.modFac f).sth = s.sth := rfl
@[simp] theorem State.modFac_jrnl (f : Fac → Fac) : (s.modFac f).jrnl = s.jrnl := rfl
@[simp] theorem State.modFac_xch (f : Fac → Fac) : (s.modFac f).xch = s.xch := rfl
@[simp] theorem State.modFac_str (f : Fac → Fac) : (s.modFac f).str = s.str := rfl
@[simp] theorem State.modFac_pst (f : Fac → Fac) : (s.modFac f).pst = s.pst := rfl
@[simp] theorem State.modFac_gov (f : Fac → Fac) : (s.modFac f).gov = s.gov := rfl
@[simp] theorem State.modFac_ldg (f : Fac → Fac) : (s.modFac f).ldg = s.ldg := rfl
@[simp] theorem State.modFac_flt (f : Fac → Fac) : (s.modFac f).flt = s.flt := rfl
@[simp] theorem State.modFac_sec (f : Fac → Fac) : (s.modFac f).sec = s.sec := rfl
@[simp] theorem State.modFac_dbg (f : Fac → Fac) : (s.modFac f).dbg = s.dbg := rfl
@[simp] theorem State.modFac_bus (f : Fac → Fac) : (s.modFac f).bus = s.bus := rfl
@[simp] theorem State.modFac_pin (f : Fac → Fac) : (s.modFac f).pin = s.pin := rfl
@[simp] theorem State.modFac_dft (f : Fac → Fac) : (s.modFac f).dft = s.dft := rfl
@[simp] theorem State.modFac_free (f : Fac → Fac) : (s.modFac f).free = s.free := rfl
@[simp] theorem State.modFac_pending (f : Fac → Fac) : (s.modFac f).pending = s.pending := rfl

@[simp] theorem State.modSth_clk (f : Sth → Sth) : (s.modSth f).clk = s.clk := rfl
@[simp] theorem State.modSth_core (f : Sth → Sth) : (s.modSth f).core = s.core := rfl
@[simp] theorem State.modSth_man (f : Sth → Sth) : (s.modSth f).man = s.man := rfl
@[simp] theorem State.modSth_mem (f : Sth → Sth) : (s.modSth f).mem = s.mem := rfl
@[simp] theorem State.modSth_syn (f : Sth → Sth) : (s.modSth f).syn = s.syn := rfl
@[simp] theorem State.modSth_q (f : Sth → Sth) : (s.modSth f).q = s.q := rfl
@[simp] theorem State.modSth_opId (f : Sth → Sth) : (s.modSth f).opId = s.opId := rfl
@[simp] theorem State.modSth_wgh (f : Sth → Sth) : (s.modSth f).wgh = s.wgh := rfl
@[simp] theorem State.modSth_arr (f : Sth → Sth) : (s.modSth f).arr = s.arr := rfl
@[simp] theorem State.modSth_vec (f : Sth → Sth) : (s.modSth f).vec = s.vec := rfl
@[simp] theorem State.modSth_fac (f : Sth → Sth) : (s.modSth f).fac = s.fac := rfl
@[simp] theorem State.modSth_sth (f : Sth → Sth) : (s.modSth f).sth = f s.sth := rfl
@[simp] theorem State.modSth_jrnl (f : Sth → Sth) : (s.modSth f).jrnl = s.jrnl := rfl
@[simp] theorem State.modSth_xch (f : Sth → Sth) : (s.modSth f).xch = s.xch := rfl
@[simp] theorem State.modSth_str (f : Sth → Sth) : (s.modSth f).str = s.str := rfl
@[simp] theorem State.modSth_pst (f : Sth → Sth) : (s.modSth f).pst = s.pst := rfl
@[simp] theorem State.modSth_gov (f : Sth → Sth) : (s.modSth f).gov = s.gov := rfl
@[simp] theorem State.modSth_ldg (f : Sth → Sth) : (s.modSth f).ldg = s.ldg := rfl
@[simp] theorem State.modSth_flt (f : Sth → Sth) : (s.modSth f).flt = s.flt := rfl
@[simp] theorem State.modSth_sec (f : Sth → Sth) : (s.modSth f).sec = s.sec := rfl
@[simp] theorem State.modSth_dbg (f : Sth → Sth) : (s.modSth f).dbg = s.dbg := rfl
@[simp] theorem State.modSth_bus (f : Sth → Sth) : (s.modSth f).bus = s.bus := rfl
@[simp] theorem State.modSth_pin (f : Sth → Sth) : (s.modSth f).pin = s.pin := rfl
@[simp] theorem State.modSth_dft (f : Sth → Sth) : (s.modSth f).dft = s.dft := rfl
@[simp] theorem State.modSth_free (f : Sth → Sth) : (s.modSth f).free = s.free := rfl
@[simp] theorem State.modSth_pending (f : Sth → Sth) : (s.modSth f).pending = s.pending := rfl

@[simp] theorem State.modJrnl_clk (f : Jrnl → Jrnl) : (s.modJrnl f).clk = s.clk := rfl
@[simp] theorem State.modJrnl_core (f : Jrnl → Jrnl) : (s.modJrnl f).core = s.core := rfl
@[simp] theorem State.modJrnl_man (f : Jrnl → Jrnl) : (s.modJrnl f).man = s.man := rfl
@[simp] theorem State.modJrnl_mem (f : Jrnl → Jrnl) : (s.modJrnl f).mem = s.mem := rfl
@[simp] theorem State.modJrnl_syn (f : Jrnl → Jrnl) : (s.modJrnl f).syn = s.syn := rfl
@[simp] theorem State.modJrnl_q (f : Jrnl → Jrnl) : (s.modJrnl f).q = s.q := rfl
@[simp] theorem State.modJrnl_opId (f : Jrnl → Jrnl) : (s.modJrnl f).opId = s.opId := rfl
@[simp] theorem State.modJrnl_wgh (f : Jrnl → Jrnl) : (s.modJrnl f).wgh = s.wgh := rfl
@[simp] theorem State.modJrnl_arr (f : Jrnl → Jrnl) : (s.modJrnl f).arr = s.arr := rfl
@[simp] theorem State.modJrnl_vec (f : Jrnl → Jrnl) : (s.modJrnl f).vec = s.vec := rfl
@[simp] theorem State.modJrnl_fac (f : Jrnl → Jrnl) : (s.modJrnl f).fac = s.fac := rfl
@[simp] theorem State.modJrnl_sth (f : Jrnl → Jrnl) : (s.modJrnl f).sth = s.sth := rfl
@[simp] theorem State.modJrnl_jrnl (f : Jrnl → Jrnl) : (s.modJrnl f).jrnl = f s.jrnl := rfl
@[simp] theorem State.modJrnl_xch (f : Jrnl → Jrnl) : (s.modJrnl f).xch = s.xch := rfl
@[simp] theorem State.modJrnl_str (f : Jrnl → Jrnl) : (s.modJrnl f).str = s.str := rfl
@[simp] theorem State.modJrnl_pst (f : Jrnl → Jrnl) : (s.modJrnl f).pst = s.pst := rfl
@[simp] theorem State.modJrnl_gov (f : Jrnl → Jrnl) : (s.modJrnl f).gov = s.gov := rfl
@[simp] theorem State.modJrnl_ldg (f : Jrnl → Jrnl) : (s.modJrnl f).ldg = s.ldg := rfl
@[simp] theorem State.modJrnl_flt (f : Jrnl → Jrnl) : (s.modJrnl f).flt = s.flt := rfl
@[simp] theorem State.modJrnl_sec (f : Jrnl → Jrnl) : (s.modJrnl f).sec = s.sec := rfl
@[simp] theorem State.modJrnl_dbg (f : Jrnl → Jrnl) : (s.modJrnl f).dbg = s.dbg := rfl
@[simp] theorem State.modJrnl_bus (f : Jrnl → Jrnl) : (s.modJrnl f).bus = s.bus := rfl
@[simp] theorem State.modJrnl_pin (f : Jrnl → Jrnl) : (s.modJrnl f).pin = s.pin := rfl
@[simp] theorem State.modJrnl_dft (f : Jrnl → Jrnl) : (s.modJrnl f).dft = s.dft := rfl
@[simp] theorem State.modJrnl_free (f : Jrnl → Jrnl) : (s.modJrnl f).free = s.free := rfl
@[simp] theorem State.modJrnl_pending (f : Jrnl → Jrnl) : (s.modJrnl f).pending = s.pending := rfl

@[simp] theorem State.modXch_clk (f : Xch → Xch) : (s.modXch f).clk = s.clk := rfl
@[simp] theorem State.modXch_core (f : Xch → Xch) : (s.modXch f).core = s.core := rfl
@[simp] theorem State.modXch_man (f : Xch → Xch) : (s.modXch f).man = s.man := rfl
@[simp] theorem State.modXch_mem (f : Xch → Xch) : (s.modXch f).mem = s.mem := rfl
@[simp] theorem State.modXch_syn (f : Xch → Xch) : (s.modXch f).syn = s.syn := rfl
@[simp] theorem State.modXch_q (f : Xch → Xch) : (s.modXch f).q = s.q := rfl
@[simp] theorem State.modXch_opId (f : Xch → Xch) : (s.modXch f).opId = s.opId := rfl
@[simp] theorem State.modXch_wgh (f : Xch → Xch) : (s.modXch f).wgh = s.wgh := rfl
@[simp] theorem State.modXch_arr (f : Xch → Xch) : (s.modXch f).arr = s.arr := rfl
@[simp] theorem State.modXch_vec (f : Xch → Xch) : (s.modXch f).vec = s.vec := rfl
@[simp] theorem State.modXch_fac (f : Xch → Xch) : (s.modXch f).fac = s.fac := rfl
@[simp] theorem State.modXch_sth (f : Xch → Xch) : (s.modXch f).sth = s.sth := rfl
@[simp] theorem State.modXch_jrnl (f : Xch → Xch) : (s.modXch f).jrnl = s.jrnl := rfl
@[simp] theorem State.modXch_xch (f : Xch → Xch) : (s.modXch f).xch = f s.xch := rfl
@[simp] theorem State.modXch_str (f : Xch → Xch) : (s.modXch f).str = s.str := rfl
@[simp] theorem State.modXch_pst (f : Xch → Xch) : (s.modXch f).pst = s.pst := rfl
@[simp] theorem State.modXch_gov (f : Xch → Xch) : (s.modXch f).gov = s.gov := rfl
@[simp] theorem State.modXch_ldg (f : Xch → Xch) : (s.modXch f).ldg = s.ldg := rfl
@[simp] theorem State.modXch_flt (f : Xch → Xch) : (s.modXch f).flt = s.flt := rfl
@[simp] theorem State.modXch_sec (f : Xch → Xch) : (s.modXch f).sec = s.sec := rfl
@[simp] theorem State.modXch_dbg (f : Xch → Xch) : (s.modXch f).dbg = s.dbg := rfl
@[simp] theorem State.modXch_bus (f : Xch → Xch) : (s.modXch f).bus = s.bus := rfl
@[simp] theorem State.modXch_pin (f : Xch → Xch) : (s.modXch f).pin = s.pin := rfl
@[simp] theorem State.modXch_dft (f : Xch → Xch) : (s.modXch f).dft = s.dft := rfl
@[simp] theorem State.modXch_free (f : Xch → Xch) : (s.modXch f).free = s.free := rfl
@[simp] theorem State.modXch_pending (f : Xch → Xch) : (s.modXch f).pending = s.pending := rfl

@[simp] theorem State.modStr_clk (f : Str → Str) : (s.modStr f).clk = s.clk := rfl
@[simp] theorem State.modStr_core (f : Str → Str) : (s.modStr f).core = s.core := rfl
@[simp] theorem State.modStr_man (f : Str → Str) : (s.modStr f).man = s.man := rfl
@[simp] theorem State.modStr_mem (f : Str → Str) : (s.modStr f).mem = s.mem := rfl
@[simp] theorem State.modStr_syn (f : Str → Str) : (s.modStr f).syn = s.syn := rfl
@[simp] theorem State.modStr_q (f : Str → Str) : (s.modStr f).q = s.q := rfl
@[simp] theorem State.modStr_opId (f : Str → Str) : (s.modStr f).opId = s.opId := rfl
@[simp] theorem State.modStr_wgh (f : Str → Str) : (s.modStr f).wgh = s.wgh := rfl
@[simp] theorem State.modStr_arr (f : Str → Str) : (s.modStr f).arr = s.arr := rfl
@[simp] theorem State.modStr_vec (f : Str → Str) : (s.modStr f).vec = s.vec := rfl
@[simp] theorem State.modStr_fac (f : Str → Str) : (s.modStr f).fac = s.fac := rfl
@[simp] theorem State.modStr_sth (f : Str → Str) : (s.modStr f).sth = s.sth := rfl
@[simp] theorem State.modStr_jrnl (f : Str → Str) : (s.modStr f).jrnl = s.jrnl := rfl
@[simp] theorem State.modStr_xch (f : Str → Str) : (s.modStr f).xch = s.xch := rfl
@[simp] theorem State.modStr_str (f : Str → Str) : (s.modStr f).str = f s.str := rfl
@[simp] theorem State.modStr_pst (f : Str → Str) : (s.modStr f).pst = s.pst := rfl
@[simp] theorem State.modStr_gov (f : Str → Str) : (s.modStr f).gov = s.gov := rfl
@[simp] theorem State.modStr_ldg (f : Str → Str) : (s.modStr f).ldg = s.ldg := rfl
@[simp] theorem State.modStr_flt (f : Str → Str) : (s.modStr f).flt = s.flt := rfl
@[simp] theorem State.modStr_sec (f : Str → Str) : (s.modStr f).sec = s.sec := rfl
@[simp] theorem State.modStr_dbg (f : Str → Str) : (s.modStr f).dbg = s.dbg := rfl
@[simp] theorem State.modStr_bus (f : Str → Str) : (s.modStr f).bus = s.bus := rfl
@[simp] theorem State.modStr_pin (f : Str → Str) : (s.modStr f).pin = s.pin := rfl
@[simp] theorem State.modStr_dft (f : Str → Str) : (s.modStr f).dft = s.dft := rfl
@[simp] theorem State.modStr_free (f : Str → Str) : (s.modStr f).free = s.free := rfl
@[simp] theorem State.modStr_pending (f : Str → Str) : (s.modStr f).pending = s.pending := rfl

@[simp] theorem State.modPst_clk (f : Pst → Pst) : (s.modPst f).clk = s.clk := rfl
@[simp] theorem State.modPst_core (f : Pst → Pst) : (s.modPst f).core = s.core := rfl
@[simp] theorem State.modPst_man (f : Pst → Pst) : (s.modPst f).man = s.man := rfl
@[simp] theorem State.modPst_mem (f : Pst → Pst) : (s.modPst f).mem = s.mem := rfl
@[simp] theorem State.modPst_syn (f : Pst → Pst) : (s.modPst f).syn = s.syn := rfl
@[simp] theorem State.modPst_q (f : Pst → Pst) : (s.modPst f).q = s.q := rfl
@[simp] theorem State.modPst_opId (f : Pst → Pst) : (s.modPst f).opId = s.opId := rfl
@[simp] theorem State.modPst_wgh (f : Pst → Pst) : (s.modPst f).wgh = s.wgh := rfl
@[simp] theorem State.modPst_arr (f : Pst → Pst) : (s.modPst f).arr = s.arr := rfl
@[simp] theorem State.modPst_vec (f : Pst → Pst) : (s.modPst f).vec = s.vec := rfl
@[simp] theorem State.modPst_fac (f : Pst → Pst) : (s.modPst f).fac = s.fac := rfl
@[simp] theorem State.modPst_sth (f : Pst → Pst) : (s.modPst f).sth = s.sth := rfl
@[simp] theorem State.modPst_jrnl (f : Pst → Pst) : (s.modPst f).jrnl = s.jrnl := rfl
@[simp] theorem State.modPst_xch (f : Pst → Pst) : (s.modPst f).xch = s.xch := rfl
@[simp] theorem State.modPst_str (f : Pst → Pst) : (s.modPst f).str = s.str := rfl
@[simp] theorem State.modPst_pst (f : Pst → Pst) : (s.modPst f).pst = f s.pst := rfl
@[simp] theorem State.modPst_gov (f : Pst → Pst) : (s.modPst f).gov = s.gov := rfl
@[simp] theorem State.modPst_ldg (f : Pst → Pst) : (s.modPst f).ldg = s.ldg := rfl
@[simp] theorem State.modPst_flt (f : Pst → Pst) : (s.modPst f).flt = s.flt := rfl
@[simp] theorem State.modPst_sec (f : Pst → Pst) : (s.modPst f).sec = s.sec := rfl
@[simp] theorem State.modPst_dbg (f : Pst → Pst) : (s.modPst f).dbg = s.dbg := rfl
@[simp] theorem State.modPst_bus (f : Pst → Pst) : (s.modPst f).bus = s.bus := rfl
@[simp] theorem State.modPst_pin (f : Pst → Pst) : (s.modPst f).pin = s.pin := rfl
@[simp] theorem State.modPst_dft (f : Pst → Pst) : (s.modPst f).dft = s.dft := rfl
@[simp] theorem State.modPst_free (f : Pst → Pst) : (s.modPst f).free = s.free := rfl
@[simp] theorem State.modPst_pending (f : Pst → Pst) : (s.modPst f).pending = s.pending := rfl

@[simp] theorem State.modGov_clk (f : Gov → Gov) : (s.modGov f).clk = s.clk := rfl
@[simp] theorem State.modGov_core (f : Gov → Gov) : (s.modGov f).core = s.core := rfl
@[simp] theorem State.modGov_man (f : Gov → Gov) : (s.modGov f).man = s.man := rfl
@[simp] theorem State.modGov_mem (f : Gov → Gov) : (s.modGov f).mem = s.mem := rfl
@[simp] theorem State.modGov_syn (f : Gov → Gov) : (s.modGov f).syn = s.syn := rfl
@[simp] theorem State.modGov_q (f : Gov → Gov) : (s.modGov f).q = s.q := rfl
@[simp] theorem State.modGov_opId (f : Gov → Gov) : (s.modGov f).opId = s.opId := rfl
@[simp] theorem State.modGov_wgh (f : Gov → Gov) : (s.modGov f).wgh = s.wgh := rfl
@[simp] theorem State.modGov_arr (f : Gov → Gov) : (s.modGov f).arr = s.arr := rfl
@[simp] theorem State.modGov_vec (f : Gov → Gov) : (s.modGov f).vec = s.vec := rfl
@[simp] theorem State.modGov_fac (f : Gov → Gov) : (s.modGov f).fac = s.fac := rfl
@[simp] theorem State.modGov_sth (f : Gov → Gov) : (s.modGov f).sth = s.sth := rfl
@[simp] theorem State.modGov_jrnl (f : Gov → Gov) : (s.modGov f).jrnl = s.jrnl := rfl
@[simp] theorem State.modGov_xch (f : Gov → Gov) : (s.modGov f).xch = s.xch := rfl
@[simp] theorem State.modGov_str (f : Gov → Gov) : (s.modGov f).str = s.str := rfl
@[simp] theorem State.modGov_pst (f : Gov → Gov) : (s.modGov f).pst = s.pst := rfl
@[simp] theorem State.modGov_gov (f : Gov → Gov) : (s.modGov f).gov = f s.gov := rfl
@[simp] theorem State.modGov_ldg (f : Gov → Gov) : (s.modGov f).ldg = s.ldg := rfl
@[simp] theorem State.modGov_flt (f : Gov → Gov) : (s.modGov f).flt = s.flt := rfl
@[simp] theorem State.modGov_sec (f : Gov → Gov) : (s.modGov f).sec = s.sec := rfl
@[simp] theorem State.modGov_dbg (f : Gov → Gov) : (s.modGov f).dbg = s.dbg := rfl
@[simp] theorem State.modGov_bus (f : Gov → Gov) : (s.modGov f).bus = s.bus := rfl
@[simp] theorem State.modGov_pin (f : Gov → Gov) : (s.modGov f).pin = s.pin := rfl
@[simp] theorem State.modGov_dft (f : Gov → Gov) : (s.modGov f).dft = s.dft := rfl
@[simp] theorem State.modGov_free (f : Gov → Gov) : (s.modGov f).free = s.free := rfl
@[simp] theorem State.modGov_pending (f : Gov → Gov) : (s.modGov f).pending = s.pending := rfl

@[simp] theorem State.modLdg_clk (f : Ldg → Ldg) : (s.modLdg f).clk = s.clk := rfl
@[simp] theorem State.modLdg_core (f : Ldg → Ldg) : (s.modLdg f).core = s.core := rfl
@[simp] theorem State.modLdg_man (f : Ldg → Ldg) : (s.modLdg f).man = s.man := rfl
@[simp] theorem State.modLdg_mem (f : Ldg → Ldg) : (s.modLdg f).mem = s.mem := rfl
@[simp] theorem State.modLdg_syn (f : Ldg → Ldg) : (s.modLdg f).syn = s.syn := rfl
@[simp] theorem State.modLdg_q (f : Ldg → Ldg) : (s.modLdg f).q = s.q := rfl
@[simp] theorem State.modLdg_opId (f : Ldg → Ldg) : (s.modLdg f).opId = s.opId := rfl
@[simp] theorem State.modLdg_wgh (f : Ldg → Ldg) : (s.modLdg f).wgh = s.wgh := rfl
@[simp] theorem State.modLdg_arr (f : Ldg → Ldg) : (s.modLdg f).arr = s.arr := rfl
@[simp] theorem State.modLdg_vec (f : Ldg → Ldg) : (s.modLdg f).vec = s.vec := rfl
@[simp] theorem State.modLdg_fac (f : Ldg → Ldg) : (s.modLdg f).fac = s.fac := rfl
@[simp] theorem State.modLdg_sth (f : Ldg → Ldg) : (s.modLdg f).sth = s.sth := rfl
@[simp] theorem State.modLdg_jrnl (f : Ldg → Ldg) : (s.modLdg f).jrnl = s.jrnl := rfl
@[simp] theorem State.modLdg_xch (f : Ldg → Ldg) : (s.modLdg f).xch = s.xch := rfl
@[simp] theorem State.modLdg_str (f : Ldg → Ldg) : (s.modLdg f).str = s.str := rfl
@[simp] theorem State.modLdg_pst (f : Ldg → Ldg) : (s.modLdg f).pst = s.pst := rfl
@[simp] theorem State.modLdg_gov (f : Ldg → Ldg) : (s.modLdg f).gov = s.gov := rfl
@[simp] theorem State.modLdg_ldg (f : Ldg → Ldg) : (s.modLdg f).ldg = f s.ldg := rfl
@[simp] theorem State.modLdg_flt (f : Ldg → Ldg) : (s.modLdg f).flt = s.flt := rfl
@[simp] theorem State.modLdg_sec (f : Ldg → Ldg) : (s.modLdg f).sec = s.sec := rfl
@[simp] theorem State.modLdg_dbg (f : Ldg → Ldg) : (s.modLdg f).dbg = s.dbg := rfl
@[simp] theorem State.modLdg_bus (f : Ldg → Ldg) : (s.modLdg f).bus = s.bus := rfl
@[simp] theorem State.modLdg_pin (f : Ldg → Ldg) : (s.modLdg f).pin = s.pin := rfl
@[simp] theorem State.modLdg_dft (f : Ldg → Ldg) : (s.modLdg f).dft = s.dft := rfl
@[simp] theorem State.modLdg_free (f : Ldg → Ldg) : (s.modLdg f).free = s.free := rfl
@[simp] theorem State.modLdg_pending (f : Ldg → Ldg) : (s.modLdg f).pending = s.pending := rfl

@[simp] theorem State.modFlt_clk (f : Flt → Flt) : (s.modFlt f).clk = s.clk := rfl
@[simp] theorem State.modFlt_core (f : Flt → Flt) : (s.modFlt f).core = s.core := rfl
@[simp] theorem State.modFlt_man (f : Flt → Flt) : (s.modFlt f).man = s.man := rfl
@[simp] theorem State.modFlt_mem (f : Flt → Flt) : (s.modFlt f).mem = s.mem := rfl
@[simp] theorem State.modFlt_syn (f : Flt → Flt) : (s.modFlt f).syn = s.syn := rfl
@[simp] theorem State.modFlt_q (f : Flt → Flt) : (s.modFlt f).q = s.q := rfl
@[simp] theorem State.modFlt_opId (f : Flt → Flt) : (s.modFlt f).opId = s.opId := rfl
@[simp] theorem State.modFlt_wgh (f : Flt → Flt) : (s.modFlt f).wgh = s.wgh := rfl
@[simp] theorem State.modFlt_arr (f : Flt → Flt) : (s.modFlt f).arr = s.arr := rfl
@[simp] theorem State.modFlt_vec (f : Flt → Flt) : (s.modFlt f).vec = s.vec := rfl
@[simp] theorem State.modFlt_fac (f : Flt → Flt) : (s.modFlt f).fac = s.fac := rfl
@[simp] theorem State.modFlt_sth (f : Flt → Flt) : (s.modFlt f).sth = s.sth := rfl
@[simp] theorem State.modFlt_jrnl (f : Flt → Flt) : (s.modFlt f).jrnl = s.jrnl := rfl
@[simp] theorem State.modFlt_xch (f : Flt → Flt) : (s.modFlt f).xch = s.xch := rfl
@[simp] theorem State.modFlt_str (f : Flt → Flt) : (s.modFlt f).str = s.str := rfl
@[simp] theorem State.modFlt_pst (f : Flt → Flt) : (s.modFlt f).pst = s.pst := rfl
@[simp] theorem State.modFlt_gov (f : Flt → Flt) : (s.modFlt f).gov = s.gov := rfl
@[simp] theorem State.modFlt_ldg (f : Flt → Flt) : (s.modFlt f).ldg = s.ldg := rfl
@[simp] theorem State.modFlt_flt (f : Flt → Flt) : (s.modFlt f).flt = f s.flt := rfl
@[simp] theorem State.modFlt_sec (f : Flt → Flt) : (s.modFlt f).sec = s.sec := rfl
@[simp] theorem State.modFlt_dbg (f : Flt → Flt) : (s.modFlt f).dbg = s.dbg := rfl
@[simp] theorem State.modFlt_bus (f : Flt → Flt) : (s.modFlt f).bus = s.bus := rfl
@[simp] theorem State.modFlt_pin (f : Flt → Flt) : (s.modFlt f).pin = s.pin := rfl
@[simp] theorem State.modFlt_dft (f : Flt → Flt) : (s.modFlt f).dft = s.dft := rfl
@[simp] theorem State.modFlt_free (f : Flt → Flt) : (s.modFlt f).free = s.free := rfl
@[simp] theorem State.modFlt_pending (f : Flt → Flt) : (s.modFlt f).pending = s.pending := rfl

@[simp] theorem State.modSec_clk (f : Sec → Sec) : (s.modSec f).clk = s.clk := rfl
@[simp] theorem State.modSec_core (f : Sec → Sec) : (s.modSec f).core = s.core := rfl
@[simp] theorem State.modSec_man (f : Sec → Sec) : (s.modSec f).man = s.man := rfl
@[simp] theorem State.modSec_mem (f : Sec → Sec) : (s.modSec f).mem = s.mem := rfl
@[simp] theorem State.modSec_syn (f : Sec → Sec) : (s.modSec f).syn = s.syn := rfl
@[simp] theorem State.modSec_q (f : Sec → Sec) : (s.modSec f).q = s.q := rfl
@[simp] theorem State.modSec_opId (f : Sec → Sec) : (s.modSec f).opId = s.opId := rfl
@[simp] theorem State.modSec_wgh (f : Sec → Sec) : (s.modSec f).wgh = s.wgh := rfl
@[simp] theorem State.modSec_arr (f : Sec → Sec) : (s.modSec f).arr = s.arr := rfl
@[simp] theorem State.modSec_vec (f : Sec → Sec) : (s.modSec f).vec = s.vec := rfl
@[simp] theorem State.modSec_fac (f : Sec → Sec) : (s.modSec f).fac = s.fac := rfl
@[simp] theorem State.modSec_sth (f : Sec → Sec) : (s.modSec f).sth = s.sth := rfl
@[simp] theorem State.modSec_jrnl (f : Sec → Sec) : (s.modSec f).jrnl = s.jrnl := rfl
@[simp] theorem State.modSec_xch (f : Sec → Sec) : (s.modSec f).xch = s.xch := rfl
@[simp] theorem State.modSec_str (f : Sec → Sec) : (s.modSec f).str = s.str := rfl
@[simp] theorem State.modSec_pst (f : Sec → Sec) : (s.modSec f).pst = s.pst := rfl
@[simp] theorem State.modSec_gov (f : Sec → Sec) : (s.modSec f).gov = s.gov := rfl
@[simp] theorem State.modSec_ldg (f : Sec → Sec) : (s.modSec f).ldg = s.ldg := rfl
@[simp] theorem State.modSec_flt (f : Sec → Sec) : (s.modSec f).flt = s.flt := rfl
@[simp] theorem State.modSec_sec (f : Sec → Sec) : (s.modSec f).sec = f s.sec := rfl
@[simp] theorem State.modSec_dbg (f : Sec → Sec) : (s.modSec f).dbg = s.dbg := rfl
@[simp] theorem State.modSec_bus (f : Sec → Sec) : (s.modSec f).bus = s.bus := rfl
@[simp] theorem State.modSec_pin (f : Sec → Sec) : (s.modSec f).pin = s.pin := rfl
@[simp] theorem State.modSec_dft (f : Sec → Sec) : (s.modSec f).dft = s.dft := rfl
@[simp] theorem State.modSec_free (f : Sec → Sec) : (s.modSec f).free = s.free := rfl
@[simp] theorem State.modSec_pending (f : Sec → Sec) : (s.modSec f).pending = s.pending := rfl

@[simp] theorem State.modDbg_clk (f : Dbg → Dbg) : (s.modDbg f).clk = s.clk := rfl
@[simp] theorem State.modDbg_core (f : Dbg → Dbg) : (s.modDbg f).core = s.core := rfl
@[simp] theorem State.modDbg_man (f : Dbg → Dbg) : (s.modDbg f).man = s.man := rfl
@[simp] theorem State.modDbg_mem (f : Dbg → Dbg) : (s.modDbg f).mem = s.mem := rfl
@[simp] theorem State.modDbg_syn (f : Dbg → Dbg) : (s.modDbg f).syn = s.syn := rfl
@[simp] theorem State.modDbg_q (f : Dbg → Dbg) : (s.modDbg f).q = s.q := rfl
@[simp] theorem State.modDbg_opId (f : Dbg → Dbg) : (s.modDbg f).opId = s.opId := rfl
@[simp] theorem State.modDbg_wgh (f : Dbg → Dbg) : (s.modDbg f).wgh = s.wgh := rfl
@[simp] theorem State.modDbg_arr (f : Dbg → Dbg) : (s.modDbg f).arr = s.arr := rfl
@[simp] theorem State.modDbg_vec (f : Dbg → Dbg) : (s.modDbg f).vec = s.vec := rfl
@[simp] theorem State.modDbg_fac (f : Dbg → Dbg) : (s.modDbg f).fac = s.fac := rfl
@[simp] theorem State.modDbg_sth (f : Dbg → Dbg) : (s.modDbg f).sth = s.sth := rfl
@[simp] theorem State.modDbg_jrnl (f : Dbg → Dbg) : (s.modDbg f).jrnl = s.jrnl := rfl
@[simp] theorem State.modDbg_xch (f : Dbg → Dbg) : (s.modDbg f).xch = s.xch := rfl
@[simp] theorem State.modDbg_str (f : Dbg → Dbg) : (s.modDbg f).str = s.str := rfl
@[simp] theorem State.modDbg_pst (f : Dbg → Dbg) : (s.modDbg f).pst = s.pst := rfl
@[simp] theorem State.modDbg_gov (f : Dbg → Dbg) : (s.modDbg f).gov = s.gov := rfl
@[simp] theorem State.modDbg_ldg (f : Dbg → Dbg) : (s.modDbg f).ldg = s.ldg := rfl
@[simp] theorem State.modDbg_flt (f : Dbg → Dbg) : (s.modDbg f).flt = s.flt := rfl
@[simp] theorem State.modDbg_sec (f : Dbg → Dbg) : (s.modDbg f).sec = s.sec := rfl
@[simp] theorem State.modDbg_dbg (f : Dbg → Dbg) : (s.modDbg f).dbg = f s.dbg := rfl
@[simp] theorem State.modDbg_bus (f : Dbg → Dbg) : (s.modDbg f).bus = s.bus := rfl
@[simp] theorem State.modDbg_pin (f : Dbg → Dbg) : (s.modDbg f).pin = s.pin := rfl
@[simp] theorem State.modDbg_dft (f : Dbg → Dbg) : (s.modDbg f).dft = s.dft := rfl
@[simp] theorem State.modDbg_free (f : Dbg → Dbg) : (s.modDbg f).free = s.free := rfl
@[simp] theorem State.modDbg_pending (f : Dbg → Dbg) : (s.modDbg f).pending = s.pending := rfl

@[simp] theorem State.modBus_clk (f : Buses → Buses) : (s.modBus f).clk = s.clk := rfl
@[simp] theorem State.modBus_core (f : Buses → Buses) : (s.modBus f).core = s.core := rfl
@[simp] theorem State.modBus_man (f : Buses → Buses) : (s.modBus f).man = s.man := rfl
@[simp] theorem State.modBus_mem (f : Buses → Buses) : (s.modBus f).mem = s.mem := rfl
@[simp] theorem State.modBus_syn (f : Buses → Buses) : (s.modBus f).syn = s.syn := rfl
@[simp] theorem State.modBus_q (f : Buses → Buses) : (s.modBus f).q = s.q := rfl
@[simp] theorem State.modBus_opId (f : Buses → Buses) : (s.modBus f).opId = s.opId := rfl
@[simp] theorem State.modBus_wgh (f : Buses → Buses) : (s.modBus f).wgh = s.wgh := rfl
@[simp] theorem State.modBus_arr (f : Buses → Buses) : (s.modBus f).arr = s.arr := rfl
@[simp] theorem State.modBus_vec (f : Buses → Buses) : (s.modBus f).vec = s.vec := rfl
@[simp] theorem State.modBus_fac (f : Buses → Buses) : (s.modBus f).fac = s.fac := rfl
@[simp] theorem State.modBus_sth (f : Buses → Buses) : (s.modBus f).sth = s.sth := rfl
@[simp] theorem State.modBus_jrnl (f : Buses → Buses) : (s.modBus f).jrnl = s.jrnl := rfl
@[simp] theorem State.modBus_xch (f : Buses → Buses) : (s.modBus f).xch = s.xch := rfl
@[simp] theorem State.modBus_str (f : Buses → Buses) : (s.modBus f).str = s.str := rfl
@[simp] theorem State.modBus_pst (f : Buses → Buses) : (s.modBus f).pst = s.pst := rfl
@[simp] theorem State.modBus_gov (f : Buses → Buses) : (s.modBus f).gov = s.gov := rfl
@[simp] theorem State.modBus_ldg (f : Buses → Buses) : (s.modBus f).ldg = s.ldg := rfl
@[simp] theorem State.modBus_flt (f : Buses → Buses) : (s.modBus f).flt = s.flt := rfl
@[simp] theorem State.modBus_sec (f : Buses → Buses) : (s.modBus f).sec = s.sec := rfl
@[simp] theorem State.modBus_dbg (f : Buses → Buses) : (s.modBus f).dbg = s.dbg := rfl
@[simp] theorem State.modBus_bus (f : Buses → Buses) : (s.modBus f).bus = f s.bus := rfl
@[simp] theorem State.modBus_pin (f : Buses → Buses) : (s.modBus f).pin = s.pin := rfl
@[simp] theorem State.modBus_dft (f : Buses → Buses) : (s.modBus f).dft = s.dft := rfl
@[simp] theorem State.modBus_free (f : Buses → Buses) : (s.modBus f).free = s.free := rfl
@[simp] theorem State.modBus_pending (f : Buses → Buses) : (s.modBus f).pending = s.pending := rfl

@[simp] theorem State.modDft_clk (f : Dft → Dft) : (s.modDft f).clk = s.clk := rfl
@[simp] theorem State.modDft_core (f : Dft → Dft) : (s.modDft f).core = s.core := rfl
@[simp] theorem State.modDft_man (f : Dft → Dft) : (s.modDft f).man = s.man := rfl
@[simp] theorem State.modDft_mem (f : Dft → Dft) : (s.modDft f).mem = s.mem := rfl
@[simp] theorem State.modDft_syn (f : Dft → Dft) : (s.modDft f).syn = s.syn := rfl
@[simp] theorem State.modDft_q (f : Dft → Dft) : (s.modDft f).q = s.q := rfl
@[simp] theorem State.modDft_opId (f : Dft → Dft) : (s.modDft f).opId = s.opId := rfl
@[simp] theorem State.modDft_wgh (f : Dft → Dft) : (s.modDft f).wgh = s.wgh := rfl
@[simp] theorem State.modDft_arr (f : Dft → Dft) : (s.modDft f).arr = s.arr := rfl
@[simp] theorem State.modDft_vec (f : Dft → Dft) : (s.modDft f).vec = s.vec := rfl
@[simp] theorem State.modDft_fac (f : Dft → Dft) : (s.modDft f).fac = s.fac := rfl
@[simp] theorem State.modDft_sth (f : Dft → Dft) : (s.modDft f).sth = s.sth := rfl
@[simp] theorem State.modDft_jrnl (f : Dft → Dft) : (s.modDft f).jrnl = s.jrnl := rfl
@[simp] theorem State.modDft_xch (f : Dft → Dft) : (s.modDft f).xch = s.xch := rfl
@[simp] theorem State.modDft_str (f : Dft → Dft) : (s.modDft f).str = s.str := rfl
@[simp] theorem State.modDft_pst (f : Dft → Dft) : (s.modDft f).pst = s.pst := rfl
@[simp] theorem State.modDft_gov (f : Dft → Dft) : (s.modDft f).gov = s.gov := rfl
@[simp] theorem State.modDft_ldg (f : Dft → Dft) : (s.modDft f).ldg = s.ldg := rfl
@[simp] theorem State.modDft_flt (f : Dft → Dft) : (s.modDft f).flt = s.flt := rfl
@[simp] theorem State.modDft_sec (f : Dft → Dft) : (s.modDft f).sec = s.sec := rfl
@[simp] theorem State.modDft_dbg (f : Dft → Dft) : (s.modDft f).dbg = s.dbg := rfl
@[simp] theorem State.modDft_bus (f : Dft → Dft) : (s.modDft f).bus = s.bus := rfl
@[simp] theorem State.modDft_pin (f : Dft → Dft) : (s.modDft f).pin = s.pin := rfl
@[simp] theorem State.modDft_dft (f : Dft → Dft) : (s.modDft f).dft = f s.dft := rfl
@[simp] theorem State.modDft_free (f : Dft → Dft) : (s.modDft f).free = s.free := rfl
@[simp] theorem State.modDft_pending (f : Dft → Dft) : (s.modDft f).pending = s.pending := rfl

@[simp] theorem setQ_clk (e : Nat) (x : EngQ) : (setQ s e x).clk = s.clk := rfl
@[simp] theorem setQ_core (e : Nat) (x : EngQ) : (setQ s e x).core = s.core := rfl
@[simp] theorem setQ_man (e : Nat) (x : EngQ) : (setQ s e x).man = s.man := rfl
@[simp] theorem setQ_mem (e : Nat) (x : EngQ) : (setQ s e x).mem = s.mem := rfl
@[simp] theorem setQ_syn (e : Nat) (x : EngQ) : (setQ s e x).syn = s.syn := rfl
@[simp] theorem setQ_q (e : Nat) (x : EngQ) : (setQ s e x).q = tabSet {} s.q e x := rfl
@[simp] theorem setQ_opId (e : Nat) (x : EngQ) : (setQ s e x).opId = s.opId := rfl
@[simp] theorem setQ_wgh (e : Nat) (x : EngQ) : (setQ s e x).wgh = s.wgh := rfl
@[simp] theorem setQ_arr (e : Nat) (x : EngQ) : (setQ s e x).arr = s.arr := rfl
@[simp] theorem setQ_vec (e : Nat) (x : EngQ) : (setQ s e x).vec = s.vec := rfl
@[simp] theorem setQ_fac (e : Nat) (x : EngQ) : (setQ s e x).fac = s.fac := rfl
@[simp] theorem setQ_sth (e : Nat) (x : EngQ) : (setQ s e x).sth = s.sth := rfl
@[simp] theorem setQ_jrnl (e : Nat) (x : EngQ) : (setQ s e x).jrnl = s.jrnl := rfl
@[simp] theorem setQ_xch (e : Nat) (x : EngQ) : (setQ s e x).xch = s.xch := rfl
@[simp] theorem setQ_str (e : Nat) (x : EngQ) : (setQ s e x).str = s.str := rfl
@[simp] theorem setQ_pst (e : Nat) (x : EngQ) : (setQ s e x).pst = s.pst := rfl
@[simp] theorem setQ_gov (e : Nat) (x : EngQ) : (setQ s e x).gov = s.gov := rfl
@[simp] theorem setQ_ldg (e : Nat) (x : EngQ) : (setQ s e x).ldg = s.ldg := rfl
@[simp] theorem setQ_flt (e : Nat) (x : EngQ) : (setQ s e x).flt = s.flt := rfl
@[simp] theorem setQ_sec (e : Nat) (x : EngQ) : (setQ s e x).sec = s.sec := rfl
@[simp] theorem setQ_dbg (e : Nat) (x : EngQ) : (setQ s e x).dbg = s.dbg := rfl
@[simp] theorem setQ_bus (e : Nat) (x : EngQ) : (setQ s e x).bus = s.bus := rfl
@[simp] theorem setQ_pin (e : Nat) (x : EngQ) : (setQ s e x).pin = s.pin := rfl
@[simp] theorem setQ_dft (e : Nat) (x : EngQ) : (setQ s e x).dft = s.dft := rfl
@[simp] theorem setQ_free (e : Nat) (x : EngQ) : (setQ s e x).free = s.free := rfl
@[simp] theorem setQ_pending (e : Nat) (x : EngQ) : (setQ s e x).pending = s.pending := rfl

@[simp] theorem modQ_clk (e : Nat) (f : EngQ → EngQ) : (modQ s e f).clk = s.clk := rfl
@[simp] theorem modQ_core (e : Nat) (f : EngQ → EngQ) : (modQ s e f).core = s.core := rfl
@[simp] theorem modQ_man (e : Nat) (f : EngQ → EngQ) : (modQ s e f).man = s.man := rfl
@[simp] theorem modQ_mem (e : Nat) (f : EngQ → EngQ) : (modQ s e f).mem = s.mem := rfl
@[simp] theorem modQ_syn (e : Nat) (f : EngQ → EngQ) : (modQ s e f).syn = s.syn := rfl
@[simp] theorem modQ_q (e : Nat) (f : EngQ → EngQ) : (modQ s e f).q = tabSet {} s.q e (f (qOf s e)) := rfl
@[simp] theorem modQ_opId (e : Nat) (f : EngQ → EngQ) : (modQ s e f).opId = s.opId := rfl
@[simp] theorem modQ_wgh (e : Nat) (f : EngQ → EngQ) : (modQ s e f).wgh = s.wgh := rfl
@[simp] theorem modQ_arr (e : Nat) (f : EngQ → EngQ) : (modQ s e f).arr = s.arr := rfl
@[simp] theorem modQ_vec (e : Nat) (f : EngQ → EngQ) : (modQ s e f).vec = s.vec := rfl
@[simp] theorem modQ_fac (e : Nat) (f : EngQ → EngQ) : (modQ s e f).fac = s.fac := rfl
@[simp] theorem modQ_sth (e : Nat) (f : EngQ → EngQ) : (modQ s e f).sth = s.sth := rfl
@[simp] theorem modQ_jrnl (e : Nat) (f : EngQ → EngQ) : (modQ s e f).jrnl = s.jrnl := rfl
@[simp] theorem modQ_xch (e : Nat) (f : EngQ → EngQ) : (modQ s e f).xch = s.xch := rfl
@[simp] theorem modQ_str (e : Nat) (f : EngQ → EngQ) : (modQ s e f).str = s.str := rfl
@[simp] theorem modQ_pst (e : Nat) (f : EngQ → EngQ) : (modQ s e f).pst = s.pst := rfl
@[simp] theorem modQ_gov (e : Nat) (f : EngQ → EngQ) : (modQ s e f).gov = s.gov := rfl
@[simp] theorem modQ_ldg (e : Nat) (f : EngQ → EngQ) : (modQ s e f).ldg = s.ldg := rfl
@[simp] theorem modQ_flt (e : Nat) (f : EngQ → EngQ) : (modQ s e f).flt = s.flt := rfl
@[simp] theorem modQ_sec (e : Nat) (f : EngQ → EngQ) : (modQ s e f).sec = s.sec := rfl
@[simp] theorem modQ_dbg (e : Nat) (f : EngQ → EngQ) : (modQ s e f).dbg = s.dbg := rfl
@[simp] theorem modQ_bus (e : Nat) (f : EngQ → EngQ) : (modQ s e f).bus = s.bus := rfl
@[simp] theorem modQ_pin (e : Nat) (f : EngQ → EngQ) : (modQ s e f).pin = s.pin := rfl
@[simp] theorem modQ_dft (e : Nat) (f : EngQ → EngQ) : (modQ s e f).dft = s.dft := rfl
@[simp] theorem modQ_free (e : Nat) (f : EngQ → EngQ) : (modQ s e f).free = s.free := rfl
@[simp] theorem modQ_pending (e : Nat) (f : EngQ → EngQ) : (modQ s e f).pending = s.pending := rfl

end Sys2Proof.Machine
end

