-- ==== Sys2Proof/Laws/Tab.lean ====
section
/-! SUPPORT. Sparse tables and memory: a read after a write, and that every write keeps the canonical form. -/

namespace Sys2Proof.Machine

variable {α : Type}

@[simp] theorem tabGet_nil (d : α) (i : Nat) : tabGet d [] i = d := rfl

theorem tabGet_insert (d : α) (t : Tab α) (i j : Nat) (v : α) :
    tabGet d (tabInsert i v t) j = if j = i then v else tabGet d t j := by
  induction t with
  | nil => simp [tabInsert, tabGet]
  | cons p t ih =>
    obtain ⟨k, w⟩ := p
    simp only [tabInsert]
    split
    · simp [tabGet]
    · split
      · simp only [tabGet]; split <;> simp_all
      · simp only [tabGet, ih]
        by_cases hj : j = k
        · subst hj; simp [Ne.symm ‹¬i = j›]
        · simp [hj]

theorem tabGet_filter (d : α) (t : Tab α) (i j : Nat) :
    tabGet d (t.filter (fun p => decide (p.1 ≠ i))) j = if j = i then d else tabGet d t j := by
  induction t with
  | nil => simp [tabGet]
  | cons p t ih =>
    obtain ⟨k, w⟩ := p
    simp only [List.filter_cons]
    split <;> simp only [tabGet, ih] <;> split <;> simp_all

/-- A read after a write gives the value written at its key and the value before at every other. -/
theorem tabGet_set [DecidableEq α] (d : α) (t : Tab α) (i j : Nat) (v : α) :
    tabGet d (tabSet d t i v) j = if j = i then v else tabGet d t j := by
  unfold tabSet
  split
  · rw [tabGet_filter]; simp_all
  · exact tabGet_insert d t i j v

@[simp] theorem tabGet_set_same [DecidableEq α] (d : α) (t : Tab α) (i : Nat) (v : α) : tabGet d (tabSet d t i v) i = v := by
  simp [tabGet_set]

theorem tabGet_set_ne [DecidableEq α] (d : α) (t : Tab α) {i j : Nat} (v : α) (h : j ≠ i) :
    tabGet d (tabSet d t i v) j = tabGet d t j := by
  simp [tabGet_set, h]

theorem tabGet_mod [DecidableEq α] (d : α) (t : Tab α) (i j : Nat) (f : α → α) :
    tabGet d (tabMod d t i f) j = if j = i then f (tabGet d t i) else tabGet d t j := tabGet_set ..

/-! The canonical form. -/

theorem mem_tabInsert {t : Tab α} {i : Nat} {v : α} {p : Nat × α} (h : p ∈ tabInsert i v t) : p = (i, v) ∨ p ∈ t := by
  induction t with
  | nil => simpa [tabInsert] using h
  | cons q t ih =>
    obtain ⟨k, w⟩ := q
    simp only [tabInsert] at h
    split at h
    · simpa using h
    · split at h
      · rcases List.mem_cons.1 h with h | h <;> simp [h]
      · rcases List.mem_cons.1 h with h | h
        · simp [h]
        · rcases ih h with h | h <;> simp [h]

theorem mem_tabSet [DecidableEq α] {d : α} {t : Tab α} {i : Nat} {v : α} {p : Nat × α} (h : p ∈ tabSet d t i v) : p = (i, v) ∨ p ∈ t := by
  unfold tabSet at h
  split at h
  · exact .inr (List.mem_filter.1 h).1
  · exact mem_tabInsert h

theorem tabSorted_cons (k : Nat) (w : α) (t : Tab α) : tabSorted ((k, w) :: t) = true ↔ (∀ p ∈ t, k < p.1) ∧ tabSorted t = true := by
  simp [tabSorted]

theorem tabSorted_insert {t : Tab α} (i : Nat) (v : α) (h : tabSorted t = true) : tabSorted (tabInsert i v t) = true := by
  induction t with
  | nil => rfl
  | cons q t ih =>
    obtain ⟨k, w⟩ := q
    obtain ⟨hk, ht⟩ := (tabSorted_cons k w t).1 h
    simp only [tabInsert]
    split
    case isTrue hi =>
      refine (tabSorted_cons _ _ _).2 ⟨fun p hp => ?_, h⟩
      rcases List.mem_cons.1 hp with rfl | hp
      · exact hi
      · exact hi.trans (hk p hp)
    case isFalse hi =>
      split
      case isTrue he => subst he; exact (tabSorted_cons _ _ _).2 ⟨hk, ht⟩
      case isFalse he =>
        refine (tabSorted_cons _ _ _).2 ⟨fun p hp => ?_, ih ht⟩
        rcases mem_tabInsert hp with rfl | hp
        · simp only; omega
        · exact hk p hp

theorem tabSorted_filter {t : Tab α} (f : Nat × α → Bool) (h : tabSorted t = true) : tabSorted (t.filter f) = true := by
  induction t with
  | nil => rfl
  | cons q t ih =>
    obtain ⟨k, w⟩ := q
    obtain ⟨hk, ht⟩ := (tabSorted_cons k w t).1 h
    rw [List.filter_cons]
    split
    · exact (tabSorted_cons _ _ _).2 ⟨fun p hp => hk p (List.mem_filter.1 hp).1, ih ht⟩
    · exact ih ht

theorem tabWf_iff [DecidableEq α] (d : α) (t : Tab α) : tabWf d t = true ↔ tabSorted t = true ∧ ∀ p ∈ t, p.2 ≠ d := by
  simp [tabWf]

/-- A write keeps the canonical form. -/
theorem tabWf_set [DecidableEq α] {d : α} {t : Tab α} (i : Nat) (v : α) (h : tabWf d t = true) : tabWf d (tabSet d t i v) = true := by
  rw [tabWf_iff] at *
  unfold tabSet
  split
  · exact ⟨tabSorted_filter _ h.1, fun p hp => h.2 p (List.mem_filter.1 hp).1⟩
  case isFalse hv =>
    refine ⟨tabSorted_insert i v h.1, fun p hp => ?_⟩
    rcases mem_tabInsert hp with rfl | hp
    · exact hv
    · exact h.2 p hp

/-! Memory. -/

/-- Bytes written at a read back; every other byte is as before. -/
theorem memByte_memPut (m : List Host.Cell) (a : Nat) (bs : List Byte) (x : Nat) :
    memByte (memPut m a bs) x = if a ≤ x ∧ x < a + bs.length then bs.getD (x - a) 0 else memByte m x := by
  induction bs generalizing m a with
  | nil => simp only [memPut, List.length_nil]; rw [if_neg (by omega)]
  | cons b bs ih =>
    rw [memPut, ih]
    simp only [List.length_cons]
    by_cases h : x = a
    · subst h
      rw [if_neg (by omega), if_pos (by omega)]
      simp [memByte]
    · by_cases h2 : a + 1 ≤ x ∧ x < a + 1 + bs.length
      · rw [if_pos h2, if_pos (by omega)]
        have : x - a = (x - (a + 1)) + 1 := by omega
        rw [this, List.getD_cons_succ]
      · rw [if_neg h2, if_neg (by omega)]
        simp [memByte, tabGet_set, h]

/-- Writing bytes keeps the canonical form of memory. -/
theorem wf_memPut {m : List Host.Cell} (a : Nat) (bs : List Byte) (h : Memory.wf m = true) : Memory.wf (memPut m a bs) = true := by
  induction bs generalizing m a with
  | nil => exact h
  | cons b bs ih => exact ih (a + 1) (tabWf_set (α := Byte) a b h)

/-- Writing bytes below a bound keeps every listed byte below it. -/
theorem bound_memPut {m : List Host.Cell} (n a : Nat) (bs : List Byte) (h : ∀ c ∈ m, c.1 < n) (ha : a + bs.length ≤ n) :
    ∀ c ∈ memPut m a bs, c.1 < n := by
  induction bs generalizing m a with
  | nil => exact h
  | cons b bs ih =>
    simp only [List.length_cons] at ha
    refine ih (a + 1) (fun c hc => ?_) (by omega)
    rcases mem_tabSet (α := Byte) hc with rfl | hc
    · simp only; omega
    · exact h c hc

end Sys2Proof.Machine
end

