-- ==== Sys2Proof/Laws/Ops.lean ====
section
/-! SUPPORT. What each shared operation can do: which units it touches, and what becomes of memory, of the queues and of the registers. -/

namespace Sys2Proof.Machine

/-! Answers. -/

theorem whenOn_true (s t : State) : whenOn true s t = .next t := rfl

theorem whenOn_of {c : Bool} (h : c = true) (s t : State) : whenOn c s t = .next t := by rw [h]; rfl

theorem whenOn_answers (c : Bool) (s t : State) : Answers (whenOn c s t) := ⟨_, rfl⟩

/-- A register access is done at once, or it waits on its bus. -/
theorem regAcc_cases (b : Bus) (ldg : Bool) (i : Instr) (s t : State) :
    regAcc b ldg i s t = t ∨ regAcc b ldg i s t = queueAcc s b i := by
  simp only [regAcc]
  generalize (!(if ldg then s.pin.coreRst else busOn s) || !(busOf s b).waiting.isEmpty) = c
  cases c <;> simp

theorem regCmd_served {s : State} (h : Served s) (i : Instr) (t : State) : regCmd i s t = .next t := by
  obtain ⟨hb, hw⟩ := h
  simp [regCmd, regAcc, busOf, hb, hw]

theorem regAcc_served {s : State} {b : Bus} (hb : busOn s = true) (hw : (busOf s b).waiting = []) (ldg : Bool) (i : Instr) (t : State) :
    regAcc b ldg i s t = t := by
  have hc : s.pin.coreRst = true := by simp only [Machine.busOn, Bool.and_eq_true] at hb; exact hb.1
  cases ldg <;> simp [regAcc, hb, hw, hc]

theorem ldgCmd_served {s : State} (hc : s.pin.coreRst = true) (hw : s.bus.mgmt.waiting = []) (i : Instr) (t : State) :
    ldgCmd i s t = .next t := by
  simp [ldgCmd, regAcc, busOf, hc, hw]

theorem Served.busOn {s : State} (h : Served s) : busOn s = true := h.1

theorem unitsOn_iff (s : State) : unitsOn s = true ↔ s.pin.coreRst = true ∧ s.flt.fatal = false ∧ s.clk.suspend = false := by
  simp [unitsOn, and_assoc]

theorem unitsOn_busOn {s : State} (h : unitsOn s = true) : busOn s = true := by
  obtain ⟨a, -, c⟩ := (unitsOn_iff s).1 h
  simp [busOn, a, c]

/-! Energy, faults, signals: the units they touch. -/

theorem spend_frame (s : State) (k n : Nat) : spend s k n = { s with gov := (spend s k n).gov } := rfl

theorem noteContained_frame (s : State) (code unit : Nat) (addr : Addr) (detail : Nat) :
    noteContained s code unit addr detail = { s with flt := (noteContained s code unit addr detail).flt } := rfl

theorem facIdle_frame (s : State) (c : BitVec 2) : facIdle s c = { s with fac := (facIdle s c).fac } := rfl

theorem abandonStep_frame (s : State) : abandonStep s = { s with wgh := (abandonStep s).wgh } := by
  unfold abandonStep; split <;> rfl

/-- A contained fault touches the fault unit, the Factor and the weighers only. -/
theorem raise_frame (s : State) (code unit : Nat) (addr : Addr) (detail : Nat) :
    raise s code unit addr detail = { s with
      flt := (raise s code unit addr detail).flt, fac := (raise s code unit addr detail).fac, wgh := (raise s code unit addr detail).wgh } := by
  simp only [raise]
  split
  · rw [abandonStep_frame, facIdle_frame]; rfl
  · rfl

/-- A contained fault is recorded, and a context that runs will halt (16 R389, R393). -/
theorem raise_flt (s : State) (code unit : Nat) (addr : Addr) (detail : Nat) :
    (raise s code unit addr detail).flt =
      if ctxRuns s then { (noteContained s code unit addr detail).flt with pend := true, haltCtx := some s.core.cur }
      else (noteContained s code unit addr detail).flt := by
  simp only [raise]
  split
  · rw [abandonStep_frame, facIdle_frame]; rfl
  · rfl

theorem raise_log_length (s : State) (code unit : Nat) (addr : Addr) (detail : Nat) :
    (raise s code unit addr detail).flt.log.length ≤ 16 := by
  rw [raise_flt]
  split <;> simp [noteContained]

theorem memCe_frame (s : State) (req cw : Nat) :
    memCe s req cw = { s with mem := (memCe s req cw).mem, ldg := (memCe s req cw).ldg, flt := (memCe s req cw).flt } := rfl

theorem memCe_bytes (s : State) (req cw : Nat) : (memCe s req cw).mem.bytes = s.mem.bytes := rfl

/-- An uncorrectable error touches its capture register and what a contained fault touches. -/
theorem memUe_frame (s : State) (req cw : Nat) (fe : Bool) :
    memUe s req cw fe = { s with
      mem := (memUe s req cw fe).mem, flt := (memUe s req cw fe).flt, fac := (memUe s req cw fe).fac, wgh := (memUe s req cw fe).wgh } := by
  unfold memUe
  rw [raise_frame]
  split <;> rfl

theorem memUe_bytes (s : State) (req cw : Nat) (fe : Bool) : (memUe s req cw fe).mem.bytes = s.mem.bytes := by
  unfold memUe
  rw [raise_frame]
  split <;> rfl

/-- What the read side of ECC can touch. -/
def EccFrame (s t : State) : Prop :=
  t = { s with mem := t.mem, ldg := t.ldg, flt := t.flt, fac := t.fac, wgh := t.wgh } ∧ t.mem.bytes = s.mem.bytes

theorem EccFrame.refl (s : State) : EccFrame s s := ⟨rfl, rfl⟩

theorem EccFrame.trans {s t u : State} (h : EccFrame s t) (k : EccFrame t u) : EccFrame s u := by
  refine ⟨?_, k.2.trans h.2⟩
  rw [k.1]
  rw [h.1]

theorem eccFold_frame (req : Nat) (l : List (Nat × EccErr)) (s : State) : EccFrame s (l.foldl (eccRdOne req) s) := by
  induction l generalizing s with
  | nil => exact EccFrame.refl s
  | cons p l ih =>
    refine EccFrame.trans ?_ (ih _)
    unfold eccRdOne
    split
    · exact EccFrame.refl s
    · exact ⟨memCe_frame s req p.1, memCe_bytes s req p.1⟩
    · exact ⟨by rw [memUe_frame], memUe_bytes s req p.1 false⟩

/-- Reading with ECC changes no byte, and touches memory's counters, the ledger and what a fault touches. -/
theorem eccRead_frame (s : State) (req a n : Nat) : EccFrame s (eccRead s req a n) := eccFold_frame req _ s

/-! Banks that serve a request. -/

theorem serveBanks_frame (req : Nat) (l : List Nat) (s : State) :
    l.foldl (serveBank req) s = { s with mem := (l.foldl (serveBank req) s).mem } ∧ (l.foldl (serveBank req) s).mem.bytes = s.mem.bytes ∧
      (l.foldl (serveBank req) s).mem.ecc = s.mem.ecc := by
  induction l generalizing s with
  | nil => exact ⟨rfl, rfl, rfl⟩
  | cons b l ih =>
    obtain ⟨a, b, c⟩ := ih (serveBank req s b)
    exact ⟨by simp only [List.foldl_cons]; rw [a]; rfl, by simp only [List.foldl_cons]; rw [b]; rfl, by simp only [List.foldl_cons]; rw [c]; rfl⟩

/-- A request that the banks serve changes the arbiters and nothing else. -/
theorem serve_frame (s : State) (req a n : Nat) : serve s req a n = { s with mem := (serve s req a n).mem } := by
  unfold serve; dsimp only
  rw [(serveBanks_frame req _ s).1]; rfl

@[simp] theorem serve_bytes (s : State) (req a n : Nat) : (serve s req a n).mem.bytes = s.mem.bytes :=
  (serveBanks_frame req ((List.range 32).filter (banksOf a n).testBit) s).2.1

@[simp] theorem serve_ecc (s : State) (req a n : Nat) : (serve s req a n).mem.ecc = s.mem.ecc :=
  (serveBanks_frame req ((List.range 32).filter (banksOf a n).testBit) s).2.2

theorem touchRead_bytes (s : State) (req a n : Nat) : (touchRead s req a n).mem.bytes = s.mem.bytes := by
  unfold touchRead
  rw [serve_bytes]
  exact (eccRead_frame s req a n).2

theorem serves_bytes (req : Nat) (sp : List (Nat × Nat)) (s : State) :
    (sp.foldl (fun u p => serve u req p.1 p.2) s).mem.bytes = s.mem.bytes := by
  induction sp generalizing s with
  | nil => rfl
  | cons p sp ih => rw [List.foldl_cons, ih, serve_bytes]

/-- Reading spans together changes no byte. -/
theorem touchSpans_bytes (s : State) (req : Nat) (sp : List (Nat × Nat)) : (touchSpans s req sp).mem.bytes = s.mem.bytes := by
  unfold touchSpans; dsimp only
  rw [serves_bytes]
  exact (eccFold_frame req _ s).2

/-! Writing memory. -/

/-- Putting bytes one by one: only memory changes. -/
theorem putBytes_frame (f : Nat → Bool) (l : List (Nat × Byte)) (s : State) :
    l.foldl (putByte f) s = { s with mem := { s.mem with bytes := (l.foldl (putByte f) s).mem.bytes } } := by
  induction l generalizing s with
  | nil => rfl
  | cons p l ih =>
    simp only [List.foldl_cons]
    rw [ih]
    unfold putByte
    split <;> rfl

/-- What codewords with errors do to the machine when bytes are written over them: memory's bytes stay. -/
theorem eccWrFold_frame (req : Nat) (whole : Nat → Bool) (l : List (Nat × EccErr)) (s : State) :
    EccFrame s (l.foldl (eccWrOne req whole) s) := by
  induction l generalizing s with
  | nil => exact EccFrame.refl s
  | cons p l ih =>
    refine EccFrame.trans ?_ (ih _)
    unfold eccWrOne
    split
    · exact ⟨rfl, rfl⟩
    · split
      · exact ⟨by rw [memUe_frame], memUe_bytes s req p.1 false⟩
      · exact ⟨rfl, rfl⟩
      · exact EccFrame.refl s

/-- Writing with ECC touches memory, the ledger's error count and what a fault touches. -/
theorem eccWr_frame (s : State) (req : Nat) (whole : Nat → Bool) (ws : Writes) :
    eccWr s req whole ws = { s with
      mem := (eccWr s req whole ws).mem, ldg := (eccWr s req whole ws).ldg, flt := (eccWr s req whole ws).flt
      fac := (eccWr s req whole ws).fac, wgh := (eccWr s req whole ws).wgh } := by
  unfold eccWr; dsimp only
  split
  · rfl
  · rw [putBytes_frame, (eccWrFold_frame req whole _ s).1]

theorem memWr_frame (s : State) (req a : Nat) (bs : List Byte) :
    memWr s req a bs = { s with
      mem := (memWr s req a bs).mem, ldg := (memWr s req a bs).ldg, flt := (memWr s req a bs).flt
      fac := (memWr s req a bs).fac, wgh := (memWr s req a bs).wgh, gov := (memWr s req a bs).gov } := by
  unfold memWr
  split
  · rfl
  · rw [serve_frame, eccWr_frame, spend_frame]

/-- Bytes put one by one: what is listed keeps any property that every single write keeps. -/
theorem putBytes_keeps (P : List Host.Cell → Prop) (f : Nat → Bool) (l : List (Nat × Byte)) (s : State)
    (hP : ∀ m, P m → ∀ p ∈ l, P (memPut m p.1 [p.2])) (h : P s.mem.bytes) : P (l.foldl (putByte f) s).mem.bytes := by
  induction l generalizing s with
  | nil => exact h
  | cons p l ih =>
    simp only [List.foldl_cons]
    refine ih _ (fun m hm q hq => hP m hm q (List.mem_cons_of_mem _ hq)) ?_
    unfold putByte
    split
    · exact h
    · exact hP _ h p (List.mem_cons_self ..)

theorem mem_mapIdx_addr {a : Nat} {bs : List Byte} {p : Nat × Byte} (h : p ∈ bs.mapIdx (fun i b => (a + i, b))) :
    p.1 < a + bs.length := by
  rw [List.mem_mapIdx] at h
  obtain ⟨i, hi, rfl⟩ := h
  simp only; omega

/-- Every write to memory keeps its canonical form and its bound. -/
theorem memWr_memOk {s : State} (h : s.MemOk) (req a : Nat) (bs : List Byte) : (memWr s req a bs).MemOk := by
  unfold memWr
  split
  · exact h
  case isFalse hb =>
    unfold State.MemOk
    rw [serve_bytes]
    unfold eccWr; dsimp only
    split
    · exact ⟨wf_memPut a bs h.1, bound_memPut memTop a bs h.2 (by omega)⟩
    · simp only [List.flatMap_cons, List.flatMap_nil, List.append_nil, cellsOf]
      refine putBytes_keeps (fun m => Memory.wf m = true ∧ ∀ c ∈ m, c.1 < memTop) _ _ _ (fun m hm p hp => ?_) ?_
      · exact ⟨wf_memPut _ _ hm.1, bound_memPut memTop _ _ hm.2 (by have := mem_mapIdx_addr hp; simp only [List.length_cons, List.length_nil]; omega)⟩
      · rw [(eccWrFold_frame req _ _ _).2]; exact h

theorem putBytes_all {f : Nat → Bool} (a : Nat) (bs : List Byte) (s : State) (hf : ∀ k, f k = false) :
    ((bs.mapIdx (fun i b => (a + i, b))).foldl (putByte f) s).mem.bytes = memPut s.mem.bytes a bs := by
  induction bs generalizing a s with
  | nil => rfl
  | cons b bs ih =>
    have e : (fun (i : Nat) (b : Byte) => (a + (i + 1), b)) = fun i b => (a + 1 + i, b) := by funext i b; congr 1; omega
    simp only [List.mapIdx_cons, List.foldl_cons, e]
    rw [ih]
    simp [putByte, hf, memPut]

theorem hasDouble_false {s : State} {a n : Nat} (h : hasDouble s a n = false) {p : Nat × EccErr} (hp : p ∈ eccIn s a n) : p.2 ≠ .double := by
  intro hd
  simp only [hasDouble, List.any_eq_false, decide_eq_true_eq] at h
  exact h p hp hd

theorem NoDouble.hasDouble {s : State} (h : NoDouble s) (a n : Nat) : hasDouble s a n = false := by
  simp only [Machine.hasDouble, List.any_eq_false, decide_eq_true_eq]
  exact fun p hp => h p (List.mem_filter.1 hp).1

/-- Bytes written below the top of memory, into no uncorrectable codeword, are stored (07 R172, R184). -/
theorem memWr_stored {s : State} {a : Nat} {bs : List Byte} (req : Nat) (ha : a + bs.length ≤ memTop)
    (hd : hasDouble s a bs.length = false) : Stored s (memWr s req a bs) a bs := by
  intro x
  have e : (memWr s req a bs).mem.bytes = memPut s.mem.bytes a bs := by
    unfold memWr
    rw [if_neg (by omega), serve_bytes]
    unfold eccWr; dsimp only
    split
    · rfl
    · simp only [List.flatMap_cons, List.flatMap_nil, List.append_nil, cellsOf]
      rw [putBytes_all]
      · rw [(eccWrFold_frame req _ _ _).2]; rfl
      · intro k
        rw [Bool.eq_false_iff]
        intro hk
        simp only [List.any_eq_true, Bool.and_eq_true, decide_eq_true_eq] at hk
        obtain ⟨p, hp, ⟨-, hpd⟩, -⟩ := hk
        exact hasDouble_false hd (by simpa [eccSpans, spansOf, eccIn, spend] using hp) hpd
  rw [e, memByte_memPut]

/-! Signals, queues. -/

/-- A signal touches the sync unit and what a fault touches. -/
theorem signalAmt_frame (s : State) (src : BitVec 4) (o : Byte) (a cnt : Nat) :
    signalAmt s src o a cnt = { s with
      syn := (signalAmt s src o a cnt).syn, flt := (signalAmt s src o a cnt).flt
      fac := (signalAmt s src o a cnt).fac, wgh := (signalAmt s src o a cnt).wgh } := by
  unfold signalAmt
  dsimp only
  split
  · rw [raise_frame]; split <;> rfl
  · rfl

/-- What signals can touch. -/
def SigFrame (s t : State) : Prop := t = { s with syn := t.syn, flt := t.flt, fac := t.fac, wgh := t.wgh }

theorem SigFrame.trans {s t u : State} (h : SigFrame s t) (k : SigFrame t u) : SigFrame s u := by
  unfold SigFrame at *
  rw [k, h]

theorem signalMany_frame (s : State) (src : BitVec 4) (os : List Byte) : SigFrame s (signalMany s src os) := by
  unfold signalMany
  generalize os.eraseDups = l
  induction l generalizing s with
  | nil => rfl
  | cons o l ih => exact SigFrame.trans (signalAmt_frame s src o _ _) (ih _)

/-- A refused queue touches the queues, the sync unit and what a fault touches. -/
theorem failQueue_frame (s : State) (e : Nat) (own : Option Byte) :
    failQueue s e own = { s with
      q := (failQueue s e own).q, syn := (failQueue s e own).syn, flt := (failQueue s e own).flt
      fac := (failQueue s e own).fac, wgh := (failQueue s e own).wgh } := by
  unfold failQueue
  rw [signalMany_frame]
  rfl

theorem qOf_setQ (s : State) (e k : Nat) (x : EngQ) : qOf (setQ s e x) k = if k = e then x else qOf s k := tabGet_set ..

theorem qOf_modQ (s : State) (e k : Nat) (f : EngQ → EngQ) : qOf (modQ s e f) k = if k = e then f (qOf s e) else qOf s k := tabGet_set ..

theorem objOf_setObj (s : State) (o p : Byte) (x : SObj) : objOf (setObj s o x) p = if p = o then x else objOf s p := by
  simp only [objOf, setObj, State.modSyn_syn, tabGet_set]
  by_cases h : p = o
  · simp [h]
  · rw [if_neg h, if_neg (fun hh => h (BitVec.eq_of_toNat_eq hh))]

theorem watchOf_setWatch (s : State) (j k : Nat) (w : Watch) : watchOf (setWatch s j w) k = if k = j then w else watchOf s k := tabGet_set ..

/-! Registers and contexts. -/

theorem ctxOf_setCtx (s : State) (c d : BitVec 2) (x : Ctx) : ctxOf (setCtx s c x) d = if d = c then x else ctxOf s d := by
  simp only [ctxOf, setCtx, State.modCore_core, tabGet_set]
  by_cases h : d = c
  · simp [h]
  · rw [if_neg h, if_neg (fun hh => h (BitVec.eq_of_toNat_eq hh))]

theorem reg_setReg (x : Ctx) (r d : SReg) (v : Dword) : (x.setReg d v).reg r = if r = 0 then 0 else if r = d then v else x.reg r := by
  by_cases hr : r = 0
  · simp [Ctx.reg, hr]
  · by_cases hd : d = 0
    · simp only [Ctx.setReg, hd, if_pos, Ctx.reg, hr, if_false]
    · have e : r.toNat = d.toNat ↔ r = d := ⟨BitVec.eq_of_toNat_eq, fun h => by rw [h]⟩
      simp only [Ctx.setReg, Ctx.reg, if_neg hd, if_neg hr, tabGet_set, e]

end Sys2Proof.Machine
end

