-- ==== Sys2Proof/Tests/Slice0.lean ====
section
/-! SUPPORT. Tests: ill-formed commands are refused, words written out from the spec's encodings decode, and each statement's hypotheses are met by a concrete state. -/

namespace Sys2Proof.Tests

open Sys2Proof Sys2Proof.Machine

set_option Elab.async false

/-! States. -/

/-- A configuration: CODE 4 KiB at 0, DATA 64 KiB at 0x1000, STASH 128 KiB at 0x11000, MBOX at 0x31000, FE at 0x33400, JRNL at 0x33800; two strings of one group with caravans; preset 0 of one micro-op; binary32 for classes 3 and 5; context 0 with sync IDs 0 to 7 on objects 1 to 8; image 0 of one entry; regions 1 (FLOOR, read and write) and 2 (STEP). -/
def store : Tab Byte :=
  [(2, 4), (4, 4), (6, 64), (8, 68), (10, 128), (12, 196), (14, 9), (16, 205), (18, 1), (20, 206), (22, 1), (0x20, 2), (0x21, 3),
   (0x40, 10), (0x42, 1), (0x44, 0xC0), (0x48, 0xC4)] ++
  [(0x240, 1), (0x242, 1), (0x244, 1), (0x248, 1)] ++
  [(0xAC0, 1), (0xAC1, 1), (0xAC2, 1), (0xAC7, 1)] ++
  [(0xC00, 0xFF), (0xC08, 1), (0xC09, 2), (0xC0A, 3), (0xC0B, 4), (0xC0C, 5), (0xC0D, 6), (0xC0E, 7), (0xC0F, 8), (0xC48, 3), (0xC98, 1)] ++
  [(0xE01, 0x20), (0xE03, 0x80), (0xE04, 100)] ++
  [(0xF12, 1), (0xF18, 100), (0xF1C, 0x0D), (0xF28, 16), (0xF2C, 0x0A), (0x1F00, 1), (0x1F04, 1)]

/-- A tile that runs context 0 under that configuration, with its memory zeroised. -/
def live : State :=
  { mem := { zeroing := false }
    man := { isLive := true, live := store, shadow := store }
    sec := { codeOk := true }
    core := { syncArr := false, mode := .run } }

/-- Little-endian values put into memory: address, number of bytes, value. -/
def poke (s : State) (l : List (Nat × Nat × Nat)) : State :=
  s.modMem (fun m => { m with bytes := l.foldl (fun b x => memPut b x.1 (leBytes x.2.1 (BitVec.ofNat (8 * x.2.1) x.2.2))) m.bytes })

/-- Scalar registers of context 0. -/
def regs (s : State) (l : Tab Dword) : State := s.modCore (fun c => { c with ctxs := tabSet {} c.ctxs 0 { tabGet {} c.ctxs 0 with regs := l } })

/-- A queue entry of a function. -/
def ent (fn : BitVec 4) : QEntry :=
  { ctx := 0, fn := fn, sub := 0, dreg := 0, d := 0, a := 0, b := 0, fs := 0, wv := none, sv := none, sid := 0 }

/-- The entry waits at the head of queue e. -/
def queued (s : State) (e : Nat) (x : QEntry) : State := setQ s e { qOf s e with wait := [x] }

theorem head_of (s : State) (e fn : Nat) (x : QEntry) (h : headFn s e fn = some x) (hw : x.wv = none)
    (hf : faultDiscards s e x = false) : Head s e fn x :=
  ⟨h, fun o ho => absurd (hw.symm.trans ho) (by simp), hf⟩

/-! What words spell (03 Tables 2 to 4): X, OP, D, A and the low fields written out. -/

theorem test_decode_add : decodeCore 0b0_000000_00011_00001_00010_0000_000000 0 = .add ⟨false, 3, 1, 2, 0⟩ := by decide +kernel
theorem test_decode_div : decodeCore 0b0_000000_00011_00001_00010_0000_010101 0 = .div ⟨false, 3, 1, 2, 0⟩ := by decide +kernel
theorem test_decode_orhi : decodeCore 0b1_001001_00011_00001_000000000000000 0xDEADBEEF = .orhi ⟨some 0xDEADBEEF, 3, 1, 0⟩ := by decide +kernel
theorem test_decode_addi : decodeCore 0b0_000001_00011_00001_111111111111111 5 = .addi ⟨none, 3, 1, 0x7FFF⟩ := by decide +kernel
theorem test_decode_ldd : decodeCore 0b0_010000_00011_00001_000000000001000 0 = .ldd ⟨none, 3, 1, 8⟩ := by decide +kernel
theorem test_decode_stb : decodeCore 0b0_011010_00011_00001_000000000001000 0 = .stb ⟨none, 3, 1, 8⟩ := by decide +kernel
theorem test_decode_br : decodeCore 0b0_011100_00101_00001_00010_1111111111 0 = .br ⟨none, 5, 1, 2, 0x3FF⟩ := by decide +kernel
theorem test_decode_jal : decodeCore 0b0_011101_00001_10000000000000000001 0 = .jal ⟨false, 1, 0x80001⟩ := by decide +kernel
theorem test_decode_arr : decodeCore 0b1_100000_00011_00001_00010_0100_111111 7 = .arr ⟨some 7, 3, 1, 2, 4, 63⟩ := by decide +kernel
theorem test_decode_sth : decodeCore 0b0_100110_00011_00001_00010_0011_000001 7 = .sth ⟨none, 3, 1, 2, 3, 1⟩ := by decide +kernel
theorem test_decode_sync : decodeCore 0b0_101000_00000_00000_00000_0000101101 0 = .sync ⟨none, 0, 0, 0, 0x2D⟩ := by decide +kernel
theorem test_decode_sigBar : decodeCore 0b0_101001_00000_00001_00000_0010000011 0 = .sigBar ⟨none, 0, 1, 0, 0x83⟩ := by decide +kernel
theorem test_decode_manArm : decodeCore 0b0_101111_00011_00001_00010_0000000001 0 = .manArm ⟨none, 3, 1, 2, 1⟩ := by decide +kernel
theorem test_decode_brk : decodeCore 0b0_111110_00000_00000_00000_0000000000 0 = .brk ⟨none, 0, 0, 0, 0⟩ := by decide +kernel
theorem test_decode_reserved : decodeCore 0b0_111111_00000_00000_00000_0000000000 0 = .reservedOpcode 0x7E000000 := by decide +kernel
theorem test_decode_reservedAlu : decodeCore 0b0_000000_00000_00000_00000_0000_011011 0 = .reservedOpcode 0x1B := by decide +kernel

/-! Each check of WellFormed refuses an ill-formed command. -/

theorem test_illFormed_registerForm : WellFormed (.add ⟨true, 0, 0, 0, 0⟩) = false ∧ WellFormed (.popc ⟨false, 0, 0, 0, 1⟩) = false := by decide
theorem test_illFormed_shift : WellFormed (.slli ⟨none, 0, 0, 64⟩) = false ∧ WellFormed (.srai ⟨some 0, 0, 0, 1⟩) = false := by decide
theorem test_illFormed_branch : WellFormed (.br ⟨none, 7, 0, 0, 0⟩) = false ∧ WellFormed (.jal ⟨true, 0, 0⟩) = false := by decide
theorem test_illFormed_issue : WellFormed (.arr ⟨none, 0, 0, 0, 5, 0⟩) = false ∧ WellFormed (.str ⟨none, 0, 0, 0, 3, 0⟩) = false := by decide
theorem test_illFormed_sync : WellFormed (.sync ⟨none, 0, 0, 0, 6⟩) = false ∧ WellFormed (.sync ⟨none, 1, 0, 0, 0⟩) = false := by decide
theorem test_illFormed_signal : WellFormed (.sigBar ⟨none, 0, 0, 0, 0xC0⟩) = false ∧ WellFormed (.sig ⟨none, 0, 0, 0, 0x200⟩) = false := by decide
theorem test_illFormed_wait : WellFormed (.wait ⟨none, 0, 0, 0, 0xC0⟩) = false ∧ WellFormed (.few ⟨none, 0, 0, 0, 1⟩) = false := by decide
theorem test_illFormed_special : WellFormed (.mts ⟨none, 0, 0, 0, 15⟩) = false ∧ WellFormed (.mts ⟨none, 0, 0, 0, 24⟩) = false := by decide
theorem test_illFormed_queue : WellFormed (.engineRetire 7 0) = false ∧ WellFormed (.stageOpChange 5) = false := by decide
theorem test_illFormed_manifest : WellFormed (.manLoad ⟨none, 0, 0, 0, 1⟩) = false ∧ WellFormed (.brk ⟨some 0, 0, 0, 0, 0⟩) = false := by decide

theorem test_illFormed_addresses : WellFormed (.registerWrite .mgmt 2 0 0xF) = false ∧ WellFormed (.registerWrite .mgmt 0 0 1) = false ∧
    WellFormed (.memoryWindowAccess .dbg true 0xFFFFC 0 0xF) = false ∧ WellFormed (.shadowWrite .mgmt 0x10000 0) = false ∧
    WellFormed (.wideRegisterRead .mgmt 0x12) = false := by decide
theorem test_illFormed_values : WellFormed (.operatingPointNotice 5 0) = false ∧ WellFormed (.restoreWord 34 0) = false ∧
    WellFormed (.secDbgReqWrite 3) = false ∧ WellFormed (.cap 65) = false ∧ WellFormed (.reservedOpcode 0) = false := by decide

/-! The hypotheses of the statements about the control core are met. -/

/-- The running context's program counter. -/
def atPc (s : State) (a : Addr) : State := s.modCore (fun c => { c with ctxs := tabSet {} c.ctxs 0 { tabGet {} c.ctxs 0 with pc := a } })

theorem runs_live : Runs live 4 := by unfold Runs; decide +kernel
theorem runs_long : Runs (atPc live 0xFF8) 8 := by unfold Runs; decide +kernel
theorem runs_last : Runs (atPc live 0xFFC) 4 := by unfold Runs; decide +kernel

theorem witness_AluRegister : ∃ (s : State) (f : RForm), Runs s 4 ∧ f.x = false ∧ f.f96 = 0 :=
  ⟨_, ⟨false, 31, 1, 2, 0⟩, runs_last, rfl, rfl⟩

theorem witness_MulDivCount : ∃ (s : State) (f : RForm), Runs s 4 ∧ f.x = false ∧ f.f96 = 0 :=
  ⟨_, ⟨false, 0, 31, 31, 0⟩, runs_last, rfl, rfl⟩

theorem witness_AluImmediate :
    (∃ (s : State) (f : IForm), Runs s (lenOf f.ext) ∧ f.ext = none ∧ f.imm.toNat < 64) ∧
    (∃ (s : State) (f : IForm) (e : Word), Runs s (lenOf f.ext) ∧ f.ext = some e ∧ f.imm = 0) :=
  ⟨⟨live, ⟨none, 1, 2, 63⟩, runs_live, rfl, by decide⟩, ⟨_, ⟨some 0xFFFFFFFF, 1, 2, 0⟩, _, runs_long, rfl, rfl⟩⟩

theorem witness_Loads : ∃ (s : State) (f : IForm) (i : Instr) (k : Nat) (sgn : Bool),
    (i, k, sgn) ∈ [(Instr.ldd f, 3, false), (.ldw f, 2, true), (.ldwu f, 2, false), (.lds f, 1, true), (.ldsu f, 1, false),
      (.ldb f, 0, true), (.ldbu f, 0, false)] ∧
    Runs s (lenOf f.ext) ∧ permits s loadParts (accAddr s f k) (2 ^ k) = true ∧ memWaits s (accAddr s f k) (2 ^ k) = false ∧
    hasDouble s (accAddr s f k) (2 ^ k) = false :=
  ⟨regs live [(1, 0x33BFF)], ⟨none, 2, 1, 0⟩, .ldd ⟨none, 2, 1, 0⟩, 3, false, by decide, by unfold Runs; decide +kernel,
    by decide +kernel, by decide +kernel, by decide +kernel⟩

theorem witness_Stores : ∃ (s : State) (f : IForm) (i : Instr) (k : Nat),
    (i, k) ∈ [(Instr.std f, 3), (.stw f, 2), (.sts f, 1), (.stb f, 0)] ∧ Runs s (lenOf f.ext) ∧
    permits s storeParts (accAddr s f k) (2 ^ k) = true ∧ memWaits s (accAddr s f k) (2 ^ k) = false ∧
    hasDouble s (accAddr s f k) (2 ^ k) = false :=
  ⟨regs live [(1, 0x11000), (2, 7)], ⟨none, 2, 1, 0x7FFF⟩, .stb ⟨none, 2, 1, 0x7FFF⟩, 0, by decide, by unfold Runs; decide +kernel,
    by decide +kernel, by decide +kernel, by decide +kernel⟩

theorem witness_Branches :
    (∃ (s : State) (f : BForm) (taken : Bool), Runs s (lenOf f.ext) ∧
      (f.cond, taken) ∈ [((0 : BitVec 5), rd s f.a == rd s f.b), (1, rd s f.a != rd s f.b), (2, (rd s f.a).slt (rd s f.b)),
        (3, !(rd s f.a).slt (rd s f.b)), (4, (rd s f.a).ult (rd s f.b)), (5, !(rd s f.a).ult (rd s f.b)), (6, true)] ∧ taken = true ∧
      (0 : Int) ≤ (curCtx s).pc.toNat + 4 * f.off.toInt ∧ (curCtx s).pc.toNat + 4 * f.off.toInt < 2 ^ 21) ∧
    (∃ (s : State) (f : JForm), Runs s 4 ∧ f.x = false ∧ (0 : Int) ≤ (curCtx s).pc.toNat + 4 * f.off.toInt ∧
      (curCtx s).pc.toNat + 4 * f.off.toInt < 2 ^ 21) ∧
    (∃ (s : State) (f : IForm), Runs s (lenOf f.ext) ∧ ((rd s f.a + immOf f.ext f.imm) &&& ~~~3).toNat < 2 ^ 21) :=
  ⟨⟨_, ⟨none, 6, 0, 0, 0x201⟩, true, runs_last, by decide +kernel, rfl, by decide +kernel, by decide +kernel⟩,
   ⟨live, ⟨false, 1, 0x7FFFF⟩, runs_live, rfl, by decide +kernel, by decide +kernel⟩,
   ⟨regs live [(1, 0x200000)], ⟨none, 1, 1, 0x7FFF⟩, by unfold Runs; decide +kernel, by decide +kernel⟩⟩

/-- Sixteen entries wait at the array. -/
def fullArr : State := setQ live eARR { wait := List.replicate 16 (ent 0) }

theorem witness_EngineIssue :
    (∃ (s : State) (f : EForm) (x : QEntry), Runs s (lenOf f.ext) ∧ f.fn.toNat < 5 ∧ entryOf s f = some x ∧ qFull s eARR = false) ∧
    (∃ (s : State) (f : EForm) (x : QEntry), Runs s (lenOf f.ext) ∧ f.fn.toNat < 5 ∧ entryOf s f = some x ∧ qFull s eARR = true) :=
  ⟨⟨live, ⟨none, 0, 0, 0, 4, 0⟩, ent 4, runs_live, by decide, by decide +kernel, by decide +kernel⟩,
   ⟨fullArr, ⟨none, 0, 0, 0, 0, 0⟩, ent 0, by unfold Runs; decide +kernel, by decide, by decide +kernel, by decide +kernel⟩⟩

theorem witness_SyncStops : ∃ (s : State) (f : CForm), Runs s 4 ∧ f.ext = none ∧ f.d = 0 ∧ f.a = 0 ∧ f.b = 0 ∧ f.f.toNat < 64 ∧
    f.f.extractLsb' 1 2 ≠ 3 :=
  ⟨live, ⟨none, 0, 0, 0, 0x3D⟩, runs_live, rfl, rfl, rfl, rfl, by decide, by decide⟩

theorem witness_SigCompletes : ∃ (s : State) (f g h : CForm) (o : Byte), Runs s 4 ∧
    (∀ x ∈ [f, g, h], x.ext = none ∧ x.d = 0 ∧ x.b = 0 ∧ x.f.getLsbD 9 = false ∧
      mapId s s.core.cur.toNat (x.f.extractLsb' 0 6).toNat = some o) ∧
    f.f.extractLsb' 7 2 = 0 ∧
    (g.f.extractLsb' 7 2 = 1 ∧ g.f.getLsbD 6 = false ∧ (rd s g.a).extractLsb' 0 8 ≠ 0) ∧
    (h.f.extractLsb' 7 2 = 2 ∧ h.f.getLsbD 6 = false) ∧
    (∃ a : SReg, (rd s a).extractLsb' 0 8 = 0) :=
  ⟨regs live [(1, 0xFF)], ⟨none, 0, 1, 0, 0x47⟩, ⟨none, 0, 1, 0, 0x87⟩, ⟨none, 0, 1, 0, 0x107⟩, 8, by unfold Runs; decide +kernel,
    by decide +kernel, by decide, by decide +kernel, by decide, 0, by decide +kernel⟩

/-- Object 1 is a barrier of two participants at which one has arrived. -/
def barrier : State := setObj live 1 { mode := true, n := 2, arr := 1, val := 0 }

theorem witness_SignalArithmetic :
    (objOf live 1).mode = false ∧ (objOf (setObj live 1 { mode := true }) 1).mode = true ∧ (objOf (setObj live 1 { mode := true }) 1).n = 0 ∧
    ((objOf barrier 1).mode = true ∧ (objOf barrier 1).n ≠ 0 ∧ (objOf (signalAmt barrier 1 1 1 1) 1).val.toNat = (objOf barrier 1).n.toNat) ∧
    ((objOf barrier 1).n.toNat < (objOf (signalAmt barrier 1 1 3 1) 1).val.toNat) := by decide +kernel

theorem witness_WaitCompletes : ∃ (s : State) (f g : CForm) (o : Byte), Runs s 4 ∧
    (∀ x ∈ [f, g], x.ext = none ∧ x.b = 0 ∧ x.f.extractLsb' 8 2 = 0 ∧ x.f.extractLsb' 6 2 ≠ 3 ∧
      mapId s s.core.cur.toNat (x.f.extractLsb' 0 6).toNat = some o) ∧
    (f.f.extractLsb' 6 2 = 0 ∧ ((objOf s o).val - (rd s f.a).extractLsb' 0 32).toNat < 2 ^ 31) ∧
    (g.f.extractLsb' 6 2 = 2 ∧ ¬ (0 < (objOf s o).val.toInt)) :=
  ⟨live, ⟨none, 1, 0, 0, 0⟩, ⟨none, 1, 0, 0, 0x80⟩, 1, runs_live, by decide +kernel, by decide +kernel, by decide +kernel⟩

/-- The full/empty word that a scalar register names is empty, or full. -/
def feWord (full : Bool) : State := (regs live [(1, 0x337F8), (2, 9)]).modMem (fun m => { m with full := if full then [(127, true)] else [] })

theorem witness_FullEmptyInstr : ∀ b : Bool, ∃ f : CForm, Runs (feWord b) 4 ∧ f.ext = none ∧ f.f = 0 ∧
    feOk (feWord b) (rd (feWord b) f.a).toNat = true ∧ memWaits (feWord b) (rd (feWord b) f.a).toNat 8 = false ∧
    hasDouble (feWord b) (rd (feWord b) f.a).toNat 8 = false ∧ feFull (feWord b) (rd (feWord b) f.a).toNat = b :=
  fun b => ⟨⟨none, 3, 1, 2, 0⟩, by unfold Runs; cases b <;> decide +kernel, rfl, rfl,
    by cases b <;> decide +kernel⟩

/-- A control core in a mode of its own. -/
def inMode (s : State) (m : CoreMode) : State := s.modCore (fun c => { c with mode := m })

/-- Slots that watch object 1, which their condition meets. -/
def watched : State :=
  (inMode (setObj live 1 { val := 3 }) (.wait 5)).modSyn (fun y => { y with
    watch := [(6, { obj := 1, active := true }), (7, { obj := 1, active := true }), (31, { obj := 1, en := true })] })

theorem witness_FenceAndWake :
    (∃ f : CForm, f.ext = none ∧ ∀ e, e < 7 → f.f.getLsbD e = true → (qOf live e).wait = [] ∧ (qOf live e).infl = []) ∧
    (Runs fullArr 4 ∧ ∃ f : CForm, f.ext = none ∧ ¬ ∀ e, e < 7 → f.f.getLsbD e = true → (qOf fullArr e).wait = [] ∧ (qOf fullArr e).infl = []) ∧
    (∃ m : BitVec 7, unitsOn (inMode live (.fence m)) = true ∧ ∀ e, e < 7 → m.getLsbD e = true →
      (qOf (inMode live (.fence m)) e).wait = [] ∧ (qOf (inMode live (.fence m)) e).infl = []) ∧
    (unitsOn watched = true ∧ watchMet watched 6 = true ∧ (watchOf watched 6).active = true ∧ (watchOf watched 6).woken = false) ∧
    (watchMet watched 31 = true ∧ (watchOf watched 31).en = true ∧ (watchOf watched 31).hit = false) ∧
    (watchMet watched 7 = true ∧ watched.core.mode = .wait 5) ∧
    (∀ b : Bool, unitsOn (feWord b) = true ∧ memWaits (feWord b) 0x337F8 8 = false ∧ hasDouble (feWord b) 0x337F8 8 = false ∧
      feOk (feWord b) 0x337F8 = true ∧ feFull (feWord b) 0x337F8 = b) :=
  ⟨⟨⟨none, 0, 0, 0, 0x7F⟩, by decide +kernel⟩, ⟨by unfold Runs; decide +kernel, ⟨⟨none, 0, 0, 0, 1⟩, by decide +kernel⟩⟩,
   ⟨0x7F, by decide +kernel⟩, by decide +kernel, by decide +kernel, by decide +kernel, by decide +kernel⟩

theorem witness_SystemInstructions : ∃ (s : State) (f g : CForm), Runs s 4 ∧ f.ext = none ∧ g.ext = none ∧
    (16 ≤ (f.f.extractLsb' 0 6).toNat ∧ (f.f.extractLsb' 0 6).toNat ≤ 23) ∧ s.sec.level = 2 :=
  ⟨live.modSec (fun x => { x with level := 2 }), ⟨none, 1, 2, 0, 23⟩, ⟨none, 0, 0, 0, 7⟩, by unfold Runs; decide +kernel, rfl, rfl,
    by decide, by decide +kernel⟩

/-- The shadow waits for an epoch other than the current one. -/
def shadowed : State := regs (live.modMan (fun m => { m with epochShadow := 9 })) [(1, 9), (2, 4)]

theorem witness_GeneratorPhaseManifest :
    (Runs live 4 ∧ Runs (atPc live 0xFF8) 8) ∧
    (Runs shadowed 4 ∧ ∃ f g h : CForm, f.ext = none ∧ g.ext = none ∧ h.ext = none ∧ f.f.getLsbD 0 = false ∧ shadowed.man.armed = none ∧
      shadowed.man.load = none ∧ shadowed.man.loadWait = none ∧ shadowed.man.syncing = false ∧ g.f.getLsbD 0 = true ∧
      (rd shadowed g.a).extractLsb' 0 32 = shadowed.man.epochShadow ∧ (rd shadowed g.a).extractLsb' 0 32 ≠ shadowed.man.epochCur ∧
      h.f.getLsbD 0 = true ∧ (rd shadowed h.a).extractLsb' 0 32 ≠ shadowed.man.epochShadow) :=
  ⟨⟨runs_live, runs_long⟩, by unfold Runs; decide +kernel, ⟨none, 1, 2, 2, 0⟩, ⟨none, 1, 1, 2, 1⟩, ⟨none, 1, 2, 2, 1⟩, by decide +kernel⟩

theorem witness_InstructionFaults :
    (∃ (s : State) (f : IForm), Runs s (lenOf f.ext) ∧ permits s storeParts (accAddr s f 3) (2 ^ 3) = false) ∧
    (Runs live 4 ∧ Runs (atPc live 0xFF8) 8) ∧ ((⟨true, 0, 0, 0, 0⟩ : RForm).x = true ∧ (⟨false, 0, 0, 0, 8⟩ : RForm).f96 ≠ 0) ∧
    (64 ≤ (⟨none, 0, 0, 64⟩ : IForm).imm.toNat ∧ (⟨some 0, 0, 0, 1⟩ : IForm).ext ≠ none ∧ (⟨some 0, 0, 0, 1⟩ : IForm).imm ≠ 0) ∧
    (Runs (regs live [(1, 0x200000)]) 4 ∧ 2 ^ 21 ≤ ((rd (regs live [(1, 0x200000)]) 1 + immOf none 0) &&& ~~~3).toNat) ∧
    (brTaken 6 (rd live 0) (rd live 0) = some true ∧ ((curCtx live).pc.toNat : Int) + 4 * ((⟨none, 6, 0, 0, 0x200⟩ : BForm).off).toInt < 0 ∧
      7 ≤ (⟨none, 7, 0, 0, 0⟩ : BForm).cond.toNat ∧ ((curCtx live).pc.toNat : Int) + 4 * ((⟨false, 1, 0x80000⟩ : JForm).off).toInt < 0) ∧
    ((⟨none, 0, 0, 0, 6⟩ : CForm).f.extractLsb' 1 2 = 3 ∧ (⟨none, 0, 0, 0, 0x240⟩ : CForm).f.getLsbD 9 = true ∧
      (⟨none, 0, 0, 0, 0xC0⟩ : CForm).f.getLsbD 6 = true ∧ (⟨none, 0, 0, 0, 0x180⟩ : CForm).f.extractLsb' 7 2 = 3 ∧
      (⟨none, 0, 0, 0, 0xC0⟩ : CForm).f.extractLsb' 6 2 = 3 ∧ (⟨none, 0, 0, 0, 1⟩ : CForm).f ≠ 0 ∧
      23 < ((⟨none, 0, 0, 0, 24⟩ : CForm).f.extractLsb' 0 6).toNat ∧ ((⟨none, 0, 0, 0, 15⟩ : CForm).f.extractLsb' 0 6).toNat < 16) ∧
    (mapId live live.core.cur.toNat 8 = none ∧ feOk live (rd live 1).toNat = false) ∧
    (5 ≤ (⟨none, 0, 0, 0, 5, 0⟩ : EForm).fn.toNat ∧ entryOf live ⟨some 0xFFFFFFFF, 0, 0, 0, 0, 0⟩ = none) ∧
    (coreOn (atPc live 0xFFC) = true ∧ fetchOk (atPc live 0xFFC) (curCtx (atPc live 0xFFC)).pc.toNat 8 = false) ∧
    (coreOn (atPc live 0x1000) = true ∧ fetchOk (atPc live 0x1000) (curCtx (atPc live 0x1000)).pc.toNat 4 = false) :=
  ⟨⟨regs live [(1, 0x11000)], ⟨none, 2, 1, 0⟩, by unfold Runs; decide +kernel, by decide +kernel⟩, ⟨runs_live, runs_long⟩, by decide +kernel,
   by decide +kernel, ⟨by unfold Runs; decide +kernel, by decide +kernel⟩, by decide +kernel, by decide +kernel, by decide +kernel,
   by decide +kernel, by decide +kernel, by decide +kernel⟩

/-- The control core of State live while the units are stopped by a fatal fault. -/
def dead : State := live.modFlt (fun f => { f with fatal := true })
/-- The memory of State live while a zeroisation runs. -/
def zeroing : State := live.modMem (fun m => { m with zeroing := true })
/-- An operation in flight that is not done. -/
def busyOp (e : Nat) : State := setQ live e { infl := [{ ent := ent 3, id := 0, wb := none, done := false }] }

theorem witness_EveryCommandAnswers :
    coreOn dead = false ∧ unitsOn dead = false ∧ headFn live eARR 0 = none ∧
    (∃ (s : State) (x : QEntry), Head s eVEC 6 x ∧ spansWait s [(0x1000, 256)] = true) :=
  ⟨by decide +kernel, by decide +kernel, by decide +kernel,
   ⟨queued zeroing eVEC (ent 6), ent 6, head_of _ _ _ _ (by decide +kernel) rfl (by decide +kernel), by decide +kernel⟩⟩

theorem witness_unmetConditions :
    (∀ y, (qOf (busyOp 6) 6).infl[0]? = some y → y.done = false) ∧
    ((qOf fullArr 0).wait ≠ [] ∧ (qOf fullArr 0).failed = false) ∧ ((31 : BitVec 5).toNat ≠ 7 ∧ watchMet (live.modSyn (fun y => { y with watch := [(31, { tgt := 1 })] })) 31 = false) ∧
    (∀ m, (inMode fullArr (.fence 1)).core.mode = .fence m → fenced (inMode fullArr (.fence 1)) m = false) ∧
    strNext live 63 = none ∧ victims live 63 = [] ∧ groupList live (strGrp live 63) = none ∧ strIdle live 63 = false ∧
    nextBale live = none ∧ live.vec.runs = [] ∧ (∀ y ∈ (qOf live eFAC).infl, y.ent.fn ≠ 0 ∨ y.done = true) ∧
    (live.str.cred = 0 ∧ live.str.acks = [] ∧ nextJob live = none ∧ live.pst.cred = 0 ∧ busOn { live with pin := { live.pin with coreRst := false } } = false) ∧
    ((5 : Dword).extractLsb' 0 4 ≠ 4 ∧ (∀ y ∈ live.str.reads, y.tag ≠ 0) ∧ ∀ y ∈ live.str.writes, y.tag ≠ 0) ∧
    (live.modStr (fun x => { x with inbuf := 0 })).str.inbuf = 0 ∧ (∀ y, live.pst.msgs[3]? = some y → y.st ≠ .held ∧ y.st ≠ .retry) ∧
    answered live 2 = none ∧ live.syn.wmCount.toNat < max live.syn.wmThresh.toNat 0x1000 ∧
    wmHeld (live.modCore (fun c => { c with syncArr := true })) = true ∧
    (live.man.load = none ∧ live.man.syncing = false ∧ live.core.rldBusy = false ∧ live.mem.zeroing = false) ∧
    (zeroing.mem.zeroing = true ∧ live.mem.wbq = []) ∧ { live.pin with coreRst := false }.coreRst = false ∧
    live.gov.noStrobe < 12 ∧ live.gov.winTick < 8 ∧ live.gov.pend = none ∧ (live.modGov (fun g => { g with mmInt := 0 })).gov.mmInt = 0 ∧
    (live.ldg.snapReq = false ∧ live.ldg.auto_ = 0 ∧ live.ldg.svReq = false) ∧
    (live.modSec (fun x => { x with busy := true })).sec.busy = true ∧ live.sec.rekey = none ∧ live.sec.codeLoad = none ∧
    (live.core.syncArr = false ∧ 5 ≤ (7 : BitVec 3).toNat) ∧ State.reset.core.syncArr = true ∧ (live.core.phase ≠ 2 ∧ live.core.phase ≠ 3) ∧
    exchRuns live = false ∧ live.xch.load = none ∧ live.clk.alert = false ∧ (live.modGov (fun g => { g with droopEn := false })).gov.droopEn = false ∧ live.clk.stretch = false ∧
    (live.modClk (fun c => { c with armed := true })).clk.armed = true ∧ live.clk.suspend = false ∧ live.pin.coreRst = true ∧
    live.dft.mbistBusy = false := by
  refine ⟨fun y h => ?_, ?_, ?_, fun m h => ?_, ?_, ?_, ?_, ?_, ?_, ?_, ?_, ?_, ?_, ?_, fun y h => by simp [live] at h, ?_⟩
  case refine_1 => injection h with h; subst h; rfl
  case refine_4 => injection h with h; subst h; decide +kernel
  all_goals decide +kernel

/-! The hypotheses of the statements about the queues, the weighers and the array are met. -/

def nextOf (r : Res) : State :=
  match r with
  | .next t => t
  | _ => live

theorem exists_ok {ε α : Type} (r : Except ε α) (h : r.toOption.isSome = true) : ∃ d, r = .ok d := by
  cases r with
  | error => cases h
  | ok d => exact ⟨d, rfl⟩

theorem exists_error {ε α : Type} (r : Except ε α) (h : r.toOption.isNone = true) : ∃ c, r = .error c := by
  cases r with
  | error c => exact ⟨c, rfl⟩
  | ok => cases h

theorem exists_some {α : Type} (r : Option α) (h : r.isSome = true) : ∃ d, r = some d := Option.isSome_iff_exists.mp h

theorem exists_some_any {α : Type} (r : Option α) (p : α → Bool) (h : r.any p = true) : ∃ d, r = some d ∧ p d = true := by
  cases r with
  | none => cases h
  | some d => exact ⟨d, rfl, h⟩

/-- A typed or raw layout descriptor of cols by rows at a. -/
def layout (a base kind cls rows cols pitch : Nat) : List (Nat × Nat × Nat) :=
  [(a, 4, base + 2 ^ 21 * kind + 2 ^ 23 * cls), (a + 4, 4, rows - 1 + 65536 * (cols - 1)), (a + 8, 4, pitch)]

/-- An operation in flight. -/
def infl (x : QEntry) (wb : Option Dword) : Infl := { ent := x, id := 0, wb := wb, done := true }

theorem witness_RetireAndDiscard :
    (∃ (s : State) (q : BitVec 3) (n : Nat) (x : Infl), unitsOn s = true ∧ (qOf s q.toNat).infl[n]? = some x ∧ x.done = true ∧
      inOrder s q.toNat n x = true ∧ spansWait s x.spans = false ∧ (q = 0 → x.car = none) ∧ (q = 1 → vecRunOf s x.id = none) ∧
      x.wb.isSome = true ∧ x.mute = false ∧ x.ent.sv.isSome = true ∧ x.wr = [] ∧ x.units ≠ [] ∧ x.lanes ≠ []) ∧
    (∃ (s : State) (q : BitVec 3) (n : Nat) (x : Infl), unitsOn s = true ∧ (qOf s q.toNat).infl[n]? = some x ∧ x.done = true ∧
      inOrder s q.toNat n x = true ∧ spansWait s x.spans = false ∧ (q = 0 → x.car = none) ∧ (q = 1 → vecRunOf s x.id = none) ∧ NoDouble s ∧ InMemory x.wr.flatten ∧
      x.wr.flatten ≠ []) ∧
    (∃ (s : State) (n : Nat) (x : Infl) (c : Nat), unitsOn s = true ∧ (qOf s eARR).infl[n]? = some x ∧ x.done = true ∧ x.car = some c ∧
      spansWait s x.spans = false ∧ (qOf s eARR).infl.length = 3) ∧
    (∃ (s : State) (q : BitVec 3) (x : QEntry) (rest : List QEntry), unitsOn s = true ∧ (qOf s q.toNat).failed = true ∧
      (qOf s q.toNat).wait = x :: rest ∧ (∀ i, s.core.mode ≠ .full i) ∧ x.sv.isSome = true) :=
  ⟨⟨setQ live eSTH { infl := [{ infl { ent 3 with dreg := 5, sv := some 1 } (some 7) with lanes := [(64, 1)], units := [(2, [3])] }] }, 6, 0, _,
      by decide +kernel, rfl, rfl, by decide +kernel, by decide +kernel, by decide, by decide, rfl, rfl, rfl, rfl, by decide, by decide⟩,
   ⟨setQ live eSTH { infl := [{ infl (ent 0) none with wr := [[(0x10FFF, [1, 2])], [(0x11000, [3])]] }] }, 6, 0, _, by decide +kernel, rfl, rfl,
      by decide +kernel, by decide +kernel, by decide, by decide, by unfold NoDouble; decide +kernel, by unfold InMemory; decide +kernel, by decide⟩,
   ⟨setQ live eARR { infl := [infl (ent 0) none, { infl { ent 2 with sv := some 1 } none with car := some 4 }, { infl (ent 2) none with car := some 4 }] },
      2, _, 4, by decide +kernel, rfl, rfl, rfl, by decide +kernel, by decide +kernel⟩,
   ⟨setQ live eSTH { wait := [{ ent 3 with sv := some 1 }], failed := true }, 6, _, _, by decide +kernel, by decide +kernel, rfl,
    fun i => by simp [live, setQ], rfl⟩⟩

theorem witness_QueueHeads :
    Head (queued live eSTH (ent 3)) eSTH 3 (ent 3) ∧
    (∃ x o, headFn (queued live eSTH x) eSTH 3 = some x ∧ x.wv = some o ∧ ¬ (0 < (objOf (queued live eSTH x) o).val.toInt)) ∧
    (∃ x o, Head (queued (setObj live 1 { val := 1 }) eSTH x) eSTH 3 x ∧ x.wv = some o) :=
  ⟨head_of _ _ _ _ (by decide +kernel) rfl (by decide +kernel),
   ⟨{ ent 3 with wv := some 1 }, 1, by decide +kernel, rfl, by decide +kernel⟩,
   ⟨{ ent 3 with wv := some 1 }, 1, ⟨by decide +kernel, fun o h => by injection h with h; subst h; decide +kernel, by decide +kernel⟩, rfl⟩⟩

theorem witness_WeigherOps : ∀ k ∈ [(0 : Nat), 1, 2, 3, 4],
    (qOf (queued live eWGH (ent (BitVec.ofNat 4 k))) eWGH).infl = [] ∧
    Head (queued live eWGH (ent (BitVec.ofNat 4 k))) eWGH k (ent (BitVec.ofNat 4 k)) := by
  intro k hk
  fin_cases hk <;> exact ⟨rfl, head_of _ _ _ _ (by decide +kernel) rfl (by decide +kernel)⟩

/-- Weigher 0 is enabled for tensor 3, and the loss scale is dynamic. -/
def dynamic : State := live.modMan (fun m => { m with live := tabSet 0 (tabSet 0 (tabSet 0 m.live (oWEIGH + 6) 1) (oWEIGH + 8) 3) (oWEIGH + 10) 0x10 })

theorem witness_WeigherStep :
    (∃ s : State, wghEn s 0 = true ∧ wghTensor s 0 = 3 ∧ s.wgh.stepping = true) ∧ wghEn live 1 = false ∧
    (({} : Weigher).acc.cnt = 0) ∧
    (∃ x : Weigher, x.acc.nonfin = false ∧ x.acc.cnt ≠ 0 ∧ (x.acc.fmt.toNat = 0 ∨ x.acc.fmt.toNat = 2 ∨ fmtIsMx x.acc.fmt.toNat = true)) ∧
    (∀ m ∈ [(0 : Word), 0x7F7FFFFF], ∃ x : Weigher, x.acc.nonfin = false ∧ x.acc.cnt ≠ 0 ∧ x.acc.amax = m ∧
      ¬ (x.acc.fmt.toNat = 0 ∨ x.acc.fmt.toNat = 2 ∨ fmtIsMx x.acc.fmt.toNat = true)) ∧
    (∀ tok ∈ [(false, false), (true, true), (true, false)], ∃ (s : State) (x : Infl), unitsOn s = true ∧ (qOf s eWGH).infl[0]? = some x ∧
      x.done = true ∧ x.ent.fn = 1 ∧ x.wr = [] ∧ x.units = [] ∧ s.wgh.stepping = true ∧ (s.wgh.stepTok, s.wgh.stepTokNf) = tok) ∧
    (lsDyn live = false ∧ lsDyn dynamic = true) :=
  ⟨⟨{ dynamic with wgh := { stepping := true } }, by decide +kernel⟩, by decide +kernel, rfl, ⟨{ acc := { cnt := 1, fmt := 7 } }, by decide +kernel⟩,
   fun m _ => ⟨{ acc := { cnt := 1, fmt := 3, amax := m } }, rfl, by simp, rfl, (by decide +kernel : ¬ ((3 : BitVec 4).toNat = 0 ∨ (3 : BitVec 4).toNat = 2 ∨ fmtIsMx (3 : BitVec 4).toNat = true))⟩,
   fun tok h => ⟨{ setQ live eWGH { infl := [infl (ent 1) none] } with wgh := { stepping := true, stepTok := tok.1, stepTokNf := tok.2 } }, _,
    by fin_cases h <;> decide +kernel, rfl, rfl, rfl, rfl, rfl, rfl, rfl⟩,
   by decide +kernel⟩

/-- A matrix descriptor at 0x1000 of 16 m-blocks and one n-block; OUT and the class of Y as given; a list of one entry at 0x1100. -/
def matrices (m out cls : Nat) : State :=
  poke live ([(0x1000, 4, m + 2 ^ 14 * out), (0x1008, 4, 0x1040), (0x100C, 4, 0x1060), (0x1010, 4, 0x1080), (0x1100, 8, 0x1000)] ++
    layout 0x1040 0x4000 0 0 (16 * 2 ^ m) 16 256 ++ layout 0x1060 0x4400 0 7 16 16 256 ++ layout 0x1080 0x4800 0 cls 16 16 512)

/-- An entry of the ARR queue. -/
def arrEnt (fn : BitVec 4) (b : Dword) : QEntry := { ent fn with d := 0x1000, b := b }

def mm : State := queued (matrices 0 0 3) eARR (arrEnt 0 0)
def conv : State := queued (matrices 0 0 3) eARR (arrEnt 1 0)
def listing : State := queued (matrices 0 0 3) eARR { ent 3 with d := 0x1100, b := 1 }

theorem witness_ArrayAccepts :
    (∃ (x : QEntry) (d : ArrDesc), Head mm eARR 0 x ∧ arrRoom mm x = true ∧ spansWait mm (descSpans mm ⟨x.d.toNat, x.a, x.sub.toNat, false⟩) = false ∧
      arrEval (touchSpans (left mm eARR x) rqDRAIN (descSpans (left mm eARR x) ⟨x.d.toNat, x.a, x.sub.toNat, false⟩))
        ⟨x.d.toNat, x.a, x.sub.toNat, false⟩
        (arrPre (touchSpans (left mm eARR x) rqDRAIN (descSpans (left mm eARR x) ⟨x.d.toNat, x.a, x.sub.toNat, false⟩)) x) (fun _ => [])
        (stepField mm x.ctx) = .ok d) ∧
    (∃ (x : QEntry) (d : ArrDesc), Head conv eARR 1 x ∧ arrRoom conv x = true ∧
      spansWait conv (descSpans conv ⟨x.d.toNat, x.a, x.sub.toNat, true⟩) = false ∧
      arrEval (touchSpans (left conv eARR x) rqDRAIN (descSpans (left conv eARR x) ⟨x.d.toNat, x.a, x.sub.toNat, true⟩))
        ⟨x.d.toNat, x.a, x.sub.toNat, true⟩
        (arrPre (touchSpans (left conv eARR x) rqDRAIN (descSpans (left conv eARR x) ⟨x.d.toNat, x.a, x.sub.toNat, true⟩)) x) (fun _ => [])
        (stepField conv x.ctx) = .ok d) ∧
    (∃ x : QEntry, Head listing eARR 3 x ∧ groupList listing (x.sub.extractLsb' 0 4).toNat = none ∧
      x.fs = 0 ∧ x.sub.toNat < 16 ∧ groupUsed (left listing eARR x) (x.sub.extractLsb' 0 4).toNat = true ∧ 0 < x.b.toNat ∧
      x.b.toNat ≤ 4096 ∧ dataAt (left listing eARR x) x.d.toNat 8 (8 * x.b.toNat) = true) ∧
    Head (queued live eARR (ent 4)) eARR 4 (ent 4) :=
  ⟨(exists_ok _ (by decide +kernel)).elim fun d h =>
      ⟨arrEnt 0 0, d, head_of _ _ _ _ (by decide +kernel) rfl (by decide +kernel), by decide +kernel, by decide +kernel, h⟩,
   (exists_ok _ (by decide +kernel)).elim fun d h =>
      ⟨arrEnt 1 0, d, head_of _ _ _ _ (by decide +kernel) rfl (by decide +kernel), by decide +kernel, by decide +kernel, h⟩,
   ⟨{ ent 3 with d := 0x1100, b := 1 }, head_of _ _ _ _ (by decide +kernel) rfl (by decide +kernel), by decide +kernel⟩,
   head_of _ _ _ _ (by decide +kernel) rfl (by decide +kernel)⟩

/-- A CAR of 8 rows has opened a caravan; another waits. -/
def caravan (rows : Dword) (d : Dword) : State :=
  queued (nextOf (execArrCar (queued (matrices 0 0 3) eARR (arrEnt 2 8)))) eARR { ent 2 with d := d, b := rows }

theorem witness_Caravans :
    (∀ s ∈ [caravan 8 0x1000, queued (matrices 0 0 3) eARR (arrEnt 2 16)], ∃ (x : QEntry) (d : ArrDesc), unitsOn s = true ∧
      Head (carDepart s) eARR 2 x ∧ (carJoins (carDepart s) x = true ∨ arrRoom (carDepart s) x = true) ∧
      spansWait (carDepart s) (descSpans (carDepart s) (carSrc (carDepart s) x)) = false ∧
      carEval (touchSpans (left (carDepart s) eARR x) rqDRAIN (descSpans (left (carDepart s) eARR x) (carSrc (left (carDepart s) eARR x) x))) x = .ok d) ∧
    (∃ (x : QEntry) (o : ArrOp), headFn (caravan 9 0x1000) eARR 2 = some x ∧ openCar (caravan 9 0x1000) x.sub.toNat = some o ∧
      o.capRows < o.fill + x.b.toNat ∧ spansWait (caravan 9 0x1000) (descSpans (caravan 9 0x1000) (carSrc (caravan 9 0x1000) x)) = false ∧
      x.wv = none ∧ ∃ d, carEval (caravan 9 0x1000) x = .ok d) ∧
    (∃ (x : QEntry) (o : ArrOp), headFn (caravan 17 0x1000) eARR 2 = some x ∧ openCar (caravan 17 0x1000) x.sub.toNat = some o ∧
      o.capRows < o.fill + x.b.toNat ∧ ∃ c, carEval (caravan 17 0x1000) x = .error c) ∧
    (∃ o : ArrOp, unitsOn (caravan 9 0x1000) = true ∧ openCar (caravan 9 0x1000) 0 = some o ∧
      ∀ x ∈ (caravan 9 0x1000).arr.ops, x.id = o.id → x = o) :=
  ⟨fun s h => by
      fin_cases h
      · exact (exists_ok _ (by decide +kernel)).elim fun d h =>
          ⟨arrEnt 2 8, d, by decide +kernel, head_of _ _ _ _ (by decide +kernel) rfl (by decide +kernel), by decide +kernel, by decide +kernel, h⟩
      · exact (exists_ok _ (by decide +kernel)).elim fun d h =>
          ⟨arrEnt 2 16, d, by decide +kernel, head_of _ _ _ _ (by decide +kernel) rfl (by decide +kernel), by decide +kernel, by decide +kernel, h⟩,
   (exists_some_any (openCar (caravan 9 0x1000) 0) (fun o => decide (o.capRows < o.fill + 9)) (by decide +kernel)).elim fun o h =>
      ⟨arrEnt 2 9, o, by decide +kernel, h.1, of_decide_eq_true h.2, by decide +kernel, rfl, exists_ok _ (by decide +kernel)⟩,
   (exists_some_any (openCar (caravan 17 0x1000) 0) (fun o => decide (o.capRows < o.fill + 17)) (by decide +kernel)).elim fun o h =>
      ⟨arrEnt 2 17, o, by decide +kernel, h.1, of_decide_eq_true h.2, exists_error _ (by decide +kernel)⟩,
   (exists_some_any (openCar (caravan 9 0x1000) 0) (fun o => decide (∀ x ∈ (caravan 9 0x1000).arr.ops, x.id = o.id → x = o))
      (by decide +kernel)).elim fun o h => ⟨o, by decide +kernel, h.1, of_decide_eq_true h.2⟩⟩

/-- String 0 holds a matrix product of 2 items. -/
def twoItems : State := nextOf (execArrMm (queued (matrices 1 0 3) eARR (arrEnt 0 0)))

theorem witness_ItemClaims :
    (∃ o, strNext twoItems 0 = some o ∧ decide (strCan twoItems 0 = true ∧ spansWait twoItems (itemSpans o.joins o.desc o.lo) = false) = true) ∧
    (∃ o, bestVictim (victims twoItems 1) = some o ∧ decide (strIdle twoItems 1 = true ∧ groupList twoItems (strGrp twoItems 1) = none ∧
      servedFirst twoItems 1 (fun j => (bestVictim (victims twoItems j)).isSome) = false ∧
      spansWait twoItems (itemSpans o.joins o.desc (o.hi - 1)) = false) = true) :=
  ⟨exists_some_any _ _ (by decide +kernel), exists_some_any _ _ (by decide +kernel)⟩

def listed : State := nextOf (execArrList listing)

/-- The same, where the entry names a descriptor that does not exist. -/
def listedBad : State := poke listed [(0x1100, 8, 0x1001)]

/-- What the claim of a list's next entry finds, after its reads. -/
def entryFound (s : State) (o : ArrOp) (i : Nat) : Except Nat ArrDesc :=
  entryEval ((touchSpans s rqDRAIN ((o.addr + 8 * o.lo, 8) :: descSpans s (entrySrc s o i))).modArr
    (fun a => { a with listEnt := a.listEnt + 1 })) o i

theorem mode_listedBad : listedBad.core.mode = .run := by decide +kernel

theorem witness_ListClaims :
    (∃ (o : ArrOp) (d : ArrDesc), groupList listed (strGrp listed 0) = some o ∧ strIdle listed 0 = true ∧
      servedFirst listed 0 (fun _ => true) = false ∧ spansWait listed (entrySpans listed o 0) = false ∧ entryFound listed o 0 = .ok d) ∧
    (∃ (o : ArrOp) (c : Nat), groupList listedBad (strGrp listedBad 0) = some o ∧ strIdle listedBad 0 = true ∧
      servedFirst listedBad 0 (fun _ => true) = false ∧ spansWait listedBad (entrySpans listedBad o 0) = false ∧
      entryFound listedBad o 0 = .error c ∧ ∀ k, listedBad.core.mode ≠ .full k) :=
  ⟨(exists_some_any (groupList listed (strGrp listed 0)) (fun o => decide (spansWait listed (entrySpans listed o 0) = false) &&
      (entryFound listed o 0).toOption.isSome) (by decide +kernel)).elim fun o h => by
    obtain ⟨h1, h2⟩ := h
    rw [Bool.and_eq_true] at h2
    exact (exists_ok _ h2.2).elim fun d hd => ⟨o, d, h1, by decide +kernel, by decide +kernel, of_decide_eq_true h2.1, hd⟩,
   (exists_some_any (groupList listedBad (strGrp listedBad 0)) (fun o => decide (spansWait listedBad (entrySpans listedBad o 0) = false) &&
      (entryFound listedBad o 0).toOption.isNone) (by decide +kernel)).elim fun o h => by
    obtain ⟨h1, h2⟩ := h
    rw [Bool.and_eq_true] at h2
    exact (exists_error _ h2.2).elim fun c hc => ⟨o, c, h1, by decide +kernel, by decide +kernel, of_decide_eq_true h2.1, hc,
      fun k hk => by simp [mode_listedBad] at hk⟩⟩

/-- A finished bale of zeros that leaves through OUT. -/
def bale (out : Nat) : Bale :=
  { opId := 0, string := 0, item := 0, tag := 0, last := true, pos := 0, desc := { m := 16, n := 16, k := 16, out := out }, vals := List.replicate 256 0 }

/-- Three finished bales: one finished later, two on one a-cycle, of which the one of the lower string came into the buffers last. -/
def finished (out : Nat) : State :=
  live.modArr (fun a => { a with bufs := [{ bale out with fin := 2 }, { bale out with fin := 1, string := 1 }, { bale out with fin := 1 }] })

theorem witness_BaleDrain : ∀ out ∈ [0, 1, 2],
    nextBale (finished out) = some { bale out with fin := 1 } ∧ (finished out).arr.bufs.all (fun c => decide (c.left = 0)) = true ∧
    nextBale (live.modArr (fun a => { a with bufs := [bale out] })) = some (bale out) ∧
    unitsOn (live.modArr (fun a => { a with bufs := [bale out] })) = true ∧
    spansWait (live.modArr (fun a => { a with bufs := [bale out] })) (codeSpans (bale out) ++ accSpans (bale out)) = false ∧
    NoDouble (live.modArr (fun a => { a with bufs := [bale out] })) ∧ (bale out).item < 4096 ∧ (bale out).string < 64 ∧
    (bale out).desc.y.fmt < 16 ∧ (bale out).desc.out = out := by unfold NoDouble; decide +kernel
/-! The hypotheses of the statements about the vector engine, the Factor and the stash are met. -/

/-- A run descriptor at 0x1000: input 0 is none or a bale of the layout at 0x1040, an 8 by 8 space of count elements; the one-word program at 0x1200 is the micro-op of preset 0. -/
def runs (isBale : Bool) (count : Nat) : State :=
  poke live ([(0x1000, 4, if isBale then 2 + 2 ^ 8 * 0x1040 else 0), (0x1014, 4, count), (0x1018, 4, if isBale then 2 + 2 ^ 16 else 0),
    (0x101C, 4, 7 + 65536 * 7), (0x1200, 4, 1)] ++ layout 0x1040 0x4000 0 3 16 16 512)

def vecRun : QEntry := { ent 0 with d := 0x1000, a := 64 }
def vecBales : QEntry := { ent 0 with d := 0x1000, a := 512 }
def vecProg : QEntry := { ent 1 with d := 0x1200, a := 0x1000, fs := 1 }

/-- LOAD of input 0 from memory into T1 and one more micro-op that takes T1; output 0 as given. -/
def program (op out : Nat) : State :=
  poke live ([(0x1000, 4, 1 + 2 ^ 8 * 0x1040), (0x100C, 4, out), (0x1014, 4, 64), (0x101C, 4, 7 + 65536 * 7), (0x1200, 4, 0x10), (0x1204, 4, op),
    (0x4000, 4, 0x3F800000), (0x4004, 4, 0x40000000), (0x4200, 4, 0x40400000)] ++
    layout 0x1040 0x4000 0 3 16 16 512 ++ layout 0x1060 0x4800 0 3 16 16 512)

def vecProg2 : QEntry := { ent 1 with d := 0x1200, a := 0x1000, fs := 2 }

theorem of_mem (o : VOperand) (h : (match o with | .mem _ => true | _ => false) = true) : ∃ l, o = .mem l := by
  cases o with
  | mem l => exact ⟨l, rfl⟩
  | _ => cases h

theorem of_mem_all (o : VOperand) (p : Layout → Bool) (h : (match o with | .mem l => p l | _ => false) = true) : ∃ l, o = .mem l ∧ p l = true := by
  cases o with
  | mem l => exact ⟨l, rfl, h⟩
  | _ => cases h

/-- What a RUN or a PROG names, as the statement VectorChains reads it. -/
def chainSrc (fn : Nat) (x : QEntry) (z : State) : ChainSrc :=
  let n := min (x.fs.extractLsb' 0 5).toNat 16
  let a := if fn = 0 then x.d.toNat else x.a.toNat
  { addr := a
    count := if fn = 0 then (x.a.extractLsb' 0 32).toNat else if dataAt z a 64 64 then rdWord z a 5 else 0
    progAt := fn == 0 || dataAt z x.d.toNat 64 (4 * n)
    progMem := if fn = 0 then [] else [(x.d.toNat, 4 * n)]
    prog := if fn = 0 then presetWords z (x.sub.extractLsb' 0 4).toNat else (List.range n).map (fun k => BitVec.ofNat 32 (rdWord z x.d.toNat k)) }

/-- The operation may leave its queue and passes its checks. -/
def chainPasses (fn : Nat) (x : QEntry) (s : State) : Bool :=
  let p := (x.sub.extractLsb' 0 4).toNat
  let v := forceAll (left s eVEC x)
  let c := chainSrc fn x v
  let resv := if fn = 0 then decide (16 ≤ x.sub.toNat) || decide (x.fs.extractLsb' 0 17 ≠ 0)
    else decide (x.sub ≠ 0) || decide (x.fs.extractLsb' 5 12 ≠ 0)
  let bad := if fn = 0 then !presetOn s p || decide (stagesOf s p = 0) || decide (8 < stagesOf s p)
    else decide (x.fs.extractLsb' 0 5 = 0) || decide (16 < (x.fs.extractLsb' 0 5).toNat)
  chainFree s x && !spansWait s (chainSpans s (chainSrc fn x s)) &&
    decide ((runCause (touchSpans v rqVRD (runReads v c)) c.addr c.count c.progAt c.prog resv bad).1 = 0)

/-- The chain operation of that program, with none of its beats entered. -/
def chainRun (op out : Nat) : VRun :=
  { id := 0, prog := [0x10, BitVec.ofNat 32 op], rd := runDescOf (program op out) 0x1000 64, scal := 0, done := 0, avail := 64, wait := 0
    red := [], touched := [], stepField := 0 }

/-- It alone is in the chain, and may retire. -/
def retiring (op out : Nat) : State :=
  (setQ (program op out) eVEC { infl := [infl vecProg2 none] }).modVec (fun v => { v with runs := [chainRun op out] })

theorem witness_VectorChains :
    (∀ p ∈ [(false, 0, vecRun, 0), (true, 0, vecBales, 0), (false, 1, vecProg, 0), (false, 0, vecRun, 64), (false, 1, vecProg, 64)],
      Head (queued (runs p.1 p.2.2.2) eVEC p.2.2.1) eVEC p.2.1 p.2.2.1 ∧
      chainPasses p.2.1 p.2.2.1 (queued (runs p.1 p.2.2.2) eVEC p.2.2.1) = true) ∧
    (∃ z : VRun, decide (z.done < z.avail) = true ∧
      chainPasses 0 vecRun ((queued (runs false 0) eVEC vecRun).modVec (fun v => { v with runs := [z] })) = true) ∧
    (∀ p ∈ [(0x47, 0x7F), (0x47, 1 + 2 ^ 8 * 0x1060), (0x1F044, 0)],
      let s := retiring p.1 p.2
      let r := chainRun p.1 p.2
      let op := BitVec.ofNat 32 p.1
      (unitsOn s = true ∧ (qOf s eVEC).infl = [infl vecProg2 none] ∧ (infl vecProg2 none).done = true ∧
        inOrder s eVEC 0 (infl vecProg2 none) = true ∧ s.vec.runs = [r] ∧ r.id = (infl vecProg2 none).id ∧ r.avail = r.rd.count ∧
        spansWait s r.rd.spans = false ∧ uType 0x10 = 0 ∧ uSrc 0x10 = 0 ∧ (0x10 : Word).getLsbD 8 = false ∧ uSrc op = uDst 0x10) ∧
      NoDouble s ∧ (∃ l, r.rd.ins.getD 0 .none = .mem l) ∧
      (p.2 = 0x7F → uType op = 7 ∧ op.getLsbD 8 = false ∧ r.rd.outs.getD 0 .none = .reg 31) ∧
      (p.2 = 1 + 2 ^ 8 * 0x1060 → uType op = 7 ∧ op.getLsbD 8 = false ∧
        ∃ o, r.rd.outs.getD 0 .none = .mem o ∧ decide (o.isMx = false ∧ o.kind = 0 ∧ o.width ≤ 32 ∧
          ∀ e ∈ List.range 64, o.elemAddr (r.rd.place 0 e).1 (r.rd.place 0 e).2 + 4 ≤ memTop) = true) ∧
      (p.2 = 0 → uType op = 4 ∧ op.extractLsb' 8 4 = 0)) := by
  refine ⟨fun p h => ?_, ⟨chainRun 0x47 0x7F, ?_⟩, fun p h => ?_⟩
  · fin_cases h <;> exact ⟨head_of _ _ _ _ (by decide +kernel) rfl (by decide +kernel), by decide +kernel⟩
  · decide +kernel
  · fin_cases h <;> refine ⟨?_, by unfold NoDouble; decide +kernel, of_mem _ ?_, ?_, fun h => ?_, ?_⟩
    all_goals first | decide +kernel | exact absurd h (by decide) | skip
    exact ⟨by decide +kernel, by decide +kernel, of_mem_all _ _ (by decide +kernel)⟩

/-- A chain operation of n elements waits for bales, and one is presented. -/
def reading (n : Nat) : State :=
  { live with
    vec := { runs := [{ id := 0, prog := [0x10, 0x47], rd := { ins := [.bale {}], outs := [.reg 24], count := n, map := 2 }, scal := 0, done := 0
                        avail := 0, wait := 0, red := [], touched := [], stepField := 0 }] }
    arr := { bq := [{ pos := 0, rcd := 0, codes := List.replicate 256 0 }] } }

/-- It has read its one bale, and may retire. -/
def baleTaken : State := setQ (nextOf (execBaleRead (reading 256))) eVEC { infl := [infl vecBales none] }

theorem witness_BaleRead :
    (∀ n ∈ [256, 512], ∃ r q, baleRun (reading n) = some r ∧ presented (reading n) = some q ∧
      decide (unitsOn (reading n) = true ∧ spansWait (reading n) r.rd.spans = false ∧ (∀ x ∈ (reading n).vec.runs, x.id = r.id → x = r) ∧
        (n = 256 → r.rd.count ≤ r.avail + 256) ∧ (n = 512 → r.avail + 256 < r.rd.count) ∧ baleStrict (reading n) = false ∧
        r.avail ≤ r.done) = true) ∧
    (∃ r, baleTaken.vec.runs = [r] ∧ (qOf baleTaken eVEC).infl = [infl vecBales none] ∧
      decide (unitsOn baleTaken = true ∧ (infl vecBales none).done = true ∧ inOrder baleTaken eVEC 0 (infl vecBales none) = true ∧
        r.id = (infl vecBales none).id ∧ r.bale.isSome = true ∧ r.done + 256 = r.avail ∧ r.avail = r.rd.count ∧ r.beats = [] ∧ r.red = [] ∧
        r.done % 256 = 0 ∧ spansWait baleTaken ((infl vecBales none).spans ++ r.rd.spans) = false ∧ r.prog = [0x10, 0x47] ∧
        uType 0x10 = 0 ∧ uSrc 0x10 = 0 ∧ (0x10 : Word).getLsbD 8 = false ∧ uType 0x47 = 7 ∧ uSrc 0x47 = uDst 0x10 ∧
        (0x47 : Word).getLsbD 8 = false ∧ r.rd.ins.getD 0 .none = .bale {} ∧ r.rd.outs.getD 0 .none = .reg 24) = true) := by
  refine ⟨fun n hn => ?_, _, rfl, rfl, by decide +kernel⟩
  fin_cases hn <;> exact ⟨_, _, rfl, rfl, by decide +kernel⟩

theorem witness_VectorRegisters :
    (∃ x : QEntry, Head (queued live eVEC x) eVEC 3 x ∧ vecSerial (queued live eVEC x) x = true ∧
      x.sub.toNat < 32 ∧ x.fs.extractLsb' 0 17 = 0 ∧ (x.a.extractLsb' 10 4).toNat = 6) ∧
    (∃ x : QEntry, Head (queued live eVEC x) eVEC 8 x ∧ vecSerial (queued live eVEC x) x = true ∧ x.sub.toNat < 32 ∧ x.fs.getLsbD 16 = false) ∧
    (∃ x : QEntry, Head (queued live eVEC x) eVEC 9 x ∧ vecSerial (queued live eVEC x) x = true ∧ x.sub.toNat < 32 ∧
      x.fs.extractLsb' 10 7 = 0 ∧ (x.fs.extractLsb' 0 4).toNat = 5) :=
  ⟨⟨{ ent 3 with sub := 31, a := 0x1800, fs := 0x20000 }, head_of _ _ _ _ (by decide +kernel) rfl (by decide +kernel), by decide +kernel⟩,
   ⟨{ ent 8 with sub := 31, fs := 0xFFFF }, head_of _ _ _ _ (by decide +kernel) rfl (by decide +kernel), by decide +kernel⟩,
   ⟨{ ent 9 with sub := 31, fs := 5 }, head_of _ _ _ _ (by decide +kernel) rfl (by decide +kernel), by decide +kernel⟩⟩

/-- A 16-bit layout descriptor at 0x1040. -/
def packs (x : QEntry) : State := queued (poke live (layout 0x1040 0x4000 0 0 16 16 256)) eVEC x

theorem witness_VectorMemory :
    (∃ x : QEntry, Head (packs x) eVEC 2 x ∧ vecSerial (packs x) x = true ∧ x.sub.toNat < 32 ∧ x.fs.extractLsb' 0 17 = 0 ∧
      dataAt (packs x) x.d.toNat 64 64 = true ∧ memWaits (packs x) x.d.toNat 64 = false) ∧
    (∃ x : QEntry, Head (packs x) eVEC 6 x ∧ permits (packs x) [pDATA, pSTASH] (x.d.toNat / 32 * 32) 256 = true ∧
      memWaits (packs x) (x.d.toNat / 32 * 32) 256 = false) ∧
    (∃ x : QEntry, Head (packs x) eVEC 7 x ∧ permits (packs x) [pDATA] (x.d.toNat / 32 * 32) 256 = true ∧
      memWaits (packs x) (x.d.toNat / 32 * 32) 256 = false) ∧
    (∃ x : QEntry, (∃ l, readLayout (left (packs x) eVEC x) x.d.toNat = some l ∧ (!l.isMx && decide (l.kind = 0 ∧ 30 + 32 / l.width ≤ 32)) = true) ∧
      vldescAt (packs x) x.d.toNat = true ∧ memWaits (packs x) x.d.toNat 32 = false ∧ Head (packs x) eVEC 4 x ∧ (x.a.extractLsb' 0 5).toNat = 30) ∧
    (∃ x : QEntry, (∃ l, readLayout (left (packs x) eVEC x) x.d.toNat = some l ∧ (!l.isMx && decide (l.kind = 0 ∧ 30 + 32 / l.width ≤ 32)) = true) ∧
      vldescAt (packs x) x.d.toNat = true ∧ memWaits (packs x) x.d.toNat 32 = false ∧ Head (packs x) eVEC 5 x ∧ (x.sub.extractLsb' 0 5).toNat = 30) :=
  ⟨⟨{ ent 2 with d := 0x10FC0, sub := 31 }, head_of _ _ _ _ (by decide +kernel) rfl (by decide +kernel), by decide +kernel⟩,
   ⟨{ ent 6 with d := 0x10FFF }, head_of _ _ _ _ (by decide +kernel) rfl (by decide +kernel), by decide +kernel⟩,
   ⟨{ ent 7 with d := 0x10F1F }, head_of _ _ _ _ (by decide +kernel) rfl (by decide +kernel), by decide +kernel⟩,
   ⟨{ ent 4 with d := 0x1040, a := 30 }, exists_some_any _ _ (by decide +kernel), by decide +kernel, by decide +kernel,
    head_of _ _ _ _ (by decide +kernel) rfl (by decide +kernel), by decide +kernel⟩,
   ⟨{ ent 5 with d := 0x1040, sub := 30 }, exists_some_any _ _ (by decide +kernel), by decide +kernel, by decide +kernel,
    head_of _ _ _ _ (by decide +kernel) rfl (by decide +kernel), by decide +kernel⟩⟩

/-- A span of one parameter at 0x1000: a linear gradient of class 5, a version record, two slots, and weights of class 7; the step of context 0 is in a state. -/
def span (st : BitVec 3) (x : QEntry) : State :=
  queued ((poke live ([(0x1000, 4, 0x1040), (0x1004, 4, 0x10C0), (0x1008, 4, 0x5000), (0x100C, 4, 0x5040), (0x1010, 4, 0x5080), (0x1014, 4, 0x50C0),
    (0x1018, 4, 0x1080), (0x101C, 4, 0x1080), (0x1020, 4, 1)] ++
    layout 0x1040 (0x4000 + 2 ^ 26) 0 5 1 8 32 ++ layout 0x1080 (0x4400 + 2 ^ 26) 0 7 1 8 16)).modFac
      (fun f => { f with ctxs := [(0, { st := st, step := 3, ver := 2, lat := { rule := 1, groups := [{ v := List.replicate 8 0 }] } })] })) eFAC x

def stepEnt : QEntry := { ent 0 with a := 0x100000005 }
def spanEnt (fn : BitVec 4) : QEntry := { ent fn with a := 0x1000, b := 1 }
def stepped : State := nextOf (execFacStep (queued live eFAC stepEnt))
def landed : State := stepped.modFac (fun f => { f with sched := [(0, List.replicate 512 0), (1, List.replicate 512 0)] })
def versioned (st : BitVec 3) (x : QEntry) : State := poke (span st x) [(0x10C0, 4, 2)]

/-- The token of context 0. -/
def withToken (s : State) (k : NormTok) : State :=
  s.modFac (fun f => { f with ctxs := tabSet {} f.ctxs 0 { tabGet {} f.ctxs 0 with tok := k } })

/-- The schedule of the next group of an operation has landed. -/
def groupLanded (s : State) (i : Infl) : Bool :=
  (schedBytes s (facOf s i.ent.ctx).lat.schedOff (facOf s i.ent.ctx).lat.groups.length).isSome

theorem witness_FactorPass1 :
    (∃ s : State, Head s eFAC 0 stepEnt ∧ facFree s = true ∧ stepEnt.sub = 0 ∧ stepEnt.fs = 0 ∧ stepEnt.a.extractLsb' 34 30 = 0 ∧
      regionCheck s 0 (BitVec.ofNat 6 (stepLatch s 5 false).schedReg) .get ((stepLatch s 5 false).schedOff / 512)
        (ceilDiv ((stepLatch s 5 false).schedOff % 512 + 1024 * ((stepLatch s 5 false).groupsM1 + 1)) 512) = 0) ∧
    (unitsOn landed = true ∧ (∃ i, (qOf landed eFAC).infl.find? (fun x => decide (x.ent.fn = 0) && !x.done) = some i ∧ groupLanded landed i = true)) ∧
    (∃ s : State, Head s eFAC 1 (spanEnt 1) ∧ facFree s = true ∧ NoDouble s ∧
      spansWait s (thenSpans s (p1Heads s (spanEnt 1)) (p1Body s (spanEnt 1))) = false ∧ p1Fails (left s eFAC (spanEnt 1)) (spanEnt 1) = 0) ∧
    (∃ s : State, Head s eFAC 2 (ent 2) ∧ facFree s = true ∧ (facOf s 0).st.toNat ∈ [3, 4, 5]) ∧
    (∃ s : State, Head s eFAC 5 (ent 5) ∧ facFree s = true) :=
  ⟨⟨queued live eFAC stepEnt, head_of _ _ _ _ (by decide +kernel) rfl (by decide +kernel), by decide +kernel⟩,
   ⟨by decide +kernel, exists_some_any _ (groupLanded landed) (by decide +kernel)⟩,
   ⟨span 1 (spanEnt 1), head_of _ _ _ _ (by decide +kernel) rfl (by decide +kernel), by decide +kernel, by unfold NoDouble; decide +kernel,
    by decide +kernel⟩,
   ⟨span 5 (ent 2), head_of _ _ _ _ (by decide +kernel) rfl (by decide +kernel), by decide +kernel⟩,
   ⟨span 0 (ent 5), head_of _ _ _ _ (by decide +kernel) rfl (by decide +kernel), by decide +kernel⟩⟩

theorem witness_PartialSum : ({ q := 7 } : FacCtx).q < 8 := by decide

theorem witness_FactorPass2 :
    (∀ p ∈ [((5 : BitVec 3), false), (3, true), (3, false)], ∃ s : State, Head s eFAC 3 (spanEnt 3) ∧ facFree s = true ∧
      lowest (spanOperands s (spanEnt 3) [3, 4, 5]) = 0 ∧ (facOf s 0).st = p.1 ∧ (facOf s 0).tok.nf = p.2 ∧
      (p = (3, false) → (facOf s 0).tok.min ≠ (facOf s 0).tok.max ∧ (facOf s 0).lat.skewOk = false)) ∧
    (∀ st ∈ [(3 : BitVec 3), 4], ∃ s : State, Head s eFAC 3 (spanEnt 3) ∧ facFree s = true ∧ NoDouble s ∧
      spansWait s (p2Spans s (spanEnt 3)) = false ∧ (facOf s 0).st = st ∧ (facOf s 0).tok.nf = false ∧
      (facOf s 0).tok.min = (facOf s 0).tok.max ∧ p2Fails (left s eFAC (spanEnt 3)) (spanEnt 3) = 0) ∧
    (∃ s x, Head s eFAC 4 x ∧ facFree s = true ∧ x.sub = 0 ∧ x.fs = 0 ∧ x.a.extractLsb' 32 32 = 0 ∧ (facOf s x.ctx).st = 4 ∧
      x.a.extractLsb' 0 32 = (facOf s x.ctx).ver + 1) ∧
    (∀ skip : Bool, ∃ (s : State) (x : Infl), unitsOn s = true ∧ (qOf s eFAC).infl[0]? = some x ∧ x.done = true ∧ x.ent.fn = 4 ∧
      x.wb = none ∧ x.wr = [] ∧ s.fac.committing = some (0, skip)) :=
  ⟨fun p h => by
    fin_cases h
    · exact ⟨span 5 (spanEnt 3), head_of _ _ _ _ (by decide +kernel) rfl (by decide +kernel), by decide +kernel⟩
    · exact ⟨withToken (span 3 (spanEnt 3)) { nf := true }, head_of _ _ _ _ (by decide +kernel) rfl (by decide +kernel), by decide +kernel⟩
    · exact ⟨withToken (span 3 (spanEnt 3)) { max := 1 }, head_of _ _ _ _ (by decide +kernel) rfl (by decide +kernel), by decide +kernel⟩,
   fun st h => by
    fin_cases h
    · exact ⟨versioned 3 (spanEnt 3), head_of _ _ _ _ (by decide +kernel) rfl (by decide +kernel), by decide +kernel,
        by unfold NoDouble; decide +kernel, by decide +kernel⟩
    · exact ⟨versioned 4 (spanEnt 3), head_of _ _ _ _ (by decide +kernel) rfl (by decide +kernel), by decide +kernel,
        by unfold NoDouble; decide +kernel, by decide +kernel⟩,
   ⟨span 4 { ent 4 with a := 3 }, { ent 4 with a := 3 }, head_of _ _ _ _ (by decide +kernel) rfl (by decide +kernel), by decide +kernel⟩,
   fun skip => ⟨{ setQ live eFAC { infl := [infl (ent 4) none] } with fac := { committing := some (0, skip) } }, _, by cases skip <;> decide +kernel,
    rfl, rfl, rfl, rfl, rfl, rfl⟩⟩

/-- Entry 0 of the stash, and an 8 by 8 binary32 tensor of class 3 at 0x1040. -/
def stashed (e : StEnt) (x : QEntry) : State :=
  (queued (poke live (layout 0x1040 0x4000 0 3 8 8 256)) eSTH x).modSth (fun h =>
    { h with ents := if e = {} then [] else [(0, e)], order := if e.st = .lcl then [0] else [] })

def cell (st : StSt) : StEnt := { st := st, size := 2, rows := 8, cols := 8 }
def putEntry (drop : BitVec 6) : QEntry := { ent 0 with sub := drop, fs := 2, b := 0x1040 }

/-- What PUT and GET ask of the layout at 0x1040. -/
def putPasses (s : State) (x : QEntry) : Bool :=
  ldescAt s 0x1040 && match readLayout (left s eSTH x) 0x1040 with
    | some l => decide (putCause (left s eSTH x) x (some l) = 0)
    | none => false
def getPasses (s : State) (x : QEntry) : Bool :=
  ldescAt s 0x1040 && match readLayout (left s eSTH x) 0x1040 with
    | some l => decide (getCause (left s eSTH x) (entOf s 0) l = 0)
    | none => false

/-- The stash is in spill mode. -/
def spilling (s : State) : State := s.modMan (fun m => { m with live := tabSet 0 m.live (oPART + 0x20) 1 })

theorem placed_at (s : State) (op n : Nat) (h : (match (place s op n).2 with | .at_ _ => true | _ => false) = true) :
    ∃ v line, place s op n = (v, .at_ line) := by
  cases e : place s op n with
  | mk v w => cases w with
    | at_ line => exact ⟨v, line, rfl⟩
    | full => simp [e] at h
    | refused => simp [e] at h

theorem placed_full (s : State) (op n : Nat) (h : (match (place s op n).2 with | .full => true | _ => false) = true) :
    ∃ v, place s op n = (v, .full) := by
  cases e : place s op n with
  | mk v w => cases w with
    | at_ line => simp [e] at h
    | full => exact ⟨v, rfl⟩
    | refused => simp [e] at h

theorem witness_StashPutFreeQuery :
    (∀ drop ∈ [0#6, 1#6], Head (stashed {} (putEntry drop)) eSTH 0 (putEntry drop) ∧ sthFree (stashed {} (putEntry drop)) = true ∧
      spansWait (stashed {} (putEntry drop)) (putSpans (stashed {} (putEntry drop)) (putEntry drop)) = false ∧
      putPasses (stashed {} (putEntry drop)) (putEntry drop) = true ∧ stashMode (stashed {} (putEntry drop)) = 2) ∧
    (∃ v line, place (putInfl (touchAt (left (stashed {} (putEntry 0)) eSTH (putEntry 0)) 0x1040) eSTH (putEntry 0) none false)
      (stashed {} (putEntry 0)).opId 2 = (v, .at_ line)) ∧
    (let s := spilling (stashed {} (putEntry 1));
      Head s eSTH 0 (putEntry 1) ∧ sthFree s = true ∧ spansWait s (putSpans s (putEntry 1)) = false ∧ putPasses s (putEntry 1) = true ∧
      stashMode s = 1 ∧ depotRoom s 1 = true ∧ regionCheck s s.core.cur (depotReg s) .put s.sth.dptr.toNat 1 = 0) ∧
    (let s := stashed { cell .lcl with pinned := true, size := 1024 } { putEntry 0 with a := 1 };
      Head s eSTH 0 { putEntry 0 with a := 1 } ∧ sthFree s = true ∧ spansWait s (putSpans s { putEntry 0 with a := 1 }) = false ∧
      putPasses s { putEntry 0 with a := 1 } = true ∧
      ∃ v, place (putInfl (touchAt (left s eSTH { putEntry 0 with a := 1 }) 0x1040) eSTH { putEntry 0 with a := 1 } none false) s.opId 2 = (v, .full)) ∧
    (∀ id ∈ [(0 : Dword), 0xFFFF], ∃ x : QEntry, Head (stashed (cell .lcl) x) eSTH 2 x ∧ sthFree (stashed (cell .lcl) x) = true ∧ x.sub = 0 ∧
      x.fs = 0 ∧ x.a = id ∧ (entOf (stashed (cell .lcl) x) 0).st ≠ .empty ∧ depotBusy (stashed (cell .lcl) x) = false) ∧
    (Head (stashed (cell .lcl) (ent 3)) eSTH 3 (ent 3) ∧ sthFree (stashed (cell .lcl) (ent 3)) = true ∧
      lineAddr (stashed (cell .lcl) (ent 3)) (cell .lcl).line < memTop) := by
  refine ⟨fun drop h => ?_, placed_at _ _ _ (by decide +kernel), ?_, ?_, fun id h => ?_,
    head_of _ _ _ _ (by decide +kernel) rfl (by decide +kernel), by decide +kernel⟩
  · fin_cases h <;> exact ⟨head_of _ _ _ _ (by decide +kernel) rfl (by decide +kernel), by decide +kernel⟩
  · exact ⟨head_of _ _ _ _ (by decide +kernel) rfl (by decide +kernel), by decide +kernel⟩
  · exact ⟨head_of _ _ _ _ (by decide +kernel) rfl (by decide +kernel), by decide +kernel, by decide +kernel, by decide +kernel,
      placed_full _ _ _ (by decide +kernel)⟩
  · fin_cases h
    · exact ⟨{ ent 2 with a := 0 }, head_of _ _ _ _ (by decide +kernel) rfl (by decide +kernel), by decide +kernel⟩
    · exact ⟨{ ent 2 with a := 0xFFFF }, head_of _ _ _ _ (by decide +kernel) rfl (by decide +kernel), by decide +kernel⟩

/-- Beside it entry 1 fills the ring, and is pinned. -/
def crowded (s : State) : State :=
  s.modSth (fun h => { h with ents := h.ents ++ [(1, { cell .lcl with pinned := true, size := 1024 })], order := [1] })

/-- Its last block is on the way, to line 0. -/
def returning : State :=
  { live with
    sth := { ents := [(0, cell .depot)], rd := some { id := 0, ent := 0, dst := none, left := 1, stepField := 0 } }
    str := { jobs := [{ id := 0, user := .sth, kind := .get, ctx := 0, region := 1, base := 0x10000, stepBound := false, blk := 0, addr := 0, n := 1 }]
             reads := [{ tag := 0, job := 0, i := 0, ctxIv := 0, epoch := 0, block := 0, retired := false, ctx := 0, region := 1, user := .sth }] } }

theorem witness_StashGet :
    (∀ st ∈ [StSt.dropped, .lcl], Head (stashed (cell st) (ent 1)) eSTH 1 (ent 1) ∧ sthFree (stashed (cell st) (ent 1)) = true ∧
      spansWait (stashed (cell st) (ent 1)) (getSpans (stashed (cell st) (ent 1)) (ent 1)) = false ∧ (entOf (stashed (cell st) (ent 1)) 0).st = st) ∧
    (∀ st ∈ [StSt.lcl, .depot], ∃ x : QEntry, Head (stashed (cell st) x) eSTH 1 x ∧ sthFree (stashed (cell st) x) = true ∧ x.b = 0x1040 ∧
      spansWait (stashed (cell st) x) (getSpans (stashed (cell st) x) x) = false ∧
      getPasses (stashed (cell st) x) x = true ∧ (entOf (stashed (cell st) x) 0).st = st ∧
      regionCheck (stashed (cell st) x) 0 (depotReg (stashed (cell st) x)) .get (cell st).doff (depotBlocks (cell st)) = 0) ∧
    (let s := stashed (cell .depot) (ent 1);
      Head s eSTH 1 (ent 1) ∧ sthFree s = true ∧ spansWait s (getSpans s (ent 1)) = false ∧
      ∃ v line, place (putInfl (left s eSTH (ent 1)) eSTH (ent 1) none false) s.opId 2 = (v, .at_ line) ∧
        regionCheck v v.core.cur (depotReg v) .get (cell .depot).doff (depotBlocks (cell .depot)) = 0) ∧
    (let s := crowded (stashed (cell .depot) (ent 1));
      Head s eSTH 1 (ent 1) ∧ sthFree s = true ∧ spansWait s (getSpans s (ent 1)) = false ∧
      ∃ v, place (putInfl (left s eSTH (ent 1)) eSTH (ent 1) none false) s.opId 2 = (v, .full)) ∧
    ((∃ r j, returning.str.reads.find? (fun x => decide (x.tag = (4 : Dword).extractLsb' 4 6)) = some r ∧
        returning.str.jobs.find? (fun x => decide (x.id = r.job) && decide (x.kind = .get)) = some j ∧
        decide (r.lost = false ∧ j.user = .sth ∧ r.retired = false ∧ streamIv r.ctxIv r.region r.epoch r.block = streamIv 0 1 0 0 ∧
          memWaits returning (lineAddr returning 0 + 512 * r.i) 512 = false ∧ lineAddr returning 0 + 512 * r.i + 512 ≤ memTop) = true) ∧
      (unitsOn returning = true ∧ returning.str.waiting = [] ∧ returning.sec.stop = false ∧ returning.mem.zeroing = false ∧
        returning.sth.clearPend = false ∧ (entOf returning 0).size = 2) ∧ NoDouble returning) := by
  refine ⟨fun st h => ?_, fun st h => ⟨{ ent 1 with b := 0x1040 }, ?_⟩,
    ⟨head_of _ _ _ _ (by decide +kernel) rfl (by decide +kernel), by decide +kernel, by decide +kernel,
      (placed_at _ _ _ (by decide +kernel)).elim fun v h => h.elim fun line h => ⟨v, line, h, ?_⟩⟩,
    ⟨head_of _ _ _ _ (by decide +kernel) rfl (by decide +kernel), by decide +kernel, by decide +kernel, placed_full _ _ _ (by decide +kernel)⟩,
    ⟨_, _, rfl, rfl, by decide +kernel⟩, by decide +kernel, by unfold NoDouble; decide +kernel⟩
  · fin_cases h <;> exact ⟨head_of _ _ _ _ (by decide +kernel) rfl (by decide +kernel), by decide +kernel⟩
  · fin_cases h <;> exact ⟨head_of _ _ _ _ (by decide +kernel) rfl (by decide +kernel), by decide +kernel⟩
  · rw [show v = (place (putInfl (left (stashed (cell .depot) (ent 1)) eSTH (ent 1)) eSTH (ent 1) none false)
      (stashed (cell .depot) (ent 1)).opId 2).1 by rw [h]]
    decide +kernel

theorem witness_StashEviction :
    (stashed { cell .lcl with pinned := true } (ent 0)).sth.order = [0] ∧ (stashed { cell .lcl with dcopy := true } (ent 0)).sth.order = [0] ∧
    (depotRoom (stashed (cell .lcl) (ent 0)) (depotBlocks (cell .lcl)) = true ∧
      regionCheck (stashed (cell .lcl) (ent 0)) 0 (depotReg (stashed (cell .lcl) (ent 0))) .put 0 (depotBlocks (cell .lcl)) = 0) ∧
    (∀ e : Bool, depotRoom ((stashed { cell .lcl with elig := e } (ent 0)).modSth (fun h => { h with dptr := 100 })) (depotBlocks (cell .lcl)) = false) ∧
    (placeAt (stashed (cell .lcl) (ent 0)) 2).isSome = true ∧
    (let s := stashed { cell .lcl with pinned := true, size := 1024 } (ent 0);
      placeAt s 2 = none ∧ (evict s 0).2 = 8) ∧
    (let s := stashed { cell .lcl with size := 1024, elig := true } (ent 0);
      placeAt s 2 = none ∧ (evict s 0).2 = 0 ∧ (placeAt (evict s 0).1 2).isSome = true) := by
  decide +kernel

/-! The hypotheses of the statements about the stream port and the post engine are met. -/

def strEnt (fn : BitVec 4) (g : BitVec 6) : QEntry := { ent fn with sub := g, b := 0x1000, fs := 1 }

theorem witness_StreamAccepts : ∀ p ∈ [(0, StrKind.get, 1), (1, .put, 1), (2, .rput, 2)],
    Head (queued live eSTR (strEnt (BitVec.ofNat 4 p.1) p.2.2)) eSTR p.1 (strEnt (BitVec.ofNat 4 p.1) p.2.2) ∧ live.sec.stop = false ∧
    strCause (left (queued live eSTR (strEnt (BitVec.ofNat 4 p.1) p.2.2)) eSTR (strEnt (BitVec.ofNat 4 p.1) p.2.2))
      (strEnt (BitVec.ofNat 4 p.1) p.2.2) p.2.1 = 0 := by
  intro p h
  fin_cases h <;> exact ⟨head_of _ _ _ _ (by decide +kernel) rfl (by decide +kernel), by decide +kernel⟩

/-- A transfer of one block of region 1 at DATA, with a credit. -/
def job (k : StrKind) : StrJob :=
  { id := 0, user := .str, kind := k, ctx := 0, region := 1, base := 0x10000, stepBound := false, blk := 0, addr := 0x1000, n := 1 }
def transfer (k : StrKind) : State := live.modStr (fun x => { x with jobs := [job k], cred := 1 })

theorem exists_check (r : BlkCheck) (h : (match r with | .ok _ _ _ => true | _ => false) = true) : ∃ c e b, r = .ok c e b := by
  cases r with
  | ok c e b => exact ⟨c, e, b, rfl⟩
  | refuse => cases h

/-- A journal copy of 20 records whose header goes with its first block. -/
def copying (issued : Nat) : State :=
  { transfer .put with
    str := { (transfer .put).str with jobs := [{ job .put with user := .jrnl, issued := issued, n := 2, data := some (leBytes 32 (20 : BitVec 256)) }] }
    jrnl := { copySlots := [(0, (List.range 20).map (fun i => 0x33800 + 32 * i))] } }

theorem witness_StreamIssues :
    (∀ fatal : Bool, ∃ s : State, busOn s = true ∧ 0 < s.str.cred ∧ (s.sec.rekey = none ∨ s.flt.fatal = true) ∧ s.flt.fatal = fatal ∧ s.str.acks = [5]) ∧
    (busOn (transfer .get) = true ∧ (transfer .get).flt.fatal = false ∧ 0 < (transfer .get).str.cred ∧ (transfer .get).sec.rekey = none ∧
      (transfer .get).str.acks = [] ∧ nextJob (transfer .get) = some (job .get) ∧
      ∃ c e r, readCheck (transfer .get) false 0 1 (job .get).block = .ok c e r) ∧
    (∀ k ∈ [StrKind.put, .rput], nextJob (transfer k) = some (job k) ∧ (∃ c e r, writeCheck (transfer k) false 0 1 (job k).block = .ok c e r) ∧
      (memBytes (transfer k).mem.bytes ((job k).addr + 512 * (job k).issued) 512).length = 512) ∧
    (∀ n ∈ [0, 1], ∃ j, nextJob (copying n) = some j ∧ decide (j.user = .jrnl ∧ j.issued = n ∧
      (tabGet [] (copying n).jrnl.copySlots j.id).length = 20 ∧
      (((if n = 0 then j.data.getD [] else []) ++ (List.range 15).flatMap (fun i => memBytes (copying n).mem.bytes (0x33800 + 32 * i) 32) ++
        List.replicate 512 0).take 512).length = 512) = true) := by
  refine ⟨fun fatal => ⟨{ live with str := { acks := [5], cred := 1 }, sec := { codeOk := true, rekey := if fatal then some (1, 2) else none }
                                    flt := { fatal := fatal } }, ?_⟩, ?_, fun k h => ?_, fun n h => ?_⟩
  · cases fatal <;> decide +kernel
  · iterate 6 refine ⟨by decide +kernel, ?_⟩
    exact exists_check _ (by decide +kernel)
  · fin_cases h <;> exact ⟨by decide +kernel, exists_check _ (by decide +kernel), by decide +kernel⟩
  · fin_cases h <;> exact exists_some_any _ _ (by decide +kernel)

/-- A packet whose block has its own tag under the key 0 and an IV. -/
def block (h0 h1 h2 : Dword) (iv : BitVec 96) (aad : List Byte) : StrPacket :=
  { h0 := h0, h1 := h1, h2 := h2, data := 0, tag := tagBits (gcmTag 0 iv aad (blockBytes 0)) }

/-- A read of block 0 of region 1 is outstanding under tag 0, and a write under tag 1. -/
def outstanding : State :=
  (transfer .get).modStr (fun x => { x with
    reads := [{ tag := 0, job := 0, i := 0, ctxIv := 0, epoch := 0, block := 0, retired := false, ctx := 0, region := 1, user := .str }]
    writes := [{ tag := 1, job := 1, put := true }]
    jobs := x.jobs ++ [{ job .put with id := 1 }] })

/-- A remote put at 128 times line. -/
def rput (line : Nat) : StrPacket :=
  let h0 : Dword := 3
  let h1 : Dword := BitVec.ofNat 64 (2 ^ 20 * line + 2 ^ 40)
  block h0 h1 0 (streamIv 0 0 0 0) (rputAad h0 h1 0)

theorem rdat_opens : ∃ b, gcmOpen 0 (streamIv 0 1 0 0) [] (blockBytes (block 4 0 0 (streamIv 0 1 0 0) []).data)
    (tagBytes (block 4 0 0 (streamIv 0 1 0 0) []).tag) = some b := ⟨_, gcmOpen_tag ..⟩

theorem rput_opens : ∃ b, gcmOpen 0 (streamIv 0 0 0 0) (rputAad (rput 32).h0 (rput 32).h1 (rput 32).h2) (blockBytes (rput 32).data)
    (tagBytes (rput 32).tag) = some b := ⟨_, gcmOpen_tag ..⟩

/-- DATA lies elsewhere. -/
def moved : State := live.modMan (fun m => { m with live := tabSet 0 m.live 4 8 })

/-- Its read has no job any more: the watchman abandoned it, or a stream stop did. -/
def abandoned (stop lost : Bool) : State :=
  (outstanding.modStr (fun x => { x with jobs := [], reads := x.reads.map (fun r => { r with lost := lost }) })).modSec (fun x => { x with stop := stop })

theorem witness_StreamReceives :
    (unitsOn outstanding = true ∧ outstanding.str.waiting = [] ∧ NoDouble outstanding ∧ outstanding.sec.stop = false ∧
      outstanding.mem.zeroing = false ∧
      (∃ r, outstanding.str.reads.find? (fun x => decide (x.tag = (4 : Dword).extractLsb' 4 6)) = some r ∧
        decide (outstanding.str.jobs.find? (fun x => decide (x.id = r.job) && decide (x.kind = .get)) = some (job .get) ∧
          memWaits outstanding ((job .get).addr + 512 * r.i) 512 = false ∧ (job .get).addr + 512 * r.i + 512 ≤ memTop ∧ r.retired = false ∧
          r.lost = false ∧ (job .get).user = .str ∧ streamIv r.ctxIv r.region r.epoch r.block = streamIv 0 1 0 0) = true)) ∧
    (∀ p ∈ [(false, false), (true, false), (false, true)],
      (unitsOn (abandoned p.1 p.2) = true ∨ (busOn (abandoned p.1 p.2) = true ∧ (abandoned p.1 p.2).sec.stop = true)) ∧
      (abandoned p.1 p.2).str.waiting = [] ∧ (p.1 = (abandoned p.1 p.2).sec.stop) ∧
      (∃ r, (abandoned p.1 p.2).str.reads.find? (fun x => decide (x.tag = (4 : Dword).extractLsb' 4 6)) = some r ∧
        decide ((abandoned p.1 p.2).str.jobs.find? (fun x => decide (x.id = r.job) && decide (x.kind = .get)) = none ∧ r.lost = p.2 ∧
          r.retired = false ∧ streamIv r.ctxIv r.region r.epoch r.block = streamIv 0 1 0 0) = true) ∧
      (0x404 : Dword).extractLsb' 0 4 = 4 ∧ (0x404 : Dword).extractLsb' 10 2 ≠ 0 ∧
      (0x404 : Dword).extractLsb' 4 6 = (4 : Dword).extractLsb' 4 6) ∧
    (∀ s ∈ [outstanding, outstanding.modSec (fun x => { x with stop := true })],
      (unitsOn s = true ∨ (busOn s = true ∧ s.sec.stop = true)) ∧
      ∀ h0 ∈ [(0x15 : Dword), 0x415], h0.extractLsb' 0 4 = 5 ∧ ∃ w, s.str.writes.find? (fun x => decide (x.tag = h0.extractLsb' 4 6)) = some w ∧
        w.put = true) ∧
    (busOn live = true ∧ live.flt.fatal = false ∧ 0 < live.str.inbuf ∧ NoDouble live ∧ memWaits live 0x1000 512 = false ∧
      (rput 32).h0.extractLsb' 0 4 = 3 ∧ 128 * ((rput 32).h1.extractLsb' 20 14).toNat = 0x1000 ∧ permits live [pDATA] 0x1000 512 = true) ∧
    (busOn moved = true ∧ 0 < moved.str.inbuf ∧ memWaits moved 0x1000 512 = false ∧ permits moved [pDATA] 0x1000 512 = false) ∧
    (busOn dead = true ∧ 0 < dead.str.inbuf ∧ dead.flt.fatal = true) ∧
    (∃ s : State, busOn s = true ∧ 0 < s.str.inbuf ∧ s.sec.stop = true) :=
  ⟨⟨by decide +kernel, by decide +kernel, by unfold NoDouble; decide +kernel, by decide +kernel, by decide +kernel,
    exists_some_any _ _ (by decide +kernel)⟩,
   fun p h => by fin_cases h <;> exact ⟨by decide +kernel, by decide +kernel, by decide +kernel, exists_some_any _ _ (by decide +kernel), by decide⟩,
   fun s h => ⟨by fin_cases h <;> decide +kernel, fun h0 h1 => ⟨by fin_cases h1 <;> decide, by
     fin_cases h <;> fin_cases h1 <;> exact ⟨_, rfl, rfl⟩⟩⟩,
   ⟨by decide +kernel, by decide +kernel, by decide +kernel, by unfold NoDouble; decide +kernel, by decide +kernel⟩, by decide +kernel,
   by decide +kernel, ⟨live.modSec (fun x => { x with stop := true }), by decide +kernel⟩⟩

def sendEnt : QEntry := { ent 0 with sub := 7, a := 0xFFFFF, b := 0x10FC0 }
def message (st : MsgSt) : State :=
  live.modPst (fun x => { x with cred := 1, msgs := [{ id := 0, target := 5, queue := 7, payload := 1, st := st }] })
/-- Queue 7's status word. -/
def mailbox (s : State) (w : Nat) : State := poke s [(0x31038, 8, w)]
def mbEnt (fn : BitVec 4) : QEntry := { ent fn with sub := 7 }

theorem one_answers : answered (message .sent) 0x700000000002 = some { id := 0, target := 5, queue := 7, payload := 1, st := .sent } := by
  have h : (message .sent).pst.msgs.filter (fun m => decide (m.st = .sent) && decide (m.queue.toNat = phQueue 0x700000000002)) =
      [{ id := 0, target := 5, queue := 7, payload := 1, st := .sent }] := by decide +kernel
  simp only [answered, h, List.length_singleton, Nat.mod_one]
  rfl

theorem witness_PostOut :
    (Head (queued live ePST sendEnt) ePST 0 sendEnt ∧ (queued live ePST sendEnt).pst.msgs.length < 4 ∧
      memWaits (queued live ePST sendEnt) sendEnt.b.toNat 64 = false ∧ sendEnt.sub.toNat < 8 ∧ sendEnt.fs = 0 ∧ sendEnt.a.toNat < 2 ^ 20 ∧
      dataAt (queued live ePST sendEnt) sendEnt.b.toNat 64 64 = true) ∧
    (∀ st ∈ [MsgSt.held, .retry], ∃ m, unitsOn (message st) = true ∧ 0 < (message st).pst.cred ∧ (message st).pst.msgs[0]? = some m ∧ m.st = st ∧
      pairFirst (message st) 0 m = true) ∧
    (∃ m, unitsOn (message .sent) = true ∧ (0x700000000002 : Dword).extractLsb' 0 4 = 2 ∧ answered (message .sent) 0x700000000002 = some m) ∧
    (∀ k ∈ [(1 : Nat), 2, 3], ∃ s : State, Head s ePST k (mbEnt (BitVec.ofNat 4 k)) ∧ s.pst.mbinit = false ∧ NoDouble s ∧
      (mbEnt (BitVec.ofNat 4 k)).sub.toNat < 8 ∧ partSize s pMBOX ≠ 0 ∧ statusAddr s 7 + 8 ≤ memTop ∧
      memWaits s (statusAddr s 7) 8 = false ∧ mbHead (statusOf s 7) ≠ mbTail (statusOf s 7)) := by
  refine ⟨⟨head_of _ _ _ _ (by decide +kernel) rfl (by decide +kernel), by decide +kernel⟩, fun st h => ?_,
    ⟨_, by decide +kernel, by decide +kernel, one_answers⟩,
    fun k h => ⟨queued (mailbox live 0x1FFFF00) ePST (mbEnt (BitVec.ofNat 4 k)), ?_⟩⟩
  · fin_cases h <;> exact ⟨_, by decide +kernel, by decide +kernel, rfl, rfl, by decide +kernel⟩
  · fin_cases h <;> exact ⟨head_of _ _ _ _ (by decide +kernel) rfl (by decide +kernel), by decide +kernel,
      by unfold NoDouble; decide +kernel, by decide +kernel⟩

/-- A message of tile 0xFFFFF to queue 7. -/
def inbound : Dword := 0x7FFFFF000001

theorem witness_PostIn : ∀ w ∈ [0x0FF00, 0x10EFF, 0x11000], busOn (mailbox live w) = true ∧ (mailbox live w).flt.fatal = false ∧
    inbound.extractLsb' 0 4 = 1 ∧ (mailbox live w).pst.waiting = [] ∧ (mailbox live w).pst.mbinit = false ∧
    partSize (mailbox live w) pMBOX ≠ 0 ∧ partBase (mailbox live w) pMBOX + 0x2400 ≤ memTop ∧ msgWaits (mailbox live w) inbound = false ∧
    inbound.extractLsb' 44 3 = 7 ∧ (mailbox live w).mem.ecc = [] ∧
    (inbound.getLsbD 47 && decide ((mailbox live w).sec.state ≠ 0) && decide (inbound.extractLsb' 44 3 ≠ 7)) = false ∧
    (w = 0x0FF00 → mbOpen (statusOf (mailbox live w) 7) = false) ∧
    (w = 0x10EFF → mbOpen (statusOf (mailbox live w) 7) = true ∧ mbCount (statusOf (mailbox live w) 7) ≠ 16) ∧
    (w = 0x11000 → mbOpen (statusOf (mailbox live w) 7) = true ∧ mbCount (statusOf (mailbox live w) 7) = 16) := by
  decide +kernel

/-- An agent's message to queue 0, open, in a sealed state. -/
def agentMsg : Dword := 0x8FFFFF000001
def sealed_ : State := (poke live [(0x31000, 8, 0x10000)]).modSec (fun x => { x with state := 1 })

theorem witness_PostIn_agent : busOn sealed_ = true ∧ msgWaits sealed_ agentMsg = false ∧ mbOpen (statusOf sealed_ 0) = true ∧
    (agentMsg.getLsbD 47 && decide (sealed_.sec.state ≠ 0) && decide (agentMsg.extractLsb' 44 3 ≠ 7)) = true := by
  decide +kernel

/-! The hypotheses of the statements about the stage, the exchange, the clocks and the registers are met. -/

/-- The tile has arrived; ACTS on the manifest unit and the fault unit. -/
def arrived (zone : BitVec 2) (f : Man → Man) : State :=
  ({ live with core := { mode := .sync false, syncZone := zone, phase := 1, ctxs := [(0, { zone := some zone })] } }).modMan f

def release (zone : BitVec 2) (epoch : Word) : ReleaseIn :=
  { zone := zone, epoch := epoch, nrmAll := true, nrmSq := 0, nrmNf := false, nrmMin := 0, nrmMax := 0 }

/-- A mask of clauses about a release that hold of a state: it has arrived and runs a live manifest. -/
def Releasable (s : State) (r : ReleaseIn) : Prop :=
  unitsOn s = true ∧ s.core.syncArr = true ∧ s.man.isLive = true ∧ (s.man.hold = true → s.man.resume = true) ∧ (r.zone = s.core.syncZone ∨ s.core.syncZone = 3) ∧
    s.core.switch = false

/-- A release that samples a request for the switch to a context. -/
def switching (n : BitVec 2) : State :=
  (arrived 1 (fun m => { m with live := tabSet 0 m.live (oCTX + 80 + 0x48) 1 })).modCore (fun c => { c with switch := true, next := n })

/-- The live copy runs; the status words may still have to be cleared, and their bank may be out of reach. -/
def clearing (clear wait : Bool) : State :=
  ((live.modMan (fun m => { m with syncing := true })).modPst (fun p => { p with mbclear := clear })).modMem
    (fun m => { m with zeroing := wait })

theorem witness_StageSequence :
    (∃ s c, unitsOn s = true ∧ s.core.syncArr = false ∧ s.core.rldBusy = false ∧ noProgram s = false ∧ stopClose s = some c ∧ arrivalMet s c = true) ∧
    (∃ s, unitsOn s = true ∧ s.core.syncArr = false ∧ s.core.rldBusy = false ∧ noProgram s = true ∧ s.core.phase.toNat < 2 ∧ s.dbg.halted = false) ∧
    (∃ s r, Releasable s r ∧ s.man.hold = false ∧ s.man.armed = none ∧ r.epoch = s.man.epochCur ∧ s.flt.haltCtx = none ∧ (curCtx s).halted = false ∧
      s.sec.codeOk = true ∧ s.core.rldBusy = false ∧ r.zone ≠ 2) ∧
    (∃ s r, Releasable s r ∧ s.man.hold = true ∧ s.man.resume = true ∧ s.man.armed = none ∧ r.epoch = s.man.epochCur ∧ s.flt.haltCtx = none ∧
      (curCtx s).halted = false ∧ s.sec.codeOk = true ∧ s.core.rldBusy = false ∧ r.zone ≠ 2) ∧
    (∃ s r, Releasable s r ∧ s.man.armed = some r.epoch) ∧
    (∃ s r, Releasable s r ∧ r.epoch ≠ s.man.armed.getD s.man.epochCur) ∧
    (∃ s r c, Releasable s r ∧ s.flt.haltCtx = some c) ∧
    (∃ (s : State) (r : ReleaseIn), unitsOn s = true ∧ s.core.syncArr = true ∧ s.man.isLive = true ∧ s.core.syncZone ≠ 3 ∧ r.zone ≠ s.core.syncZone) ∧
    (∃ (s : State) (r : ReleaseIn), unitsOn s = true ∧ s.core.syncArr = true ∧ s.man.isLive = true ∧ s.man.hold = true ∧ s.man.resume = false ∧
      (r.zone = s.core.syncZone ∨ s.core.syncZone = 3) ∧ s.fac.nrmV = false) ∧
    (∀ n ∈ [(1 : BitVec 2), 0, 3], unitsOn (switching n) = true ∧ (switching n).core.syncArr = true ∧ (switching n).man.isLive = true ∧
      (switching n).man.hold = false ∧ (switching n).core.syncZone = 1 ∧ (switching n).man.armed = none ∧ (switching n).man.epochCur = 0 ∧
      (switching n).flt.haltCtx = none ∧ (switching n).core.switch = true ∧ (switching n).core.next = n ∧ (switching n).sec.codeOk = true ∧
      (switching n).core.rldBusy = false ∧ ctxPresent (switching n) n.toNat = decide (n ≠ 3) ∧ (ctxOf (switching n) n).halted = false) ∧
    (∀ all ∈ [true, false], ∃ (s : State) (r : ReleaseIn), unitsOn s = true ∧ s.core.syncArr = true ∧ s.man.isLive = true ∧ s.man.hold = false ∧
      s.core.switch = false ∧ r.zone = 2 ∧ s.core.syncZone = 2 ∧ s.fac.nrmV = true ∧ r.nrmAll = all ∧ s.man.armed = none ∧ r.epoch = s.man.epochCur) ∧
    (∃ (lat : StepLatch) (sq : Word), lat.clipEn = true ∧ f32IsNaN (fDiv lat.clipMax (fAdd (fSqrt sq) lat.normEps)) = false) ∧
    (∃ s : State, unitsOn s = true ∧ s.man.syncing = true ∧ s.man.waiting = [.store 0 0xFF 7] ∧ s.man.loadWait.isSome = true) ∧
    (∀ p ∈ [(false, false), (true, false), (true, true)], unitsOn (clearing p.1 p.2) = true ∧ (clearing p.1 p.2).man.syncing = true ∧
      (clearing p.1 p.2).pst.mbclear = p.1 ∧ mboxOn (clearing p.1 p.2) = true ∧
      memWaits (clearing p.1 p.2) (statusAddr (clearing p.1 p.2) 0) 64 = p.2 ∧ partBase (clearing p.1 p.2) pMBOX + 64 ≤ memTop ∧
      (clearing p.1 p.2).pst.waiting = [] ∧ NoDouble (clearing p.1 p.2)) ∧
    (∃ s : State, unitsOn s = true ∧ s.core.phase = 3 ∧ NothingWaits s) :=
  ⟨⟨inMode live (.sync true), true, by decide +kernel⟩, ⟨inMode live .idle, by decide +kernel⟩,
   ⟨arrived 3 id, release 1 0, by unfold Releasable; decide +kernel⟩,
   ⟨arrived 1 (fun m => { m with hold := true, resume := true }), release 1 0, by unfold Releasable; decide +kernel⟩,
   ⟨arrived 1 (fun m => { m with armed := some 9 }), release 1 9, by unfold Releasable; decide +kernel⟩,
   ⟨arrived 1 (fun m => { m with armed := some 9 }), release 1 0, by unfold Releasable; decide +kernel⟩,
   ⟨(arrived 0 id).modFlt (fun f => { f with haltCtx := some 0 }), release 0 0, 0, by unfold Releasable; decide +kernel⟩,
   ⟨arrived 1 id, release 2 0, by decide +kernel⟩, ⟨arrived 1 (fun m => { m with hold := true }), release 1 0, by decide +kernel⟩,
   by decide +kernel,
   fun all _ => ⟨(arrived 2 id).modFac (fun f => { f with nrmV := true }), { release 2 0 with nrmAll := all }, by cases all <;> decide +kernel⟩,
   ⟨{ clipEn := true, clipMax := 0x3F800000, normEps := 0x3F800000 }, 0x40800000, rfl, by decide +kernel⟩,
   ⟨live.modMan (fun m => { m with syncing := true, waiting := [.store 0 0xFF 7], loadWait := some (0x1000, 88) }), by decide +kernel⟩,
   by unfold NoDouble; decide +kernel,
   ⟨live.modCore (fun c => { c with phase := 3 }), by decide +kernel, by decide +kernel, by unfold NothingWaits; decide +kernel⟩⟩

/-- An entry of one beat at offset 5: a send, or a receive from tile 0. -/
def xent (recv : Bool) (num : BitVec 10) : XEnt :=
  { off := 5, beats := 1, recv := recv, mcast := false, syn := some 1, addr := 0x10FE0, route := 0, sent := 0, num := num }

/-- The active bank runs entries. -/
def exchanging (l : List XEnt) : State :=
  (live.modCore (fun c => { c with phase := 3 })).modXch (fun x => { x with run := .run, bank0 := { st := .ready, exchLen := 100, ents := l } })

def starting (b : XBank) (load : Bool) : State :=
  (live.modCore (fun c => { c with phase := 2 })).modXch (fun x => { x with bank1 := b, load := if load then some (0, 0) else none })

/-- Image 0 of context 0 loads, for a number of tiles: one send of one beat. -/
def loadingImage (tiles : Nat) : State :=
  (poke live [(0x2018, 4, 0x4000)]).modXch (fun x => { x with load := some (0, 0), loadLen := 2, loadDesc := 0x80002000, loadTiles := BitVec.ofNat 21 tiles })

def testing (en : Bool) : State :=
  live.modXch (fun x => { x with testEn := en, tdata := [(2, 0x4000)], bank0 := { exchLen := 2 } })

/-- The entries of one direction as they stand at an offset. -/
def openAt (s : State) (recv : Bool) (o : Nat) : Option XEnt := openEnt (startAll (catchUp s o) recv (o + 1)) recv o

/-- Each kind of beat that the receiving entry can meet at its offset: the expected one, and the three that fail. -/
def beat (src : BitVec 20) (n : Half) : XchBeat := { data := 7, src := src, ent := 0, beat := n }

theorem spans_image : ∀ n ∈ [0, 5], loadSpans (loadingImage n) = [(0x2000, 32)] := by
  intro n h
  fin_cases h <;> decide +kernel

theorem free_image (n : Nat) (h : n ∈ [0, 5]) : spansWait (loadingImage n) (loadSpans (loadingImage n)) = false := by
  rw [spans_image n h]
  fin_cases h <;> decide +kernel

theorem witness_ExchangePort :
    (∀ b ∈ [({ st := .ready } : XBank), { st := .failed }, {}], unitsOn (starting b false) = true ∧ (starting b false).core.phase = 2 ∧
      (starting b false).xch.run ≠ .switch ∧ (starting b false).xch.load = none ∧ inactBank (starting b false) = b ∧ b.selV = false) ∧
    (∀ p ∈ [(0, false), (0x1000, false), (0x1000, true)], ∃ b : XBank, ∃ s : State, unitsOn s = true ∧ s.core.phase = 2 ∧ s.xch.run ≠ .switch ∧
      s.xch.load = none ∧ inactBank s = b ∧ b.st = .ready ∧ b.selV = true ∧ b.selAddr.toNat = p.1 ∧
      dataAt s p.1 8 8 = decide (p.1 ≠ 0) ∧ memWaits s p.1 8 = p.2) ∧
    (let e := { xent true 0 with gone := true };
      let s := exchanging [e];
      beatOf s e = 0 ∧ latchOf s e.num = none ∧ slotErrOf s s.xch.act e.num.toNat = .clean) ∧
    (let s := (exchanging []).modXch (fun x => { x with due := [(4, 0x21)] });
      unitsOn s = true ∧ s.core.phase = 3 ∧ s.xch.run = .run ∧ s.xch.due = [(4, 0x21)] ∧ s.xch.coll = false ∧ 4 < (5 : Word).toNat) ∧
    ((starting {} true).xch.load ≠ none ∧ (starting {} true).xch.run ≠ .switch) ∧
    (∃ s : State, unitsOn s = true ∧ s.core.phase = 2 ∧ s.xch.run = .switch) ∧
    (let s := exchanging [xent true 0, xent true 1];
      beatOf s (xent true 0) = 0 ∧ latchOf s 0 = none ∧ slotErrOf s s.xch.act 0 = .clean ∧ overlapped s (xent true 0) = false ∧
      latchOf (startEnt s (xent true 0)) 1 = none ∧ slotErrOf (startEnt s (xent true 0)) s.xch.act 1 = .clean ∧
      overlapped (startEnt s (xent true 0)) (xent true 1) = true) ∧
    (let s := exchanging [xent false 0];
      unitsOn s = true ∧ s.core.phase = 3 ∧ s.xch.run = .run ∧ openAt s false 5 = some (xent false 0) ∧ openAt s false 4 = none ∧
      openAt s false 6 = none) ∧
    (let s := exchanging [xent true 0];
      beatDiscarded s = false ∧ s.mem.zeroing = false ∧ NoDouble s ∧ openAt s true 5 = some (xent true 0) ∧ openAt s true 4 = none ∧
      (sendBanks (startAll (catchUp s 5) true 6) 6).contains (bankOf (xent true 0).addr) = false ∧ (xent true 0).addr + 32 ≤ memTop) ∧
    (let e := { xent true 0 with addr := 0x10FC0, beats := 2, off := 4 };
      let s := exchanging [e, { xent false 1 with off := 6 }];
      openAt s true 5 = some e ∧ beatDiscarded s = false ∧ (sendBanks (startAll (catchUp s 5) true 6) 6).contains (bankOf (e.addr + 32)) = true ∧
      (catchUp s 5).xch.coll = false) ∧
    (let e := { xent true 0 with off := 4, beats := 2, addr := 0x10FC0 };
      let s := nextOf (execExchRecvBeat 4 (beat 0 0) (exchanging [e]));
      openAt s true 5 = some e ∧ (beat 1 1).src ≠ e.route ∧ (beat 0 0).src = e.route ∧ (beat 0 0).ent = e.sent ∧ (beat 0 0).beat.toNat < 1 ∧
      1 < (beat 0 2).beat.toNat) ∧
    (unitsOn live = true ∧ beatDiscarded (live.modMan (fun m => { m with hold := true })) = true) ∧
    (∀ n ∈ [0, 5], unitsOn (loadingImage n) = true ∧ (loadingImage n).xch.load = some (0, 0) ∧ (loadingImage n).xch.loadSel = none ∧
      spansWait (loadingImage n) (loadSpans (loadingImage n)) = false) ∧
    ((∃ b, readImage (loadingImage 0) 0 0 = .ok b) ∧ ∃ c, readImage (loadingImage 5) 0 0 = .error c) ∧
    (Served (testing true) ∧ (testing true).xch.testEn = true ∧ (testing true).sec.state = 0 ∧
      entryCause (testing true) 0 2 0 (fun i => (tabGet (0 : Word) (testing true).xch.tdata i).toNat) = 0) ∧
    (testing false).xch.testEn = false :=
  ⟨by decide +kernel,
   fun p h => ⟨{ st := .ready, selV := true, selAddr := BitVec.ofNat 21 p.1 },
    (starting { st := .ready, selV := true, selAddr := BitVec.ofNat 21 p.1 } false).modMem (fun m => { m with zeroing := p.2 }),
    by revert p; decide +kernel⟩,
   by decide +kernel, by decide +kernel, by decide +kernel, ⟨(starting {} false).modXch (fun x => { x with run := .switch }), by decide +kernel⟩,
   by decide +kernel, by decide +kernel, by unfold NoDouble; decide +kernel, by decide +kernel, by decide +kernel, by decide +kernel,
   fun n h => ⟨by fin_cases h <;> decide +kernel, by fin_cases h <;> rfl, by fin_cases h <;> rfl, free_image n h⟩,
   ⟨exists_ok _ (by decide +kernel), exists_error _ (by decide +kernel)⟩,
   ⟨by unfold Served; decide +kernel, by decide +kernel⟩, by decide +kernel⟩

theorem witness_ClockEvents :
    (unitsOn State.reset = true ∧ State.reset.core.syncArr = true) ∧
    (∃ s : State, s.pin.coreRst = true ∧ s.clk.alert = true ∧ s.clk.alertHold = true) ∧
    (∃ s : State, unitsOn s = true ∧ s.gov.droopEn = true ∧ s.clk.armed = true ∧ s.clk.stretch = false) ∧
    (∃ s : State, unitsOn s = true ∧ s.clk.stretch = true) ∧
    (∃ s : State, unitsOn s = true ∧ s.clk.armed = false ∧ s.clk.stretch = false) ∧
    (∃ s : State, s.pin.coreRst = true ∧ s.clk.suspend = true ∧ s.bus.mgmt.waiting = [] ∧ s.bus.dbg.waiting = []) :=
  ⟨by decide, ⟨{ live with clk := { alert := true, alertHold := true } }, by decide⟩, ⟨live.modGov (fun g => { g with droopEn := true }), by decide⟩,
   ⟨{ live with clk := { stretch := true, armed := false } }, by decide⟩, ⟨{ live with clk := { armed := false } }, by decide⟩,
   ⟨{ live with clk := { suspend := true } }, by decide⟩⟩

/-- The debug level. -/
def atLevel (s : State) (l : BitVec 2) : State := s.modSec (fun x => { x with level := l })
def feRegs (full : Bool) : State := (atLevel (feWord full) 2).modSyn (fun y => { y with feAddr := 0x337F8 })

theorem witness_SyncRegisters :
    (Served (atLevel live 2) ∧ (atLevel live 2).sec.level = 2) ∧ (Served live ∧ live.sec.level ≠ 2) ∧
    (∀ b : Bool, Served (feRegs b) ∧ (feRegs b).sec.level = 2 ∧ (feRegs b).syn.fePend = none ∧ feOk (feRegs b) 0x337F8 = true ∧
      (feRegs b).syn.feAddr.toNat = 0x337F8 ∧ (feRegs b).mem.zeroing = false ∧ hasDouble (feRegs b) 0x337F8 8 = false ∧ feFull (feRegs b) 0x337F8 = b) ∧
    (∃ s : State, Served s ∧ s.syn.fePend = none ∧ s.sec.level = 2 ∧ feOk s s.syn.feAddr.toNat = true ∧ s.mem.zeroing = true) ∧
    (∃ s : State, Served s ∧ feOk s s.syn.feAddr.toNat = false) ∧
    (∃ s : State, unitsOn s = true ∧ wmHeld s = false ∧ max s.syn.wmThresh.toNat 0x1000 ≤ s.syn.wmCount.toNat) :=
  ⟨by unfold Served; decide +kernel, by unfold Served; decide +kernel, by unfold Served; decide +kernel,
   ⟨(feRegs true).modMem (fun m => { m with zeroing := true }), by unfold Served; decide +kernel, by decide +kernel⟩,
   ⟨live, by unfold Served; decide +kernel, by decide +kernel⟩,
   ⟨live.modSyn (fun y => { y with wmThresh := 1, wmCount := 0x1000 }), by decide +kernel⟩⟩

/-- A delta manifest of one empty CHAIN section, epoch 9, under the key 0. -/
def manifestImage : List Byte :=
  let h : List Byte := leBytes 4 (0xA3D011F5 : Word) ++ [0x1C, 0xFA, 3, 1, 88, 0, 0, 0, 1, 0, 1, 0, 9, 0, 0, 0] ++ List.replicate 8 0 ++ [1] ++ List.replicate 35 0
  let c := gcmCrypt 0 (ivOf ((h.drop 0x18).take 12)) [3, 1, 0, 0, 0, 0, 0, 0]
  h ++ c ++ gcmTag 0 (ivOf ((h.drop 0x18).take 12)) h c

def manifestLoading : State :=
  (live.modMem (fun m => { m with bytes := memPut [] 0x1000 manifestImage })).modMan (fun m => { m with load := some (0x1000, 88) })

theorem exists_pass (r : LoadResult) (h : (match r with | .pass _ _ => true | _ => false) = true) : ∃ sh ep, r = .pass sh ep := by
  cases r with
  | pass sh ep => exact ⟨sh, ep, rfl⟩
  | fail => cases h
  | tag => cases h

theorem witness_ManifestCommands :
    (Served live ∧ live.man.armed = none ∧ live.man.load = none ∧ live.man.loadWait = none ∧ live.man.syncing = false ∧ live.man.waiting = []) ∧
    (∀ b : Bool, ∃ s : State, Served s ∧ s.man.load ≠ none ∧ s.man.loadWait ≠ none ∧ s.man.armed ≠ none ∧ s.man.err = b) ∧
    (∃ s : State, Served s ∧ s.man.load = none ∧ s.man.loadWait = none ∧ s.man.armEpoch = s.man.epochShadow ∧ s.man.armEpoch ≠ s.man.epochCur) ∧
    (∃ sh ep, unitsOn manifestLoading = true ∧ manifestLoading.man.load = some (0x1000, 88) ∧ NoDouble manifestLoading ∧
      memWaits manifestLoading 0x1000 88 = false ∧ loadEval manifestLoading 0x1000 88 = .pass sh ep) ∧
    (∀ b : Bus, busOn live = true ∧ (busOf live b).waiting = [] ∧ live.sec.state = 0 ∧ live.man.cfgLive = false ∧ live.man.cfgAddr.toNat / 4 * 4 < 0x20C0) ∧
    (∃ s : State, s.sec.state = 0 ∧ s.man.syncing = true) ∧ (∃ s : State, s.sec.state ≠ 0) ∧
    (∃ s : State, busOn s = true ∧ (busOf s .dbg).waiting = [] ∧ s.man.cfgLive = true ∧ s.sec.state = 0 ∧ s.sec.level = 2 ∧
      s.man.cfgAddr.toNat / 4 * 4 = 0x20BC) :=
  ⟨⟨by unfold Served; decide +kernel, by decide +kernel⟩,
   fun b => ⟨live.modMan (fun m => { m with load := some (0, 0), loadWait := some (0, 0), armed := some 1, err := b }), by unfold Served; cases b <;> decide +kernel,
     by cases b <;> decide +kernel⟩,
   ⟨live.modMan (fun m => { m with armEpoch := 9, epochShadow := 9 }), by unfold Served; decide +kernel, by decide +kernel⟩,
   (exists_pass _ (by decide +kernel)).elim fun sh h => h.elim fun ep h =>
     ⟨sh, ep, by decide +kernel, by decide +kernel, by unfold NoDouble; decide +kernel, by decide +kernel, h⟩,
   fun b => by cases b <;> decide +kernel, ⟨live.modMan (fun m => { m with syncing := true }), by decide +kernel⟩,
   ⟨live.modSec (fun x => { x with state := 1 }), by decide +kernel⟩,
   ⟨(atLevel live 2).modMan (fun m => { m with cfgLive := true, cfgAddr := 0x20BF }), by decide +kernel⟩⟩

def reloading : State := live.modCore (fun c => { c with rldBusy := true, rldMask := 5, mode := .idle })

theorem witness_ContextsAndReplay :
    (Served live ∧ live.core.rldBusy = false) ∧
    (unitsOn reloading = true ∧ reloading.core.rldBusy = true ∧ enginesDone reloading = true ∧ streamDrained reloading = true ∧ NothingWaits reloading ∧
      reloading.xch.due = [] ∧ reloading.core.rldMask.getLsbD 2 = true ∧ reloading.core.rldMask.getLsbD 1 = false) ∧
    (∃ s : State, Served s ∧ (facOf s 3).st = 0 ∧ (facOf s 3).rollok = true ∧ (facOf s 0).rollok = false) ∧
    (∀ w : Bool, ∃ s : State, Served s ∧ s.man.lwin = true ∧ s.jrnl.count ≠ 0 ∧ s.jrnl.wstep = w) ∧
    (∃ s : State, Served s ∧ s.jrnl.count = 0) ∧ (∃ s : State, Served s ∧ s.jrnl.rparm = true) ∧ depotBusy live = false :=
  ⟨⟨by unfold Served; decide +kernel, by decide +kernel⟩,
   by unfold NothingWaits; decide +kernel,
   ⟨live.modFac (fun f => { f with ctxs := [(3, { rollok := true })] }), by unfold Served; decide +kernel, by decide +kernel⟩,
   fun w => ⟨(live.modMan (fun m => { m with lwin := true })).modJrnl (fun j => { j with count := 1, wstep := w }),
     by cases w <;> (unfold Served; decide +kernel), by cases w <;> decide +kernel⟩,
   ⟨live, by unfold Served; decide +kernel, by decide +kernel⟩,
   ⟨live.modJrnl (fun j => { j with rparm := true }), by unfold Served; decide +kernel, by decide +kernel⟩, by decide +kernel⟩

theorem witness_MemoryUpkeep :
    Served live ∧
    (∀ b : Bool, ∃ s : State, busOn s = true ∧ s.mem.zeroing = true ∧ s.flt.fatal = false ∧ NothingWaits s ∧ s.xch.loadSel = none ∧ s.jrnl.recs = [] ∧ s.sec.endJob = b ∧
      s.mem.xph = b ∧ s.mem.wants ≠ []) ∧
    (unitsOn live = true ∧ live.mem.zeroing = false) ∧
    (∃ (s : State) (cw : Nat) (rest : List Nat), unitsOn s = true ∧ s.mem.zeroing = false ∧ s.mem.wbq = cw :: rest ∧
      memWaits s (8 * cw) 8 = false ∧ tabGet .clean s.mem.ecc cw = .single) :=
  ⟨by unfold Served; decide +kernel,
   fun b => ⟨(State.reset.modSec (fun x => { x with endJob := b })).modMem (fun m => { m with xph := b, wants := [default] }),
     by unfold NothingWaits; cases b <;> decide +kernel⟩,
   by decide +kernel, ⟨live.modMem (fun m => { m with wbq := [196607], ecc := [(196607, .single)] }), 196607, [], by decide +kernel⟩⟩

/-! The hypotheses of the statements about faults, power, the ledger, security, debug and the resets are met, and those of the whole block. -/

theorem witness_DecodeEncode : ∃ i w e, WellFormed i = true ∧ encodeCore i = some (w, e) :=
  ⟨.orhi ⟨some 0xFFFFFFFF, 31, 31, 0⟩, _, _, by decide +kernel, rfl⟩

theorem witness_StepKeepsMemory : State.reset.MemOk ∧ ∃ t, step State.reset = .next t :=
  ⟨by unfold State.MemOk; decide +kernel, _, rfl⟩

theorem witness_StepKeepsLog : State.reset.LogOk ∧ ∃ t, step State.reset = .next t := ⟨by unfold State.LogOk; decide, _, rfl⟩

def window (s : State) (b : Bool) : State := s.modMan (fun m => { m with lwin := b })
def injecting (code : Byte) : State := (atLevel live 2).modFlt (fun f => { f with injCode := code })
def inState (s : State) (n : BitVec 2) : State := s.modSec (fun x => { x with state := n })

theorem witness_FaultCommands :
    (∀ b : Bool, Served (window live b) ∧ (window live b).man.lwin = b) ∧
    (∀ b : Bool, ∃ s : State, Served s ∧ s.flt.fatal = b) ∧
    (∀ c ∈ [0#8, 1#8, 2#8, 3#8, 0xF#8, 0x10#8, 0x13#8, 0x14#8, 0x29#8, 0x2A#8, 0x2F#8, 0x30#8, 0x34#8, 0x35#8], Served (injecting c) ∧ (injecting c).sec.level = 2 ∧
      (injecting c).flt.injCode = c ∧ ctxRuns (injecting c) = true ∧ (injecting c).flt.fatal = false ∧ (injecting c).xch.due = [] ∧ (injecting c).str.waiting = [] ∧
      (injecting c).pst.waiting = []) ∧
    (∃ s : State, Served s ∧ s.sec.level = 2 ∧ ctxRuns s = false ∧ s.flt.injCode = 0x13) ∧
    (∃ s : State, Served s ∧ s.sec.level = 2 ∧ ctxRuns s = true ∧ s.flt.injCode = 0x14 ∧ s.xch.due = [] ∧ s.str.waiting = [] ∧ s.pst.waiting = [] ∧
      s.core.syncArr = true ∧ s.core.syncZone ≠ 3) ∧
    live.sec.level ≠ 2 ∧ (∀ n : BitVec 2, (inState live n).pin.coreRst = true ∧ (inState live n).flt.fatal = false ∧ (inState live n).sec.state = n) :=
  ⟨by unfold Served; decide +kernel, fun b => ⟨live.modFlt (fun f => { f with fatal := b }), by unfold Served; cases b <;> decide +kernel, rfl⟩,
   by unfold Served; decide +kernel, ⟨inMode (injecting 0x13) .idle, by unfold Served; decide +kernel⟩,
   ⟨(injecting 0x14).modCore (fun c => { c with syncArr := true, syncZone := 1, mode := .sync false }), by unfold Served; decide +kernel⟩, by decide +kernel,
   by decide +kernel⟩

def governed (f : Gov → Gov) : State := live.modGov f

theorem witness_Governor :
    (Served (atLevel live 2) ∧ Served live ∧ live.sec.level ≠ 2) ∧
    (∃ s : State, unitsOn s = true ∧ 12 ≤ s.gov.noStrobe ∧ s.gov.winOwn = true ∧ 10 ≤ s.gov.winTick) ∧
    (∀ any : Bool, ∃ s : State, unitsOn s = true ∧ s.gov.winAny = any ∧
      ((if any then s.gov.allowCur else s.gov.allowDflt).toNat - s.gov.debt.toNat) * (65536 * 1000000) ≤ s.gov.energy - s.gov.winEnergy) ∧
    (∀ m ∈ [0, 32], ∃ s : State, unitsOn s = true ∧ s.gov.energy - s.gov.winEnergy < (s.gov.allowCur.toNat - s.gov.debt.toNat) * (65536 * 1000000) ∧
      s.gov.winAny = true ∧ effMask s = m ∧ (m = 0 → s.gov.pdNum ≠ 0) ∧ (m = 32 → s.gov.drover - s.gov.ivDrover ≠ 0)) ∧
    (∃ s : State, unitsOn s = true ∧ s.gov.winAny = true ∧ s.gov.energy = 0 ∧ s.gov.allowCur = 1 ∧ effMask s ≠ 0 ∧ s.gov.drover = 0) ∧
    (∃ s : State, unitsOn s = true ∧ s.gov.winOwn = false ∧ s.gov.reqFixed = false ∧ 8 ≤ s.gov.winTick) ∧
    (∀ n ∈ [63, 64], ∃ (s : State) (p : PhasePend), unitsOn s = true ∧ s.gov.pend = some p ∧ s.gov.acyc - s.gov.phStart = n ∧ (tariffOf s s.gov.phaseCur).n = 0) ∧
    (∃ (s : State) (p : PhasePend), unitsOn s = true ∧ s.gov.pend = some p ∧ 64 ≤ s.gov.acyc - s.gov.phStart ∧ (tariffOf s s.gov.phaseCur).n = 255) ∧
    (∃ (s : State) (r : Byte), unitsOn s = true ∧ s.clk.stretch = false ∧ s.gov.mmInt ≠ 0 ∧ r.slt s.gov.mmLow = true ∧ s.gov.runOp = s.clk.op ∧
      s.gov.runLow = 2 ∧ s.clk.op.toNat < 5 ∧ trimOf s s.clk.op < 8) ∧
    (∃ (s : State) (r : Byte), r.slt s.gov.mmLow = false ∧ r.slt s.gov.mmHigh = true ∧ s.gov.mmInt ≠ 0) :=
  ⟨⟨by unfold Served; decide +kernel, by unfold Served; decide +kernel, by decide +kernel⟩,
   ⟨governed (fun g => { g with noStrobe := 12, winOwn := true, winTick := 10 }), by decide +kernel⟩,
   fun any => ⟨governed (fun g => { g with winAny := any, allowCur := 1, allowDflt := 1, energy := 65536 * 1000000 }), by cases any <;> decide +kernel⟩,
   fun m h => by
    fin_cases h
    · exact ⟨governed (fun g => { g with winAny := true, allowCur := 1, mB := 0, pdNum := 1 }), by decide +kernel⟩
    · exact ⟨governed (fun g => { g with winAny := true, allowCur := 1, mB := 32, drover := 1 }), by decide +kernel⟩,
   ⟨governed (fun g => { g with winAny := true, allowCur := 1 }), by decide +kernel⟩,
   ⟨governed (fun g => { g with winTick := 8, winOwn := false, reqFixed := false }), by decide +kernel⟩,
   fun n h => by
    fin_cases h
    · exact ⟨governed (fun g => { g with acyc := 63, pend := some { phase := 1, start := 0, lateNow := false, afterReq := false } }), _, by decide +kernel, rfl, by decide +kernel⟩
    · exact ⟨governed (fun g => { g with acyc := 64, pend := some { phase := 1, start := 0, lateNow := false, afterReq := false } }), _, by decide +kernel, rfl, by decide +kernel⟩,
   ⟨governed (fun g => { g with acyc := 64, tariff := [(0, { e := 1, d := 1, n := 255 })], pend := some { phase := 1, start := 0, lateNow := false, afterReq := false } }),
    _, by decide +kernel, rfl, by decide +kernel⟩,
   ⟨governed (fun g => { g with mmInt := 1, mmLow := 0, runOp := 4, runLow := 2 }), 0xFF, by decide +kernel⟩,
   ⟨governed (fun g => { g with mmInt := 1, mmLow := 0, mmHigh := 1 }), 0, by decide +kernel⟩⟩

/-- A ledger that is valid, one that holds the record of an empty ledger, and one that has been given the record of the first. -/
def ledgered : State := live.modLdg (fun l => { l with valid := true })
def restoring : State := live.modLdg (fun l => { l with
  rbuf := [(0, 0x4C440301), (1, 0x0103FA1C), (3, 1), (32, 0x93C07301), (33, 0x638F6EE6)] })
def given : State := { live with ldg := { rbuf := (capture ledgered).ldg.snap } }

set_option maxRecDepth 100000 in
theorem witness_LedgerCommands :
    (live.pin.coreRst = true ∧ live.bus.mgmt.waiting = [] ∧ live.ldg.savebusy = false ∧ live.ldg.valid = false ∧ live.sec.state = 0) ∧
    (∃ s : State, s.pin.coreRst = true ∧ s.bus.mgmt.waiting = [] ∧ s.ldg.savebusy = true) ∧ (∃ s : State, s.pin.coreRst = false) ∧
    (∃ s : State, s.pin.coreRst = true ∧ s.flt.fatal = true) ∧ (ledgered.bus.mgmt.waiting = [] ∧ ledgered.ldg.valid = true) ∧
    (restoring.ldg.valid = false ∧ restoreCause restoring = 0) ∧
    (∃ s : State, s.ldg.snapReq = true ∧ s.ldg.savebusy = false) ∧ (∃ s : State, s.ldg.auto_ ≠ 0 ∧ s.ldg.savebusy = false) ∧ (∃ s : State, s.ldg.svReq = true) ∧
    (given.core.tileId = ledgered.core.tileId ∧ given.ldg.rbuf = (capture ledgered).ldg.snap) :=
  ⟨by decide +kernel, ⟨live.modLdg (fun l => { l with savebusy := true }), by decide +kernel⟩,
   ⟨{ live with pin := { coreRst := false } }, rfl⟩, ⟨{ live with flt := { fatal := true } }, rfl, rfl⟩, by decide +kernel, by decide +kernel,
   ⟨live.modLdg (fun l => { l with snapReq := true }), by decide +kernel⟩, ⟨live.modLdg (fun l => { l with auto_ := 1 }), by decide +kernel⟩,
   ⟨live.modLdg (fun l => { l with svReq := true }), rfl⟩, rfl, by unfold given; with_reducible rfl⟩

/-- A code image of one word for address 0, under the key 0. -/
def codeImage : List Byte :=
  let h : List Byte := leBytes 4 (0xA3D0C0DE : Word) ++ [0x1C, 0xFA, 3, 1, 84, 0, 0, 0] ++ List.replicate 12 0 ++ [1] ++ List.replicate 39 0
  let c := gcmCrypt 0 (ivOf ((h.drop 0x14).take 12)) [1, 2, 3, 4]
  h ++ c ++ gcmTag 0 (ivOf ((h.drop 0x14).take 12)) h c

def codeLoading : State :=
  (live.modMem (fun m => { m with bytes := memPut [] 0x1000 codeImage })).modSec (fun x => { x with codeLoad := some (0x1000, 84) })

/-- The code load passes, and what it writes lies in local memory. -/
def codePasses (s : State) : Bool :=
  match codeEval s 0x1000 84 with
  | .pass dest p => decide (dest + p.length ≤ memTop)
  | _ => false

theorem witness_SecurityCommands :
    (∀ n ∈ [0#2, 1#2, 2#2], busOn (inState live n) = true ∧ (inState live n).sec.busy = false ∧ (inState live n).sec.state = n) ∧
    (∃ s : State, busOn s = true ∧ s.mem.zeroing = true ∧ s.sec.endJob = true ∧ s.flt.fatal = false ∧ NothingWaits s ∧ s.xch.loadSel = none) ∧
    (∃ (s : State) (k : BitVec 256) (id : Word), unitsOn s = true ∧ s.sec.rekey = some (k, id) ∧ s.str.reads = [] ∧ s.str.writes = []) ∧
    (Served live ∧ live.sec.codeLoad = none ∧ (2 : BitVec 2).toNat ≤ (ceiling live).toNat) ∧
    (Served (inState live 1) ∧ (ceiling (inState live 1)).toNat < (1 : BitVec 2).toNat) ∧
    (Served codeLoading ∧ codeLoading.sec.codeLoad ≠ none) ∧
    (∃ v : BitVec 23, Served (window live true) ∧ (window live true).man.lwin = true ∧ (window live true).sec.seCur.toNat < v.toNat) ∧
    (unitsOn codeLoading = true ∧ NoDouble codeLoading ∧ spansWait codeLoading (codeLoadSpans codeLoading 0x1000 84) = false ∧ codePasses codeLoading = true) :=
  ⟨by decide +kernel, ⟨State.reset.modSec (fun x => { x with endJob := true }), by unfold NothingWaits; decide +kernel⟩,
   ⟨live.modSec (fun x => { x with rekey := some (1, 2) }), 1, 2, by decide +kernel⟩,
   ⟨by unfold Served; decide +kernel, by decide +kernel⟩, ⟨by unfold Served; decide +kernel, by decide +kernel⟩,
   ⟨by unfold Served; decide +kernel, by decide +kernel⟩, ⟨1, by unfold Served; decide +kernel, by decide +kernel⟩,
   by decide +kernel, by unfold NoDouble; decide +kernel, by decide +kernel⟩

def halted (l : BitVec 2) : State := { atLevel live l with dbg := { halted := true, ssel := 31 } }

def stepping (s : State) : State := { s with dbg := { s.dbg with stepping := true } }

/-- ADD R31, R1, R2 at the program counter of a halted context. -/
def adding : State := poke (halted 2) [(0, 4, 0b0_000000_11111_00001_00010_0000_000000)]

theorem witness_DebugAndBuses :
    (Served (atLevel live 2) ∧ (atLevel live 2).dbg.halted = false ∧ (atLevel live 2).core.mode = .run) ∧ (Served live ∧ live.sec.level ≠ 2) ∧
    (Served (halted 2) ∧ (halted 2).dbg.halted = true ∧ coreOn { halted 2 with dbg := { (halted 2).dbg with stepping := true } } = true) ∧
    (Served adding ∧ adding.dbg.halted = true ∧ Runs (stepping adding) 4 ∧ instrAt (stepping adding) = .add ⟨false, 31, 1, 2, 0⟩) ∧
    (∃ s : State, Served s ∧ s.sec.level = 2 ∧ s.dbg.halted = true ∧ coreOn (stepping s) = false) ∧
    (∀ b : Bus, busOn (halted 2) = true ∧ (busOf (halted 2) b).waiting = []) ∧
    (memWaits (halted 2) (0x100000 / 4 * 4 - 0x100000) 4 = false ∧ memWaits (halted 2) (0x27FFFF / 4 * 4 - 0x100000) 4 = false ∧ NoDouble (halted 2)) ∧
    (∃ a : BitVec 22, a.toNat < 0x10000 ∧ (wideReg (window live true) (a.toNat / 4 * 4)).isSome = true ∧
      allowed (window live true) (readNeed (a.toNat / 4 * 4)) = true) ∧
    (∃ a : BitVec 22, a.toNat < 0x10000 ∧ 4 ≤ a.toNat / 4 * 4 ∧ wideReg (window live true) (a.toNat / 4 * 4) = none ∧
      (wideReg (window live true) (a.toNat / 4 * 4 - 4)).isSome = true) ∧
    (∃ s : State, (0x7010 : BitVec 22).toNat / 4 * 4 = 0x7010 ∧ allowed s (readNeed 0x7010) = true ∧ s.dbg.halted = false) ∧
    busOn { live with clk := { suspend := true } } = false :=
  ⟨⟨by unfold Served; decide +kernel, by decide +kernel⟩, ⟨by unfold Served; decide +kernel, by decide +kernel⟩,
   ⟨by unfold Served; decide +kernel, by decide +kernel⟩,
   ⟨by unfold Served; decide +kernel, by decide +kernel, by unfold Runs; decide +kernel, by decide +kernel⟩,
   ⟨inMode (halted 2) .idle, by unfold Served; decide +kernel⟩, fun b => by cases b <;> decide +kernel,
   ⟨by decide +kernel, by decide +kernel, by unfold NoDouble; decide +kernel⟩, ⟨0x10, by decide +kernel⟩, ⟨0x14, by decide +kernel⟩, ⟨atLevel live 2, by decide +kernel⟩, by decide +kernel⟩

theorem witness_ResetsAndTest :
    live.pin.coreRst = true ∧
    (∀ intrusive : Bool, ∃ s : State, s.pin.coreRst = false ∧ s.bus.mgmt.waiting = [] ∧ s.bus.dbg.waiting = [] ∧ s.dft.intrusive = intrusive) ∧
    State.reset.pin.isoEn = true ∧ (∀ w ∈ [WsInstr.bypass, .extest], ∃ s : State, s.pin.isoEn = false ∧ s.pin.coreRst = true ∧ s.dft.instr = w) ∧
    (8 ≤ (8 : BitVec 5).toNat ∧ 8 ≤ (31 : BitVec 5).toNat) ∧ (∃ s : State, s.sec.state = 0 ∧ s.sec.endJob = false) ∧ busOn live = true ∧ (inState live 2).sec.state ≠ 0 ∧
    (∃ s : State, busOn s = true ∧ s.dft.mbistBusy = true) :=
  ⟨rfl, fun b => ⟨{ pin := { coreRst := false }, dft := { intrusive := b } }, by cases b <;> decide⟩, rfl,
   fun w _ => ⟨{ live with pin := { live.pin with isoEn := false }, dft := { instr := w } }, rfl, rfl, rfl⟩, by decide, ⟨live, by decide⟩, by decide,
   by decide, ⟨{ live with dft := { mbistBusy := true } }, by decide⟩⟩

end Sys2Proof.Tests
end

section
/-! PROOFS. One instruction of the control core as a whole: what its fetch touches, what a legal one does, and what its completion changes (03 R62, R63, R72, R78; 07 R183, R187; 17 R410). -/

namespace Sys2Proof.Machine

/-- Registers read alike where the running contexts hold the same register file. -/
theorem rd_eq_of_regs {s t : State} (h : (curCtx t).regs = (curCtx s).regs) (r : SReg) : rd t r = rd s r := by
  simp only [rd, Ctx.reg, h]

/-! The fetch. -/

/-- What a read of correctable bytes can touch: memory's own state, the energy account, and the counts of corrected errors. -/
def CleanReadFrame (s t : State) : Prop := t = { s with mem := t.mem, gov := t.gov, ldg := t.ldg, flt := t.flt }

theorem CleanReadFrame.trans {s t u : State} (h : CleanReadFrame s t) (k : CleanReadFrame t u) : CleanReadFrame s u := by
  unfold CleanReadFrame at *
  rw [k, h]

theorem eccRdOne_cleanFrame (req : Nat) (s : State) {p : Nat × EccErr} (hp : p.2 ≠ .double) : CleanReadFrame s (eccRdOne req s p) := by
  unfold eccRdOne
  split
  · rfl
  · exact memCe_frame s req p.1
  · exact absurd ‹p.2 = .double› hp

theorem eccFold_cleanFrame (req : Nat) (l : List (Nat × EccErr)) (s : State) (hl : ∀ p ∈ l, p.2 ≠ .double) :
    CleanReadFrame s (l.foldl (eccRdOne req) s) := by
  induction l generalizing s with
  | nil => rfl
  | cons p l ih =>
    exact (eccRdOne_cleanFrame req s (hl p (List.mem_cons_self ..))).trans (ih _ fun q hq => hl q (List.mem_cons_of_mem _ hq))

/-- A read that meets no uncorrectable word raises no fault (07 R183, R184). -/
theorem touchRead_cleanFrame {s : State} {a n : Nat} (req : Nat) (hd : hasDouble s a n = false) :
    CleanReadFrame s (touchRead s req a n) := by
  have he : CleanReadFrame s (eccRead s req a n) := eccFold_cleanFrame req _ s fun _ hp => hasDouble_false hd hp
  have hs : CleanReadFrame (eccRead s req a n) (spend (eccRead s req a n) 4 (wordsOf a n)) := rfl
  have hb : CleanReadFrame (spend (eccRead s req a n) 4 (wordsOf a n)) (touchRead s req a n) := by
    unfold CleanReadFrame touchRead
    rw [serve_frame]
  exact (he.trans hs).trans hb

section Fetch
variable {s : State} {n : Nat} (h : Runs s n)
include h

theorem Runs.fetched_frame : CleanReadFrame s (fetched s n) := by
  obtain ⟨-, -, -, hdouble⟩ := h
  exact touchRead_cleanFrame rqFETCH hdouble

theorem Runs.fetched_core : (fetched s n).core = s.core := by rw [h.fetched_frame]
theorem Runs.fetched_clk : (fetched s n).clk = s.clk := by rw [h.fetched_frame]
theorem Runs.fetched_fac : (fetched s n).fac = s.fac := by rw [h.fetched_frame]
theorem Runs.fetched_dbg : (fetched s n).dbg = s.dbg := by rw [h.fetched_frame]
theorem Runs.fetched_sec : (fetched s n).sec = s.sec := by rw [h.fetched_frame]

theorem Runs.curCtx_fetched : curCtx (fetched s n) = curCtx s := by simp only [curCtx, ctxOf, h.fetched_core]

theorem Runs.rd_fetched (r : SReg) : rd (fetched s n) r = rd s r := by simp only [rd, h.curCtx_fetched]

theorem Runs.invasive_fetched : invasive (fetched s n) = invasive s := by simp only [invasive, h.fetched_sec]

/-- A fetch changes no special register (03 Table 1). -/
theorem Runs.specialReg_fetched (k : Nat) : specialReg (fetched s n) k = specialReg s k := by
  simp only [specialReg, facOf, h.curCtx_fetched, h.fetched_core, h.fetched_clk, h.fetched_fac]

/-- A legal instruction that runs does its body on the state after its fetch. -/
theorem Runs.instr_legal {legal : Bool} (hl : legal = true) (body : State → State) : instr s n legal body = .next (body (fetched s n)) := by
  obtain ⟨hon, hok, hwait, hdouble⟩ := h
  simp [instr, whenMem, fetchSpans, spansWait, fetched, hon, hok, hwait, hdouble, hl]

end Fetch

/-! Completion. -/

/-- What an instruction that reaches no unit can touch: the core, the debug unit's record of a halt or step, and the watchman. -/
def CoreFrame (s t : State) : Prop := t = { s with core := t.core, dbg := t.dbg, syn := t.syn }

theorem CoreFrame.trans {s t u : State} (h : CoreFrame s t) (k : CoreFrame t u) : CoreFrame s u := by
  unfold CoreFrame at *
  rw [k, h]

theorem modCore_coreFrame (s : State) (f : Core → Core) : CoreFrame s (s.modCore f) := rfl
theorem modDbg_coreFrame (s : State) (f : Dbg → Dbg) : CoreFrame s (s.modDbg f) := rfl
theorem modCtx_coreFrame (s : State) (c : BitVec 2) (f : Ctx → Ctx) : CoreFrame s (modCtx s c f) := rfl

section Complete
variable (s : State) (pc : Addr)

@[simp] theorem curCtx_complete : curCtx (complete s pc) = { curCtx s with pc := pc } := by
  simp [curCtx, complete, progress, dbgDone, modCtx, setCtx, ctxOf]

theorem ctxOf_complete_of_ne {c : BitVec 2} (hc : c ≠ s.core.cur) : ctxOf (complete s pc) c = ctxOf s c :=
  (ctxOf_setCtx s s.core.cur c _).trans (if_neg hc)

theorem complete_core : (complete s pc).core = { s.core with ctxs := (complete s pc).core.ctxs, mode := .run } := rfl
theorem complete_dbg : (complete s pc).dbg = (dbgDone s).dbg := rfl
theorem complete_syn : (complete s pc).syn = { s.syn with wmCount := 0 } := rfl
theorem complete_coreFrame : CoreFrame s (complete s pc) := rfl

end Complete

section Advance
variable (s : State) (n : Nat)

@[simp] theorem curCtx_advance : curCtx (advance s n) = { curCtx s with pc := (curCtx s).pc + BitVec.ofNat 21 n } := curCtx_complete ..
theorem pc_advance : (curCtx (advance s n)).pc = (curCtx s).pc + BitVec.ofNat 21 n := by rw [curCtx_advance]
@[simp] theorem rd_advance (r : SReg) : rd (advance s n) r = rd s r := rd_eq_of_regs (by rw [curCtx_advance]) r
theorem advance_coreFrame : CoreFrame s (advance s n) := complete_coreFrame ..

end Advance

/-! Contexts and registers. -/

@[simp] theorem curCtx_modCtx (s : State) (f : Ctx → Ctx) : curCtx (modCtx s s.core.cur f) = f (curCtx s) :=
  (ctxOf_setCtx s s.core.cur s.core.cur _).trans (if_pos rfl)

theorem ctxOf_modCtx_of_ne (s : State) {c d : BitVec 2} (hd : d ≠ c) (f : Ctx → Ctx) : ctxOf (modCtx s c f) d = ctxOf s d :=
  (ctxOf_setCtx s c d _).trans (if_neg hd)

theorem modCtx_core (s : State) (c : BitVec 2) (f : Ctx → Ctx) : (modCtx s c f).core = { s.core with ctxs := (modCtx s c f).core.ctxs } := rfl

@[simp] theorem modCtx_cur (s : State) (c : BitVec 2) (f : Ctx → Ctx) : (modCtx s c f).core.cur = s.core.cur := rfl

theorem setReg_eq (x : Ctx) (r : SReg) (v : Dword) : x.setReg r v = { x with regs := (x.setReg r v).regs } := by
  unfold Ctx.setReg; split <;> rfl

section WriteRegister
variable (s : State) (d : SReg) (v : Dword)

theorem curCtx_wrReg : curCtx (wrReg s s.core.cur d v) = (curCtx s).setReg d v := curCtx_modCtx ..

/-- A write to a register changes no program counter. -/
theorem pc_wrReg : (curCtx (wrReg s s.core.cur d v)).pc = (curCtx s).pc := by rw [curCtx_wrReg, setReg_eq]

theorem curCtx_wrAdvance (n : Nat) :
    curCtx (wrAdvance s d v n) = { (curCtx s).setReg d v with pc := (curCtx s).pc + BitVec.ofNat 21 n } := by
  rw [wrAdvance, curCtx_advance, pc_wrReg, curCtx_wrReg]

/-- Writing a register and going on is a completion that wrote it. -/
theorem wrAdvance_wrote (n : Nat) : Wrote s (wrAdvance s d v n) d v n := by
  refine { units := ?_, core := ?_, others := fun c hc => ?_, context := ?_, regs := fun r => ?_, debug := ?_, watchman := ?_ }
  · exact (modCtx_coreFrame s s.core.cur _).trans (advance_coreFrame _ n)
  · rw [wrAdvance, advance, complete_core, wrReg, modCtx_core]
  · rw [wrAdvance, advance, ctxOf_complete_of_ne _ _ (by rwa [wrReg, modCtx_cur]), wrReg, ctxOf_modCtx_of_ne s hc]
  · rw [curCtx_wrAdvance, setReg_eq]
  · rw [wrAdvance, rd_advance, rd, curCtx_wrReg, reg_setReg, rd]
  · rw [wrAdvance, advance, complete_dbg]; rfl
  · rw [wrAdvance, advance, complete_syn]; rfl

end WriteRegister

end Sys2Proof.Machine
end

section
/-! PROOFS. The system instructions MFS, MTS, CTX and BRK (03 R92, R94, Table 1). -/

namespace Sys2Proof.Machine

theorem exec_mfs (f : CForm) (s : State) : exec (.mfs f) s = execMfs f s := rfl
theorem exec_mts (f : CForm) (s : State) : exec (.mts f) s = execMts f s := rfl
theorem exec_ctx (f : CForm) (s : State) : exec (.ctx f) s = execCtx f s := rfl
theorem exec_brk (f : CForm) (s : State) : exec (.brk f) s = execBrk f s := rfl

/-- The number of a special register, F[5:0]. -/
theorem bitsOf_five_zero (f : BitVec 10) : bitsOf f.toNat 5 0 = (f.extractLsb' 0 6).toNat := by simp [bitsOf]

section SystemInstructions
variable {s : State} {f : CForm} (h : Runs s 4) (hx : f.ext = none)
include h hx

theorem exec_mfs_wrote : ∃ t, exec (.mfs f) s = .next t ∧ Wrote (fetched s 4) t f.d (specialReg s (f.f.extractLsb' 0 6).toNat) 4 := by
  have hrun : exec (.mfs f) s = .next (wrAdvance (fetched s 4) f.d (specialReg s (f.f.extractLsb' 0 6).toNat) 4) := by
    rw [exec_mfs, execMfs, hx, lenOf, h.instr_legal (by simp [noExt, hx]), bitsOf_five_zero, h.specialReg_fetched]
  exact ⟨_, hrun, wrAdvance_wrote ..⟩

theorem exec_mts_scratch (hlo : 16 ≤ (f.f.extractLsb' 0 6).toNat) (hhi : (f.f.extractLsb' 0 6).toNat ≤ 23) :
    ∃ t, exec (.mts f) s = .next t ∧
      (curCtx t).scr = tabSet 0 (curCtx s).scr ((f.f.extractLsb' 0 6).toNat - 16) (rd s f.a) ∧ (∀ r, rd t r = rd s r) ∧
      (curCtx t).pc = (curCtx s).pc + 4 ∧ t.core.mode = .run ∧ CoreFrame (fetched s 4) t := by
  have hlegal : (noExt f && decide (16 ≤ bitsOf f.f.toNat 5 0) && decide (bitsOf f.f.toNat 5 0 ≤ 23)) = true := by
    rw [bitsOf_five_zero]; simp only [noExt, hx, hlo, hhi, Option.isNone_none, decide_true, Bool.and_self]
  rw [exec_mts, execMts, hx, lenOf, h.instr_legal hlegal]
  refine ⟨_, rfl, ?_, fun r => ?_, ?_, ?_, (modCtx_coreFrame _ _ _).trans (advance_coreFrame _ 4)⟩
  · rw [curCtx_advance, curCtx_modCtx, h.curCtx_fetched, h.rd_fetched, bitsOf_five_zero]
  · exact (rd_advance ..).trans (rd_eq_of_regs (by rw [curCtx_modCtx, h.curCtx_fetched]) r)
  · rw [pc_advance, curCtx_modCtx, h.curCtx_fetched]; rfl
  · rw [advance, complete_core]

theorem exec_ctx_request :
    ∃ t, exec (.ctx f) s = .next t ∧ t.core.next = f.f.extractLsb' 0 2 ∧ t.core.switch = f.f.getLsbD 2 ∧
      (curCtx t).pc = (curCtx s).pc + 4 ∧ (∀ r, rd t r = rd s r) ∧ CoreFrame (fetched s 4) t := by
  have hctx : curCtx ((fetched s 4).modCore (fun k => { k with next := f.f.setWidth 2, switch := f.f.getLsbD 2 })) = curCtx s := by
    simp only [curCtx, ctxOf, State.modCore_core, h.fetched_core]
  rw [exec_ctx, execCtx, hx, lenOf, h.instr_legal (by simp [noExt, hx])]
  refine ⟨_, rfl, ?_, ?_, ?_, fun r => ?_, (modCore_coreFrame _ _).trans (advance_coreFrame _ 4)⟩
  · rw [advance, complete_core, State.modCore_core]
    exact BitVec.setWidth_eq_extractLsb' (show 2 ≤ 10 by decide)
  · rw [advance, complete_core, State.modCore_core]
  · rw [pc_advance, hctx]; rfl
  · rw [rd_advance, rd, hctx, rd]

/-- BRK retires as any instruction does, and halts the core behind it where invasive debug is allowed (03 R94). -/
theorem exec_brk_halts :
    ∃ t, exec (.brk f) s = .next t ∧ (curCtx t).pc = (curCtx s).pc + 4 ∧ (∀ r, rd t r = rd s r) ∧
      (s.sec.level = 2 → t.dbg.halted = true ∧ t.dbg.cause = 2) ∧ (s.sec.level ≠ 2 → t.dbg = (dbgDone s).dbg) ∧
      CoreFrame (fetched s 4) t := by
  have hpc : (curCtx (advance (fetched s 4) 4)).pc = (curCtx s).pc + 4 := by rw [pc_advance, h.curCtx_fetched]; rfl
  have hrd : ∀ r, rd (advance (fetched s 4) 4) r = rd s r := fun r => by rw [rd_advance, h.rd_fetched]
  have hdbg : (advance (fetched s 4) 4).dbg = (dbgDone s).dbg := by
    rw [advance, complete_dbg, dbgDone, State.modDbg_dbg, h.fetched_dbg, dbgDone, State.modDbg_dbg]
  have hframe := advance_coreFrame (fetched s 4) 4
  rw [exec_brk, execBrk, hx, lenOf, h.instr_legal (by simp [noExt, hx])]
  refine ⟨_, rfl, ?_⟩
  rw [h.invasive_fetched, invasive]
  by_cases hlevel : s.sec.level = 2
  · rw [if_pos (decide_eq_true hlevel)]
    exact ⟨hpc, hrd, fun _ => ⟨rfl, rfl⟩, fun hne => absurd hlevel hne, hframe.trans (modDbg_coreFrame _ _)⟩
  · rw [if_neg (by simpa using hlevel)]
    exact ⟨hpc, hrd, fun he => absurd he hlevel, fun _ => hdbg, hframe⟩

end SystemInstructions

/-- Settles O20: each of the four runs its body on the fetched state, and a completion changes only the core, the debug unit and the watchman. -/
theorem systemInstructions : Obligations.SystemInstructions := by
  intro s f h hx
  exact ⟨exec_mfs_wrote h hx, exec_mts_scratch h hx, exec_ctx_request h hx, exec_brk_halts h hx⟩

end Sys2Proof.Machine
end

section
/-! PROOFS. What a signal does to its object, and the participant overflow that it can raise (12 R284, R285, R288, R289). -/

namespace Sys2Proof.Machine

/-! A contained fault. -/

theorem raise_syn (s : State) (code unit : Nat) (addr : Addr) (detail : Nat) : (raise s code unit addr detail).syn = s.syn := by
  rw [raise_frame]

/-- A contained fault sets CONT and counts, and its record is the newest of the log, whether or not a context runs (16 R389, R393). -/
theorem raise_recorded (s : State) (code unit : Nat) (addr : Addr) (detail : Nat) :
    (raise s code unit addr detail).flt.cont = true ∧ (raise s code unit addr detail).flt.cntCont = s.flt.cntCont + 1 ∧
      (raise s code unit addr detail).flt.log.head? = some (faultRec s code 1 unit addr detail) := by
  rw [raise_flt]
  split <;> exact ⟨rfl, rfl, rfl⟩

/-- The first word of a fault record names its code and its class (16 R393). -/
theorem faultRec_code_class (s : State) {code : Nat} (hcode : code < 2 ^ 8) (cls unit : Nat) (addr : Addr) (detail : Nat) :
    (faultRec s code cls unit addr detail).w0.extractLsb' 0 8 = BitVec.ofNat 8 code ∧
      (faultRec s code cls unit addr detail).w0.extractLsb' 8 2 = BitVec.ofNat 2 cls := by
  constructor <;>
  · apply BitVec.eq_of_toNat_eq
    simp only [faultRec, BitVec.extractLsb'_toNat, BitVec.toNat_ofNat, Nat.shiftRight_eq_div_pow]
    omega

/-! The object. -/

namespace SObj
variable (x : SObj) (a : Nat)

/-- A counter, and a barrier with N = 0, add the amount to VAL (12 R285, R288). -/
theorem apply_counter (h : x.mode = false ∨ x.n = 0) :
    x.apply a = { x with arr := if x.mode then 0 else x.arr, val := x.val + BitVec.ofNat 32 a } := by
  have hc : ¬ (x.mode && decide (x.n ≠ 0)) = true := by rcases h with h | h <;> simp [h]
  rw [SObj.apply, if_neg hc]

/-- A barrier counts arrivals modulo N and adds N for each round that they complete (12 R288). -/
theorem apply_barrier (hm : x.mode = true) (hn : x.n ≠ 0) :
    x.apply a = { x with
      arr := BitVec.ofNat 8 ((x.arr.toNat + a) % x.n.toNat)
      val := x.val + BitVec.ofNat 32 ((x.arr.toNat + a) / x.n.toNat * x.n.toNat) } := by
  have hc : (x.mode && decide (x.n ≠ 0)) = true := by rw [hm, decide_eq_true hn]; rfl
  rw [SObj.apply, if_pos hc]

/-- A signal changes VAL and ARR only (12 R285, R288). -/
theorem apply_frame : x.apply a = { x with arr := (x.apply a).arr, val := (x.apply a).val } := by
  unfold SObj.apply
  split <;> rfl

theorem apply_mode : (x.apply a).mode = x.mode := by rw [apply_frame]
theorem apply_n : (x.apply a).n = x.n := by rw [apply_frame]

theorem apply_counter_fields (h : x.mode = false ∨ x.n = 0) :
    (x.apply a).val.toNat = (x.val.toNat + a) % 2 ^ 32 ∧ (x.apply a).arr = if x.mode then 0 else x.arr := by
  rw [apply_counter x a h]
  exact ⟨by rw [BitVec.toNat_add, BitVec.toNat_ofNat, Nat.add_mod_mod], rfl⟩

/-- The rounds that an update completes and the arrivals that it leaves are the quotient and the remainder by N (12 R288). -/
theorem apply_barrier_rounds (hm : x.mode = true) (hn : x.n ≠ 0) :
    ∃ rounds rest, x.arr.toNat + a = rounds * x.n.toNat + rest ∧ rest < x.n.toNat ∧
      (x.apply a).arr.toNat = rest ∧ (x.apply a).val.toNat = (x.val.toNat + rounds * x.n.toNat) % 2 ^ 32 := by
  have hpos : 0 < x.n.toNat := Nat.pos_of_ne_zero fun h => hn (BitVec.eq_of_toNat_eq h)
  have hrest : (x.arr.toNat + a) % x.n.toNat < x.n.toNat := Nat.mod_lt _ hpos
  refine ⟨(x.arr.toNat + a) / x.n.toNat, (x.arr.toNat + a) % x.n.toNat, (Nat.div_add_mod' ..).symm, hrest, ?_, ?_⟩
  · rw [apply_barrier x a hm hn]
    exact (BitVec.toNat_ofNat ..).trans (Nat.mod_eq_of_lt (hrest.trans x.n.isLt))
  · rw [apply_barrier x a hm hn, BitVec.toNat_add, BitVec.toNat_ofNat, Nat.add_mod_mod]

/-- Only an open barrier of at least one participant is checked for participant overflow (12 R288, R289). -/
theorem overflows_apply : (x.apply a).overflows = true ↔ x.mode = true ∧ x.n ≠ 0 ∧ x.n.toNat < (x.apply a).val.toNat := by
  simp only [overflows, apply_mode, apply_n, Bool.and_eq_true, decide_eq_true_eq, and_assoc]

end SObj

/-! The signal. -/

/-- A signal has reached the sync unit and changed its object; a participant overflow is not looked at yet (12 R284, R285). -/
def reached (s : State) (src : BitVec 4) (o : Byte) (a cnt : Nat) : State :=
  (setObj s o { (objOf s o).apply a with lastSrc := src, lastCtx := s.core.cur }).modSyn
    (fun z => { z with sigs := z.sigs + BitVec.ofNat 32 cnt })

/-- SYN_STATUS_OVF is set; SYN_ERR takes the object unless an earlier overflow holds it (12 R289). -/
def noteOverflow (s : State) (src : BitVec 4) (o : Byte) : State :=
  if s.syn.ovf then s
  else s.modSyn (fun z => { z with ovf := true, errObj := o, errSrc := src, errCtx := s.core.cur })

theorem noteOverflow_frame (s : State) (src : BitVec 4) (o : Byte) :
    noteOverflow s src o = { s with syn := (noteOverflow s src o).syn } ∧ (noteOverflow s src o).syn.objs = s.syn.objs := by
  unfold noteOverflow
  split <;> exact ⟨rfl, rfl⟩

theorem noteOverflow_ovf (s : State) (src : BitVec 4) (o : Byte) : (noteOverflow s src o).syn.ovf = true := by
  unfold noteOverflow
  split
  · assumption
  · rfl

theorem noteOverflow_errObj {s : State} (h : s.syn.ovf = false) (src : BitVec 4) (o : Byte) :
    (noteOverflow s src o).syn.errObj = o := by
  rw [noteOverflow, if_neg (by rw [h]; decide)]
  rfl

section Signal
variable (s : State) (src : BitVec 4) (o : Byte) (a cnt : Nat)

theorem signalAmt_quiet (h : ((objOf s o).apply a).overflows = false) : signalAmt s src o a cnt = reached s src o a cnt :=
  if_neg (by rw [h]; decide)

theorem signalAmt_overflow (h : ((objOf s o).apply a).overflows = true) :
    signalAmt s src o a cnt = raise (noteOverflow (reached s src o a cnt) src o) fcPARTOVF 9 0 0 := if_pos h

theorem signalAmt_objs : (signalAmt s src o a cnt).syn.objs = (reached s src o a cnt).syn.objs := by
  cases h : ((objOf s o).apply a).overflows
  · rw [signalAmt_quiet s src o a cnt h]
  · rw [signalAmt_overflow s src o a cnt h, raise_syn]
    exact (noteOverflow_frame ..).2

/-- The object takes the amount, the source and the running context; no other object changes (12 R284). -/
theorem objOf_signalAmt (p : Byte) :
    objOf (signalAmt s src o a cnt) p =
      if p = o then { (objOf s o).apply a with lastSrc := src, lastCtx := s.core.cur } else objOf s p := by
  rw [← objOf_setObj, objOf, signalAmt_objs]
  rfl

theorem signalAmt_mem : (signalAmt s src o a cnt).mem = s.mem := by rw [signalAmt_frame]
theorem signalAmt_core : (signalAmt s src o a cnt).core = s.core := by rw [signalAmt_frame]

/-- A participant overflow raises PART_OVF and sets SYN_STATUS_OVF; the first one names its object in SYN_ERR (12 R289). -/
theorem signalAmt_overflow_raises (h : ((objOf s o).apply a).overflows = true) :
    (∃ r, (signalAmt s src o a cnt).flt.log.head? = some r ∧ r.w0.extractLsb' 0 8 = 0x1B ∧ r.w0.extractLsb' 8 2 = 1) ∧
      (signalAmt s src o a cnt).flt.cont = true ∧ (signalAmt s src o a cnt).flt.cntCont = s.flt.cntCont + 1 ∧
      (signalAmt s src o a cnt).syn.ovf = true ∧ (s.syn.ovf = false → (signalAmt s src o a cnt).syn.errObj = o) := by
  rw [signalAmt_overflow s src o a cnt h, raise_syn]
  obtain ⟨hcont, hcount, hlog⟩ := raise_recorded (noteOverflow (reached s src o a cnt) src o) fcPARTOVF 9 0 0
  have hflt : (noteOverflow (reached s src o a cnt) src o).flt = s.flt := by rw [(noteOverflow_frame ..).1]; rfl
  exact ⟨⟨_, hlog, faultRec_code_class _ (by decide) 1 9 0 0⟩, hcont, by rw [hcount, hflt], noteOverflow_ovf ..,
    fun hs => noteOverflow_errObj (s := reached s src o a cnt) hs src o⟩

end Signal

/-- Settles O16: the object takes what `SObj.apply` gives, and the fault unit acts exactly on a participant overflow. -/
theorem signalArithmetic : Obligations.SignalArithmetic := by
  intro s src o a cnt x t y
  have hy : y = { x.apply a with lastSrc := src, lastCtx := s.core.cur } := (objOf_signalAmt ..).trans (if_pos rfl)
  have hval : y.val = (x.apply a).val := by rw [hy]
  have harr : y.arr = (x.apply a).arr := by rw [hy]
  refine ⟨by rw [hy], by rw [hy], by rw [hy, ← x.apply_mode a], by rw [hy, ← x.apply_n a],
    fun p hp => (objOf_signalAmt ..).trans (if_neg hp), fun h => ?_, fun hm hn => ?_, fun h => ?_, fun hm hn hlt => ?_⟩
  · rw [hval, harr]
    exact x.apply_counter_fields a h
  · rw [hval, harr]
    exact x.apply_barrier_rounds a hm hn
  · have hquiet : (x.apply a).overflows = false := by
      rw [Bool.eq_false_iff, ne_eq, x.overflows_apply, ← hval]
      rintro ⟨hm, hn, hlt⟩
      rcases h with h | h | h
      · exact absurd (hm.symm.trans h) (by decide)
      · exact hn h
      · omega
    have ht : t = reached s src o a cnt := signalAmt_quiet s src o a cnt hquiet
    exact ⟨by rw [ht]; rfl, by rw [ht]; rfl, signalAmt_mem .., signalAmt_core ..⟩
  · exact signalAmt_overflow_raises s src o a cnt ((x.overflows_apply a).2 ⟨hm, hn, hval ▸ hlt⟩)

end Sys2Proof.Machine
end

section
/-! PROOFS. The instruction SIG: its fields, its three operations, and the stop at an empty barrier (12 R283, R287; 03 R95). -/

namespace Sys2Proof.Machine

/-! A completion that writes no register. -/

/-- Going on to the next instruction is a completion that wrote no register. -/
theorem advance_wrote (s : State) (n : Nat) : Wrote s (advance s n) 0 0 n where
  units := advance_coreFrame s n
  core := complete_core ..
  others _ hc := ctxOf_complete_of_ne _ _ hc
  context := by rw [curCtx_advance]
  regs r := by
    rw [rd_advance]
    by_cases hr : r = 0
    · rw [if_pos hr, hr]; rfl
    · rw [if_neg hr, if_neg hr]
  debug := complete_dbg ..
  watchman := complete_syn ..

/-! The core stops at its instruction. -/

/-- A fault of the control core touches the core, the debug unit, the array's caravans, the watches and what a contained fault touches. -/
theorem coreFault_frame (s : State) (code detail : Nat) :
    coreFault s code detail = { s with
      core := { s.core with mode := .stopped }, dbg := (coreFault s code detail).dbg, arr := (coreFault s code detail).arr
      syn := { s.syn with watch := (coreFault s code detail).syn.watch }, flt := (raise s code 0 (curCtx s).pc detail).flt
      fac := (coreFault s code detail).fac, wgh := (coreFault s code detail).wgh } := by
  unfold coreFault stopCore
  rw [raise_frame]
  rfl

/-- A contained fault of the control core records the fault, stops the core at its instruction and will halt its context (03 R95; 16 R389). -/
theorem coreFault_stopped {s : State} (h : ctxRuns s = true) (code : Nat) : FaultStopped s (coreFault s code 0) code := by
  obtain ⟨hcont, hcount, hlog⟩ := raise_recorded s code 0 (curCtx s).pc 0
  have hhalt : (raise s code 0 (curCtx s).pc 0).flt.pend = true ∧ (raise s code 0 (curCtx s).pc 0).flt.haltCtx = some s.core.cur := by
    rw [raise_flt, if_pos h]; exact ⟨rfl, rfl⟩
  rw [coreFault_frame]
  exact ⟨rfl, ⟨hcont, hhalt.1, hhalt.2, hcount⟩, hlog, rfl, ⟨rfl, rfl, rfl, rfl, rfl, rfl, rfl, rfl⟩⟩

theorem objOf_coreFault (s : State) (code detail : Nat) (p : Byte) : objOf (coreFault s code detail) p = objOf s p := by
  rw [coreFault_frame]; rfl

/-! What a fetch leaves as it was. -/

theorem fetched_sameBytes (s : State) (n : Nat) : SameBytes s (fetched s n) := fun _ => by rw [fetched, touchRead_bytes]

section Fetch
variable {s : State} {n : Nat} (h : Runs s n)
include h

theorem Runs.fetched_man : (fetched s n).man = s.man := by rw [h.fetched_frame]
theorem Runs.fetched_syn : (fetched s n).syn = s.syn := by rw [h.fetched_frame]

theorem Runs.objOf_fetched (o : Byte) : objOf (fetched s n) o = objOf s o := by simp only [objOf, h.fetched_syn]

theorem Runs.liveByte_fetched (o : Nat) : liveByte (fetched s n) o = liveByte s o := by
  rw [liveByte, h.fetched_man, liveByte]

theorem Runs.cfg_fetched (o k : Nat) : cfg (fetched s n) o k = cfg s o k := by simp only [cfg, h.liveByte_fetched]

theorem Runs.mapId_fetched (c i : Nat) : mapId (fetched s n) c i = mapId s c i := by
  rw [mapId, h.cfg_fetched, h.liveByte_fetched, mapId]

theorem Runs.ctxRuns_fetched : ctxRuns (fetched s n) = true := by
  have hcore := h.fetched_core
  have hman := h.fetched_man
  obtain ⟨hon, -, -, -⟩ := h
  simp only [coreOn, Bool.and_eq_true, decide_eq_true_eq, Bool.not_eq_true'] at hon
  obtain ⟨⟨⟨⟨⟨⟨-, hrun⟩, -⟩, hhold⟩, -⟩, -⟩, -⟩ := hon
  rw [ctxRuns, hcore, hman, hrun, hhold]
  rfl

end Fetch

/-! SIG. -/

theorem exec_sig (f : CForm) (s : State) : exec (.sig f) s = execSig f s := rfl
theorem exec_sigBar (f : CForm) (s : State) : exec (.sigBar f) s = execSigBar f s := rfl
theorem exec_sigSet (f : CForm) (s : State) : exec (.sigSet f) s = execSigSet f s := rfl

/-- A field of a word, as a number. -/
theorem bitsOf_toNat {w : Nat} (v : BitVec w) (hi lo : Nat) : bitsOf v.toNat hi lo = (v.extractLsb' lo (hi + 1 - lo)).toNat :=
  (BitVec.extractLsb'_toNat ..).symm

/-- A field of one bit, as a number. -/
theorem bitsOf_bit {w : Nat} (v : BitVec w) (i : Nat) : bitsOf v.toNat i i = (v.getLsbD i).toNat := by
  rw [bitsOf, Nat.add_sub_cancel_left, pow_one, Nat.shiftRight_eq_div_pow, ← Nat.toNat_testBit]
  rfl

section Sig
variable {s : State} {f : CForm} {o : Byte} (h : Runs s 4) (hx : f.ext = none) (hd : f.d = 0) (hb : f.b = 0)
  (h9 : f.f.getLsbD 9 = false) (ho : mapId s s.core.cur.toNat (f.f.extractLsb' 0 6).toNat = some o)
include h hx hd hb h9 ho

omit h ho in
/-- The fields that SIG requires to be 0 are 0 (12 Table 4). -/
theorem sigLegal_of {op : Nat} (hop : (f.f.extractLsb' 7 2).toNat = op) (h6 : op = 0 ∨ f.f.getLsbD 6 = false) :
    sigLegal f op = true := by
  have hbits : bitsOf f.f.toNat 8 7 = op := (bitsOf_toNat ..).trans hop
  rw [sigLegal, noExt, hx, hd, hb, hbits, bitsOf_bit, bitsOf_bit, h9]
  simpa using h6

/-- SIG on a mapped ID acts on its object and goes on to the next instruction (12 R283). -/
theorem sigObj_advances {op : Nat} (hop : (f.f.extractLsb' 7 2).toNat = op) (h6 : op = 0 ∨ f.f.getLsbD 6 = false)
    (act : State → Byte → State) : sigObj s f op act = .next (advance (act (fetched s 4) o) 4) := by
  rw [sigObj, hx, lenOf, h.instr_legal (sigLegal_of hx hd hb h9 hop h6)]
  simp only [bitsOf_five_zero, h.mapId_fetched, h.fetched_core, ho]

theorem exec_sig_add (hop : f.f.extractLsb' 7 2 = 0) :
    ∃ t, exec (.sig f) s = .next t ∧
      Wrote (signalAmt (fetched s 4) 1 o (if f.f.getLsbD 6 then ((rd s f.a).extractLsb' 0 32).toNat else 1) 1) t 0 0 4 := by
  have hamt : ((rd s f.a).extractLsb' 0 32).toNat = (rd s f.a).toNat % 2 ^ 32 := BitVec.extractLsb'_toNat ..
  rw [exec_sig, execSig, sigObj_advances h hx hd hb h9 ho (by rw [hop]; rfl) (.inl rfl), h.rd_fetched, hamt]
  exact ⟨_, rfl, advance_wrote ..⟩

/-- SIG BAR is ILLEGAL with no participant, and opens the barrier otherwise (12 R287). -/
theorem exec_sigBar_cases (hop : f.f.extractLsb' 7 2 = 1) (h6 : f.f.getLsbD 6 = false) :
    exec (.sigBar f) s = .next (if (rd s f.a).extractLsb' 0 8 = 0 then coreFault (fetched s 4) fcILLEGAL 0 else
      advance (setObj (fetched s 4) o { objOf s o with
        mode := true, n := (rd s f.a).extractLsb' 0 8, arr := 0, lastSrc := 11, lastCtx := s.core.cur }) 4) := by
  have hn : (rd s f.a).setWidth 8 = (rd s f.a).extractLsb' 0 8 := BitVec.setWidth_eq_extractLsb' (by decide)
  have hlegal : sigLegal f 1 = true := sigLegal_of hx hd hb h9 (by rw [hop]; rfl) (.inr h6)
  rw [exec_sigBar, execSigBar, hx, lenOf, h.instr_legal hlegal]
  simp only [bitsOf_five_zero, h.mapId_fetched, h.fetched_core, ho, h.rd_fetched, h.objOf_fetched, hn]

theorem exec_sigBar_opens (hop : f.f.extractLsb' 7 2 = 1) (h6 : f.f.getLsbD 6 = false) (hn : (rd s f.a).extractLsb' 0 8 ≠ 0) :
    ∃ t, exec (.sigBar f) s = .next t ∧
      Wrote (setObj (fetched s 4) o { objOf s o with
        mode := true, n := (rd s f.a).extractLsb' 0 8, arr := 0, lastSrc := 11, lastCtx := s.core.cur }) t 0 0 4 := by
  rw [exec_sigBar_cases h hx hd hb h9 ho hop h6, if_neg hn]
  exact ⟨_, rfl, advance_wrote ..⟩

theorem exec_sigBar_empty (hop : f.f.extractLsb' 7 2 = 1) (h6 : f.f.getLsbD 6 = false) (hn : (rd s f.a).extractLsb' 0 8 = 0) :
    ∃ t, exec (.sigBar f) s = .next t ∧ FaultStopped (fetched s 4) t fcILLEGAL ∧ SameBytes s t ∧ ∀ p, objOf t p = objOf s p := by
  rw [exec_sigBar_cases h hx hd hb h9 ho hop h6, if_pos hn]
  refine ⟨_, rfl, coreFault_stopped h.ctxRuns_fetched _, fun a => ?_, fun p => ?_⟩
  · rw [coreFault_frame]
    exact fetched_sameBytes s 4 a
  · rw [objOf_coreFault, h.objOf_fetched]

theorem exec_sigSet_sets (hop : f.f.extractLsb' 7 2 = 2) (h6 : f.f.getLsbD 6 = false) :
    ∃ t, exec (.sigSet f) s = .next t ∧
      Wrote (setObj (fetched s 4) o { objOf s o with
        val := (rd s f.a).extractLsb' 0 32, mode := false, arr := 0, lastSrc := 11, lastCtx := s.core.cur }) t 0 0 4 := by
  have hval : (rd s f.a).setWidth 32 = (rd s f.a).extractLsb' 0 32 := BitVec.setWidth_eq_extractLsb' (by decide)
  rw [exec_sigSet, execSigSet, sigObj_advances h hx hd hb h9 ho (by rw [hop]; rfl) (.inr h6), h.rd_fetched, h.objOf_fetched,
    h.fetched_core, hval]
  exact ⟨_, rfl, advance_wrote ..⟩

end Sig

/-- Settles O15: each operation acts on the mapped object after the fetch and goes on with no register written; an empty barrier stops the core. -/
theorem sigCompletes : Obligations.SigCompletes := by
  intro s f o h hx hd hb h9 ho
  exact ⟨exec_sig_add h hx hd hb h9 ho, exec_sigBar_opens h hx hd hb h9 ho, exec_sigBar_empty h hx hd hb h9 ho,
    exec_sigSet_sets h hx hd hb h9 ho⟩

end Sys2Proof.Machine
end

section
/-! PROOFS. The two invariants of the whole block, and what every unit's update and every write to memory does to them (07 R171; 16 R394). -/

namespace Sys2Proof.Machine

/-- The invariants of the whole block: the form and bound of local memory (07 R171), and the bound of the fault log (16 R394). -/
inductive Invariant where
  | memory
  | faultLog

/-- An invariant holds of a state. -/
def Safe (I : Invariant) (s : State) : Prop := (I = .memory → s.MemOk) ∧ (I = .faultLog → s.LogOk)

theorem safe_memory (s : State) : Safe .memory s ↔ s.MemOk := by simp [Safe]
theorem safe_faultLog (s : State) : Safe .faultLog s ↔ s.LogOk := by simp [Safe]

/-- A command answers a next state, which keeps each invariant that holds. -/
def Keeps (s : State) (r : Res) : Prop := ∃ t, r = .next t ∧ ∀ {I}, Safe I s → Safe I t

variable {I : Invariant} {s t : State}

theorem Safe.frame (h : Safe I s) (hb : t.mem.bytes = s.mem.bytes) (hl : t.flt.log = s.flt.log) : Safe I t := by
  unfold Safe State.MemOk State.LogOk
  rw [hb, hl]
  exact h

theorem Safe.ite {c : Prop} [Decidable c] (hs : Safe I s) (ht : Safe I t) : Safe I (if c then s else t) := by
  split <;> assumption

theorem Safe.foldl {α : Type} {g : State → α → State} {l : List α} (hg : ∀ u x, Safe I u → Safe I (g u x)) (h : Safe I s) :
    Safe I (l.foldl g s) := by
  induction l generalizing s with
  | nil => exact h
  | cons x l ih => exact ih (hg s x h)

theorem Safe.foldlOf {α β : Type} (f : β → State) {g : β → α → β} {l : List α} {b : β} (hg : ∀ b x, Safe I (f b) → Safe I (f (g b x)))
    (h : Safe I (f b)) : Safe I (f (l.foldl g b)) := by
  induction l generalizing b with
  | nil => exact h
  | cons x l ih => exact ih (hg b x h)

theorem Keeps.of_safe {r : Res} (ht : ∀ {I}, Safe I s → Safe I t) (h : Keeps t r) : Keeps s r := by
  obtain ⟨u, hu, hk⟩ := h
  exact ⟨u, hu, fun hs => hk (ht hs)⟩

/-! An update of one of the other units. -/

theorem modClk_safe {f : Clk → Clk} (h : Safe I s) : Safe I (s.modClk f) := h
theorem modCore_safe {f : Core → Core} (h : Safe I s) : Safe I (s.modCore f) := h
theorem modMan_safe {f : Man → Man} (h : Safe I s) : Safe I (s.modMan f) := h
theorem modSyn_safe {f : Syn → Syn} (h : Safe I s) : Safe I (s.modSyn f) := h
theorem modWgh_safe {f : Wgh → Wgh} (h : Safe I s) : Safe I (s.modWgh f) := h
theorem modArr_safe {f : Arr → Arr} (h : Safe I s) : Safe I (s.modArr f) := h
theorem modVec_safe {f : Vec → Vec} (h : Safe I s) : Safe I (s.modVec f) := h
theorem modFac_safe {f : Fac → Fac} (h : Safe I s) : Safe I (s.modFac f) := h
theorem modSth_safe {f : Sth → Sth} (h : Safe I s) : Safe I (s.modSth f) := h
theorem modJrnl_safe {f : Jrnl → Jrnl} (h : Safe I s) : Safe I (s.modJrnl f) := h
theorem modXch_safe {f : Xch → Xch} (h : Safe I s) : Safe I (s.modXch f) := h
theorem modStr_safe {f : Str → Str} (h : Safe I s) : Safe I (s.modStr f) := h
theorem modPst_safe {f : Pst → Pst} (h : Safe I s) : Safe I (s.modPst f) := h
theorem modGov_safe {f : Gov → Gov} (h : Safe I s) : Safe I (s.modGov f) := h
theorem modLdg_safe {f : Ldg → Ldg} (h : Safe I s) : Safe I (s.modLdg f) := h
theorem modSec_safe {f : Sec → Sec} (h : Safe I s) : Safe I (s.modSec f) := h
theorem modDbg_safe {f : Dbg → Dbg} (h : Safe I s) : Safe I (s.modDbg f) := h
theorem modBus_safe {f : Buses → Buses} (h : Safe I s) : Safe I (s.modBus f) := h
theorem modDft_safe {f : Dft → Dft} (h : Safe I s) : Safe I (s.modDft f) := h
theorem with_opId_safe {x : Nat} (h : Safe I s) : Safe I { s with opId := x } := h
theorem with_q_safe {x : Tab EngQ} (h : Safe I s) : Safe I { s with q := x } := h
theorem with_free_safe {x : Nat} (h : Safe I s) : Safe I { s with free := x } := h
theorem with_pending_safe {x : List Instr} (h : Safe I s) : Safe I { s with pending := x } := h
theorem with_pin_safe {x : Pins} (h : Safe I s) : Safe I { s with pin := x } := h
theorem modMem_safe {f : Mem → Mem} (hf : (f s.mem).bytes = s.mem.bytes) (h : Safe I s) : Safe I (s.modMem f) := h.frame hf rfl
theorem modFlt_safe {f : Flt → Flt} (hf : (f s.flt).log = s.flt.log) (h : Safe I s) : Safe I (s.modFlt f) := h.frame rfl hf

theorem noteContained_safe {code unit : Nat} {addr : Addr} {detail : Nat} (h : Safe I s) : Safe I (noteContained s code unit addr detail) :=
  ⟨h.1, fun _ => List.length_take_le ..⟩

theorem raise_safe {code unit : Nat} {addr : Addr} {detail : Nat} (h : Safe I s) : Safe I (raise s code unit addr detail) := by
  refine ⟨fun hv => ?_, fun _ => raise_log_length ..⟩
  rw [State.MemOk, raise_frame]
  exact h.1 hv

theorem memUe_safe {req cw : Nat} {fe : Bool} (h : Safe I s) : Safe I (memUe s req cw fe) := raise_safe (.ite h h)

theorem memCe_safe {req cw : Nat} (h : Safe I s) : Safe I (memCe s req cw) := h

theorem cleanCw_safe {cw : Nat} (h : Safe I s) : Safe I (cleanCw s cw) := h

theorem eccWrOne_safe {req : Nat} {whole : Nat → Bool} {p : Nat × EccErr} (h : Safe I s) : Safe I (eccWrOne req whole s p) := by
  unfold eccWrOne
  split
  · exact cleanCw_safe h
  · split
    · exact memUe_safe h
    · exact cleanCw_safe (memCe_safe h)
    · exact h

/-- Bytes of local memory in canonical form, none at or above its top (07 R171). -/
def BytesOk (m : List Host.Cell) : Prop := Memory.wf m = true ∧ ∀ c ∈ m, c.1 < memTop

theorem BytesOk.memPut {m : List Host.Cell} {a : Nat} {bs : List Byte} (h : BytesOk m) (ha : a + bs.length ≤ memTop) : BytesOk (memPut m a bs) :=
  ⟨wf_memPut a bs h.1, bound_memPut memTop a bs h.2 ha⟩

theorem BytesOk.memPuts {m : List Host.Cell} {ws : Writes} (h : BytesOk m) (hws : InMemory ws) :
    BytesOk (ws.foldl (fun b w => Machine.memPut b w.1 w.2) m) := by
  induction ws generalizing m with
  | nil => exact h
  | cons w ws ih =>
    exact ih (h.memPut (hws w (List.mem_cons_self ..))) fun v hv => hws v (List.mem_cons_of_mem _ hv)

/-- The bytes of writings below the top of memory lie below it. -/
theorem cells_lt_memTop {ws : Writes} (hws : InMemory ws) {p : Nat × Byte} (hp : p ∈ ws.flatMap cellsOf) : p.1 < memTop := by
  obtain ⟨w, hw, hpw⟩ := List.mem_flatMap.1 hp
  exact Nat.lt_of_lt_of_le (mem_mapIdx_addr hpw) (hws w hw)

theorem eccWr_safe {req : Nat} {whole : Nat → Bool} {ws : Writes} (hws : InMemory ws) (h : Safe I s) : Safe I (eccWr s req whole ws) := by
  unfold eccWr
  dsimp only
  split
  · exact ⟨fun hv => BytesOk.memPuts (h.1 hv) hws, h.2⟩
  · have hu : Safe I ((eccSpans s (spansOf ws)).foldl (eccWrOne req whole) s) := .foldl (fun _ _ h => eccWrOne_safe h) h
    refine ⟨fun hv => putBytes_keeps BytesOk _ _ _ (fun m hm p hp => hm.memPut (cells_lt_memTop hws hp)) (hu.1 hv), fun hv => ?_⟩
    rw [State.LogOk, putBytes_frame]
    exact hu.2 hv

theorem spend_safe {k n : Nat} (h : Safe I s) : Safe I (spend s k n) := h

theorem serve_safe {req a n : Nat} (h : Safe I s) : Safe I (serve s req a n) := by
  refine h.frame (serve_bytes ..) ?_
  rw [serve_frame]

theorem memWr_safe {req a : Nat} {bs : List Byte} (h : Safe I s) : Safe I (memWr s req a bs) := by
  unfold memWr
  split
  · exact h
  case isFalse ha =>
    have hws : InMemory [(a, bs)] := by simpa [InMemory] using ha
    exact serve_safe (eccWr_safe hws (spend_safe h))

theorem InMemory.joinRun {runs : Writes} {w : Nat × List Byte} (hr : InMemory runs) (hw : w.1 + w.2.length ≤ memTop) :
    InMemory (joinRun runs w) := by
  induction runs with
  | nil => simpa [Machine.joinRun, InMemory] using hw
  | cons r t ih =>
    obtain ⟨h1, ht⟩ := List.forall_mem_cons.1 hr
    unfold Machine.joinRun
    split
    case isTrue hj =>
      refine List.forall_mem_cons.2 ⟨?_, ht⟩
      simp only [List.length_append]
      omega
    case isFalse =>
      split
      · exact List.forall_mem_cons.2 ⟨h1, ih ht⟩
      · exact List.forall_mem_cons.2 ⟨hw, hr⟩

theorem inMemory_runs {ws : Writes} {runs : Writes} (hr : InMemory runs) (hws : InMemory ws) : InMemory (ws.foldl joinRun runs) := by
  induction ws generalizing runs with
  | nil => exact hr
  | cons w ws ih =>
    exact ih (hr.joinRun (hws w (List.mem_cons_self ..))) fun v hv => hws v (List.mem_cons_of_mem _ hv)

theorem memWrJoined_safe {req : Nat} {ws : Writes} (h : Safe I s) : Safe I (memWrJoined s req ws) := by
  have hws : InMemory (ws.filter (fun w => decide (w.1 + w.2.length ≤ memTop))) := fun w hw => by simpa using (List.mem_filter.1 hw).2
  have hruns : InMemory ((ws.filter (fun w => decide (w.1 + w.2.length ≤ memTop))).foldl joinRun []).reverse :=
    fun w hw => inMemory_runs (fun _ hv => absurd hv List.not_mem_nil) hws w (List.mem_reverse.1 hw)
  exact .foldl (fun _ _ h => serve_safe h) (eccWr_safe hruns (spend_safe h))

theorem manErr_safe {code type off : Nat} (h : Safe I s) : Safe I (manErr s code type off) := .ite h h

theorem abandonLoad_safe (h : Safe I s) : Safe I (abandonLoad s) := by
  unfold abandonLoad
  split
  · exact h
  · exact manErr_safe h

theorem abandonCode_safe (h : Safe I s) : Safe I (abandonCode s) := by
  unfold abandonCode
  split <;> exact h

theorem startZero_safe (h : Safe I s) : Safe I (startZero s) :=
  have hm : BytesOk [] := ⟨rfl, fun _ hc => absurd hc List.not_mem_nil⟩
  abandonCode_safe (abandonLoad_safe ⟨fun _ => hm, h.2⟩)

theorem loseRounds_bytes (m : Mem) (l : List Nat) : (l.foldl loseRound m).bytes = m.bytes := by
  induction l generalizing m with
  | nil => rfl
  | cons b l ih => exact (ih _).trans rfl

theorem canonCells_ok (l : List Host.Cell) : BytesOk (canonCells l) := by
  unfold canonCells
  suffices ∀ m, BytesOk m → BytesOk (l.foldl (fun t c => if c.1 < memTop then tabSet 0 t c.1 c.2 else t) m) from
    this [] ⟨rfl, fun c hc => absurd hc List.not_mem_nil⟩
  induction l with
  | nil => exact fun _ h => h
  | cons c l ih =>
    intro m hm
    refine ih _ ?_
    dsimp only
    split
    case isTrue hc => exact hm.memPut (bs := [c.2]) (by simp; omega)
    case isFalse => exact hm

theorem intrusive_safe {i : WsInstr} : Safe I (intrusive s i) := ⟨fun _ => canonCells_ok _, fun _ => List.length_take_le ..⟩

theorem clearLog_safe (h : Safe I s) : Safe I (clearLog s) := ⟨h.1, fun _ => Nat.zero_le _⟩

theorem resetCore_safe (h : Safe I s) : Safe I (resetCore s) := ⟨h.1, fun _ => Nat.zero_le _⟩

theorem whenMem_keeps {c : Bool} {req : Nat} {sp : List (Nat × Nat)} (ht : ∀ {I}, Safe I s → Safe I t) : Keeps s (whenMem c req sp s t) :=
  ⟨_, rfl, fun h => .ite (.ite h (ht h)) h⟩

theorem regAcc_safe {b : Bus} {ldg : Bool} {i : Instr} (hs : Safe I s) (ht : Safe I t) : Safe I (regAcc b ldg i s t) := by
  obtain hr | hr := regAcc_cases b ldg i s t <;> rw [hr]
  · exact ht
  · cases b <;> exact hs

theorem regCmd_keeps {i : Instr} (ht : ∀ {I}, Safe I s → Safe I t) : Keeps s (regCmd i s t) := ⟨_, rfl, fun h => regAcc_safe h (ht h)⟩

theorem ldgCmd_keeps {i : Instr} (ht : ∀ {I}, Safe I s → Safe I t) : Keeps s (ldgCmd i s t) := ⟨_, rfl, fun h => regAcc_safe h (ht h)⟩

theorem whenOn_keeps {c : Bool} (ht : ∀ {I}, Safe I s → Safe I t) : Keeps s (whenOn c s t) := ⟨_, rfl, fun h => .ite (ht h) h⟩

theorem execAoReset_keeps : Keeps s (execAoReset s) := ⟨_, rfl, fun h => ⟨h.1, fun _ => Nat.zero_le _⟩⟩

end Sys2Proof.Machine
end

section
/-! PROOFS. What keeps both invariants: the shared operations, one instruction, issue and dispatch. -/

namespace Sys2Proof.Machine

variable {I : Invariant} {s : State}

/-! Shared operations. -/

theorem modBusOf_safe {b : Bus} {f : BusSt → BusSt} (h : Safe I s) : Safe I (modBusOf s b f) := by
  unfold modBusOf
  split <;> exact modBus_safe h

theorem queueAcc_safe {b : Bus} {i : Instr} (h : Safe I s) : Safe I (queueAcc s b i) := modBusOf_safe h
theorem setCtx_safe {c : BitVec 2} {x2 : Ctx} (h : Safe I s) : Safe I (setCtx s c x2) := modCore_safe h
theorem modCtx_safe {c : BitVec 2} {f : Ctx → Ctx} (h : Safe I s) : Safe I (modCtx s c f) := setCtx_safe h
theorem wrReg_safe {c : BitVec 2} {r : SReg} {v : Dword} (h : Safe I s) : Safe I (wrReg s c r v) := modCtx_safe h
theorem facIdle_safe {c : BitVec 2} (h : Safe I s) : Safe I (facIdle s c) := modFac_safe h
theorem abandonStep_safe (h : Safe I s) : Safe I (abandonStep s) := .ite (modWgh_safe h) h

theorem raiseMismatch_safe {code unit : Nat} (h : Safe I s) : Safe I (raiseMismatch s code unit) :=
  .ite (modFlt_safe rfl (noteContained_safe h)) (noteContained_safe h)

theorem rebase_safe (h : Safe I s) : Safe I (rebase s) := modMem_safe rfl h
theorem await_safe {req : Nat} {sp : List (Nat × Nat)} (h : Safe I s) : Safe I (await s req sp) := modMem_safe rfl h

theorem eccRdOne_safe {req : Nat} {p : Nat × EccErr} (h : Safe I s) : Safe I (eccRdOne req s p) := by
  unfold eccRdOne
  split
  · exact h
  · exact memCe_safe h
  · exact memUe_safe h

theorem eccRead_safe {req k n : Nat} (h : Safe I s) : Safe I (eccRead s req k n) := .foldl (fun _ _ ht => eccRdOne_safe ht) h
theorem touchRead_safe {req k n : Nat} (h : Safe I s) : Safe I (touchRead s req k n) := serve_safe (spend_safe (eccRead_safe h))

theorem touchSpans_safe {req : Nat} {sp : List (Nat × Nat)} (h : Safe I s) : Safe I (touchSpans s req sp) :=
  .foldl (fun _ _ ht => serve_safe ht) (spend_safe (.foldl (fun _ _ ht => eccRdOne_safe ht) h))

theorem setObj_safe {o : Byte} {x2 : SObj} (h : Safe I s) : Safe I (setObj s o x2) := modSyn_safe h

theorem signalAmt_safe {src : BitVec 4} {o : Byte} {k cnt : Nat} (h : Safe I s) : Safe I (signalAmt s src o k cnt) :=
  .ite (raise_safe (.ite (modSyn_safe (setObj_safe h)) (modSyn_safe (modSyn_safe (setObj_safe h))))) (modSyn_safe (setObj_safe h))

theorem signal_safe {src : BitVec 4} {o : Byte} (h : Safe I s) : Safe I (signal s src o) := signalAmt_safe h

theorem signalMany_safe {src : BitVec 4} {os : List Byte} (h : Safe I s) : Safe I (signalMany s src os) :=
  .foldl (fun _ _ ht => signalAmt_safe ht) h

theorem take_safe {o : Byte} (h : Safe I s) : Safe I (take s o) := modSyn_safe (setObj_safe h)
theorem setWatch_safe {k : Nat} {w : Watch} (h : Safe I s) : Safe I (setWatch s k w) := modSyn_safe h
theorem dropWatch_safe {k : Nat} (h : Safe I s) : Safe I (dropWatch s k) := setWatch_safe h
theorem setQ_safe {e : Nat} {x2 : EngQ} (h : Safe I s) : Safe I (setQ s e x2) := with_q_safe h
theorem modQ_safe {e : Nat} {f : EngQ → EngQ} (h : Safe I s) : Safe I (modQ s e f) := setQ_safe h
theorem progress_safe (h : Safe I s) : Safe I (progress s) := modSyn_safe h

theorem failQueue_safe {e : Nat} {own : Option Byte} (h : Safe I s) : Safe I (failQueue s e own) :=
  signalMany_safe (dropWatch_safe (setQ_safe h))

theorem popHead_safe {e : Nat} (h : Safe I s) : Safe I (popHead s e) := progress_safe (dropWatch_safe (modQ_safe h))

theorem putInfl_safe {e : Nat} {ent : QEntry} {wb : Option Dword} {done : Bool} (h : Safe I s) : Safe I (putInfl s e ent wb done) :=
  with_opId_safe (modQ_safe h)

theorem modInfl_safe {e id : Nat} {f : Infl → Infl} (h : Safe I s) : Safe I (modInfl s e id f) := modQ_safe h
theorem markDone_safe {e id : Nat} (h : Safe I s) : Safe I (markDone s e id) := modInfl_safe h

theorem finishWith_safe {e id : Nat} {wr : List Writes} {lanes : List (Nat × Word)} (h : Safe I s) : Safe I (finishWith s e id wr lanes) :=
  modInfl_safe h

theorem giveWr_safe {e id : Nat} {wr : List Writes} (h : Safe I s) : Safe I (giveWr s e id wr) := modInfl_safe h
theorem setWb_safe {e id : Nat} {v : Dword} (h : Safe I s) : Safe I (setWb s e id v) := modInfl_safe h
theorem stopCore_safe (h : Safe I s) : Safe I (stopCore s) := modArr_safe (modDbg_safe (dropWatch_safe (modCore_safe h)))
theorem coreFault_safe {code detail : Nat} (h : Safe I s) : Safe I (coreFault s code detail) := stopCore_safe (raise_safe h)
theorem endHalt_safe (h : Safe I s) : Safe I (endHalt s) := modDbg_safe h
theorem lowerLevel_safe (h : Safe I s) : Safe I (lowerLevel s) := .ite h (.ite (endHalt_safe (modSec_safe h)) (modSec_safe h))

theorem dropWaiting_safe {es : List Nat} (h : Safe I s) : Safe I (dropWaiting s es) :=
  .foldl (fun _ _ ht => dropWatch_safe (modQ_safe ht)) h

theorem dropWants_safe {p : Nat → Bool} (h : Safe I s) : Safe I (dropWants s p) := modMem_safe rfl h

theorem startReload_safe {mask : BitVec 4} (h : Safe I s) : Safe I (startReload s mask) :=
  modCore_safe (dropWatch_safe (dropWants_safe (dropWaiting_safe (modArr_safe h))))

theorem streamStop_safe (h : Safe I s) : Safe I (streamStop s) :=
  modSec_safe (modJrnl_safe (modFac_safe (modSth_safe (modStr_safe (dropWants_safe (.foldl (fun _ _ ht => dropWatch_safe
    (setQ_safe ht)) h))))))

theorem tagZeroise_safe (h : Safe I s) : Safe I (tagZeroise s) := .ite h (startZero_safe (streamStop_safe h))

/-! One instruction of the control core. -/

theorem dbgDone_safe (h : Safe I s) : Safe I (dbgDone s) := modDbg_safe h
theorem complete_safe {pc : Addr} (h : Safe I s) : Safe I (complete s pc) := progress_safe (dbgDone_safe (modCore_safe (modCtx_safe h)))
theorem advance_safe {n : Nat} (h : Safe I s) : Safe I (advance s n) := complete_safe h

theorem instr_keeps {n : Nat} {legal : Bool} {body : State → State} (hb : ∀ {I} t, Safe I t → Safe I (body t)) :
    Keeps s (instr s n legal body) :=
  whenMem_keeps (fun h => .ite (coreFault_safe h) (.ite (stopCore_safe (touchRead_safe h)) (.ite (coreFault_safe (touchRead_safe h))
    (hb _ (touchRead_safe h)))))

theorem instrMem_keeps {n : Nat} {legal : Bool} {acc : Option (Nat × Nat)} {body : State → State} (hb : ∀
    {I} t, Safe I t → Safe I (body t)) :
    Keeps s (instrMem s n legal acc body) := by
  unfold instrMem
  split
  · dsimp only
    split
    · exact ⟨_, rfl, fun h => await_safe h⟩
    · exact instr_keeps hb
  · exact instr_keeps hb

theorem wrAdvance_safe {d : SReg} {v : Dword} {n : Nat} (h : Safe I s) : Safe I (wrAdvance s d v n) := advance_safe (wrReg_safe h)
theorem aluR_keeps {f : RForm} {op : Dword → Dword → Dword} : Keeps s (aluR s f op) := instr_keeps fun _ h => wrAdvance_safe h
theorem aluI_keeps {f : IForm} {op : Dword → Dword → Dword} : Keeps s (aluI s f op) := instr_keeps fun _ h => wrAdvance_safe h
theorem shiftI_keeps {f : IForm} {op : Dword → Nat → Dword} : Keeps s (shiftI s f op) := instr_keeps fun _ h => wrAdvance_safe h
theorem jumpTo_safe {target : ℤ} (h : Safe I s) : Safe I (jumpTo s target) := .ite (complete_safe h) (coreFault_safe (complete_safe h))

theorem load_keeps {f : IForm} {k : Nat} {ext : Nat → Dword} : Keeps s (load s f k ext) :=
  instrMem_keeps fun _ h => .ite (coreFault_safe h) (wrAdvance_safe (touchRead_safe h))

theorem store_keeps {f : IForm} {k : Nat} : Keeps s (store s f k) :=
  instrMem_keeps fun _ h => .ite (coreFault_safe h) (advance_safe (memWr_safe h))

/-! Scalar arithmetic. -/

theorem execAdd_keeps {f : RForm} : Keeps s (execAdd f s) := aluR_keeps
theorem execSub_keeps {f : RForm} : Keeps s (execSub f s) := aluR_keeps
theorem execAnd_keeps {f : RForm} : Keeps s (execAnd f s) := aluR_keeps
theorem execOr_keeps {f : RForm} : Keeps s (execOr f s) := aluR_keeps
theorem execXor_keeps {f : RForm} : Keeps s (execXor f s) := aluR_keeps
theorem execAndn_keeps {f : RForm} : Keeps s (execAndn f s) := aluR_keeps
theorem execSll_keeps {f : RForm} : Keeps s (execSll f s) := aluR_keeps
theorem execSrl_keeps {f : RForm} : Keeps s (execSrl f s) := aluR_keeps
theorem execSra_keeps {f : RForm} : Keeps s (execSra f s) := aluR_keeps
theorem execSlt_keeps {f : RForm} : Keeps s (execSlt f s) := aluR_keeps
theorem execSltu_keeps {f : RForm} : Keeps s (execSltu f s) := aluR_keeps
theorem execMin_keeps {f : RForm} : Keeps s (execMin f s) := aluR_keeps
theorem execMax_keeps {f : RForm} : Keeps s (execMax f s) := aluR_keeps
theorem execMinu_keeps {f : RForm} : Keeps s (execMinu f s) := aluR_keeps
theorem execMaxu_keeps {f : RForm} : Keeps s (execMaxu f s) := aluR_keeps
theorem execSxw_keeps {f : RForm} : Keeps s (execSxw f s) := aluR_keeps
theorem execZxw_keeps {f : RForm} : Keeps s (execZxw f s) := aluR_keeps
theorem execDifw_keeps {f : RForm} : Keeps s (execDifw f s) := aluR_keeps
theorem execMul_keeps {f : RForm} : Keeps s (execMul f s) := aluR_keeps
theorem execMulh_keeps {f : RForm} : Keeps s (execMulh f s) := aluR_keeps
theorem execMulhu_keeps {f : RForm} : Keeps s (execMulhu f s) := aluR_keeps
theorem execDiv_keeps {f : RForm} : Keeps s (execDiv f s) := aluR_keeps
theorem execDivu_keeps {f : RForm} : Keeps s (execDivu f s) := aluR_keeps
theorem execRem_keeps {f : RForm} : Keeps s (execRem f s) := aluR_keeps
theorem execRemu_keeps {f : RForm} : Keeps s (execRemu f s) := aluR_keeps
theorem execClz_keeps {f : RForm} : Keeps s (execClz f s) := aluR_keeps
theorem execPopc_keeps {f : RForm} : Keeps s (execPopc f s) := aluR_keeps
theorem execAddi_keeps {f : IForm} : Keeps s (execAddi f s) := aluI_keeps
theorem execAndi_keeps {f : IForm} : Keeps s (execAndi f s) := aluI_keeps
theorem execOri_keeps {f : IForm} : Keeps s (execOri f s) := aluI_keeps
theorem execXori_keeps {f : IForm} : Keeps s (execXori f s) := aluI_keeps
theorem execSlli_keeps {f : IForm} : Keeps s (execSlli f s) := shiftI_keeps
theorem execSrli_keeps {f : IForm} : Keeps s (execSrli f s) := shiftI_keeps
theorem execSrai_keeps {f : IForm} : Keeps s (execSrai f s) := shiftI_keeps
theorem execSlti_keeps {f : IForm} : Keeps s (execSlti f s) := aluI_keeps
theorem execOrhi_keeps {f : IForm} : Keeps s (execOrhi f s) := instr_keeps fun _ h => wrAdvance_safe h

/-! The generator. -/

theorem execRng_keeps {f : CForm} : Keeps s (execRng f s) := instr_keeps fun _ h => wrAdvance_safe h

/-! The weighers. -/

theorem observe_safe {tensor fmt : Nat} {xs : List Seen} (h : Safe I s) : Safe I (observe s tensor fmt xs) :=
  .foldl (fun _ _ ht => .ite (modWgh_safe ht) ht) h

theorem wghStepDone_safe (h : Safe I s) : Safe I (wghStepDone s) := modWgh_safe h
theorem wghRestore_safe (h : Safe I s) : Safe I (wghRestore s) := modWgh_safe h

/-! Issue queues and dispatch. -/

theorem armHead_safe {e : Nat} (h : Safe I s) : Safe I (armHead s e) := by
  unfold armHead
  refine .ite h ?_
  split
  · exact h
  · exact .ite h (setWatch_safe h)

theorem enqueue_safe {e : Nat} {ent : QEntry} (h : Safe I s) : Safe I (enqueue s e ent) := armHead_safe (modQ_safe h)

theorem issue_keeps {i : Instr} {r : IssueReq} : Keeps s (issue s i r) := by
  unfold issue
  refine instr_keeps ?_
  intro _ _ h
  split
  · exact coreFault_safe h
  · exact .ite (modCore_safe h) (advance_safe (enqueue_safe h))

theorem unstall_safe (h : Safe I s) : Safe I (unstall s) := by
  unfold unstall
  split
  · split
    · exact h
    · refine .ite h ?_
      split
      · exact h
      · exact advance_safe (enqueue_safe h)
  · exact h

theorem takeHead_safe {e : Nat} {ent : QEntry} (h : Safe I s) : Safe I (takeHead s e ent) := by
  unfold takeHead
  split
  · exact popHead_safe h
  · exact take_safe (popHead_safe h)

theorem dispatchMem_keeps {e fn : Nat} {can : QEntry → Bool} {req : Nat} {sp : QEntry → List (Nat × Nat)}
    {body : QEntry → State → State} (hb : ∀ {I} ent t, Safe I t → Safe I (body ent t)) :
    Keeps s (dispatchMem s e fn can req sp body) := by
  unfold dispatchMem
  split
  · exact ⟨_, rfl, id⟩
  · split
    · exact ⟨_, rfl, fun h => unstall_safe (armHead_safe (signalMany_safe (popHead_safe h)))⟩
    · split
      · exact ⟨_, rfl, fun h => armHead_safe h⟩
      · split
        · exact ⟨_, rfl, id⟩
        · split
          · exact ⟨_, rfl, fun h => await_safe h⟩
          · exact ⟨_, rfl, fun h => unstall_safe (armHead_safe (hb _ _ (takeHead_safe h)))⟩

theorem dispatch_keeps {e fn : Nat} {can : QEntry → Bool} {body : QEntry → State → State} (hb : ∀
    {I} ent t, Safe I t → Safe I (body ent t)) :
    Keeps s (dispatch s e fn can body) := dispatchMem_keeps hb

theorem dispatchFail_safe {e : Nat} {ent : QEntry} {code : Nat} {addr : Addr} {cause : Nat} (h : Safe I s) :
    Safe I (dispatchFail s e ent code addr cause) := failQueue_safe (raise_safe h)

theorem execQueueDiscard_keeps {q : BitVec 3} : Keeps s (execQueueDiscard q s) := by
  unfold execQueueDiscard
  dsimp only
  split
  · exact whenOn_keeps fun h => unstall_safe h
  · exact whenOn_keeps fun h => unstall_safe (signalMany_safe (dropWatch_safe (modQ_safe h)))

/-! Tensors. -/

theorem touchLayout_safe {req : Nat} {l : Layout} (h : Safe I s) : Safe I (touchLayout s req l) := touchSpans_safe h
theorem touchDescr_safe {req k : Nat} (h : Safe I s) : Safe I (touchDescr s req k) := touchRead_safe h
theorem Emit_put_safe {e : Emit} {k : Nat} {bs : List Byte} (h : Safe I (e.s)) : Safe I (Emit.put e k bs).s := h

theorem putElem_safe {e : Emit} {l : Layout} {step : BitVec 48} {r c : Nat} {v : Word} (h : Safe I (e.s)) :
    Safe I (putElem e l step r c v).s := Emit_put_safe (observe_safe h)

theorem putCode_safe {e : Emit} {l : Layout} {r c code : Nat} (h : Safe I (e.s)) : Safe I (putCode e l r c code).s := Emit_put_safe h

theorem putBlock_safe {e : Emit} {l : Layout} {step : BitVec 48} {r c : Nat} {vs : List (Option Word)} (h : Safe I (e.s)) :
    Safe I (putBlock e l step r c vs).s := Emit_put_safe (Emit_put_safe (observe_safe h))

theorem putTensor_safe {e : Emit} {l : Layout} {step : BitVec 48} {val : Nat → Nat → Option Word} (h : Safe I (e.s)) :
    Safe I (putTensor e l step val).s := by
  unfold putTensor
  split
  · refine .foldlOf Emit.s ?_ h
    intro _ _ ht
    dsimp only
    split
    · split
      · exact ht
      · exact putBlock_safe ht
    · split
      · exact ht
      · exact putBlock_safe ht
  · refine .foldlOf Emit.s ?_ h
    intro _ _ ht
    split
    · exact putElem_safe ht
    · exact ht

theorem copyTensor_safe {e : Emit} {mem : List Host.Cell} {src dst : Layout} {have_ : Nat → Nat → Bool} (h : Safe I (e.s)) :
    Safe I (copyTensor e mem src dst have_).s := by
  unfold copyTensor
  refine .foldlOf Emit.s ?_ h
  intro _ _ ht
  split
  · exact Emit_put_safe ht
  · exact ht

end Sys2Proof.Machine
end

section
/-! PROOFS. What keeps both invariants: the governor, the manifest unit, Obtur, stream, journal, array, ledger and posts. -/

namespace Sys2Proof.Machine

variable {I : Invariant} {s : State}

/-! The governor. -/

theorem updateReq_safe (h : Safe I s) : Safe I (updateReq s) := modGov_safe h
theorem setOpPoint_safe {op : BitVec 3} (h : Safe I s) : Safe I (setOp_ s op) := updateReq_safe (modClk_safe h)
theorem reasons_safe (h : Safe I s) : Safe I (reasons s) := modGov_safe h
theorem captureMark_safe (h : Safe I s) : Safe I (captureMark s) := .ite (modGov_safe h) h
theorem armMark_safe (h : Safe I s) : Safe I (armMark s) := modGov_safe h
theorem execGovCtrlMark_keeps : Keeps s (execGovCtrlMark s) := regCmd_keeps fun h => armMark_safe h
theorem beginWindow_safe {allow : Half} {own : Bool} (h : Safe I s) : Safe I (beginWindow s allow own) := reasons_safe (modGov_safe h)

theorem execAllowanceStrobe_keeps {allow : Half} : Keeps s (execAllowanceStrobe allow s) :=
  whenOn_keeps fun h => modGov_safe (beginWindow_safe h)

theorem execDefaultWindow_keeps : Keeps s (execDefaultWindow s) := whenOn_keeps fun h => beginWindow_safe h
theorem execMaskUpdate_keeps : Keeps s (execMaskUpdate s) := whenOn_keeps fun h => reasons_safe (modGov_safe h)

theorem execThermalChange_keeps {level : BitVec 2} : Keeps s (execThermalChange level s) :=
  whenOn_keeps fun h => reasons_safe (modLdg_safe (modGov_safe h))

theorem setDbgCap_safe {val : Word} (h : Safe I s) : Safe I (setDbgCap s val) := .ite (reasons_safe (modGov_safe h)) h
theorem execGovDbgWrite_keeps {val : Word} : Keeps s (execGovDbgWrite val s) := regCmd_keeps fun h => setDbgCap_safe h

theorem execPhase_keeps {f : CForm} : Keeps s (execPhase f s) := by
  unfold execPhase
  exact instr_keeps fun _ h => advance_safe (modGov_safe h)

theorem execPhaseBegin_keeps : Keeps s (execPhaseBegin s) := by
  unfold execPhaseBegin
  split
  · exact ⟨_, rfl, id⟩
  · exact whenOn_keeps fun h => reasons_safe (modGov_safe h)

theorem clearTariff_safe (h : Safe I s) : Safe I (clearTariff s) := modGov_safe h
theorem execGovCtrlTrfclr_keeps : Keeps s (execGovCtrlTrfclr s) := regCmd_keeps fun h => clearTariff_safe h
theorem execBudgetRequest_keeps : Keeps s (execBudgetRequest s) := whenOn_keeps fun h => modGov_safe h

theorem changeTrim_safe {up : Bool} (h : Safe I s) : Safe I (changeTrim s up) := by
  unfold changeTrim
  dsimp only
  split
  · exact h
  · exact .ite h (updateReq_safe (modLdg_safe h))

theorem execMarginReading_keeps {reading : Byte} : Keeps s (execMarginReading reading s) :=
  whenOn_keeps (fun h => .ite (changeTrim_safe (modLdg_safe (modGov_safe h))) (.ite (changeTrim_safe (modLdg_safe (modGov_safe h)))
    (modLdg_safe (modGov_safe h))))

theorem execOperatingPointNotice_keeps {opCode opn : BitVec 3} : Keeps s (execOperatingPointNotice opCode opn s) :=
  whenOn_keeps fun h => updateReq_safe (modClk_safe h)

/-! The manifest unit. -/

theorem regionsChange_safe {live : Tab Byte} {chg : Nat → Nat → Bool} (h : Safe I s) : Safe I (regionsChange s live chg) := modSec_safe h

theorem commit_safe {epoch : Word} (h : Safe I s) : Safe I (commit s epoch) :=
  lowerLevel_safe (regionsChange_safe (modJrnl_safe (modMem_safe rfl (modWgh_safe (modMan_safe h)))))

theorem makeLive_safe (h : Safe I s) : Safe I (makeLive s) :=
  lowerLevel_safe (regionsChange_safe (.ite (modWgh_safe (modMan_safe h)) (modMan_safe h)))

theorem secErr_safe {cause region : Nat} {ctx : BitVec 2} {user : Nat} (h : Safe I s) : Safe I (secErr s cause region ctx user) :=
  modSec_safe h

theorem tagFailure_safe {cause region : Nat} {ctx : BitVec 2} {user : Nat} (h : Safe I s) : Safe I (tagFailure s cause region ctx user) :=
  secErr_safe (modSec_safe h)

theorem loadFails_safe {e : LoadErr} (h : Safe I s) : Safe I (loadFails s e) := manErr_safe (modMan_safe h)

theorem finishLoad_safe {k n : Nat} (h : Safe I s) : Safe I (finishLoad s k n) := by
  unfold finishLoad
  dsimp only
  split
  · exact loadFails_safe (touchRead_safe h)
  · exact tagZeroise_safe (raise_safe (tagFailure_safe (loadFails_safe (touchRead_safe h))))
  · exact .ite (modMan_safe (touchRead_safe h)) (makeLive_safe (modMan_safe (touchRead_safe h)))

theorem startLoad_safe (h : Safe I s) : Safe I (startLoad s).1 := by
  unfold startLoad
  split
  · exact manErr_safe h
  · exact modMan_safe h

theorem armWith_safe {e : Word} (h : Safe I s) : Safe I (armWith s e).1 := by
  unfold armWith
  split
  · exact manErr_safe h
  · split
    · exact manErr_safe h
    · exact modMan_safe h

theorem putShadow_safe {w : ShadowWr} (h : Safe I s) : Safe I (putShadow s w) := modMan_safe h
theorem shadowWr_safe {w : ShadowWr} (h : Safe I s) : Safe I (shadowWr s w) := .ite (putShadow_safe h) (modMan_safe h)

theorem copyDone_safe (h : Safe I s) : Safe I (copyDone s) := by
  unfold copyDone
  dsimp only
  split
  · exact .foldl (fun _ _ ht => putShadow_safe ht) (modMan_safe h)
  · exact modMan_safe (.foldl (fun _ _ ht => putShadow_safe ht) (modMan_safe h))

theorem discardLive_safe (h : Safe I s) : Safe I (discardLive s) := modMan_safe h

/-! Obtur. -/

theorem modRg_safe {c : BitVec 2} {g : BitVec 6} {f : RgState → RgState} (h : Safe I s) : Safe I (modRg s c g f) := modSec_safe h

theorem markWritten_safe {stepBound : Bool} {c : BitVec 2} {g : BitVec 6} {block : Dword} (h : Safe I s) :
    Safe I (markWritten s stepBound c g block) := .ite (modRg_safe h) (modRg_safe (modRg_safe h))

theorem restartRegion_safe {c : BitVec 2} {g : BitVec 6} (h : Safe I s) : Safe I (restartRegion s c g) := .ite h (modRg_safe h)
theorem restartSteps_safe (h : Safe I s) : Safe I (restartSteps s) := modSec_safe h
theorem clearRegions_safe (h : Safe I s) : Safe I (clearRegions s) := modSec_safe h
theorem doRekey_safe {key : BitVec 256} {id : Word} (h : Safe I s) : Safe I (doRekey s key id) := restartSteps_safe (modSec_safe h)
theorem stepEpoch_safe (h : Safe I s) : Safe I (stepEpoch s) := restartSteps_safe (modSec_safe h)
theorem commitEpoch_safe (h : Safe I s) : Safe I (commitEpoch s) := modSec_safe h
theorem rollbackEpoch_safe (h : Safe I s) : Safe I (rollbackEpoch s) := modSec_safe h

theorem noteRefusal_safe {secCause : Nat} {g : BitVec 6} {c : BitVec 2} {user : Nat} {write : Bool} (h : Safe I s) :
    Safe I (noteRefusal s secCause g c user write) := .ite (.ite (modSec_safe h) h) (secErr_safe (.ite (modSec_safe h) h))

/-! The stream port outbound. -/

theorem strDerr_safe {cause fn : Nat} {g : BitVec 6} {c : BitVec 2} {u : StrUser} (h : Safe I s) : Safe I (strDerr s cause fn g c u) :=
  modStr_safe h

theorem newJob_safe {id : Nat} {u : StrUser} {k : StrKind} {c : BitVec 2} {g : BitVec 6} {blk addr n : Nat}
    {data : Option (List Byte)} {att : Option (BitVec 6)} (h : Safe I s) :
    Safe I (newJob s id u k c g blk addr n data att) := modStr_safe h

theorem strFail_safe {ent : QEntry} {k : StrKind} {fn cause : Nat} (h : Safe I s) : Safe I (strFail s ent k fn cause) := by
  unfold strFail
  dsimp only
  split
  · exact failQueue_safe (raise_safe (noteRefusal_safe (strDerr_safe h)))
  · exact dispatchFail_safe (strDerr_safe h)

theorem strOp_keeps {k : StrKind} {fn : Nat} : Keeps s (strOp s k fn) :=
  dispatch_keeps (fun _ _ h => .ite (strFail_safe h) (newJob_safe (.ite (modInfl_safe (putInfl_safe h)) (putInfl_safe h))))

theorem execStrGet_keeps : Keeps s (execStrGet s) := strOp_keeps
theorem execStrPut_keeps : Keeps s (execStrPut s) := strOp_keeps
theorem execStrRput_keeps : Keeps s (execStrRput s) := strOp_keeps
theorem execStreamCredit_keeps : Keeps s (execStreamCredit s) := whenOn_keeps fun h => modStr_safe h
theorem sthClear_safe (h : Safe I s) : Safe I (sthClear s) := .ite (restartRegion_safe (modSth_safe h)) (modSth_safe h)
theorem sthSettle_safe (h : Safe I s) : Safe I (sthSettle s) := .ite (sthClear_safe h) h
theorem settleCopy_safe (h : Safe I s) : Safe I (settleCopy s) := modJrnl_safe h
theorem dropCopy_safe {j : StrJob} (h : Safe I s) : Safe I (dropCopy s j) := settleCopy_safe (modJrnl_safe (modStr_safe h))

theorem endJob_safe {j : StrJob} (h : Safe I s) : Safe I (endJob s j) := by
  unfold endJob
  dsimp only
  split
  · exact markDone_safe (modStr_safe h)
  · exact sthSettle_safe (.ite (.ite (modSth_safe (modStr_safe h)) (modStr_safe h)) (markDone_safe (.ite (modSth_safe (modStr_safe h))
      (modStr_safe h))))
  · exact .ite (markDone_safe (modStr_safe h)) (modStr_safe h)
  · exact settleCopy_safe (modJrnl_safe (modStr_safe h))

theorem putJob_safe {old new : StrJob} (h : Safe I s) : Safe I (putJob s old new) := .ite (endJob_safe (modStr_safe h)) (modStr_safe h)

theorem killJob_safe {j : StrJob} (h : Safe I s) : Safe I (killJob s j) :=
  .ite (endJob_safe (.ite (dropCopy_safe h) (modStr_safe h))) (.ite (dropCopy_safe h) (modStr_safe h))

theorem refuseJob_safe {j : StrJob} {cause fault secCause : Nat} (h : Safe I s) : Safe I (refuseJob s j cause fault secCause) :=
  killJob_safe (.ite (failQueue_safe (.ite (raise_safe (.ite (raise_safe (noteRefusal_safe (strDerr_safe h))) (noteRefusal_safe
    (strDerr_safe h)))) (.ite (raise_safe (noteRefusal_safe (strDerr_safe h))) (noteRefusal_safe (strDerr_safe h))))) (.ite (raise_safe
    (.ite (raise_safe (noteRefusal_safe (strDerr_safe h))) (noteRefusal_safe (strDerr_safe h)))) (.ite (raise_safe (noteRefusal_safe
    (strDerr_safe h))) (noteRefusal_safe (strDerr_safe h)))))

theorem issueRead_safe {j : StrJob} (h : Safe I s) : Safe I (issueRead s j) := by
  unfold issueRead
  split
  · exact refuseJob_safe h
  · exact putJob_safe (spend_safe (with_free_safe (modStr_safe h)))

theorem issueWrite_safe {j : StrJob} (h : Safe I s) : Safe I (issueWrite s j) := by
  unfold issueWrite
  split
  · exact refuseJob_safe h
  · exact putJob_safe (spend_safe (with_free_safe (modStr_safe (modSec_safe (markWritten_safe (touchSpans_safe h))))))

theorem execPacketIssue_keeps : Keeps s (execPacketIssue s) := by
  unfold execPacketIssue
  split
  · split
    · exact ⟨_, rfl, id⟩
    · split
      · exact ⟨_, rfl, fun h => spend_safe (modStr_safe h)⟩
      · split
        · exact ⟨_, rfl, id⟩
        · refine ⟨_, rfl, ?_⟩
          intro _ h
          refine unstall_safe ?_
          split
          · exact issueRead_safe (modStr_safe h)
          · exact issueWrite_safe (modStr_safe h)
  · split
    · exact ⟨_, rfl, id⟩
    · split
      · exact ⟨_, rfl, fun h => spend_safe (modStr_safe h)⟩
      · split
        · exact ⟨_, rfl, id⟩
        · refine ⟨_, rfl, ?_⟩
          intro _ h
          refine unstall_safe ?_
          split
          · exact issueRead_safe (modStr_safe h)
          · exact issueWrite_safe (modStr_safe h)

/-! The journal. -/

theorem creditXin_safe {addr ent beat : Nat} {data : List Byte} (h : Safe I s) : Safe I (creditXin s addr ent beat data) := modJrnl_safe h

theorem creditSin_safe {addr region : Nat} {rput : Bool} {block : Nat} {data : List Byte} (h : Safe I s) :
    Safe I (creditSin s addr region rput block data) := modJrnl_safe h

theorem creditArr_safe {field : BitVec 2} {ident : Nat} {data : List Byte} (h : Safe I s) : Safe I (creditArr s field ident data) :=
  modJrnl_safe h

theorem creditArrival_safe {close : Bool} (h : Safe I s) : Safe I (creditArrival s close) := modJrnl_safe h
theorem creditRelease_safe (h : Safe I s) : Safe I (creditRelease s) := modJrnl_safe h
theorem replayEnd_safe (h : Safe I s) : Safe I (replayEnd s) := modJrnl_safe h
theorem noRecord_safe (h : Safe I s) : Safe I (noRecord s) := replayEnd_safe (modJrnl_safe h)
theorem dropOverrun_safe {k : Nat} (h : Safe I s) : Safe I (dropOverrun s k) := .foldl (fun _ _ ht => .ite (killJob_safe ht) ht) h

theorem startCopy_safe {stages : List Dword} {epoch : Word} (h : Safe I s) : Safe I (startCopy s stages epoch) :=
  .ite (modJrnl_safe (.ite (restartRegion_safe (modJrnl_safe h)) h)) (.ite (modJrnl_safe (strDerr_safe (.ite (restartRegion_safe
    (modJrnl_safe h)) h))) (newJob_safe (modJrnl_safe (with_opId_safe (.ite (restartRegion_safe (modJrnl_safe h)) h)))))

theorem putRecord_safe {r : JRec} (h : Safe I s) : Safe I (putRecord s r) :=
  .ite (startCopy_safe (modJrnl_safe (memWr_safe (dropOverrun_safe h)))) (modJrnl_safe (memWr_safe (dropOverrun_safe h)))

theorem writeRecord_safe (h : Safe I s) : Safe I (writeRecord s) := .ite (modJrnl_safe (modJrnl_safe h)) (putRecord_safe (modJrnl_safe h))

theorem putRecords_safe (h : Safe I s) : Safe I (putRecords s) :=
  .ite (.foldl (fun _ _ ht => putRecord_safe ht) (modJrnl_safe h)) (modJrnl_safe h)

theorem compareRecord_safe (h : Safe I s) : Safe I (compareRecord s) :=
  .ite (replayEnd_safe (.ite (modJrnl_safe (modJrnl_safe h)) (.ite (touchRead_safe (modJrnl_safe h)) (.ite (modJrnl_safe (touchRead_safe
    (modJrnl_safe h))) (.ite (raise_safe (modJrnl_safe (touchRead_safe (modJrnl_safe h)))) (modJrnl_safe (touchRead_safe
    (modJrnl_safe h)))))))) (.ite (modJrnl_safe (modJrnl_safe h)) (.ite (touchRead_safe (modJrnl_safe h)) (.ite (modJrnl_safe
    (touchRead_safe (modJrnl_safe h))) (.ite (raise_safe (modJrnl_safe (touchRead_safe (modJrnl_safe h)))) (modJrnl_safe (touchRead_safe
    (modJrnl_safe h)))))))

theorem finishRecord_safe (h : Safe I s) : Safe I (finishRecord s) :=
  .ite (noRecord_safe h) (.ite (.ite (replayEnd_safe (modJrnl_safe h)) (modJrnl_safe h)) (.ite (compareRecord_safe h) (writeRecord_safe h)))

theorem armReplay_safe (h : Safe I s) : Safe I (armReplay s) :=
  .ite (modJrnl_safe h) (modJrnl_safe (.ite (wghRestore_safe (modCore_safe h)) (modCore_safe h)))

theorem execJrnlCtrlReplay_keeps : Keeps s (execJrnlCtrlReplay s) := regCmd_keeps fun h => armReplay_safe h
theorem cancelReplay_safe (h : Safe I s) : Safe I (cancelReplay s) := .ite (modJrnl_safe (replayEnd_safe h)) h
theorem execJrnlCtrlCancel_keeps : Keeps s (execJrnlCtrlCancel s) := regCmd_keeps fun h => cancelReplay_safe h

/-! The drover array. -/

theorem arrDerr_safe {addr : Addr} {cause fn : Nat} {string : BitVec 6} (h : Safe I s) : Safe I (arrDerr s addr cause fn string) :=
  modArr_safe h

theorem loadCells_safe {i : Nat} {d : ArrDesc} {item : Nat} (h : Safe I s) : Safe I (loadCells s i d item) := modArr_safe h
theorem loadFeeds_safe (h : Safe I s) : Safe I (loadFeeds s) := modArr_safe h

theorem touchFeeds_safe {sp : List (Nat × Nat)} (h : Safe I s) : Safe I (touchFeeds s sp) :=
  modMem_safe rfl (.foldl (fun _ _ ht => serve_safe ht) (spend_safe (.foldl (fun _ _ ht => eccRdOne_safe ht) h)))

theorem countMac_safe {n : Nat} (h : Safe I s) : Safe I (countMac s n) := modLdg_safe (modArr_safe h)

/-! Array scheduling. -/

theorem arrFail_safe {ent : QEntry} {fn cause : Nat} (h : Safe I s) : Safe I (arrFail s ent fn cause) := dispatchFail_safe (arrDerr_safe h)

theorem departStr_safe {i : Nat} {why : DepCause} (h : Safe I s) : Safe I (departStr s i why) := by
  unfold departStr
  split
  · exact h
  · exact modArr_safe h

theorem arrOp_keeps {conv : Bool} {fn : Nat} : Keeps s (arrOp s conv fn) := by
  unfold arrOp
  refine dispatchMem_keeps ?_
  intro _ _ _ h
  dsimp only
  split
  · exact arrFail_safe (touchSpans_safe h)
  · exact modArr_safe (putInfl_safe (departStr_safe (touchSpans_safe h)))

theorem execArrMm_keeps : Keeps s (execArrMm s) := arrOp_keeps
theorem execArrConv_keeps : Keeps s (execArrConv s) := arrOp_keeps

theorem carDepart_safe (h : Safe I s) : Safe I (carDepart s) := by
  unfold carDepart
  split
  · exact h
  · refine .ite h ?_
    split
    · exact h
    · exact departStr_safe h

theorem execArrCar_keeps : Keeps s (execArrCar s) := by
  unfold execArrCar
  refine .of_safe (t := carDepart s) (fun h => carDepart_safe h) (dispatchMem_keeps ?_)
  intro _ _ _ h
  dsimp only
  split
  · exact arrFail_safe (touchSpans_safe h)
  · refine .ite (modArr_safe ?_) (.ite (modArr_safe ?_) (.ite (modArr_safe ?_) ?_)) <;>
      (split <;> exact modArr_safe (putInfl_safe (touchSpans_safe h)))

theorem execCaravanDeadline_keeps {i : BitVec 6} : Keeps s (execCaravanDeadline i s) := whenOn_keeps fun h => departStr_safe h
theorem execArrFlush_keeps : Keeps s (execArrFlush s) := dispatch_keeps fun _ _ h => putInfl_safe (modArr_safe h)
theorem withScales_safe {l : List Byte} (h : Safe I s) : Safe I (withScales s l) := modWgh_safe h
theorem execArrList_keeps : Keeps s (execArrList s) := dispatch_keeps fun _ _ h => .ite (arrFail_safe h) (modArr_safe (putInfl_safe h))
theorem setOp_safe {id : Nat} {f : ArrOp → ArrOp} (h : Safe I s) : Safe I (setOp s id f) := modArr_safe h

theorem runItem_safe {i : Nat} {o : ArrOp} {d : ArrDesc} {addr item pos : Nat} {tag : Byte} {last : Bool} {lead : Nat} (h : Safe I s) :
    Safe I (runItem s i o d addr item pos tag last lead) :=
  progress_safe (spend_safe (countMac_safe (with_free_safe (modArr_safe (loadFeeds_safe (loadCells_safe (touchFeeds_safe h)))))))

theorem runOwn_safe {i : Nat} {o : ArrOp} {q lead : Nat} (h : Safe I s) : Safe I (runOwn s i o q lead) := runItem_safe h

theorem execItemClaim_keeps {i : BitVec 6} : Keeps s (execItemClaim i s) := by
  unfold execItemClaim
  split
  · exact ⟨_, rfl, id⟩
  · exact whenMem_keeps fun h => runOwn_safe (setOp_safe h)

theorem execItemSteal_keeps {i : BitVec 6} : Keeps s (execItemSteal i s) := by
  unfold execItemSteal
  split
  · exact ⟨_, rfl, id⟩
  · exact whenMem_keeps fun h => modArr_safe (runOwn_safe (setOp_safe h))

theorem settleOp_safe {id : Nat} (h : Safe I s) : Safe I (settleOp s id) := by
  unfold settleOp
  split
  · exact h
  · exact .ite h (.ite (markDone_safe (modArr_safe h)) (.foldl (fun _ _ ht => modInfl_safe ht) (modArr_safe h)))

theorem listFail_safe {o : ArrOp} {addr cause : Nat} (h : Safe I s) : Safe I (listFail s o addr cause) :=
  settleOp_safe (failQueue_safe (raise_safe (arrDerr_safe (modArr_safe (setOp_safe h)))))

theorem execListEntryClaim_keeps {i : BitVec 6} : Keeps s (execListEntryClaim i s) := by
  unfold execListEntryClaim
  split
  · exact ⟨_, rfl, id⟩
  · refine whenMem_keeps ?_
    intro _ h
    dsimp only
    split
    · exact unstall_safe (listFail_safe (modArr_safe (touchSpans_safe h)))
    · exact runItem_safe (.ite (modArr_safe (setOp_safe (modArr_safe (touchSpans_safe h)))) (setOp_safe (modArr_safe (touchSpans_safe h))))

theorem accumulate_safe {b : Bale} {vals : List Word} (h : Safe I s) : Safe I (accumulate s b vals) :=
  memWrJoined_safe (.foldlOf Emit.s (fun _ _ ht => putElem_safe ht) (touchSpans_safe h))

theorem drainAcc_safe {b : Bale} {vals : List Word} (h : Safe I s) : Safe I (drainAcc s b vals) := creditArr_safe (accumulate_safe h)

theorem drainQueue_safe {b : Bale} {vals : List Word} (h : Safe I s) : Safe I (drainQueue s b vals) :=
  creditArr_safe (modArr_safe (.ite (observe_safe h) h))

theorem execBaleDrain_keeps : Keeps s (execBaleDrain s) := by
  unfold execBaleDrain
  split
  · exact ⟨_, rfl, id⟩
  · exact whenMem_keeps (fun h => progress_safe (settleOp_safe (setOp_safe (.ite (drainAcc_safe (modArr_safe (touchSpans_safe h)))
      (drainQueue_safe (modArr_safe (touchSpans_safe h)))))))

theorem popBale_safe {b : QBale} (h : Safe I s) : Safe I (popBale s b) := modArr_safe h

/-! Loads, stores and branches. -/

theorem execLdd_keeps {f : IForm} : Keeps s (execLdd f s) := load_keeps
theorem execLdw_keeps {f : IForm} : Keeps s (execLdw f s) := load_keeps
theorem execLdwu_keeps {f : IForm} : Keeps s (execLdwu f s) := load_keeps
theorem execLds_keeps {f : IForm} : Keeps s (execLds f s) := load_keeps
theorem execLdsu_keeps {f : IForm} : Keeps s (execLdsu f s) := load_keeps
theorem execLdb_keeps {f : IForm} : Keeps s (execLdb f s) := load_keeps
theorem execLdbu_keeps {f : IForm} : Keeps s (execLdbu f s) := load_keeps
theorem execStd_keeps {f : IForm} : Keeps s (execStd f s) := store_keeps
theorem execStw_keeps {f : IForm} : Keeps s (execStw f s) := store_keeps
theorem execSts_keeps {f : IForm} : Keeps s (execSts f s) := store_keeps
theorem execStb_keeps {f : IForm} : Keeps s (execStb f s) := store_keeps
theorem execBr_keeps {f : BForm} : Keeps s (execBr f s) := instr_keeps fun _ h => .ite (jumpTo_safe h) (advance_safe h)
theorem execJal_keeps {f : JForm} : Keeps s (execJal f s) := instr_keeps fun _ h => jumpTo_safe (wrReg_safe h)
theorem execJalr_keeps {f : IForm} : Keeps s (execJalr f s) := instr_keeps fun _ h => jumpTo_safe (wrReg_safe h)

/-! The ledger. -/

theorem execLedgerTick_keeps : Keeps s (execLedgerTick s) :=
  ⟨_, rfl, fun h => .ite (modGov_safe (spend_safe (modClk_safe (modLdg_safe h)))) (modClk_safe (modLdg_safe h))⟩

theorem putWallofs_safe {val : Dword} (h : Safe I s) : Safe I (putWallofs s val) := modLdg_safe h
theorem execLdgWallofsWrite_keeps {val : Dword} : Keeps s (execLdgWallofsWrite val s) := ldgCmd_keeps fun h => putWallofs_safe h
theorem capture_safe (h : Safe I s) : Safe I (capture s) := modLdg_safe h
theorem reqSnap_safe (h : Safe I s) : Safe I (reqSnap s) := modLdg_safe h
theorem execLdgCtrlSnap_keeps : Keeps s (execLdgCtrlSnap s) := ldgCmd_keeps fun h => reqSnap_safe h
theorem execSnapshotCapture_keeps : Keeps s (execSnapshotCapture s) := ⟨_, rfl, fun h => .ite (capture_safe h) h⟩
theorem execAutoSnapshot_keeps : Keeps s (execAutoSnapshot s) := ⟨_, rfl, fun h => .ite h (capture_safe h)⟩
theorem execSaveWord_keeps : Keeps s (execSaveWord s) := ⟨_, rfl, fun h => .ite (modLdg_safe h) h⟩
theorem restoreErr_safe {cause : Nat} (h : Safe I s) : Safe I (restoreErr s cause) := modLdg_safe h
theorem restore_safe (h : Safe I s) : Safe I (restore s) := updateReq_safe (modLdg_safe h)
theorem tryRestore_safe (h : Safe I s) : Safe I (tryRestore s) := .ite (restoreErr_safe h) (.ite (restoreErr_safe h) (restore_safe h))
theorem execLdgCtrlRestore_keeps : Keeps s (execLdgCtrlRestore s) := ldgCmd_keeps fun h => tryRestore_safe h
theorem execRestoreGo_keeps : Keeps s (execRestoreGo s) := ⟨_, rfl, fun h => tryRestore_safe h⟩
theorem newPart_safe (h : Safe I s) : Safe I (newPart s) := .ite (restoreErr_safe h) (modLdg_safe h)
theorem execLdgCtrlInit_keeps : Keeps s (execLdgCtrlInit s) := ldgCmd_keeps fun h => newPart_safe h
theorem putRbuf_safe {i : Nat} {d : Word} (h : Safe I s) : Safe I (putRbuf s i d) := .ite (modLdg_safe h) h
theorem execRestoreWord_keeps {w : BitVec 6} {d : Word} : Keeps s (execRestoreWord w d s) := ⟨_, rfl, fun h => putRbuf_safe h⟩

/-! The post engine. -/

theorem putStatus_safe {q w : Nat} (h : Safe I s) : Safe I (putStatus s q w) := memWr_safe h
theorem clearStatus_safe (h : Safe I s) : Safe I (clearStatus s) := .foldl (fun _ _ ht => putStatus_safe ht) h

theorem clearMbox_safe (h : Safe I s) : Safe I (clearMbox s) :=
  .ite (modPst_safe h) (.ite (await_safe h) (modPst_safe (.ite (clearStatus_safe h) h)))

theorem pstDerr_safe {cause fn : Nat} {ent : QEntry} (h : Safe I s) : Safe I (pstDerr s cause fn ent) := modPst_safe h
theorem pstFail_safe {ent : QEntry} {fn cause : Nat} (h : Safe I s) : Safe I (pstFail s ent fn cause) := dispatchFail_safe (pstDerr_safe h)

theorem execPstSend_keeps : Keeps s (execPstSend s) :=
  dispatchMem_keeps fun _ _ h => .ite (pstFail_safe h) (modPst_safe (putInfl_safe (touchRead_safe h)))

theorem pstWord_keeps {fn : Nat} {empty : Nat → Bool} {f : Nat → Nat} : Keeps s (pstWord s fn empty f) :=
  dispatchMem_keeps (fun _ _ h => .ite (pstFail_safe (.ite (touchRead_safe h) h)) (putStatus_safe (putInfl_safe (.ite
    (touchRead_safe h) h))))

theorem execPstAck_keeps : Keeps s (execPstAck s) := pstWord_keeps
theorem execPstOpen_keeps : Keeps s (execPstOpen s) := pstWord_keeps
theorem execPstClose_keeps : Keeps s (execPstClose s) := pstWord_keeps
theorem execPostCredit_keeps : Keeps s (execPostCredit s) := whenOn_keeps fun h => modPst_safe h
theorem sendMsg_safe {i : Nat} {m : PstMsg} (h : Safe I s) : Safe I (sendMsg s i m) := spend_safe (modPst_safe h)

theorem execPostTransmit_keeps {i : BitVec 2} : Keeps s (execPostTransmit i s) := by
  unfold execPostTransmit
  split
  · exact ⟨_, rfl, id⟩
  · exact whenOn_keeps fun h => progress_safe (sendMsg_safe h)

theorem execPostResend_keeps {i : BitVec 2} : Keeps s (execPostResend i s) := by
  unfold execPostResend
  split
  · exact ⟨_, rfl, id⟩
  · exact whenOn_keeps fun h => modPst_safe (sendMsg_safe h)

theorem postDone_safe {m : PstMsg} {code : Dword} (h : Safe I s) : Safe I (postDone s m code) := markDone_safe (setWb_safe (modPst_safe h))

theorem execPostResponse_keeps {x0 : Dword} : Keeps s (execPostResponse x0 s) := by
  unfold execPostResponse
  split
  · exact ⟨_, rfl, id⟩
  · refine whenOn_keeps ?_
    intro _ h
    split
    · exact modPst_safe (postDone_safe (spend_safe (with_free_safe h)))
    · exact modPst_safe (spend_safe (with_free_safe h))
    · exact modPst_safe (postDone_safe (spend_safe (with_free_safe h)))
    · exact h

theorem answer_safe {x1 : Dword} {code : Nat} (h : Safe I s) : Safe I (answer s x1 code) := spend_safe (modPst_safe h)
theorem freeMsg_safe (h : Safe I s) : Safe I (freeMsg s) := modPst_safe h

theorem fileMsg_safe {x1 : Dword} {payload : BitVec 512} (h : Safe I s) : Safe I (fileMsg s x1 payload) :=
  .ite (answer_safe (putStatus_safe h)) (.ite (answer_safe h) (.ite (answer_safe h) (answer_safe (putStatus_safe (memWr_safe
    (memWr_safe h))))))

theorem takeMsg_safe {x1 : Dword} {payload : BitVec 512} (h : Safe I s) : Safe I (takeMsg s x1 payload) :=
  freeMsg_safe (.ite (answer_safe h) (.ite (answer_safe h) (fileMsg_safe (touchRead_safe h))))

theorem execInboundMessage_keeps {x0 : Dword} {payload : BitVec 512} : Keeps s (execInboundMessage x0 payload s) :=
  whenOn_keeps fun h => .ite (modPst_safe (spend_safe h)) (takeMsg_safe (spend_safe h))

theorem pstResume_safe (h : Safe I s) : Safe I (pstResume s) := by
  unfold pstResume
  split
  · exact h
  · exact .ite h (takeMsg_safe (modPst_safe h))

end Sys2Proof.Machine
end

section
/-! PROOFS. What keeps both invariants: Factor, stash, inbound stream, exchange, stage, vector engine, weigher functions and retirement. -/

namespace Sys2Proof.Machine

variable {I : Invariant} {s : State}

/-! The Factor. -/

theorem modFacCtx_safe {c : BitVec 2} {f : FacCtx → FacCtx} (h : Safe I s) : Safe I (modFacCtx s c f) := modFac_safe h
theorem facDerr_safe {a : Dword} {cause fn : Nat} (h : Safe I s) : Safe I (facDerr s a cause fn) := modFac_safe h
theorem facFail_safe {ent : QEntry} {fn cause : Nat} (h : Safe I s) : Safe I (facFail s ent fn cause) := dispatchFail_safe (facDerr_safe h)

theorem execFacStep_keeps : Keeps s (execFacStep s) :=
  dispatch_keeps (fun _ _ h => .ite (facFail_safe h) (.ite (markDone_safe (raise_safe (strDerr_safe (putInfl_safe (.ite (stepEpoch_safe
    (modJrnl_safe (modFac_safe (modFacCtx_safe h)))) (modJrnl_safe (modFac_safe (modFacCtx_safe h)))))))) (newJob_safe (putInfl_safe (.ite
    (stepEpoch_safe (modJrnl_safe (modFac_safe (modFacCtx_safe h)))) (modJrnl_safe (modFac_safe (modFacCtx_safe h))))))))

theorem facLand_safe {i : Nat} {bs : List Byte} (h : Safe I s) : Safe I (facLand s i bs) := modFac_safe h

theorem execScheduleGroupEval_keeps : Keeps s (execScheduleGroupEval s) := by
  unfold execScheduleGroupEval
  split
  · exact ⟨_, rfl, id⟩
  · dsimp only
    split
    · exact ⟨_, rfl, id⟩
    · exact whenOn_keeps fun h => .ite (markDone_safe (modFac_safe (modFacCtx_safe h))) (modFac_safe (modFacCtx_safe h))

theorem execFacP1_keeps : Keeps s (execFacP1 s) :=
  dispatchMem_keeps (fun _ _ h => .ite (facFail_safe (touchSpans_safe h)) (putInfl_safe (modFacCtx_safe (touchSpans_safe
    (touchSpans_safe h)))))

theorem execFacToken_keeps : Keeps s (execFacToken s) := dispatch_keeps fun _ _ h => .ite (facFail_safe h) (putInfl_safe h)

theorem p2Weights_safe {ent : QEntry} {x2 : FacCtx} {wl : Layout} {ys : List Updated} (h : Safe I s) : Safe I (p2Weights s ent x2 wl ys).s :=
  .foldlOf Emit.s (fun _ _ ht => putElem_safe ht) h

theorem p2Update_safe {ent : QEntry} (h : Safe I s) : Safe I (p2Update s ent) :=
  modInfl_safe (putInfl_safe (modFac_safe (modFacCtx_safe (p2Weights_safe (touchSpans_safe h)))))

theorem execFacP2_keeps : Keeps s (execFacP2 s) :=
  dispatchMem_keeps (fun _ _ h => .ite (.ite (facFail_safe h) (.ite (raise_safe (putInfl_safe (modFacCtx_safe h))) (putInfl_safe
    (modFacCtx_safe h)))) (.ite (facFail_safe (touchSpans_safe h)) (p2Update_safe (touchSpans_safe h))))

theorem execFacCommit_keeps : Keeps s (execFacCommit s) := dispatch_keeps fun _ _ h => .ite (facFail_safe h) (putInfl_safe (modFac_safe h))
theorem execFacCnt_keeps : Keeps s (execFacCnt s) := dispatch_keeps fun _ _ h => .ite (facFail_safe h) (putInfl_safe h)

theorem facRetire_safe {i : Infl} (h : Safe I s) : Safe I (facRetire s i) := by
  unfold facRetire
  refine .ite (.ite (modFacCtx_safe h) h) ?_
  split
  · exact h
  · exact .ite (modFac_safe (modFacCtx_safe (modFac_safe h))) (.ite (commitEpoch_safe (modJrnl_safe (modFac_safe (modFacCtx_safe
      (modFac_safe h))))) (modJrnl_safe (modFac_safe (modFacCtx_safe (modFac_safe h)))))

theorem rollback_safe {mask : BitVec 4} (h : Safe I s) : Safe I (rollback s mask) :=
  .foldl (fun _ _ ht => .ite (.ite (.ite (rollbackEpoch_safe (modFacCtx_safe ht)) (modFacCtx_safe ht)) (modFac_safe ht)) ht) h

theorem execFacCtrlRollback_keeps {mask : BitVec 4} : Keeps s (execFacCtrlRollback mask s) := regCmd_keeps fun h => rollback_safe h

/-! The stash mover. -/

theorem setEnt_safe {id : Nat} {e : StEnt} (h : Safe I s) : Safe I (setEnt s id e) := modSth_safe h
theorem sthErr_safe {cause fn id : Nat} (h : Safe I s) : Safe I (sthErr s cause fn id) := modSth_safe h
theorem sthRefused_safe {cause fn : Nat} (h : Safe I s) : Safe I (sthRefused s cause fn) := raise_safe (strDerr_safe h)

theorem depotWrite_safe {opId id : Nat} {ws : List Writes} (h : Safe I s) : Safe I (depotWrite s opId id ws) :=
  modSth_safe (with_free_safe (setEnt_safe (newJob_safe (.ite (touchRead_safe h) (serve_safe (spend_safe h))))))

theorem unplace_safe {id : Nat} (h : Safe I s) : Safe I (unplace s id) := modSth_safe h

theorem evict_safe {opId : Nat} (h : Safe I s) : Safe I (evict s opId).1 := by
  unfold evict
  split
  · exact h
  · dsimp only
    split
    · exact h
    · split
      · exact unplace_safe (setEnt_safe h)
      · split
        · split
          · exact h
          · exact modSth_safe (unplace_safe (setEnt_safe (depotWrite_safe h)))
        · split
          · exact modSth_safe (unplace_safe (setEnt_safe h))
          · exact h

theorem placeGo_safe {k opId n : Nat} (h : Safe I s) : Safe I (placeGo k s opId n).1 := by
  induction k generalizing s with
  | zero => exact h
  | succ k ih =>
    have he : Safe I (evict s opId).1 := evict_safe h
    unfold placeGo
    split
    · exact h
    · split <;> rename_i heq <;> rw [heq] at he
      · exact ih he
      · exact he
      · exact sthRefused_safe he

theorem place_safe {opId n : Nat} (h : Safe I s) : Safe I (place s opId n).1 := placeGo_safe h

theorem makeLocal_safe {id line : Nat} {e : StEnt} (h : Safe I s) : Safe I (makeLocal s id line e) :=
  modSth_safe (modSth_safe (setEnt_safe h))

theorem sthFull_safe {fn id : Nat} (h : Safe I s) : Safe I (sthFull s fn id) := failQueue_safe (raise_safe (modSth_safe (sthErr_safe h)))
theorem sthOver_safe {opId : Nat} (h : Safe I s) : Safe I (sthOver s opId) := .ite h (markDone_safe h)

theorem sthFail_safe {ent : QEntry} {fn cause id : Nat} (h : Safe I s) : Safe I (sthFail s ent fn cause id) :=
  dispatchFail_safe (sthErr_safe h)

theorem putData_safe {e : StEnt} {line : Nat} {l : Layout} {step : BitVec 48} (h : Safe I s) : Safe I (putData s e line l step).s := by
  unfold putData
  dsimp only
  split
  · exact copyTensor_safe (touchLayout_safe h)
  · exact putTensor_safe (touchLayout_safe h)

theorem touchAt_safe {b : Nat} (h : Safe I s) : Safe I (touchAt s b) := .ite (touchDescr_safe h) h
theorem notePeak_safe {ent : QEntry} (h : Safe I s) : Safe I (notePeak s ent) := modSth_safe h

theorem putSpill_safe {op id : Nat} {e : StEnt} {ws : List Writes} (h : Safe I s) : Safe I (putSpill s op id e ws) := by
  unfold putSpill
  split
  · exact h
  · exact .ite (sthRefused_safe h) (depotWrite_safe h)

theorem execSthPut_keeps : Keeps s (execSthPut s) := by
  refine dispatchMem_keeps ?_
  intro I ent s h
  have hu : Safe I (putInfl (touchAt s ent.b.toNat) eSTH ent none false) := putInfl_safe (touchAt_safe h)
  have hp : Safe I (place (putInfl (touchAt s ent.b.toNat) eSTH ent none false)
      (touchAt s ent.b.toNat).opId ent.fs.toNat).1 := place_safe hu
  refine .ite (sthFail_safe (touchAt_safe h)) (.ite (markDone_safe (modSth_safe (notePeak_safe (setEnt_safe hu)))) ?_)
  split <;> rename_i heq <;> rw [heq] at hp
  · exact sthOver_safe (sthFull_safe hp)
  · exact sthOver_safe hp
  · exact sthOver_safe (putSpill_safe (giveWr_safe (putData_safe (makeLocal_safe (notePeak_safe hp)))))

theorem getData_safe {mem : List Host.Cell} {e : StEnt} {base : Nat} {l : Layout} {step : BitVec 48}
    {have_ : Nat → Nat → Bool} (h : Safe I s) :
    Safe I (getData s mem e base l step have_).s := by
  unfold getData
  dsimp only
  split
  · exact copyTensor_safe h
  · exact putTensor_safe h

theorem depotRead_safe {opId id : Nat} {e : StEnt} {dst : Option Layout} {line : Nat} {step : BitVec 48} (h : Safe I s) :
    Safe I (depotRead s opId id e dst line step) := .ite (sthRefused_safe h) (modSth_safe (newJob_safe h))

theorem execSthGet_keeps : Keeps s (execSthGet s) := by
  refine dispatchMem_keeps ?_
  intro I ent s h
  dsimp only
  have ht : Safe I (if getReads s ent then touchAt s ent.b.toNat else s) := .ite (touchAt_safe h) h
  generalize (if getReads s ent then touchAt s ent.b.toNat else s) = t at ht ⊢
  have hu : Safe I (putInfl t eSTH ent none false) := putInfl_safe ht
  have hp (n : Nat) : Safe I (place (putInfl t eSTH ent none false) t.opId n).1 := place_safe hu
  refine .ite (sthFail_safe ht) ?_
  split
  · exact markDone_safe (modSth_safe hu)
  · exact .ite (finishWith_safe (getData_safe (touchLayout_safe hu))) (markDone_safe (setEnt_safe hu))
  · refine .ite (sthOver_safe (depotRead_safe hu)) ?_
    have hp := hp (entOf t (ent.a.toNat % 65536)).size.toNat
    split <;> rename_i heq <;> rw [heq] at hp
    · exact sthOver_safe (sthFull_safe hp)
    · exact sthOver_safe hp
    · exact sthOver_safe (depotRead_safe hp)

theorem depotLand_safe {j : StrJob} {i : Nat} {bs : Option (List Byte)} (h : Safe I s) : Safe I (depotLand s j i bs) := by
  unfold depotLand
  split
  · exact h
  · refine .ite ?_ ?_
    · split
      · exact creditSin_safe (memWr_safe (modSth_safe h))
      · exact with_free_safe (creditSin_safe (modSth_safe h))
      · exact modSth_safe h
    · dsimp only
      split
      · refine makeLocal_safe ?_
        refine modSth_safe ?_
        split
        · exact creditSin_safe (memWr_safe (modSth_safe h))
        · exact with_free_safe (creditSin_safe (modSth_safe h))
        · exact modSth_safe h
      · refine giveWr_safe ?_
        refine getData_safe ?_
        refine modSth_safe ?_
        split
        · exact creditSin_safe (memWr_safe (modSth_safe h))
        · exact with_free_safe (creditSin_safe (modSth_safe h))
        · exact modSth_safe h

theorem execSthFree_keeps : Keeps s (execSthFree s) :=
  dispatch_keeps (fun _ _ h => .ite (sthFail_safe h) (.ite (sthClear_safe (putInfl_safe h)) (unplace_safe (setEnt_safe (putInfl_safe h)))))

theorem execSthQuery_keeps : Keeps s (execSthQuery s) := dispatch_keeps fun _ _ h => .ite (sthFail_safe h) (putInfl_safe h)
theorem clearReq_safe (h : Safe I s) : Safe I (clearReq s) := sthSettle_safe (modSth_safe h)
theorem execMemSthCtrlClear_keeps : Keeps s (execMemSthCtrlClear s) := regCmd_keeps fun h => clearReq_safe h

/-! The stream port inbound. -/

theorem strResp_safe {h0 : Dword} (h : Safe I s) : Safe I (strResp s h0) := raise_safe (modStr_safe h)

theorem secTag_safe {cause region : Nat} {c : BitVec 2} {user : Nat} (h : Safe I s) : Safe I (secTag s cause region c user) :=
  tagZeroise_safe (raise_safe (tagFailure_safe h))

theorem blkChecked_safe (h : Safe I s) : Safe I (blkChecked s) := modSec_safe h

theorem landed_safe {j : StrJob} (h : Safe I s) : Safe I (landed s j) := by
  unfold landed
  split
  · exact h
  · exact putJob_safe h

theorem landBlock_safe {j : StrJob} {i : Nat} {bs : Option (List Byte)} (h : Safe I s) : Safe I (landBlock s j i bs) := by
  unfold landBlock
  refine landed_safe ?_
  split
  · exact creditSin_safe (memWr_safe h)
  · exact depotLand_safe h
  · exact facLand_safe h
  · exact modStr_safe h
  · exact h

theorem takeRdat_safe {r : StrRead} {p : StrPacket} (h : Safe I s) : Safe I (takeRdat s r p) := by
  refine .ite (modStr_safe h) (.ite ?_ ?_)
  · dsimp only
    split
    · exact strResp_safe (modStr_safe h)
    · exact landBlock_safe (strResp_safe (modStr_safe h))
  · dsimp only
    split <;> split
    · exact secTag_safe (blkChecked_safe (modStr_safe h))
    · exact landBlock_safe (secTag_safe (blkChecked_safe (modStr_safe h)))
    · exact blkChecked_safe (modStr_safe h)
    · exact progress_safe (landBlock_safe (modStr_safe (blkChecked_safe (modStr_safe h))))

theorem execRdat_safe {p : StrPacket} (h : Safe I s) : Safe I (execRdat s p) := by
  unfold execRdat
  split
  · exact h
  · exact .ite (modStr_safe h) (takeRdat_safe h)

theorem oweAck_safe {tag : BitVec 6} {status : Nat} (h : Safe I s) : Safe I (oweAck s tag status) := modStr_safe h

theorem attSignal_safe {u : AttPut} (h : Safe I s) : Safe I (attSignal s u) := by
  unfold attSignal
  dsimp only
  split
  · exact signal_safe (modStr_safe h)
  · exact modSyn_safe (modStr_safe h)

theorem attached_safe {p : StrPacket} (h : Safe I s) : Safe I (attached s p) := by
  unfold attached
  dsimp only
  split
  · exact attSignal_safe (modStr_safe h)
  · exact modStr_safe h

theorem freeBuf_safe (h : Safe I s) : Safe I (freeBuf s) := modStr_safe h

theorem takeRput_safe {p : StrPacket} (h : Safe I s) : Safe I (takeRput s p) := by
  unfold takeRput
  refine .ite (oweAck_safe (freeBuf_safe h)) ?_
  refine .ite (oweAck_safe (secErr_safe (modSec_safe (freeBuf_safe h)))) ?_
  dsimp only
  split
  · exact oweAck_safe (secTag_safe (blkChecked_safe (freeBuf_safe h)))
  · exact .ite (oweAck_safe (.ite (attached_safe (progress_safe (modStr_safe (creditSin_safe (memWr_safe (blkChecked_safe
      (freeBuf_safe h))))))) (progress_safe (modStr_safe (creditSin_safe (memWr_safe (blkChecked_safe (freeBuf_safe h))))))))
      (oweAck_safe (modStr_safe (blkChecked_safe (freeBuf_safe h))))

theorem execRput_safe {p : StrPacket} (h : Safe I s) : Safe I (execRput s p) := .ite (modStr_safe h) (takeRput_safe h)

theorem strResume_safe (h : Safe I s) : Safe I (strResume s) :=
  .foldl (fun _ _ ht => .ite (execRdat_safe ht) (execRput_safe (modStr_safe ht))) (modStr_safe h)

theorem execRdatReceived_keeps {p : StrPacket} : Keeps s (execRdatReceived p s) :=
  whenOn_keeps fun h => unstall_safe (execRdat_safe (spend_safe h))

theorem execAckReceived_keeps {h0 : Dword} : Keeps s (execAckReceived h0 s) := by
  unfold execAckReceived
  split
  · exact ⟨_, rfl, id⟩
  · refine whenOn_keeps ?_
    intro _ h
    split
    · exact .ite (strResp_safe (progress_safe (modStr_safe (spend_safe h)))) (.ite (modStr_safe (progress_safe (modStr_safe
        (spend_safe h)))) (progress_safe (modStr_safe (spend_safe h))))
    · exact unstall_safe (landed_safe (.ite (dropCopy_safe (.ite (strResp_safe (progress_safe (modStr_safe (spend_safe h)))) (.ite
        (modStr_safe (progress_safe (modStr_safe (spend_safe h)))) (progress_safe (modStr_safe (spend_safe h)))))) (.ite (strResp_safe
        (progress_safe (modStr_safe (spend_safe h)))) (.ite (modStr_safe (progress_safe (modStr_safe (spend_safe h)))) (progress_safe
        (modStr_safe (spend_safe h)))))))

theorem execRputReceived_keeps {p : StrPacket} : Keeps s (execRputReceived p s) :=
  whenOn_keeps fun h => unstall_safe (execRput_safe (spend_safe h))

/-! The exchange port. -/

theorem setInact_safe {b : XBank} (h : Safe I s) : Safe I (setInact s b) := modXch_safe h
theorem cleanSlot_safe {bank : Bool} {num : Nat} (h : Safe I s) : Safe I (cleanSlot s bank num) := modXch_safe h
theorem pickImage_safe {c : BitVec 2} {img : BitVec 3} (h : Safe I s) : Safe I (pickImage s c img) := setInact_safe (modXch_safe h)

theorem startItin_safe {c : BitVec 2} {img : BitVec 3} {bad : Bool} (h : Safe I s) : Safe I (startItin s c img bad) :=
  pickImage_safe (modXch_safe h)

theorem itinFail_safe {cause ent : Nat} (h : Safe I s) : Safe I (itinFail s cause ent) :=
  raise_safe (modXch_safe (setInact_safe (modXch_safe h)))

theorem fillBank_safe {b : XBank} (h : Safe I s) : Safe I (fillBank s b) := .foldl (fun _ _ ht => cleanSlot_safe ht) (setInact_safe h)

theorem execItinLoadDone_keeps {cyc : Word} : Keeps s (execItinLoadDone cyc s) := by
  unfold execItinLoadDone
  split
  · exact ⟨_, rfl, id⟩
  · refine whenMem_keeps ?_
    intro _ h
    dsimp only
    split
    · exact itinFail_safe (touchSpans_safe h)
    · exact modXch_safe (fillBank_safe (touchSpans_safe h))

theorem readSel_safe {c : BitVec 2} {k : Nat} (h : Safe I s) : Safe I (readSel s c k) := pickImage_safe (touchRead_safe h)

theorem resolveSel_safe (h : Safe I s) : Safe I (resolveSel s) := by
  unfold resolveSel
  split
  · exact .ite h (readSel_safe h)
  · exact h

theorem nextLoad_safe (h : Safe I s) : Safe I (nextLoad s) :=
  .ite (.ite (startItin_safe h) (.ite (modXch_safe (startItin_safe h)) (readSel_safe (startItin_safe h)))) (startItin_safe h)

theorem exchBegin_safe (h : Safe I s) : Safe I (exchBegin s) := by
  unfold exchBegin
  refine .ite (raise_safe (modXch_safe h)) ?_
  split
  · exact nextLoad_safe (modXch_safe (modXch_safe h))
  · exact setInact_safe (modXch_safe (modXch_safe h))
  · exact modXch_safe h

theorem execExchStart_keeps : Keeps s (execExchStart s) := whenOn_keeps fun h => .ite (modCore_safe h) (exchBegin_safe (modCore_safe h))
theorem setBeat_safe {e : XEnt} {k : Nat} (h : Safe I s) : Safe I (setBeat s e k) := modXch_safe h
theorem stateCe_safe (h : Safe I s) : Safe I (stateCe s) := modFlt_safe rfl h
theorem dueFault_safe {off code : Nat} (h : Safe I s) : Safe I (dueFault s off code) := modXch_safe h

theorem startEnt_safe {e : XEnt} (h : Safe I s) : Safe I (startEnt s e) := by
  unfold startEnt
  refine .ite h ?_
  split
  · exact setBeat_safe (dueFault_safe h)
  · exact .ite (modXch_safe (setBeat_safe (.ite (stateCe_safe (cleanSlot_safe h)) h))) (modXch_safe (.ite (stateCe_safe
      (cleanSlot_safe h)) h))

theorem startAll_safe {recv : Bool} {off : Nat} (h : Safe I s) : Safe I (startAll s recv off) := .foldl (fun _ _ ht => startEnt_safe ht) h

theorem endBeat_safe {e : XEnt} {k : Nat} (h : Safe I s) : Safe I (endBeat s e k) := by
  unfold endBeat
  refine .ite ?_ (setBeat_safe h)
  split
  · exact signal_safe (setBeat_safe h)
  · exact setBeat_safe h

theorem recvFail_safe {cause ent : Nat} {off : Word} {src : BitVec 20} {sent : BitVec 10} {beat : Half} (h : Safe I s) :
    Safe I (recvFail s cause ent off src sent beat) := .ite (modXch_safe h) (raise_safe (modXch_safe h))

theorem missBeat_safe {e : XEnt} {k : Nat} (h : Safe I s) : Safe I (missBeat s e k) := endBeat_safe (recvFail_safe (with_free_safe h))
theorem catchEnt_safe {off : Nat} {e : XEnt} (h : Safe I s) : Safe I (catchEnt s off e) := .foldl (fun _ _ ht => missBeat_safe ht) h
theorem catchAll_safe {off : Nat} (h : Safe I s) : Safe I (catchAll s off) := .foldl (fun _ _ ht => catchEnt_safe ht) h
theorem raiseDue_safe {d : Nat × Nat} (h : Safe I s) : Safe I (raiseDue s d) := raise_safe (.ite (modXch_safe h) h)

theorem settleDue_safe {off : Nat} (h : Safe I s) : Safe I (settleDue s off) :=
  .foldl (fun _ _ ht => raiseDue_safe (.ite (catchAll_safe ht) ht)) (modXch_safe h)

theorem settleAll_safe (h : Safe I s) : Safe I (settleAll s) := .ite h (settleDue_safe h)

theorem catchUp_safe {off : Nat} (h : Safe I s) : Safe I (catchUp s off) :=
  .ite (catchAll_safe (settleDue_safe (startAll_safe (modXch_safe h)))) (settleDue_safe h)

theorem countXun_safe {k : Nat} (h : Safe I s) : Safe I (countXun s k) := .ite h (modMem_safe rfl h)

theorem sendBeat_safe {e : XEnt} {o : Nat} (h : Safe I s) : Safe I (sendBeat s e o) :=
  spend_safe (endBeat_safe (modXch_safe (.ite h (countXun_safe (touchRead_safe h)))))

theorem execExchSendBeat_keeps {off : Word} : Keeps s (execExchSendBeat off s) := by
  unfold execExchSendBeat
  refine whenOn_keeps ?_
  intro _ h
  split
  · exact startAll_safe (catchUp_safe h)
  · exact sendBeat_safe (startAll_safe (catchUp_safe h))

theorem landBeat_safe {e : XEnt} {k : Nat} {x3 : XchBeat} (h : Safe I s) : Safe I (landBeat s e k x3) :=
  .ite h (.ite (dueFault_safe h) (creditXin_safe (memWr_safe (countXun_safe h))))

theorem checkBeat_safe {off : Word} {x2 : XchBeat} (h : Safe I s) : Safe I (checkBeat s off x2) := by
  unfold checkBeat
  dsimp only
  split
  · exact recvFail_safe (.ite (startAll_safe h) h)
  · exact .ite (endBeat_safe (recvFail_safe (.ite (startAll_safe h) h))) (.ite (endBeat_safe (recvFail_safe (.ite (startAll_safe h) h)))
      (.ite (endBeat_safe (recvFail_safe (.ite (startAll_safe h) h))) (endBeat_safe (modXch_safe (landBeat_safe (.ite
      (startAll_safe h) h))))))

theorem execExchRecvBeat_keeps {off : Word} {x1 : XchBeat} : Keeps s (execExchRecvBeat off x1 s) :=
  whenOn_keeps (fun h => spend_safe (.ite (modXch_safe h) (.ite (recvFail_safe h) (.ite (recvFail_safe h) (checkBeat_safe
    (catchUp_safe h))))))

theorem resumeLoad_safe (h : Safe I s) : Safe I (resumeLoad s) := startItin_safe h
theorem switchLoad_safe {from_ to_ : BitVec 2} (h : Safe I s) : Safe I (switchLoad s from_ to_) := startItin_safe (modXch_safe h)
theorem testWrite_safe (h : Safe I s) : Safe I (testWrite s) := .ite (modXch_safe (cleanSlot_safe h)) (modXch_safe h)
theorem execXchTctrlWrite_keeps : Keeps s (execXchTctrlWrite s) := regCmd_keeps fun h => testWrite_safe h

/-! The stage. -/

theorem arrive_safe {zone : BitVec 2} {running : Bool} (h : Safe I s) : Safe I (arrive s zone running) := modFac_safe (modCore_safe h)

theorem execSyncArrival_keeps : Keeps s (execSyncArrival s) := by
  unfold execSyncArrival
  dsimp only
  split
  · exact whenOn_keeps fun h => arrive_safe (creditArrival_safe h)
  · split
    · exact ⟨_, rfl, id⟩
    · exact whenOn_keeps fun h => arrive_safe (creditArrival_safe h)

theorem commitAll_safe {epoch : Word} (h : Safe I s) : Safe I (commitAll s epoch) :=
  .ite (modPst_safe (.ite (sthClear_safe (.ite (rebase_safe (commit_safe h)) (commit_safe h))) (.ite (rebase_safe (commit_safe h))
    (commit_safe h)))) (.ite (sthClear_safe (.ite (rebase_safe (commit_safe h)) (commit_safe h))) (.ite (rebase_safe (commit_safe h))
    (commit_safe h)))

theorem enterHold_safe {epoch : Word} {code : Nat} (h : Safe I s) : Safe I (enterHold s epoch code) := modMan_safe (raiseMismatch_safe h)

theorem epochCheck_safe {epoch : Word} (h : Safe I s) : Safe I (epochCheck s epoch) :=
  .ite (modMan_safe (.ite (commitAll_safe h) h)) (enterHold_safe h)

theorem releaseChecks_safe {r : ReleaseIn} (h : Safe I s) : Safe I (releaseChecks s r) :=
  .ite h (.ite (enterHold_safe h) (.ite h (epochCheck_safe h)))

theorem normLatch_safe {r : ReleaseIn} (h : Safe I s) : Safe I (normLatch s r) :=
  .ite (.ite (modWgh_safe (modFac_safe (modFacCtx_safe h))) (raise_safe h)) h

theorem pendingHalt_safe {c : Option (BitVec 2)} (h : Safe I s) : Safe I (pendingHalt s c) := by
  unfold pendingHalt
  split
  · exact h
  · exact modFlt_safe rfl (modCtx_safe h)

theorem switchStep_safe (h : Safe I s) : Safe I (switchStep s) := by
  unfold switchStep
  split
  · exact h
  · exact modCore_safe h
  · exact modCore_safe h
  · exact switchLoad_safe (modCore_safe h)

theorem beginPhase_safe {sw : Bool} (h : Safe I s) : Safe I (beginPhase s sw) :=
  modDbg_safe (modMem_safe rfl (modXch_safe (modCore_safe (modCtx_safe h))))

theorem standStill_safe (h : Safe I s) : Safe I (standStill s) := noRecord_safe (modXch_safe (modCore_safe h))

theorem releaseSampled_safe {r : ReleaseIn} (h : Safe I s) : Safe I (releaseSampled s r) :=
  modFlt_safe rfl (modMan_safe (.foldl (fun _ _ ht => modQ_safe ht) (modCore_safe h)))

theorem releaseSettings_safe {r : ReleaseIn} (h : Safe I s) : Safe I (releaseSettings s r) :=
  switchStep_safe (creditRelease_safe (captureMark_safe (pendingHalt_safe (releaseChecks_safe (normLatch_safe (releaseSampled_safe h))))))

theorem execSyncRelease_keeps {r : ReleaseIn} : Keeps s (execSyncRelease r s) :=
  whenOn_keeps fun h => .ite (beginPhase_safe (releaseSettings_safe h)) (standStill_safe (releaseSettings_safe h))

theorem exchEnd_safe (h : Safe I s) : Safe I (exchEnd s) :=
  resolveSel_safe (modXch_safe (modMem_safe rfl (modCore_safe (finishRecord_safe (settleAll_safe (.ite (startAll_safe (catchUp_safe h))
    (catchUp_safe h)))))))

theorem execShadowCopyDone_keeps : Keeps s (execShadowCopyDone s) := whenOn_keeps fun h => pstResume_safe (clearMbox_safe (copyDone_safe h))

/-! The vector engine's chain. -/

theorem Beat_mapSlot_safe {b : Beat} {dst : Nat} {f : Lane → Word} (h : Safe I (Beat.s b)) : Safe I (Beat.mapSlot b dst f).s := h

theorem Beat_reduce_safe {b : Beat} {k : Nat} {w : Word} (h : Safe I (Beat.s b)) : Safe I (Beat.reduce b k w).s := by
  unfold Beat.reduce
  dsimp only
  split <;> exact h

theorem setRow_safe {r : Nat} {x2 : RunRow} (h : Safe I s) : Safe I (setRow s r x2) := modVec_safe h

theorem Beat_clear_safe {b : Beat} {w : Word} (h : Safe I (Beat.s b)) : Safe I (Beat.clear b w).s := by
  unfold Beat.clear
  split
  · exact modVec_safe h
  · exact h

theorem Beat_runm_safe {b : Beat} {w : Word} (h : Safe I (Beat.s b)) : Safe I (Beat.runm b w).s :=
  Beat_mapSlot_safe (.foldlOf Beat.s (fun _ _ ht => setRow_safe ht) (Beat_clear_safe h))

theorem Beat_store_safe {b : Beat} {w : Word} (h : Safe I (Beat.s b)) : Safe I (Beat.store b w).s := by
  unfold Beat.store
  dsimp only
  split
  · split
    · refine .foldlOf Emit.s ?_ h
      intro _ _ ht
      split
      · exact ht
      · exact putBlock_safe ht
    · refine .foldlOf Emit.s ?_ h
      intro _ _ ht
      split
      · exact putElem_safe ht
      · exact putCode_safe ht
  · exact h
  · exact h

theorem Beat_uop_safe {b : Beat} {k : Nat} {w : Word} (h : Safe I (Beat.s b)) : Safe I (Beat.uop b k w).s := by
  unfold Beat.uop
  dsimp only
  split
  · exact Beat_mapSlot_safe h
  · exact Beat_mapSlot_safe h
  · exact Beat_mapSlot_safe h
  · exact Beat_mapSlot_safe h
  · exact Beat_reduce_safe h
  · exact Beat_runm_safe h
  · exact Beat_mapSlot_safe h
  · exact Beat_store_safe h

theorem countBeat_safe {r : VRun} (h : Safe I s) : Safe I (countBeat s r) := .ite (progress_safe (spend_safe (modVec_safe h))) h
theorem enterBeats_safe (h : Safe I s) : Safe I (enterBeats s) := modVec_safe (.foldl (fun _ _ ht => countBeat_safe ht) h)
theorem putLanes_safe {ls : List (Nat × Word)} (h : Safe I s) : Safe I (putLanes s ls) := .ite h (modVec_safe h)

theorem beatCycle_safe {x0 : State × VRun} {b : VBeat} (h : Safe I (Prod.fst x0)) : Safe I (beatCycle x0 b).1 := by
  unfold beatCycle
  split
  · exact progress_safe (putLanes_safe (memWrJoined_safe h))
  · split
    · exact h
    · exact Beat_uop_safe (touchSpans_safe h)

theorem runCycle_safe {r : VRun} (h : Safe I s) : Safe I (runCycle s r) :=
  modVec_safe (.foldlOf Prod.fst (fun _ _ ht => beatCycle_safe ht) h)

theorem moveBeats_safe (h : Safe I s) : Safe I (moveBeats s) := .foldl (fun _ _ ht => runCycle_safe ht) h
theorem chainCycle_safe (h : Safe I s) : Safe I (chainCycle s) := moveBeats_safe (enterBeats_safe h)

theorem chainCycles_safe {n : Nat} (h : Safe I s) : Safe I (chainCycles n s) := by
  induction n generalizing s with
  | zero => exact h
  | succ n ih => exact ih (chainCycle_safe h)

theorem enterRun_safe {id k : Nat} (h : Safe I s) : Safe I (enterRun id k s) := by
  induction k generalizing s with
  | zero => exact h
  | succ k ih =>
    unfold enterRun
    split
    · exact h
    · exact .ite (ih (chainCycles_safe h)) h

theorem forceEntry_safe {id : Nat} (h : Safe I s) : Safe I (forceEntry s id) := by
  unfold forceEntry
  split
  · exact h
  · exact enterRun_safe h

theorem forceAll_safe (h : Safe I s) : Safe I (forceAll s) := .foldl (fun _ _ ht => forceEntry_safe ht) h

theorem endRun_safe {id : Nat} (h : Safe I s) : Safe I (endRun s id) := by
  unfold endRun
  split
  · exact h
  · exact putLanes_safe (modVec_safe (chainCycles_safe (forceEntry_safe h)))

/-! The vector engine's operations. -/

theorem vecDerr_safe {addr : Dword} {cause fn preset uop : Nat} (h : Safe I s) : Safe I (vecDerr s addr cause fn preset uop) :=
  modVec_safe h

theorem vecFail_safe {ent : QEntry} {fn cause uop : Nat} (h : Safe I s) : Safe I (vecFail s ent fn cause uop) :=
  dispatchFail_safe (vecDerr_safe h)

theorem startRun_safe {ent : QEntry} {prog : List Word} {rd : RunDesc} {first : Nat} (h : Safe I s) : Safe I (startRun s ent prog rd first) :=
  .ite (putInfl_safe h) (modVec_safe (putInfl_safe h))

theorem chainOp_keeps {fn : Nat} {src : State → QEntry → ChainSrc} {resv bad : State → QEntry → Bool} : Keeps s (chainOp s fn src resv bad) :=
  dispatchMem_keeps fun _ _ h => .ite (vecFail_safe (touchSpans_safe (forceAll_safe h))) (startRun_safe (touchSpans_safe (forceAll_safe h)))

theorem execVecRun_keeps : Keeps s (execVecRun s) := by
  unfold execVecRun
  exact chainOp_keeps

theorem execVecProg_keeps : Keeps s (execVecProg s) := chainOp_keeps

theorem giveBale_safe {id : Nat} {q : QBale} (h : Safe I s) : Safe I (giveBale s id q) :=
  .ite (modVec_safe h) (markDone_safe (modVec_safe h))

theorem execBaleRead_keeps : Keeps s (execBaleRead s) := by
  unfold execBaleRead
  split
  · exact whenMem_keeps (fun h => progress_safe (unstall_safe (giveBale_safe (popBale_safe (forceEntry_safe h)))))
  · exact ⟨_, rfl, id⟩

theorem regOp_keeps {fn fsHi fsLo : Nat} {acc : QEntry → List (Nat × Nat)} {seen : Bool} {cause : State → QEntry → Nat}
    {act : State → QEntry → RegAct} {wb : State → QEntry → Option Dword} (hb : ∀ {I} t ent, Safe I t → Safe I (act t ent).s) :
    Keeps s (regOp s fn fsHi fsLo acc seen cause act wb) :=
  dispatchMem_keeps (fun _ _ h => .ite (vecFail_safe (.ite (touchSpans_safe h) h)) (finishWith_safe (hb _ _ (putInfl_safe (.ite
    (touchSpans_safe h) h)))))

theorem execVecPerm_keeps : Keeps s (execVecPerm s) := regOp_keeps fun _ _ h => touchRead_safe h
theorem execVecShuf_keeps : Keeps s (execVecShuf s) := regOp_keeps fun _ _ h => h

theorem execVecPack_keeps : Keeps s (execVecPack s) := by
  unfold execVecPack
  refine regOp_keeps ?_
  intro _ _ _ h
  split
  · exact h
  · exact observe_safe h

theorem execVecUnpk_keeps : Keeps s (execVecUnpk s) := by
  unfold execVecUnpk
  refine regOp_keeps ?_
  intro _ _ _ h
  split <;> exact h

theorem execVecVld_keeps : Keeps s (execVecVld s) := regOp_keeps fun _ _ h => touchRead_safe h
theorem execVecVst_keeps : Keeps s (execVecVst s) := regOp_keeps fun _ _ h => h
theorem execVecBcst_keeps : Keeps s (execVecBcst s) := regOp_keeps fun _ _ h => h
theorem execVecRds_keeps : Keeps s (execVecRds s) := regOp_keeps fun _ _ h => h

/-! Weigher functions. -/

theorem wghResult_keeps {fn : Nat} {v : QEntry → State → Nat} : Keeps s (wghResult s fn v) := dispatch_keeps fun _ _ h => putInfl_safe h
theorem execWghRead_keeps : Keeps s (execWghRead s) := wghResult_keeps
theorem execWghStep_keeps : Keeps s (execWghStep s) := dispatch_keeps fun _ _ h => modWgh_safe (putInfl_safe h)
theorem execWghLsread_keeps : Keeps s (execWghLsread s) := wghResult_keeps
theorem execWghFlags_keeps : Keeps s (execWghFlags s) := wghResult_keeps
theorem execWghClr_keeps : Keeps s (execWghClr s) := dispatch_keeps fun _ _ h => modWgh_safe (putInfl_safe h)

/-! Retirement and the watchman. -/

theorem retireEffect_safe {e : Nat} {x2 : Infl} (h : Safe I s) : Safe I (retireEffect s e x2) :=
  .ite (.ite (modJrnl_safe (wghStepDone_safe h)) h) (.ite (facRetire_safe h) (.ite (modVec_safe h) h))

theorem writeback_safe {x1 : Infl} (h : Safe I s) : Safe I (writeback s x1) := by
  unfold writeback
  split
  · exact h
  · exact wrReg_safe h

theorem landLast_safe {e : Nat} {x2 : Infl} (h : Safe I s) : Safe I (landLast s e x2) :=
  putLanes_safe (.foldl (fun _ _ ht => creditArr_safe ht) (.foldl (fun _ _ ht => memWrJoined_safe ht) (.ite (endRun_safe h) h)))

theorem retireProgress_safe {e : Nat} (h : Safe I s) : Safe I (retireProgress s e) := .ite h (progress_safe h)

theorem retire_safe {e i : Nat} {x3 : Infl} (h : Safe I s) : Safe I (retire s e i x3) :=
  retireProgress_safe (.ite (retireEffect_safe (writeback_safe (landLast_safe (modQ_safe h)))) (signalMany_safe (retireEffect_safe
    (writeback_safe (landLast_safe (modQ_safe h))))))

theorem retireCar_safe {car : Nat} (h : Safe I s) : Safe I (retireCar s car) := progress_safe (signalMany_safe (modQ_safe h))

theorem execEngineRetire_keeps {q : BitVec 3} {i : Nat} : Keeps s (execEngineRetire q i s) := by
  unfold execEngineRetire
  split
  · exact ⟨_, rfl, id⟩
  · refine whenMem_keeps ?_
    intro _ h
    refine .ite ?_ (retire_safe h)
    split
    · exact retireCar_safe h
    · exact retire_safe h

theorem wmSnap_safe (h : Safe I s) : Safe I (wmSnap s) := modSyn_safe (with_free_safe h)

theorem wmAbandon_safe (h : Safe I s) : Safe I (wmAbandon s) :=
  sthSettle_safe (modPst_safe (abandonStep_safe (modFac_safe (modSth_safe (modStr_safe (modVec_safe (modArr_safe (dropWants_safe (.foldl
    (fun _ _ ht => dropWatch_safe ht) (with_q_safe h))))))))))

theorem wmStop_safe (h : Safe I s) : Safe I (wmStop s) := by
  unfold wmStop
  split
  · exact h
  · exact stopCore_safe (modCore_safe (modCtx_safe h))
  · exact stopCore_safe h

theorem execWatchmanFire_keeps : Keeps s (execWatchmanFire s) :=
  whenOn_keeps (fun h => progress_safe (wmStop_safe (wmAbandon_safe (raise_safe (wmSnap_safe h)))))

end Sys2Proof.Machine
end

section
/-! PROOFS. What keeps both invariants: the commands of faults, security, manifest, tile instructions, registers, clocks, resets and test. -/

namespace Sys2Proof.Machine

variable {I : Invariant} {s : State}

/-! The fault unit. -/

theorem execFltCtrlClear_keeps : Keeps s (execFltCtrlClear s) := regCmd_keeps fun h => clearLog_safe h
theorem restoreCopy_safe (h : Safe I s) : Safe I (restoreCopy s) := .ite (wghRestore_safe h) h
theorem execFltCtrlWrest_keeps : Keeps s (execFltCtrlWrest s) := regCmd_keeps fun h => restoreCopy_safe h
theorem clearFatal_safe (h : Safe I s) : Safe I (clearFatal s) := .ite h (modFlt_safe rfl h)
theorem execFltCtrlFclr_keeps : Keeps s (execFltCtrlFclr s) := regCmd_keeps fun h => clearFatal_safe h
theorem answerHeld_safe (h : Safe I s) : Safe I (answerHeld s) := .foldl (fun _ _ ht => takeMsg_safe ht) (modPst_safe (modStr_safe h))

theorem firstFatal_safe {code unit : Nat} (h : Safe I s) : Safe I (firstFatal s code unit) :=
  answerHeld_safe (modStr_safe (modXch_safe (modCore_safe (modFlt_safe rfl h))))

theorem fatal_safe {code unit : Nat} (h : Safe I s) : Safe I (fatal s code unit) :=
  .ite (.ite h (firstFatal_safe h)) (startZero_safe (modSec_safe (streamStop_safe (.ite h (firstFatal_safe h)))))

theorem meetStore_safe {k : Nat} (h : Safe I s) : Safe I (meetStore s k) := by
  unfold meetStore
  dsimp only
  split
  · exact h
  · exact stateCe_safe (modFlt_safe rfl h)
  · exact fatal_safe (modFlt_safe rfl h)

theorem execFatalFault_keeps : Keeps s (execFatalFault s) := whenOn_keeps fun h => fatal_safe (with_free_safe h)

theorem stopToHold_safe (h : Safe I s) : Safe I (stopToHold s) :=
  pstResume_safe (strResume_safe (modMem_safe rfl (modXch_safe (modFac_safe (modCore_safe (standStill_safe (modMan_safe
    (settleAll_safe h))))))))

theorem injectHold_safe {code : Nat} (h : Safe I s) : Safe I (injectHold s code) :=
  .ite (stopToHold_safe (raiseMismatch_safe h)) (raiseMismatch_safe h)

theorem inject_safe (h : Safe I s) : Safe I (inject s) :=
  .ite (stateCe_safe h) (.ite (injectHold_safe h) (.ite (raise_safe h) (.ite (fatal_safe h) h)))

theorem injectReq_safe (h : Safe I s) : Safe I (injectReq s) := .ite (inject_safe h) h
theorem execFltCtrlInj_keeps : Keeps s (execFltCtrlInj s) := regCmd_keeps fun h => injectReq_safe h

/-! Obtur's commands. -/

theorem secureErase_safe (h : Safe I s) : Safe I (secureErase s) := modSec_safe (startReload_safe (startZero_safe (streamStop_safe h)))
theorem zeroKeys_safe (h : Safe I s) : Safe I (zeroKeys s) := modSec_safe h
theorem endOfJob_safe (h : Safe I s) : Safe I (endOfJob s) := modSec_safe (secureErase_safe h)

theorem keyStrobe_safe {key : BitVec 256} {id : Word} {sealed : Bool} (h : Safe I s) : Safe I (keyStrobe s key id sealed) :=
  .ite (.ite (lowerLevel_safe (modSec_safe (clearRegions_safe (modSec_safe (secureErase_safe h))))) (clearRegions_safe (modSec_safe h)))
    (.ite (modSec_safe h) h)

theorem execKeyLd_keeps {key : BitVec 256} {id : Word} {sealed : Bool} : Keeps s (execKeyLd key id sealed s) :=
  whenOn_keeps fun h => keyStrobe_safe h

theorem execRekey_keeps : Keeps s (execRekey s) := by
  unfold execRekey
  split
  · exact ⟨_, rfl, id⟩
  · exact whenOn_keeps fun h => doRekey_safe h

theorem execKeyEnd_keeps : Keeps s (execKeyEnd s) := whenOn_keeps fun h => endOfJob_safe h
theorem execKeyPermitRise_keeps : Keeps s (execKeyPermitRise s) := ⟨_, rfl, fun h => modSec_safe h⟩
theorem execKeyPermitFall_keeps : Keeps s (execKeyPermitFall s) := ⟨_, rfl, fun h => lowerLevel_safe (modSec_safe h)⟩
theorem startCode_safe (h : Safe I s) : Safe I (startCode s) := modSec_safe h
theorem execSecCtrlCode_keeps : Keeps s (execSecCtrlCode s) := regCmd_keeps fun h => startCode_safe h

theorem finishCode_safe {k n : Nat} (h : Safe I s) : Safe I (finishCode s k n) := by
  unfold finishCode
  dsimp only
  split
  · exact modSec_safe (modSec_safe (touchRead_safe h))
  · exact tagZeroise_safe (raise_safe (tagFailure_safe (modSec_safe (.ite (memWr_safe (modSec_safe (touchRead_safe h))) (modSec_safe
      (touchRead_safe h))))))
  · exact modSec_safe (memWr_safe (modSec_safe (touchRead_safe h)))

theorem execCodeLoadDone_keeps : Keeps s (execCodeLoadDone s) := by
  unfold execCodeLoadDone
  split
  · exact ⟨_, rfl, id⟩
  · exact whenMem_keeps fun h => unstall_safe (finishCode_safe h)

theorem requestLevel_safe {l : BitVec 2} (h : Safe I s) : Safe I (requestLevel s l) :=
  .ite h (.ite (modSec_safe h) (unstall_safe (startZero_safe (streamStop_safe (raise_safe (secErr_safe (modSec_safe h)))))))

theorem execSecDbgReqWrite_keeps {level : BitVec 2} : Keeps s (execSecDbgReqWrite level s) := regCmd_keeps fun h => requestLevel_safe h
theorem raiseStep_safe {v : BitVec 23} (h : Safe I s) : Safe I (raiseStep s v) := .ite (modSec_safe h) h
theorem execSecSeCurWrite_keeps {val : BitVec 23} : Keeps s (execSecSeCurWrite val s) := regCmd_keeps fun h => raiseStep_safe h

/-! Commands of the manifest unit. -/

theorem execManCtrlLoad_keeps : Keeps s (execManCtrlLoad s) := regCmd_keeps fun h => startLoad_safe h
theorem execManCtrlArm_keeps : Keeps s (execManCtrlArm s) := regCmd_keeps fun h => armWith_safe h
theorem disarm_safe (h : Safe I s) : Safe I (disarm s) := modMan_safe h
theorem execManCtrlDisarm_keeps : Keeps s (execManCtrlDisarm s) := regCmd_keeps fun h => disarm_safe h
theorem resumeHold_safe (h : Safe I s) : Safe I (resumeHold s) := modMan_safe h
theorem execManCtrlResume_keeps : Keeps s (execManCtrlResume s) := regCmd_keeps fun h => resumeHold_safe h
theorem discardShadow_safe (h : Safe I s) : Safe I (discardShadow s) := .ite (manErr_safe h) (modMan_safe h)
theorem execManCtrlDiscard_keeps : Keeps s (execManCtrlDiscard s) := regCmd_keeps fun h => discardShadow_safe h
theorem freshStatus_safe (h : Safe I s) : Safe I (freshStatus s) := .ite (modPst_safe (.ite (clearStatus_safe h) h)) h

theorem execManifestLoadDone_keeps : Keeps s (execManifestLoadDone s) := by
  unfold execManifestLoadDone
  split
  · exact ⟨_, rfl, id⟩
  · exact whenMem_keeps (fun h => unstall_safe (.ite (resumeLoad_safe (freshStatus_safe (finishLoad_safe h))) (finishLoad_safe h)))

theorem setHeld_safe {lo : Nat} {v : Option Word} (h : Safe I s) : Safe I (setHeld s lo v) := modBus_safe h

theorem writeSh_safe {off store : Nat} {mask val : Word} (h : Safe I s) : Safe I (writeSh s off store mask val) := by
  unfold writeSh
  refine .ite (modMan_safe h) ?_
  refine .ite (setHeld_safe h) ?_
  refine .ite ?_ (putShadow_safe h)
  dsimp only
  split
  · exact putShadow_safe h
  · exact setHeld_safe (putShadow_safe (putShadow_safe h))

theorem liveWrite_safe {val : Word} (h : Safe I s) : Safe I (liveWrite s val) := .ite (modMan_safe h) h

theorem writeCfgData_safe {b : Bus} {val : Word} (h : Safe I s) : Safe I (writeCfgData b s val) :=
  .ite h (.ite (.ite (liveWrite_safe h) h) (shadowWr_safe h))

theorem writeShadow_safe {b : Bus} {off : Nat} {val : Word} (h : Safe I s) : Safe I (writeShadow b s off val) := by
  unfold writeShadow
  refine .ite (shadowWr_safe h) ?_
  refine .ite (writeCfgData_safe h) ?_
  split
  · exact writeSh_safe h
  · exact h

theorem execShadowWrite_keeps {bus : Bus} {addr : BitVec 22} {val : Word} : Keeps s (execShadowWrite bus addr val s) :=
  ⟨_, rfl, fun h => regAcc_safe h (writeShadow_safe h)⟩

theorem execDebugLiveWrite_keeps {val : Word} : Keeps s (execDebugLiveWrite val s) :=
  ⟨_, rfl, fun h => regAcc_safe h (.ite (liveWrite_safe h) h)⟩

theorem writeCtx_safe {val : Word} (h : Safe I s) : Safe I (writeCtx s val) := modCore_safe h
theorem execCoreCtxWrite_keeps {val : Word} : Keeps s (execCoreCtxWrite val s) := regCmd_keeps fun h => writeCtx_safe h
theorem reloadReq_safe {mask : BitVec 4} (h : Safe I s) : Safe I (reloadReq s mask) := .ite h (startReload_safe h)
theorem execCoreCtxReload_keeps {mask : BitVec 4} : Keeps s (execCoreCtxReload mask s) := regCmd_keeps fun h => reloadReq_safe h
theorem reloadCtx_safe {c : BitVec 2} (h : Safe I s) : Safe I (reloadCtx s c) := modXch_safe (facIdle_safe (setCtx_safe h))

theorem finishReload_safe (h : Safe I s) : Safe I (finishReload s) := by
  have ht : Safe I ((List.range 4).foldl (fun u i => if s.core.rldMask.getLsbD i then reloadCtx u (BitVec.ofNat 2 i) else u)
      (settleAll s)) :=
    .foldl (fun _ _ ht => .ite (reloadCtx_safe ht) ht) (settleAll_safe h)
  refine lowerLevel_safe ((discardLive_safe ht).frame rfl ?_)
  dsimp only [State.modFlt]
  split <;> rfl

/-! Tile instructions. -/

theorem takeSync_safe {f : CForm} (h : Safe I s) : Safe I (takeSync s f) := modCore_safe (modCtx_safe h)

theorem execSync_keeps {f : CForm} : Keeps s (execSync f s) := by
  unfold execSync
  exact instr_keeps fun _ h => progress_safe (modArr_safe (modDbg_safe (takeSync_safe h)))

theorem sigObj_keeps {f : CForm} {op : Nat} {act : State → Byte → State} (hb : ∀ {I} t o, Safe I t → Safe I (act t o)) :
    Keeps s (sigObj s f op act) := by
  unfold sigObj
  refine instr_keeps ?_
  intro _ _ h
  split
  · exact coreFault_safe h
  · exact advance_safe (hb _ _ h)

theorem execSig_keeps {f : CForm} : Keeps s (execSig f s) := sigObj_keeps fun _ _ h => signalAmt_safe h

theorem execSigBar_keeps {f : CForm} : Keeps s (execSigBar f s) := by
  unfold execSigBar
  refine instr_keeps ?_
  intro _ _ h
  split
  · exact coreFault_safe h
  · exact .ite (coreFault_safe h) (advance_safe (setObj_safe h))

theorem execSigSet_keeps {f : CForm} : Keeps s (execSigSet f s) := sigObj_keeps fun _ _ h => setObj_safe h

theorem waitDone_safe {o : Byte} {cond : BitVec 2} {d : SReg} (h : Safe I s) : Safe I (waitDone s o cond d) :=
  wrAdvance_safe (dropWatch_safe (.ite (take_safe h) h))

theorem execWait_keeps {f : CForm} : Keeps s (execWait f s) := by
  unfold execWait
  refine instr_keeps ?_
  intro _ _ h
  split
  · exact coreFault_safe h
  · exact .ite (waitDone_safe h) (modCore_safe (setWatch_safe h))

theorem setFull_safe {k : Nat} {b : Bool} (h : Safe I s) : Safe I (setFull s k b) := modMem_safe rfl h
theorem readFull_safe {req k : Nat} (h : Safe I s) : Safe I (readFull s req k) := .ite (memUe_safe h) h

theorem fewDone_safe {k : Nat} {v : Dword} (h : Safe I s) : Safe I (fewDone s k v) :=
  advance_safe (dropWatch_safe (setFull_safe (memWr_safe h)))

theorem ferDone_safe {k : Nat} {d : SReg} (h : Safe I s) : Safe I (ferDone s k d) :=
  wrAdvance_safe (dropWatch_safe (setFull_safe (touchRead_safe h)))

theorem execFew_keeps {f : CForm} : Keeps s (execFew f s) :=
  instrMem_keeps (fun _ h => .ite (coreFault_safe (.ite (readFull_safe h) h)) (.ite (modCore_safe (setWatch_safe (.ite
    (readFull_safe h) h))) (fewDone_safe (.ite (readFull_safe h) h))))

theorem execFer_keeps {f : CForm} : Keeps s (execFer f s) :=
  instrMem_keeps (fun _ h => .ite (coreFault_safe (.ite (readFull_safe h) h)) (.ite (modCore_safe (setWatch_safe (.ite
    (readFull_safe h) h))) (ferDone_safe (.ite (readFull_safe h) h))))

theorem countWake_safe (h : Safe I s) : Safe I (countWake s) := modSyn_safe h

theorem execWake_keeps {slot : BitVec 5} : Keeps s (execWake slot s) := by
  unfold execWake
  dsimp only
  split
  · exact whenOn_keeps fun h => countWake_safe (setWatch_safe h)
  · split
    · split
      · exact whenOn_keeps fun h => waitDone_safe (countWake_safe h)
      · exact whenMem_keeps fun h => fewDone_safe (countWake_safe (readFull_safe h))
      · exact whenMem_keeps fun h => ferDone_safe (countWake_safe (readFull_safe h))
      · exact ⟨_, rfl, id⟩
    · exact whenOn_keeps fun h => countWake_safe (setWatch_safe h)

theorem execFence_keeps {f : CForm} : Keeps s (execFence f s) := instr_keeps fun _ h => .ite (advance_safe h) (modCore_safe h)

theorem execFenceDone_keeps : Keeps s (execFenceDone s) := by
  unfold execFenceDone
  split
  · exact whenOn_keeps fun h => advance_safe h
  · exact ⟨_, rfl, id⟩

theorem execManLoad_keeps {f : CForm} : Keeps s (execManLoad f s) := instr_keeps fun _ h => wrAdvance_safe (startLoad_safe (modMan_safe h))
theorem execManArm_keeps {f : CForm} : Keeps s (execManArm f s) := instr_keeps fun _ h => wrAdvance_safe (armWith_safe h)
theorem execMfs_keeps {f : CForm} : Keeps s (execMfs f s) := instr_keeps fun _ h => wrAdvance_safe h

theorem execMts_keeps {f : CForm} : Keeps s (execMts f s) := by
  unfold execMts
  exact instr_keeps fun _ h => advance_safe (modCtx_safe h)

theorem execCtx_keeps {f : CForm} : Keeps s (execCtx f s) := instr_keeps fun _ h => advance_safe (modCore_safe h)
theorem execBrk_keeps {f : CForm} : Keeps s (execBrk f s) := instr_keeps fun _ h => .ite (modDbg_safe (advance_safe h)) (advance_safe h)
theorem execReservedOpcode_keeps {w : Word} : Keeps s (execReservedOpcode w s) := instr_keeps fun _ h => h
theorem execArr_keeps {f : EForm} : Keeps s (execArr f s) := issue_keeps
theorem execVec_keeps {f : EForm} : Keeps s (execVec f s) := issue_keeps
theorem execFac_keeps {f : EForm} : Keeps s (execFac f s) := issue_keeps
theorem execWgh_keeps {f : EForm} : Keeps s (execWgh f s) := issue_keeps
theorem execStr_keeps {f : EForm} : Keeps s (execStr f s) := issue_keeps
theorem execPst_keeps {f : EForm} : Keeps s (execPst f s) := issue_keeps
theorem execSth_keeps {f : EForm} : Keeps s (execSth f s) := issue_keeps

/-! Commands of the sync unit and of local memory. -/

theorem handSet_safe {f : Syn → SObj → SObj} (h : Safe I s) : Safe I (handSet s f) := .ite (setObj_safe h) (modSyn_safe h)
theorem handVal_safe (h : Safe I s) : Safe I (handVal s) := handSet_safe h
theorem handState_safe (h : Safe I s) : Safe I (handState s) := handSet_safe h
theorem execHandSetVal_keeps : Keeps s (execHandSetVal s) := regCmd_keeps fun h => handVal_safe h
theorem execHandSetState_keeps : Keeps s (execHandSetState s) := regCmd_keeps fun h => handState_safe h
theorem feRefuse_safe (h : Safe I s) : Safe I (feRefuse s) := modSyn_safe h
theorem feStat_safe {ok full : Bool} (h : Safe I s) : Safe I (feStat s ok full) := modSyn_safe h

theorem feDo_safe {r : FeReq} (h : Safe I s) : Safe I (feDo s r) := by
  unfold feDo
  dsimp only
  split
  · refine .ite ?_ ?_
    · refine feStat_safe ?_
      split
      · exact h
      · exact readFull_safe h
    · refine feStat_safe ?_
      refine setFull_safe ?_
      refine memWr_safe ?_
      split
      · exact h
      · exact readFull_safe h
  · refine .ite ?_ ?_
    · refine feStat_safe ?_
      refine setFull_safe ?_
      refine modSyn_safe ?_
      refine touchRead_safe ?_
      split
      · exact h
      · exact readFull_safe h
    · refine feStat_safe ?_
      split
      · exact h
      · exact readFull_safe h
  · refine feStat_safe ?_
    refine modSyn_safe ?_
    refine touchRead_safe ?_
    split
    · exact h
    · exact readFull_safe h
  · refine feStat_safe ?_
    refine setFull_safe ?_
    split
    · exact h
    · exact readFull_safe h

theorem feReq_safe {op : FeOp} (h : Safe I s) : Safe I (feReq s op) := .ite (feRefuse_safe h) (.ite (modSyn_safe h) (feDo_safe h))
theorem execFePut_keeps : Keeps s (execFePut s) := regCmd_keeps fun h => feReq_safe h
theorem execFeTake_keeps : Keeps s (execFeTake s) := regCmd_keeps fun h => feReq_safe h
theorem execFePeek_keeps : Keeps s (execFePeek s) := regCmd_keeps fun h => feReq_safe h
theorem execFeForce_keeps {bit : Bool} : Keeps s (execFeForce bit s) := regCmd_keeps fun h => feReq_safe h

theorem feResume_safe (h : Safe I s) : Safe I (feResume s) := by
  unfold feResume
  split
  · exact h
  · exact .ite h (.ite (feDo_safe h) (feRefuse_safe (modSyn_safe h)))

theorem execMemCtrlZero_keeps : Keeps s (execMemCtrlZero s) := regCmd_keeps fun h => startZero_safe h

theorem zeroEnds_safe (h : Safe I s) : Safe I (zeroEnds s) :=
  putRecords_safe (resolveSel_safe (modPst_safe (modSec_safe (modMem_safe rfl (spend_safe (.ite (clearRegions_safe
    (zeroKeys_safe h)) h))))))

theorem scrub_safe (h : Safe I s) : Safe I (scrub s) := modMem_safe rfl (.foldl (fun _ _ ht => .ite ht (touchRead_safe ht)) h)
theorem execScrubRead_keeps : Keeps s (execScrubRead s) := whenOn_keeps fun h => scrub_safe h

theorem execScrubWriteback_keeps : Keeps s (execScrubWriteback s) := by
  unfold execScrubWriteback
  split
  · exact ⟨_, rfl, id⟩
  · exact whenMem_keeps fun h => modMem_safe rfl (serve_safe (spend_safe h))

/-! The register window read. -/

theorem touchWindow_safe {off : Nat} (h : Safe I s) : Safe I (touchWindow s off) := .ite (touchRead_safe h) h

theorem readReg_safe {off : Nat} (h : Safe I s) : Safe I (readReg s off).1 := by
  unfold readReg
  split
  · exact h
  · split
    · exact modBus_safe h
    · split
      · exact h
      · split
        · exact h
        · exact touchWindow_safe h

/-! The register window written, and the debug unit. -/

theorem onBit_safe {v : Word} {k : Nat} {f : State → State} (h : Safe I s) (hb : ∀ t, Safe I t → Safe I (f t)) : Safe I (onBit v k s f) :=
  .ite (hb _ h) h

theorem holdHi_safe {lo : Nat} {v : Word} (h : Safe I s) : Safe I (holdHi s lo v) := setHeld_safe h

theorem wrCore_safe {off : Nat} {v : Word} (h : Safe I s) : Safe I (wrCore s off v) := by
  unfold wrCore
  refine .ite (.ite (setHeld_safe (modCore_safe h)) h) ?_
  refine .ite (.ite (holdHi_safe h) h) ?_
  refine .ite (writeCtx_safe h) ?_
  refine .ite (reloadReq_safe h) ?_
  refine .ite (modCore_safe h) ?_
  split
  · exact h
  · exact .ite h (modCore_safe h)

theorem wrMan_safe {b : Bus} {off : Nat} {v : Word} (h : Safe I s) : Safe I (wrMan b s off v) :=
  .ite (onBit_safe (onBit_safe (onBit_safe (onBit_safe (onBit_safe h (fun _ ht => startLoad_safe ht)) (fun _ ht => armWith_safe ht))
    (fun _ ht => disarm_safe ht)) (fun _ ht => resumeHold_safe ht)) (fun _ ht => discardShadow_safe ht)) (.ite (modMan_safe h) (.ite
    (modMan_safe h) (.ite (modMan_safe h) (.ite (modMan_safe h) (.ite (modMan_safe h) (writeShadow_safe h))))))

theorem wrSyn_safe {off : Nat} {v : Word} (h : Safe I s) : Safe I (wrSyn s off v) := by
  unfold wrSyn
  refine .ite (modSyn_safe h) ?_
  refine .ite (modSyn_safe h) ?_
  refine .ite (modSyn_safe h) ?_
  refine .ite (modSyn_safe h) ?_
  refine .ite (modSyn_safe h) ?_
  refine .ite (onBit_safe (onBit_safe h (fun _ ht => handVal_safe ht)) (fun _ ht => handState_safe ht)) ?_
  refine .ite (modSyn_safe h) ?_
  refine .ite (modSyn_safe h) ?_
  refine .ite (modSyn_safe h) ?_
  refine .ite ?_ ?_
  · split
    · exact h
    · exact feReq_safe h
    · exact feReq_safe h
    · exact feReq_safe h
    · exact feReq_safe h
    · exact feRefuse_safe h
  · split
    · exact .ite h (setWatch_safe h)
    · exact .ite h (setWatch_safe h)
    · exact h

theorem wrWgh_safe {off : Nat} {v : Word} (h : Safe I s) : Safe I (wrWgh s off v) := by
  unfold wrWgh
  refine .ite (.ite (modWgh_safe h) h) ?_
  refine .ite (modWgh_safe h) ?_
  refine .ite (modWgh_safe h) ?_
  refine .ite (modWgh_safe h) ?_
  refine .ite (.ite (modWgh_safe h) h) ?_
  split
  · exact h
  · exact .ite (modWgh_safe h) h

theorem wrFac_safe {off : Nat} {v : Word} (h : Safe I s) : Safe I (wrFac s off v) := by
  unfold wrFac
  refine .ite (modFac_safe h) ?_
  refine .ite (rollback_safe h) ?_
  refine .ite (modFac_safe h) ?_
  refine .ite h ?_
  split
  · exact modFacCtx_safe h
  · exact modFacCtx_safe h
  · exact modFacCtx_safe h
  · exact h

theorem wrEng_safe {off : Nat} {v : Word} (h : Safe I s) : Safe I (wrEng s off v) :=
  .ite (modArr_safe h) (.ite (modVec_safe h) (.ite (modVec_safe h) (.ite (modVec_safe h) h)))

theorem wrMem_safe {off : Nat} {v : Word} (h : Safe I s) : Safe I (wrMem s off v) :=
  .ite (modMem_safe rfl h) (.ite (onBit_safe h (fun _ ht => startZero_safe ht)) (.ite (modMem_safe rfl h) (.ite (modSth_safe h) (.ite
    (onBit_safe h (fun _ ht => clearReq_safe ht)) (.ite (.ite (modSth_safe h) h) (.ite (modSth_safe h) h))))))

theorem wrPorts_safe {off : Nat} {v : Word} (h : Safe I s) : Safe I (wrPorts s off v) := by
  unfold wrPorts
  refine .ite (modXch_safe h) ?_
  refine .ite (modXch_safe h) ?_
  refine .ite (modXch_safe h) ?_
  refine .ite (onBit_safe h (fun _ ht => testWrite_safe ht)) ?_
  refine .ite (modStr_safe h) ?_
  refine .ite (modPst_safe h) ?_
  split
  · exact modXch_safe h
  · exact h

theorem wrGov_safe {off : Nat} {v : Word} (h : Safe I s) : Safe I (wrGov s off v) := by
  unfold wrGov
  refine .ite (modGov_safe h) ?_
  refine .ite (onBit_safe (onBit_safe h (fun _ ht => armMark_safe ht)) (fun _ ht => clearTariff_safe ht)) ?_
  refine .ite (modGov_safe h) ?_
  refine .ite (modGov_safe h) ?_
  refine .ite (reasons_safe (modGov_safe h)) ?_
  refine .ite (setDbgCap_safe h) ?_
  refine .ite (modGov_safe h) ?_
  refine .ite (modGov_safe h) ?_
  refine .ite (modGov_safe h) ?_
  refine .ite (modGov_safe h) ?_
  split
  · exact modGov_safe h
  · exact h

theorem wrLdg_safe {off : Nat} {v : Word} (h : Safe I s) : Safe I (wrLdg s off v) := by
  unfold wrLdg
  refine .ite (modLdg_safe h) ?_
  refine .ite (onBit_safe (onBit_safe (onBit_safe h (fun _ ht => reqSnap_safe ht)) (fun _ ht => tryRestore_safe ht))
      (fun _ ht => newPart_safe ht)) ?_
  refine .ite (modLdg_safe h) ?_
  refine .ite (setHeld_safe (putWallofs_safe h)) ?_
  refine .ite (holdHi_safe h) ?_
  split
  · exact putRbuf_safe h
  · exact h

theorem wrSec_safe {off : Nat} {v : Word} (h : Safe I s) : Safe I (wrSec s off v) :=
  .ite (modSec_safe h) (.ite (requestLevel_safe h) (.ite (onBit_safe h (fun _ ht => startCode_safe ht)) (.ite (modSec_safe h) (.ite
    (modSec_safe h) (.ite (raiseStep_safe h) (.ite (modSec_safe h) h))))))

theorem wrFlt_safe {off : Nat} {v : Word} (h : Safe I s) : Safe I (wrFlt s off v) :=
  .ite (modFlt_safe rfl h) (.ite (onBit_safe (onBit_safe (onBit_safe (onBit_safe h (fun _ ht => clearLog_safe ht))
    (fun _ ht => restoreCopy_safe ht)) (fun _ ht => injectReq_safe ht)) (fun _ ht => clearFatal_safe ht)) (.ite (modFlt_safe rfl h) (.ite
    (modFlt_safe rfl h) h)))

theorem wrJrnl_safe {off : Nat} {v : Word} (h : Safe I s) : Safe I (wrJrnl s off v) :=
  .ite (modJrnl_safe h) (.ite (onBit_safe (onBit_safe h (fun _ ht => armReplay_safe ht)) (fun _ ht => cancelReplay_safe ht)) (.ite
    (modJrnl_safe h) (.ite (modJrnl_safe h) (.ite h (.ite (setHeld_safe (modJrnl_safe h)) (.ite (holdHi_safe h) (.ite (setHeld_safe
    (modJrnl_safe h)) (.ite (holdHi_safe h) h))))))))

theorem dbgReject_safe (h : Safe I s) : Safe I (dbgReject s) := modDbg_safe h
theorem halt_safe (h : Safe I s) : Safe I (halt s) := .ite (dbgReject_safe h) (.ite h (.ite (modDbg_safe h) (modDbg_safe h)))

theorem coreStep_keeps {i : Instr} : Keeps s (coreStep i s) := by
  cases i with
  | add => exact execAdd_keeps
  | sub => exact execSub_keeps
  | and => exact execAnd_keeps
  | or => exact execOr_keeps
  | xor => exact execXor_keeps
  | andn => exact execAndn_keeps
  | sll => exact execSll_keeps
  | srl => exact execSrl_keeps
  | sra => exact execSra_keeps
  | slt => exact execSlt_keeps
  | sltu => exact execSltu_keeps
  | min => exact execMin_keeps
  | max => exact execMax_keeps
  | minu => exact execMinu_keeps
  | maxu => exact execMaxu_keeps
  | sxw => exact execSxw_keeps
  | zxw => exact execZxw_keeps
  | difw => exact execDifw_keeps
  | mul => exact execMul_keeps
  | mulh => exact execMulh_keeps
  | mulhu => exact execMulhu_keeps
  | div => exact execDiv_keeps
  | divu => exact execDivu_keeps
  | rem => exact execRem_keeps
  | remu => exact execRemu_keeps
  | clz => exact execClz_keeps
  | popc => exact execPopc_keeps
  | addi => exact execAddi_keeps
  | andi => exact execAndi_keeps
  | ori => exact execOri_keeps
  | xori => exact execXori_keeps
  | slli => exact execSlli_keeps
  | srli => exact execSrli_keeps
  | srai => exact execSrai_keeps
  | slti => exact execSlti_keeps
  | orhi => exact execOrhi_keeps
  | ldd => exact execLdd_keeps
  | ldw => exact execLdw_keeps
  | ldwu => exact execLdwu_keeps
  | lds => exact execLds_keeps
  | ldsu => exact execLdsu_keeps
  | ldb => exact execLdb_keeps
  | ldbu => exact execLdbu_keeps
  | std => exact execStd_keeps
  | stw => exact execStw_keeps
  | sts => exact execSts_keeps
  | stb => exact execStb_keeps
  | br => exact execBr_keeps
  | jal => exact execJal_keeps
  | jalr => exact execJalr_keeps
  | arr => exact execArr_keeps
  | vec => exact execVec_keeps
  | fac => exact execFac_keeps
  | wgh => exact execWgh_keeps
  | str => exact execStr_keeps
  | pst => exact execPst_keeps
  | sth => exact execSth_keeps
  | sync => exact execSync_keeps
  | sig => exact execSig_keeps
  | sigBar => exact execSigBar_keeps
  | sigSet => exact execSigSet_keeps
  | wait => exact execWait_keeps
  | few => exact execFew_keeps
  | fer => exact execFer_keeps
  | fence => exact execFence_keeps
  | rng => exact execRng_keeps
  | phase => exact execPhase_keeps
  | manLoad => exact execManLoad_keeps
  | manArm => exact execManArm_keeps
  | mfs => exact execMfs_keeps
  | mts => exact execMts_keeps
  | ctx => exact execCtx_keeps
  | brk => exact execBrk_keeps
  | reservedOpcode w => exact execReservedOpcode_keeps (w := w)
  | _ => exact ⟨_, rfl, id⟩

theorem stateOf_safe {r : Res} (hr : Keeps s r) (h : Safe I s) : Safe I (stateOf r s) := by
  obtain ⟨t, rfl, ht⟩ := hr
  exact ht h

theorem stepOne_safe (h : Safe I s) : Safe I (stepOne s) := .ite (dbgReject_safe h) (.ite (stateOf_safe coreStep_keeps (modDbg_safe h)) h)

theorem writeSdata_safe {hi : Bool} {v : Word} (h : Safe I s) : Safe I (writeSdata s hi v) :=
  .ite h (.ite (holdHi_safe h) (setHeld_safe (wrReg_safe h)))

theorem setPc_safe {v : Word} (h : Safe I s) : Safe I (setPc s v) := .ite (modCtx_safe h) h

theorem wrDbg_safe {off : Nat} {v : Word} (h : Safe I s) : Safe I (wrDbg s off v) :=
  .ite (onBit_safe (onBit_safe (onBit_safe h (fun _ ht => halt_safe ht)) (fun _ ht => endHalt_safe ht)) (fun _ ht => stepOne_safe ht))
    (.ite (modDbg_safe h) (.ite (modDbg_safe h) (.ite (writeSdata_safe h) (.ite (writeSdata_safe h) (.ite (setPc_safe h) h)))))

theorem writeReg_safe {b : Bus} {off : Nat} {v : Word} (h : Safe I s) : Safe I (writeReg b s off v) :=
  .ite h (.ite (writeShadow_safe h) (.ite (wrCore_safe h) (.ite (wrMan_safe h) (.ite (wrSyn_safe h) (.ite (wrEng_safe h) (.ite
    (wrFac_safe h) (.ite (wrWgh_safe h) (.ite (wrMem_safe h) (.ite (wrPorts_safe h) (.ite (wrGov_safe h) (.ite (wrLdg_safe h) (.ite
    (wrSec_safe h) (.ite (wrFlt_safe h) (.ite (wrDbg_safe h) (wrJrnl_safe h)))))))))))))))

theorem putRd_safe {b : Bus} {v : Word} (h : Safe I s) : Safe I (putRd s b v) := modBusOf_safe h
theorem codeTouched_safe {k : Nat} (h : Safe I s) : Safe I (codeTouched s k) := .ite (modSec_safe h) h

theorem winAccess_safe {b : Bus} {write : Bool} {k : Nat} {v : Word} {be : BitVec 4} (h : Safe I s) : Safe I (winAccess s b write k v be) :=
  .ite (.ite (memWr_safe (codeTouched_safe h)) h) (.ite (putRd_safe (touchRead_safe h)) (putRd_safe h))

theorem access_safe {i : Instr} {b : Bus} {write : Bool} {addr : BitVec 22} {v : Word} {be : BitVec 4} (h : Safe I s) :
    Safe I (access i s b write addr v be) := by
  unfold access
  split
  · exact .ite (queueAcc_safe h) (regAcc_safe h (winAccess_safe h))
  · exact .ite (queueAcc_safe h) (regAcc_safe h (.ite (.ite (writeReg_safe h) h) (.ite (putRd_safe (readReg_safe h)) (putRd_safe h))))

theorem execMemoryWindowAccess_keeps {bus : Bus} {write : Bool} {addr : BitVec 22} {val : Word} {be : BitVec 4} :
    Keeps s (execMemoryWindowAccess bus write addr val be s) := ⟨_, rfl, fun h => access_safe h⟩

theorem execWideRegisterRead_keeps {bus : Bus} {addr : BitVec 22} : Keeps s (execWideRegisterRead bus addr s) :=
  ⟨_, rfl, fun h => access_safe h⟩

theorem execWideRegisterWrite_keeps {bus : Bus} {addr : BitVec 22} {val : Word} : Keeps s (execWideRegisterWrite bus addr val s) :=
  ⟨_, rfl, fun h => access_safe h⟩

theorem execRegisterWrite_keeps {bus : Bus} {addr : BitVec 22} {val : Word} {be : BitVec 4} : Keeps s (execRegisterWrite bus addr val be s) :=
  ⟨_, rfl, fun h => access_safe h⟩

theorem execDbgCtrlHalt_keeps : Keeps s (execDbgCtrlHalt s) := regCmd_keeps fun h => halt_safe h
theorem execDbgCtrlResume_keeps : Keeps s (execDbgCtrlResume s) := regCmd_keeps fun h => endHalt_safe h
theorem execDbgCtrlStep_keeps : Keeps s (execDbgCtrlStep s) := regCmd_keeps fun h => stepOne_safe h

theorem execDbgSdataAccess_keeps {bus : Bus} {hi write : Bool} {val : Word} : Keeps s (execDbgSdataAccess bus hi write val s) :=
  ⟨_, rfl, fun h => regAcc_safe h (.ite (writeSdata_safe h) (putRd_safe (readReg_safe h)))⟩

theorem execDbgPcset_keeps {val : Word} : Keeps s (execDbgPcset val s) := regCmd_keeps fun h => setPc_safe h

theorem serveAcc_keeps {i : Instr} : Keeps s (serveAcc i s) := by
  cases i with
  | handSetVal => exact execHandSetVal_keeps
  | handSetState => exact execHandSetState_keeps
  | fePut => exact execFePut_keeps
  | feTake => exact execFeTake_keeps
  | fePeek => exact execFePeek_keeps
  | feForce => exact execFeForce_keeps
  | manCtrlLoad => exact execManCtrlLoad_keeps
  | manCtrlArm => exact execManCtrlArm_keeps
  | manCtrlDisarm => exact execManCtrlDisarm_keeps
  | manCtrlResume => exact execManCtrlResume_keeps
  | manCtrlDiscard => exact execManCtrlDiscard_keeps
  | shadowWrite => exact execShadowWrite_keeps
  | debugLiveWrite => exact execDebugLiveWrite_keeps
  | coreCtxWrite => exact execCoreCtxWrite_keeps
  | coreCtxReload => exact execCoreCtxReload_keeps
  | memCtrlZero => exact execMemCtrlZero_keeps
  | memSthCtrlClear => exact execMemSthCtrlClear_keeps
  | jrnlCtrlReplay => exact execJrnlCtrlReplay_keeps
  | jrnlCtrlCancel => exact execJrnlCtrlCancel_keeps
  | facCtrlRollback => exact execFacCtrlRollback_keeps
  | fltCtrlClear => exact execFltCtrlClear_keeps
  | fltCtrlWrest => exact execFltCtrlWrest_keeps
  | fltCtrlInj => exact execFltCtrlInj_keeps
  | fltCtrlFclr => exact execFltCtrlFclr_keeps
  | govCtrlMark => exact execGovCtrlMark_keeps
  | govCtrlTrfclr => exact execGovCtrlTrfclr_keeps
  | govDbgWrite => exact execGovDbgWrite_keeps
  | ldgCtrlSnap => exact execLdgCtrlSnap_keeps
  | ldgCtrlRestore => exact execLdgCtrlRestore_keeps
  | ldgCtrlInit => exact execLdgCtrlInit_keeps
  | ldgWallofsWrite => exact execLdgWallofsWrite_keeps
  | secCtrlCode => exact execSecCtrlCode_keeps
  | secDbgReqWrite => exact execSecDbgReqWrite_keeps
  | secSeCurWrite => exact execSecSeCurWrite_keeps
  | xchTctrlWrite => exact execXchTctrlWrite_keeps
  | dbgCtrlHalt => exact execDbgCtrlHalt_keeps
  | dbgCtrlResume => exact execDbgCtrlResume_keeps
  | dbgCtrlStep => exact execDbgCtrlStep_keeps
  | dbgSdataAccess => exact execDbgSdataAccess_keeps
  | dbgPcset => exact execDbgPcset_keeps
  | memoryWindowAccess => exact execMemoryWindowAccess_keeps
  | wideRegisterRead => exact execWideRegisterRead_keeps
  | wideRegisterWrite => exact execWideRegisterWrite_keeps
  | registerWrite => exact execRegisterWrite_keeps
  | _ => exact ⟨_, rfl, id⟩

theorem drainBuses_safe (h : Safe I s) : Safe I (drainBuses s) := .foldl (fun _ _ ht => stateOf_safe serveAcc_keeps ht) (modBus_safe h)

/-! Operating points and droop. -/

theorem endStretch_safe {rearm : Nat} (h : Safe I s) : Safe I (endStretch s rearm) := .ite (reasons_safe (modClk_safe h)) h

theorem opChangeReason_safe (h : Safe I s) : Safe I (opChangeReason s) :=
  .ite (with_free_safe h) (modClk_safe (modGov_safe (with_free_safe h)))

theorem execStageOpChange_keeps {op : BitVec 3} : Keeps s (execStageOpChange op s) :=
  whenOn_keeps (fun h => .ite (opChangeReason_safe (modClk_safe h)) (endStretch_safe (setOpPoint_safe (opChangeReason_safe
    (modClk_safe h)))))

theorem followOp_safe (h : Safe I s) : Safe I (followOp s) := .ite (reasons_safe (updateReq_safe h)) h
theorem execAlertFall_keeps : Keeps s (execAlertFall s) := ⟨_, rfl, fun h => followOp_safe (endStretch_safe (modClk_safe h))⟩
theorem execAlertRise_keeps : Keeps s (execAlertRise s) := whenOn_keeps fun h => modClk_safe h
theorem execAlertReturn_keeps : Keeps s (execAlertReturn s) := whenOn_keeps fun h => followOp_safe (endStretch_safe (modClk_safe h))
theorem startStretch_safe (h : Safe I s) : Safe I (startStretch s) := reasons_safe (modClk_safe h)
theorem execDroopTrip_keeps : Keeps s (execDroopTrip s) := whenOn_keeps fun h => startStretch_safe h
theorem execStretchEnd_keeps {limit : Bool} : Keeps s (execStretchEnd limit s) := whenOn_keeps fun h => endStretch_safe h

theorem execDroopRearm_keeps {low : Bool} : Keeps s (execDroopRearm low s) :=
  whenOn_keeps fun h => .ite (startStretch_safe (modClk_safe h)) (modClk_safe h)

theorem execSuspendEntry_keeps : Keeps s (execSuspendEntry s) := whenOn_keeps fun h => modClk_safe h

/-! What proceeds when a wait ends. -/

theorem resumeAll_safe (h : Safe I s) : Safe I (resumeAll s) :=
  drainBuses_safe (unstall_safe (pstResume_safe (strResume_safe (feResume_safe h))))

theorem execExchEnd_keeps : Keeps s (execExchEnd s) := whenOn_keeps fun h => resumeAll_safe (exchEnd_safe h)
theorem execReloadDone_keeps : Keeps s (execReloadDone s) := whenOn_keeps fun h => resumeAll_safe (finishReload_safe h)

theorem execZeroisationDone_keeps : Keeps s (execZeroisationDone s) :=
  whenOn_keeps fun h => .ite (drainBuses_safe (zeroEnds_safe h)) (resumeAll_safe (zeroEnds_safe h))

theorem execSuspendExit_keeps : Keeps s (execSuspendExit s) := whenOn_keeps fun h => drainBuses_safe (modClk_safe h)

/-! Resets and isolation. -/

theorem execCoreResetAssert_keeps : Keeps s (execCoreResetAssert s) := whenOn_keeps fun h => resetCore_safe h

theorem releaseReset_safe {tileId : BitVec 20} {pwrRet : Bool} (h : Safe I s) : Safe I (releaseReset s tileId pwrRet) :=
  reasons_safe (updateReq_safe (lowerLevel_safe (modPst_safe (.ite (modMem_safe rfl (with_pin_safe (modDft_safe (modCore_safe h))))
    (startZero_safe (with_pin_safe (modDft_safe (modCore_safe h))))))))

theorem execCoreReset_keeps {tileId : BitVec 20} {pwrRet : Bool} : Keeps s (execCoreReset tileId pwrRet s) :=
  whenOn_keeps fun h => drainBuses_safe (releaseReset_safe h)

theorem execIsoEngage_keeps : Keeps s (execIsoEngage s) := ⟨_, rfl, fun h => with_pin_safe h⟩
theorem execIsoRelease_keeps : Keeps s (execIsoRelease s) := ⟨_, rfl, fun h => with_pin_safe h⟩

/-! The test wrapper. -/

theorem wrapper_safe {i : WsInstr} {dr : BitVec 40} (h : Safe I s) : Safe I (wrapper s i dr) := modDft_safe h
theorem execWsBypass_keeps : Keeps s (execWsBypass s) := ⟨_, rfl, fun h => wrapper_safe h⟩
theorem loadBoundary_safe (h : Safe I s) : Safe I (loadBoundary s) := with_free_safe (modDft_safe h)
theorem execWsExtest_keeps : Keeps s (execWsExtest s) := ⟨_, rfl, fun h => wrapper_safe (loadBoundary_safe h)⟩
theorem execWsIntest_keeps : Keeps s (execWsIntest s) := ⟨_, rfl, fun _ => intrusive_safe⟩
theorem execScan_keeps : Keeps s (execScan s) := ⟨_, rfl, fun _ => intrusive_safe⟩
theorem execMbistRun_keeps : Keeps s (execMbistRun s) := whenOn_keeps fun _ => modDft_safe intrusive_safe
theorem execMbistDone_keeps {result : BitVec 40} : Keeps s (execMbistDone result s) := whenOn_keeps fun h => startZero_safe (modDft_safe h)
theorem execMbistResult_keeps : Keeps s (execMbistResult s) := ⟨_, rfl, fun h => wrapper_safe h⟩
theorem execCap_keeps {cap : BitVec 7} : Keeps s (execCap cap s) := ⟨_, rfl, fun h => reasons_safe (modGov_safe (wrapper_safe h))⟩
theorem execIdreg_keeps : Keeps s (execIdreg s) := ⟨_, rfl, fun h => wrapper_safe h⟩

end Sys2Proof.Machine
end

section
/-! PROOFS. Every command and the empty queue keep both invariants; the statements that follow. -/

namespace Sys2Proof.Machine

variable {I : Invariant} {s : State}

/-! Every command. -/

theorem exec_keeps {i : Instr} : Keeps s (exec i s) := by
  cases i with
  | syncArrival => exact execSyncArrival_keeps
  | syncRelease => exact execSyncRelease_keeps
  | shadowCopyDone => exact execShadowCopyDone_keeps
  | exchStart => exact execExchStart_keeps
  | exchSendBeat => exact execExchSendBeat_keeps
  | exchRecvBeat => exact execExchRecvBeat_keeps
  | exchEnd => exact execExchEnd_keeps
  | itinLoadDone => exact execItinLoadDone_keeps
  | stageOpChange => exact execStageOpChange_keeps
  | suspendEntry => exact execSuspendEntry_keeps
  | alertFall => exact execAlertFall_keeps
  | alertRise => exact execAlertRise_keeps
  | alertReturn => exact execAlertReturn_keeps
  | droopTrip => exact execDroopTrip_keeps
  | stretchEnd => exact execStretchEnd_keeps
  | droopRearm => exact execDroopRearm_keeps
  | add => exact execAdd_keeps
  | sub => exact execSub_keeps
  | and => exact execAnd_keeps
  | or => exact execOr_keeps
  | xor => exact execXor_keeps
  | andn => exact execAndn_keeps
  | sll => exact execSll_keeps
  | srl => exact execSrl_keeps
  | sra => exact execSra_keeps
  | slt => exact execSlt_keeps
  | sltu => exact execSltu_keeps
  | min => exact execMin_keeps
  | max => exact execMax_keeps
  | minu => exact execMinu_keeps
  | maxu => exact execMaxu_keeps
  | sxw => exact execSxw_keeps
  | zxw => exact execZxw_keeps
  | difw => exact execDifw_keeps
  | mul => exact execMul_keeps
  | mulh => exact execMulh_keeps
  | mulhu => exact execMulhu_keeps
  | div => exact execDiv_keeps
  | divu => exact execDivu_keeps
  | rem => exact execRem_keeps
  | remu => exact execRemu_keeps
  | clz => exact execClz_keeps
  | popc => exact execPopc_keeps
  | addi => exact execAddi_keeps
  | andi => exact execAndi_keeps
  | ori => exact execOri_keeps
  | xori => exact execXori_keeps
  | slli => exact execSlli_keeps
  | srli => exact execSrli_keeps
  | srai => exact execSrai_keeps
  | slti => exact execSlti_keeps
  | orhi => exact execOrhi_keeps
  | ldd => exact execLdd_keeps
  | ldw => exact execLdw_keeps
  | ldwu => exact execLdwu_keeps
  | lds => exact execLds_keeps
  | ldsu => exact execLdsu_keeps
  | ldb => exact execLdb_keeps
  | ldbu => exact execLdbu_keeps
  | std => exact execStd_keeps
  | stw => exact execStw_keeps
  | sts => exact execSts_keeps
  | stb => exact execStb_keeps
  | br => exact execBr_keeps
  | jal => exact execJal_keeps
  | jalr => exact execJalr_keeps
  | arr => exact execArr_keeps
  | vec => exact execVec_keeps
  | fac => exact execFac_keeps
  | wgh => exact execWgh_keeps
  | str => exact execStr_keeps
  | pst => exact execPst_keeps
  | sth => exact execSth_keeps
  | sync => exact execSync_keeps
  | sig => exact execSig_keeps
  | sigBar => exact execSigBar_keeps
  | sigSet => exact execSigSet_keeps
  | wait => exact execWait_keeps
  | few => exact execFew_keeps
  | fer => exact execFer_keeps
  | wake => exact execWake_keeps
  | fence => exact execFence_keeps
  | fenceDone => exact execFenceDone_keeps
  | rng => exact execRng_keeps
  | phase => exact execPhase_keeps
  | manLoad => exact execManLoad_keeps
  | manArm => exact execManArm_keeps
  | mfs => exact execMfs_keeps
  | mts => exact execMts_keeps
  | ctx => exact execCtx_keeps
  | brk => exact execBrk_keeps
  | engineRetire => exact execEngineRetire_keeps
  | queueDiscard => exact execQueueDiscard_keeps
  | arrMm => exact execArrMm_keeps
  | arrConv => exact execArrConv_keeps
  | arrCar => exact execArrCar_keeps
  | arrList => exact execArrList_keeps
  | arrFlush => exact execArrFlush_keeps
  | itemClaim => exact execItemClaim_keeps
  | itemSteal => exact execItemSteal_keeps
  | listEntryClaim => exact execListEntryClaim_keeps
  | caravanDeadline => exact execCaravanDeadline_keeps
  | baleDrain => exact execBaleDrain_keeps
  | baleRead => exact execBaleRead_keeps
  | vecRun => exact execVecRun_keeps
  | vecProg => exact execVecProg_keeps
  | vecPerm => exact execVecPerm_keeps
  | vecShuf => exact execVecShuf_keeps
  | vecPack => exact execVecPack_keeps
  | vecUnpk => exact execVecUnpk_keeps
  | vecVld => exact execVecVld_keeps
  | vecVst => exact execVecVst_keeps
  | vecBcst => exact execVecBcst_keeps
  | vecRds => exact execVecRds_keeps
  | facStep => exact execFacStep_keeps
  | scheduleGroupEval => exact execScheduleGroupEval_keeps
  | facP1 => exact execFacP1_keeps
  | facToken => exact execFacToken_keeps
  | facP2 => exact execFacP2_keeps
  | facCommit => exact execFacCommit_keeps
  | facCnt => exact execFacCnt_keeps
  | wghRead => exact execWghRead_keeps
  | wghStep => exact execWghStep_keeps
  | wghLsread => exact execWghLsread_keeps
  | wghFlags => exact execWghFlags_keeps
  | wghClr => exact execWghClr_keeps
  | strGet => exact execStrGet_keeps
  | strPut => exact execStrPut_keeps
  | strRput => exact execStrRput_keeps
  | streamCredit => exact execStreamCredit_keeps
  | packetIssue => exact execPacketIssue_keeps
  | rdatReceived => exact execRdatReceived_keeps
  | ackReceived => exact execAckReceived_keeps
  | rputReceived => exact execRputReceived_keeps
  | pstSend => exact execPstSend_keeps
  | pstAck => exact execPstAck_keeps
  | pstOpen => exact execPstOpen_keeps
  | pstClose => exact execPstClose_keeps
  | postCredit => exact execPostCredit_keeps
  | postTransmit => exact execPostTransmit_keeps
  | inboundMessage => exact execInboundMessage_keeps
  | postResponse => exact execPostResponse_keeps
  | postResend => exact execPostResend_keeps
  | sthPut => exact execSthPut_keeps
  | sthGet => exact execSthGet_keeps
  | sthFree => exact execSthFree_keeps
  | sthQuery => exact execSthQuery_keeps
  | watchmanFire => exact execWatchmanFire_keeps
  | handSetVal => exact execHandSetVal_keeps
  | handSetState => exact execHandSetState_keeps
  | fePut => exact execFePut_keeps
  | feTake => exact execFeTake_keeps
  | fePeek => exact execFePeek_keeps
  | feForce => exact execFeForce_keeps
  | manCtrlLoad => exact execManCtrlLoad_keeps
  | manCtrlArm => exact execManCtrlArm_keeps
  | manCtrlDisarm => exact execManCtrlDisarm_keeps
  | manCtrlResume => exact execManCtrlResume_keeps
  | manCtrlDiscard => exact execManCtrlDiscard_keeps
  | manifestLoadDone => exact execManifestLoadDone_keeps
  | shadowWrite => exact execShadowWrite_keeps
  | debugLiveWrite => exact execDebugLiveWrite_keeps
  | coreCtxWrite => exact execCoreCtxWrite_keeps
  | coreCtxReload => exact execCoreCtxReload_keeps
  | reloadDone => exact execReloadDone_keeps
  | memCtrlZero => exact execMemCtrlZero_keeps
  | zeroisationDone => exact execZeroisationDone_keeps
  | scrubRead => exact execScrubRead_keeps
  | scrubWriteback => exact execScrubWriteback_keeps
  | memSthCtrlClear => exact execMemSthCtrlClear_keeps
  | jrnlCtrlReplay => exact execJrnlCtrlReplay_keeps
  | jrnlCtrlCancel => exact execJrnlCtrlCancel_keeps
  | facCtrlRollback => exact execFacCtrlRollback_keeps
  | fltCtrlClear => exact execFltCtrlClear_keeps
  | fltCtrlWrest => exact execFltCtrlWrest_keeps
  | fltCtrlInj => exact execFltCtrlInj_keeps
  | fltCtrlFclr => exact execFltCtrlFclr_keeps
  | fatalFault => exact execFatalFault_keeps
  | govCtrlMark => exact execGovCtrlMark_keeps
  | govCtrlTrfclr => exact execGovCtrlTrfclr_keeps
  | govDbgWrite => exact execGovDbgWrite_keeps
  | allowanceStrobe => exact execAllowanceStrobe_keeps
  | defaultWindow => exact execDefaultWindow_keeps
  | maskUpdate => exact execMaskUpdate_keeps
  | budgetRequest => exact execBudgetRequest_keeps
  | phaseBegin => exact execPhaseBegin_keeps
  | thermalChange => exact execThermalChange_keeps
  | marginReading => exact execMarginReading_keeps
  | operatingPointNotice => exact execOperatingPointNotice_keeps
  | ledgerTick => exact execLedgerTick_keeps
  | ldgCtrlSnap => exact execLdgCtrlSnap_keeps
  | snapshotCapture => exact execSnapshotCapture_keeps
  | autoSnapshot => exact execAutoSnapshot_keeps
  | ldgCtrlRestore => exact execLdgCtrlRestore_keeps
  | ldgCtrlInit => exact execLdgCtrlInit_keeps
  | ldgWallofsWrite => exact execLdgWallofsWrite_keeps
  | saveWord => exact execSaveWord_keeps
  | restoreWord => exact execRestoreWord_keeps
  | restoreGo => exact execRestoreGo_keeps
  | keyLd => exact execKeyLd_keeps
  | rekey => exact execRekey_keeps
  | keyEnd => exact execKeyEnd_keeps
  | keyPermitRise => exact execKeyPermitRise_keeps
  | keyPermitFall => exact execKeyPermitFall_keeps
  | secCtrlCode => exact execSecCtrlCode_keeps
  | codeLoadDone => exact execCodeLoadDone_keeps
  | secDbgReqWrite => exact execSecDbgReqWrite_keeps
  | secSeCurWrite => exact execSecSeCurWrite_keeps
  | xchTctrlWrite => exact execXchTctrlWrite_keeps
  | dbgCtrlHalt => exact execDbgCtrlHalt_keeps
  | dbgCtrlResume => exact execDbgCtrlResume_keeps
  | dbgCtrlStep => exact execDbgCtrlStep_keeps
  | dbgSdataAccess => exact execDbgSdataAccess_keeps
  | dbgPcset => exact execDbgPcset_keeps
  | memoryWindowAccess => exact execMemoryWindowAccess_keeps
  | wideRegisterRead => exact execWideRegisterRead_keeps
  | wideRegisterWrite => exact execWideRegisterWrite_keeps
  | registerWrite => exact execRegisterWrite_keeps
  | aoReset => exact execAoReset_keeps
  | coreReset => exact execCoreReset_keeps
  | coreResetAssert => exact execCoreResetAssert_keeps
  | isoEngage => exact execIsoEngage_keeps
  | isoRelease => exact execIsoRelease_keeps
  | wsBypass => exact execWsBypass_keeps
  | wsExtest => exact execWsExtest_keeps
  | wsIntest => exact execWsIntest_keeps
  | scan => exact execScan_keeps
  | mbistRun => exact execMbistRun_keeps
  | mbistDone => exact execMbistDone_keeps
  | mbistResult => exact execMbistResult_keeps
  | cap => exact execCap_keeps
  | idreg => exact execIdreg_keeps
  | suspendExit => exact execSuspendExit_keeps
  | reservedOpcode w => exact execReservedOpcode_keeps (w := w)

/-! An empty queue. -/

theorem tickArr_safe (h : Safe I s) : Safe I (tickArr s) := .ite (progress_safe (modArr_safe (spend_safe h))) (modArr_safe (spend_safe h))

theorem tickChain_safe (h : Safe I s) : Safe I (tickChain s) :=
  .ite h (.ite (await_safe h) (.ite (await_safe h) (moveBeats_safe (enterBeats_safe h))))

theorem tickEng_safe (h : Safe I s) : Safe I (tickEng s) := modFac_safe (modVec_safe (tickChain_safe h))

theorem tickDivider_safe (h : Safe I s) : Safe I (tickDivider s) :=
  .ite (.ite (tickEng_safe (tickArr_safe (modLdg_safe (modGov_safe (spend_safe h))))) (modLdg_safe (modGov_safe (spend_safe h)))) h

theorem tickMem_safe (h : Safe I s) : Safe I (tickMem s) := .ite (h.frame (loseRounds_bytes ..) rfl) h
theorem tickCredits_safe (h : Safe I s) : Safe I (tickCredits s) := modPst_safe (modStr_safe h)
theorem tickSyn_safe (h : Safe I s) : Safe I (tickSyn s) := modSyn_safe h
theorem tickStr_safe (h : Safe I s) : Safe I (tickStr s) := modStr_safe h
theorem tickCore_safe (h : Safe I s) : Safe I (tickCore s) := modCore_safe h

theorem tickUnits_safe (h : Safe I s) : Safe I (tickUnits s) :=
  .foldl (fun _ _ ht => meetStore_safe ht) (pstResume_safe (clearMbox_safe (settleAll_safe (modClk_safe (tickCore_safe (tickStr_safe
    (tickDivider_safe (tickMem_safe (tickSyn_safe h)))))))))

theorem tick_safe (h : Safe I s) : Safe I (tick s) := .ite (tickCredits_safe (tickUnits_safe h)) (.ite (tickCredits_safe h) h)

theorem step_keeps : Keeps s (step s) := by
  unfold step
  split
  · exact ⟨_, rfl, tick_safe⟩
  case h_2 c rest _ =>
    obtain ⟨t, ht, hk⟩ := exec_keeps (i := c) (s := { s with pending := rest })
    exact ⟨t, ht, fun h => hk (with_pending_safe h)⟩

/-- What a step reaches from a safe state is safe. -/
theorem step_safe {t : State} (h : Safe I s) (hs : step s = .next t) : Safe I t := by
  obtain ⟨u, hu, hk⟩ := step_keeps (s := s)
  obtain rfl : t = u := by rw [hu] at hs; exact (Host.Outcome.next.inj hs).symm
  exact hk h

/-- Settles O4: every operation of the model keeps the canonical form and the bound of local memory, whatever the fault log holds. -/
theorem stepKeepsMemory : Obligations.StepKeepsMemory := fun _ _ h hs =>
  (safe_memory _).1 (step_safe ((safe_memory _).2 h) hs)

/-- Settles O5: every operation of the model keeps the bound of the fault log, whatever local memory holds. -/
theorem stepKeepsLog : Obligations.StepKeepsLog := fun _ _ h hs =>
  (safe_faultLog _).1 (step_safe ((safe_faultLog _).2 h) hs)

end Sys2Proof.Machine
end

section
/-! PROOFS. A step runs the front of the queue, and the state after reset (15 R360; 17 R416). -/

namespace Sys2Proof.Machine

/-- Settles O1: a step takes the front of the queue off and runs it. -/
theorem stepRunsFront : Obligations.StepRunsFront := fun _ _ _ => rfl

/-- Every register of a machine whose contexts hold nothing reads 0 (03 R72). -/
theorem rd_eq_zero_of_no_ctxs {s : State} (h : s.core.ctxs = []) (r : SReg) : rd s r = 0 := by
  rw [rd, curCtx, ctxOf, h, tabGet_nil, Ctx.reg]
  split <;> rfl

/-- Settles O6: every field at its reset value, memory and objects unlisted. -/
theorem resetState : Obligations.ResetState := by
  exact ⟨⟨rfl, fun _ hc => absurd hc List.not_mem_nil⟩, Nat.zero_le _, rfl, rfl, rfl, rfl, rfl, rfl, rfl, rfl, rd_eq_zero_of_no_ctxs rfl,
    fun _ => rfl, fun _ => rfl⟩

end Sys2Proof.Machine
end

section
/-! PROOFS. Decoding gives back every well-formed instruction of the control core (03 Tables 2 to 4). -/

namespace Sys2Proof.Machine

/-- Settles O3: the control core's instructions one by one; no word spells any other command. -/
theorem decodeEncode : Obligations.DecodeEncode := by
  intro i
  cases i with
  | add f => exact Laws.Decoding.add f
  | sub f => exact Laws.Decoding.sub f
  | and f => exact Laws.Decoding.and f
  | or f => exact Laws.Decoding.or f
  | xor f => exact Laws.Decoding.xor f
  | andn f => exact Laws.Decoding.andn f
  | sll f => exact Laws.Decoding.sll f
  | srl f => exact Laws.Decoding.srl f
  | sra f => exact Laws.Decoding.sra f
  | slt f => exact Laws.Decoding.slt f
  | sltu f => exact Laws.Decoding.sltu f
  | min f => exact Laws.Decoding.min f
  | max f => exact Laws.Decoding.max f
  | minu f => exact Laws.Decoding.minu f
  | maxu f => exact Laws.Decoding.maxu f
  | sxw f => exact Laws.Decoding.sxw f
  | zxw f => exact Laws.Decoding.zxw f
  | difw f => exact Laws.Decoding.difw f
  | mul f => exact Laws.Decoding.mul f
  | mulh f => exact Laws.Decoding.mulh f
  | mulhu f => exact Laws.Decoding.mulhu f
  | div f => exact Laws.Decoding.div f
  | divu f => exact Laws.Decoding.divu f
  | rem f => exact Laws.Decoding.rem f
  | remu f => exact Laws.Decoding.remu f
  | clz f => exact Laws.Decoding.clz f
  | popc f => exact Laws.Decoding.popc f
  | addi f => exact Laws.Decoding.addi f
  | andi f => exact Laws.Decoding.andi f
  | ori f => exact Laws.Decoding.ori f
  | xori f => exact Laws.Decoding.xori f
  | slli f => exact Laws.Decoding.slli f
  | srli f => exact Laws.Decoding.srli f
  | srai f => exact Laws.Decoding.srai f
  | slti f => exact Laws.Decoding.slti f
  | orhi f => exact Laws.Decoding.orhi f
  | ldd f => exact Laws.Decoding.ldd f
  | ldw f => exact Laws.Decoding.ldw f
  | ldwu f => exact Laws.Decoding.ldwu f
  | lds f => exact Laws.Decoding.lds f
  | ldsu f => exact Laws.Decoding.ldsu f
  | ldb f => exact Laws.Decoding.ldb f
  | ldbu f => exact Laws.Decoding.ldbu f
  | std f => exact Laws.Decoding.std f
  | stw f => exact Laws.Decoding.stw f
  | sts f => exact Laws.Decoding.sts f
  | stb f => exact Laws.Decoding.stb f
  | br f => exact Laws.Decoding.br f
  | jal f => exact Laws.Decoding.jal f
  | jalr f => exact Laws.Decoding.jalr f
  | arr f => exact Laws.Decoding.arr f
  | vec f => exact Laws.Decoding.vec f
  | fac f => exact Laws.Decoding.fac f
  | wgh f => exact Laws.Decoding.wgh f
  | str f => exact Laws.Decoding.str f
  | pst f => exact Laws.Decoding.pst f
  | sth f => exact Laws.Decoding.sth f
  | sync f => exact Laws.Decoding.sync f
  | sig f => exact Laws.Decoding.sig f
  | sigBar f => exact Laws.Decoding.sigBar f
  | sigSet f => exact Laws.Decoding.sigSet f
  | wait f => exact Laws.Decoding.wait f
  | few f => exact Laws.Decoding.few f
  | fer f => exact Laws.Decoding.fer f
  | fence f => exact Laws.Decoding.fence f
  | rng f => exact Laws.Decoding.rng f
  | phase f => exact Laws.Decoding.phase f
  | manLoad f => exact Laws.Decoding.manLoad f
  | manArm f => exact Laws.Decoding.manArm f
  | mfs f => exact Laws.Decoding.mfs f
  | mts f => exact Laws.Decoding.mts f
  | ctx f => exact Laws.Decoding.ctx f
  | brk f => exact Laws.Decoding.brk f
  | reservedOpcode w => exact Laws.Decoding.reservedOpcode w
  | _ => exact Laws.Decoding.noWord rfl

end Sys2Proof.Machine
end
section
/-! PROOFS. Scalar arithmetic: register and immediate functions (03 R77, Tables 3 and 4). -/

namespace Sys2Proof.Machine

/-- The instruction answers a state in which it has completed: D holds v, and nothing else of u changed. -/
def Gives (u : State) (r : Res) (d : SReg) (v : Dword) (n : Nat) : Prop := ∃ t, r = .next t ∧ Wrote u t d v n

section
variable {s : State} {f : RForm} (h : Runs s 4) (hx : f.x = false) (h9 : f.f96 = 0)
include h hx h9

/-- A register function completes with its value of A and B. -/
theorem aluR_gives (op : Dword → Dword → Dword) {v : Dword} (hv : op (rd s f.a) (rd s f.b) = v) :
    Gives (fetched s 4) (aluR s f op) f.d v 4 := by
  refine ⟨_, h.instr_legal (by simp [hx, h9]) _, ?_⟩
  simp only [h.rd_fetched, hv]
  exact wrAdvance_wrote ..

end

/-- A word moved into the upper half. -/
theorem setWidth_shiftLeft_eq_append (e : Word) : (e.setWidth 64 <<< 32 : Dword) = e ++ (0 : Word) := by
  refine BitVec.eq_of_getLsbD_eq fun i hi => ?_
  rw [BitVec.getLsbD_append]
  by_cases hlow : i < 32 <;> simp [hlow, hi]

section
variable {s : State} {f : IForm} (h : Runs s (lenOf f.ext))
include h

/-- An immediate function completes with its value of A and the immediate. -/
theorem aluI_gives (op : Dword → Dword → Dword) {v : Dword} (hv : op (rd s f.a) (immOf f.ext f.imm) = v) :
    Gives (fetched s (lenOf f.ext)) (aluI s f op) f.d v (lenOf f.ext) := by
  refine ⟨_, h.instr_legal rfl _, ?_⟩
  simp only [h.rd_fetched, hv]
  exact wrAdvance_wrote ..

/-- A shift by an immediate below 64 completes with its value of A and the amount. -/
theorem shiftI_gives (he : f.ext = none) (hi : f.imm.toNat < 64) (op : Dword → Nat → Dword) :
    Gives (fetched s (lenOf f.ext)) (shiftI s f op) f.d (op (rd s f.a) f.imm.toNat) (lenOf f.ext) := by
  refine ⟨_, h.instr_legal (by simp [he, hi]) _, ?_⟩
  simp only [h.rd_fetched, Nat.mod_eq_of_lt hi]
  exact wrAdvance_wrote ..

/-- ORHI completes with its extension word in the upper half. -/
theorem orhi_gives {e : Word} (he : f.ext = some e) (hi : f.imm = 0) :
    Gives (fetched s (lenOf f.ext)) (execOrhi f s) f.d (rd s f.a ||| (e ++ (0 : Word))) (lenOf f.ext) := by
  refine ⟨_, h.instr_legal (by simp [he, hi]) _, ?_⟩
  have hext : (extOf f.ext).setWidth 64 <<< 32 = e ++ (0 : Word) := by
    rw [he]
    exact setWidth_shiftLeft_eq_append e
  simp only [h.rd_fetched, hext]
  exact wrAdvance_wrote ..

end

/-! The values of Table 4, as the operations of bit vectors. -/

theorem toNat_extractLsb'_six (b : Dword) : (b.extractLsb' 0 6).toNat = b.toNat % 64 := by simp

theorem low_eq_extractLsb' (a : Dword) : a.setWidth 32 = a.extractLsb' 0 32 := BitVec.setWidth_eq_extractLsb' (by decide)

/-- The larger of two values, whichever is compared with the other. -/
theorem signedMax_comm (a b : Dword) : (if a.toInt < b.toInt then b else a) = if b.slt a then a else b := by
  rcases lt_trichotomy a.toInt b.toInt with hlt | heq | hgt
  · simp [BitVec.slt, hlt, hlt.le]
  · simp [BitVec.eq_of_toInt_eq heq]
  · simp [BitVec.slt, hgt, hgt.le]

theorem unsignedMax_comm (a b : Dword) : (if a.toNat < b.toNat then b else a) = if b.ult a then a else b := by
  rcases lt_trichotomy a.toNat b.toNat with hlt | heq | hgt
  · simp [BitVec.ult, hlt, hlt.le]
  · simp [BitVec.eq_of_toNat_eq heq]
  · simp [BitVec.ult, hgt, hgt.le]

/-- The signed product of 128 bits. -/
theorem signExtend_mul (a b : Dword) : a.signExtend 128 * b.signExtend 128 = BitVec.ofInt 128 (a.toInt * b.toInt) := by
  rw [BitVec.ofInt_mul, ← BitVec.toInt_signExtend_of_le (x := a) (v := 128) (by decide),
    ← BitVec.toInt_signExtend_of_le (x := b) (v := 128) (by decide), BitVec.ofInt_toInt, BitVec.ofInt_toInt]

theorem mul_eq_low (a b : Dword) : a * b = (a.signExtend 128 * b.signExtend 128).extractLsb' 0 64 := by
  refine BitVec.eq_of_toNat_eq ?_
  have hlow : a * b = BitVec.ofInt 64 (a.toInt * b.toInt) := by rw [BitVec.ofInt_mul, BitVec.ofInt_toInt, BitVec.ofInt_toInt]
  rw [hlow, signExtend_mul, BitVec.extractLsb'_toNat, BitVec.toNat_ofInt, BitVec.toNat_ofInt]
  generalize a.toInt * b.toInt = p
  simp only [Nat.shiftRight_zero]
  omega

theorem mulh_eq_high (a b : Dword) : BitVec.ofInt 64 (a.toInt * b.toInt / 2 ^ 64) = (a.signExtend 128 * b.signExtend 128).extractLsb' 64 64 := by
  refine BitVec.eq_of_toNat_eq ?_
  rw [signExtend_mul, BitVec.extractLsb'_toNat, BitVec.toNat_ofInt, BitVec.toNat_ofInt]
  generalize a.toInt * b.toInt = p
  rw [Nat.shiftRight_eq_div_pow]
  omega

theorem mulhu_eq_high (a b : Dword) : BitVec.ofNat 64 (a.toNat * b.toNat / 2 ^ 64) = (a.zeroExtend 128 * b.zeroExtend 128).extractLsb' 64 64 := by
  refine BitVec.eq_of_toNat_eq ?_
  have hp : a.toNat * b.toNat < 2 ^ 128 := by
    calc a.toNat * b.toNat < 2 ^ 64 * 2 ^ 64 := Nat.mul_lt_mul'' a.isLt b.isLt
      _ = 2 ^ 128 := by norm_num
  rw [BitVec.extractLsb'_toNat, BitVec.toNat_mul, BitVec.toNat_setWidth_of_le (by decide), BitVec.toNat_setWidth_of_le (by decide),
    Nat.mod_eq_of_lt hp, Nat.shiftRight_eq_div_pow, BitVec.toNat_ofNat]

theorem divS_eq_sdiv (a b : Dword) : divS a b = if b = 0 then -1 else a.sdiv b := by
  unfold divS
  split
  · rfl
  · exact BitVec.eq_of_toInt_eq (by rw [BitVec.toInt_ofInt, BitVec.toInt_sdiv])

theorem divU_eq_udiv (a b : Dword) : divU a b = if b = 0 then -1 else a / b := by
  unfold divU
  split
  · rfl
  · rw [← BitVec.toNat_udiv, BitVec.ofNat_toNat, BitVec.setWidth_eq]

theorem remS_eq_srem (a b : Dword) : remS a b = if b = 0 then a else a.srem b := by
  rw [remS, ← BitVec.toInt_srem, BitVec.ofInt_toInt]

theorem remU_eq_umod (a b : Dword) : remU a b = if b = 0 then a else a % b := by
  rw [remU, ← BitVec.toNat_umod, BitVec.ofNat_toNat, BitVec.setWidth_eq]

theorem leadingZeros_le (a : Dword) : leadingZeros a ≤ 64 := by
  unfold leadingZeros
  split <;> omega

theorem log2_lt_width {a : Dword} (ha : a ≠ 0) : Nat.log2 a.toNat < 64 :=
  (Nat.log2_lt (by simpa [BitVec.toNat_eq] using ha)).mpr a.isLt

/-- The leading zeros are zeros. -/
theorem getLsbD_of_leadingZeros (a : Dword) {i : Nat} (hi : 64 - leadingZeros a ≤ i) : a.getLsbD i = false := by
  unfold leadingZeros at hi
  split at hi
  next ha => simp [ha]
  next ha =>
    have hlog := log2_lt_width ha
    exact Nat.testBit_lt_two_pow (Nat.lt_log2_self.trans_le (Nat.pow_le_pow_right (by decide) (by omega)))

/-- The bit below the leading zeros is set. -/
theorem getLsbD_below_leadingZeros {a : Dword} (h : leadingZeros a < 64) : a.getLsbD (63 - leadingZeros a) = true := by
  unfold leadingZeros at h ⊢
  split at h
  next => omega
  next ha =>
    have hlog := log2_lt_width ha
    rw [if_neg ha, Nat.sub_sub_self (by omega)]
    exact Nat.testBit_log2 (by simpa [BitVec.toNat_eq] using ha)

theorem setBits_eq_sum (a : Dword) : setBits a = ((List.range 64).map (fun i => if a.getLsbD i then 1 else 0)).sum := by
  rw [setBits, List.sum_map_ite]
  simp

/-- Settles O7: each register function is aluR of its value. -/
theorem aluRegister : Obligations.AluRegister := by
  intro s f h hx h9 a b n gives
  have hn : b.toNat % 64 = n := (toNat_extractLsb'_six b).symm
  have gives_of (op : Dword → Dword → Dword) {v : Dword} (hv : op a b = v) := aluR_gives h hx h9 op hv
  refine ⟨gives_of (· + ·) rfl, gives_of (· - ·) rfl, gives_of (· &&& ·) rfl, gives_of (· ||| ·) rfl, gives_of (· ^^^ ·) rfl,
    gives_of (· &&& ~~~·) rfl, gives_of (fun a b => a <<< (b.toNat % 64)) (by rw [hn]),
    gives_of (fun a b => a >>> (b.toNat % 64)) (by rw [hn]),
    gives_of (fun a b => a.sshiftRight (b.toNat % 64)) (by rw [hn]),
    gives_of (fun a b => if a.toInt < b.toInt then 1 else 0) (by simp [BitVec.slt]),
    gives_of (fun a b => if a.toNat < b.toNat then 1 else 0) (by simp [BitVec.ult]),
    gives_of (fun a b => if a.toInt < b.toInt then a else b) (by simp [BitVec.slt]),
    gives_of (fun a b => if a.toInt < b.toInt then b else a) (signedMax_comm a b),
    gives_of (fun a b => if a.toNat < b.toNat then a else b) (by simp [BitVec.ult]),
    gives_of (fun a b => if a.toNat < b.toNat then b else a) (unsignedMax_comm a b),
    gives_of (fun a _ => (a.setWidth 32).signExtend 64) (by rw [low_eq_extractLsb']),
    gives_of (fun a _ => (a.setWidth 32).setWidth 64) (by rw [low_eq_extractLsb']),
    gives_of (fun a b => ((a - b).setWidth 32).signExtend 64) (by rw [low_eq_extractLsb'])⟩

/-- Settles O8: each function is aluR of its value, which the lemmas above give as an operation of bit vectors. -/
theorem mulDivCount : Obligations.MulDivCount := by
  intro s f h hx h9 a b gives
  have gives_of (op : Dword → Dword → Dword) {v : Dword} (hv : op a b = v) := aluR_gives h hx h9 op hv
  refine ⟨gives_of (· * ·) (mul_eq_low a b), gives_of (fun a b => BitVec.ofInt 64 (a.toInt * b.toInt / 2 ^ 64)) (mulh_eq_high a b),
    gives_of (fun a b => BitVec.ofNat 64 (a.toNat * b.toNat / 2 ^ 64)) (mulhu_eq_high a b), gives_of divS (divS_eq_sdiv a b),
    gives_of divU (divU_eq_udiv a b), gives_of remS (remS_eq_srem a b), gives_of remU (remU_eq_umod a b),
    ⟨leadingZeros a, gives_of (fun a _ => BitVec.ofNat 64 (leadingZeros a)) rfl, leadingZeros_le a,
      fun _ hi => getLsbD_of_leadingZeros a hi, getLsbD_below_leadingZeros⟩,
    gives_of (fun a _ => BitVec.ofNat 64 (setBits a)) (congrArg _ (setBits_eq_sum a))⟩

/-- Settles O9: each function is aluI or shiftI of its value, or ORHI. -/
theorem aluImmediate : Obligations.AluImmediate := by
  intro s f h a imm gives
  have gives_of (op : Dword → Dword → Dword) {v : Dword} (hv : op a imm = v) := aluI_gives h op hv
  exact ⟨gives_of (· + ·) rfl, gives_of (· &&& ·) rfl, gives_of (· ||| ·) rfl, gives_of (· ^^^ ·) rfl,
    gives_of (fun a i => if a.toInt < i.toInt then 1 else 0) (by simp [BitVec.slt]),
    fun he hi => ⟨shiftI_gives h he hi (· <<< ·), shiftI_gives h he hi (· >>> ·), shiftI_gives h he hi BitVec.sshiftRight⟩,
    fun _ he hi => orhi_gives h he hi⟩

end Sys2Proof.Machine
end
section
/-! PROOFS. Loads, stores, branches and jumps (03 R75, R78 to R80, Tables 3, 5 and 6). -/

namespace Sys2Proof.Machine

/-! Reading meets errors and changes none. -/

theorem eccRdOne_ecc (req : Nat) (s : State) (p : Nat × EccErr) : (eccRdOne req s p).mem.ecc = s.mem.ecc := by
  unfold eccRdOne
  split
  · rfl
  · rfl
  · unfold memUe
    rw [raise_frame]
    split <;> rfl

theorem eccFold_ecc (req : Nat) (l : List (Nat × EccErr)) (s : State) : (l.foldl (eccRdOne req) s).mem.ecc = s.mem.ecc := by
  induction l generalizing s with
  | nil => rfl
  | cons p l ih => rw [List.foldl_cons, ih, eccRdOne_ecc]

@[simp] theorem touchRead_ecc (s : State) (req a n : Nat) : (touchRead s req a n).mem.ecc = s.mem.ecc := by
  unfold touchRead
  rw [serve_ecc]
  exact eccFold_ecc req _ s

/-- What a read found is found again: errors are corrected where they are read, and stay in memory until they are written back. -/
theorem hasDouble_touchRead (s : State) (req a n b k : Nat) : hasDouble (touchRead s req a n) b k = hasDouble s b k := by
  rw [hasDouble, eccIn, touchRead_ecc, hasDouble, eccIn]

theorem mNat_touchRead (s : State) (req a n b k : Nat) : mNat (touchRead s req a n) b k = mNat s b k := by
  rw [mNat, touchRead_bytes, mNat]

/-- A completed instruction leaves memory as it was. -/
theorem Completed.mem {s t : State} {d : SReg} {v : Dword} {pc : Addr} (h : Completed s t d v pc) : t.mem = s.mem := by
  rw [h.units]

theorem Completed.q {s t : State} {d : SReg} {v : Dword} {pc : Addr} (h : Completed s t d v pc) : t.q = s.q := by
  rw [h.units]

/-- An instruction of memory that runs, and whose access need not wait, does its body on the state after its fetch. -/
theorem Runs.instrMem_ready {s : State} {n : Nat} (h : Runs s n) {acc : Option (Nat × Nat)}
    (hacc : ∀ a k, acc = some (a, k) → memWaits s a k = false) (body : State → State) :
    instrMem s n true acc body = .next (body (fetched s n)) := by
  unfold instrMem
  split
  case h_1 a k =>
    simp only [hacc a k rfl, Bool.and_false, Bool.false_eq_true, if_false]
    exact h.instr_legal rfl body
  case h_2 => exact h.instr_legal rfl body

theorem dvd_accAddr (s : State) (f : IForm) (k : Nat) : 2 ^ k ∣ accAddr s f k := Nat.dvd_mul_left ..

theorem permits_le {s : State} {ps : List Nat} {a n : Nat} (h : permits s ps a n = true) : a + n ≤ memTop := by
  simp only [permits, Bool.and_eq_true, decide_eq_true_eq] at h
  exact h.1

/-! Loads. -/

/-- A permitted load that need not wait completes with the value that it reads. -/
theorem load_wrote {s : State} {f : IForm} {k : Nat} (h : Runs s (lenOf f.ext))
    (hp : permits s loadParts (accAddr s f k) (2 ^ k) = true) (hw : memWaits s (accAddr s f k) (2 ^ k) = false) (ext : Nat → Dword) :
    ∃ t, load s f k ext = .next t ∧
      Wrote (touchRead (fetched s (lenOf f.ext)) rqDATA (accAddr s f k) (2 ^ k)) t f.d
        (ext (memNat s.mem.bytes (accAddr s f k) (2 ^ k))) (lenOf f.ext) := by
  refine ⟨_, h.instrMem_ready (fun a n hacc => ?_) _, ?_⟩
  · rw [if_pos hp] at hacc
    cases hacc
    exact hw
  · have hread : mNat (touchRead (fetched s (lenOf f.ext)) rqDATA (accAddr s f k) (2 ^ k)) (accAddr s f k) (2 ^ k) =
        memNat s.mem.bytes (accAddr s f k) (2 ^ k) := by
      rw [mNat_touchRead, fetched, mNat_touchRead, mNat]
    simp only [hp, Bool.not_true, Bool.false_eq_true, if_false, hread]
    exact wrAdvance_wrote ..

/-- What the load instructions extend. -/
theorem exec_load_listed {s : State} {f : IForm} {i : Instr} {k : Nat} {sgn : Bool}
    (hi : (i, k, sgn) ∈ [(Instr.ldd f, 3, false), (.ldw f, 2, true), (.ldwu f, 2, false), (.lds f, 1, true), (.ldsu f, 1, false),
      (.ldb f, 0, true), (.ldbu f, 0, false)]) :
    exec i s = load s f k (fun v => if sgn then (BitVec.ofNat (8 * 2 ^ k) v).signExtend 64 else BitVec.ofNat 64 v) := by
  simp only [List.mem_cons, Prod.mk.injEq, List.not_mem_nil, or_false] at hi
  rcases hi with ⟨rfl, rfl, rfl⟩ | ⟨rfl, rfl, rfl⟩ | ⟨rfl, rfl, rfl⟩ | ⟨rfl, rfl, rfl⟩ | ⟨rfl, rfl, rfl⟩ | ⟨rfl, rfl, rfl⟩ | ⟨rfl, rfl, rfl⟩ <;> rfl

/-- Settles O10: every load is load_wrote with its extension. -/
theorem loads : Obligations.Loads := by
  intro s f i k sgn hi a n v h hp hw _
  obtain ⟨t, ht, hwrote⟩ := load_wrote h hp hw (fun v => if sgn then (BitVec.ofNat (8 * 2 ^ k) v).signExtend 64 else BitVec.ofNat 64 v)
  refine ⟨t, (exec_load_listed hi).trans ht, hwrote, fun x => ?_, dvd_accAddr s f k, Nat.div_mul_le_self .., ?_⟩
  · rw [hwrote.mem, touchRead_bytes, fetched_sameBytes]
  · exact Nat.lt_div_mul_add (by positivity)

/-! Stores. -/

theorem leBytes_succ {w : Nat} (n : Nat) (v : BitVec w) : leBytes (n + 1) v = BitVec.ofNat 8 v.toNat :: leBytes n (v >>> 8) := by
  have hshift (i : Nat) : v.toNat >>> (8 * (i + 1)) = v.toNat >>> 8 >>> (8 * i) := by rw [← Nat.shiftRight_add]; congr 1; omega
  simp [leBytes, List.range_succ_eq_map, Function.comp_def, hshift]

/-- The low bytes of a word spell it modulo their range. -/
theorem leNat_leBytes {w : Nat} (n : Nat) (v : BitVec w) : leNat (leBytes n v) = v.toNat % 2 ^ (8 * n) := by
  induction n generalizing v with
  | zero => simp [leBytes, leNat, Nat.mod_one]
  | succ n ih =>
    rw [leBytes_succ, leNat, ih, BitVec.toNat_ofNat, BitVec.toNat_ushiftRight, Nat.shiftRight_eq_div_pow, Nat.mul_succ,
      Nat.pow_add', Nat.mod_mul]

/-- A permitted store that need not wait writes the low bytes of D and completes. -/
theorem store_wrote {s : State} {f : IForm} {k : Nat} (h : Runs s (lenOf f.ext))
    (hp : permits s storeParts (accAddr s f k) (2 ^ k) = true) (hw : memWaits s (accAddr s f k) (2 ^ k) = false) :
    ∃ t, store s f k = .next t ∧
      Wrote (memWr (fetched s (lenOf f.ext)) rqDATA (accAddr s f k) (leBytes (2 ^ k) (rd s f.d))) t 0 0 (lenOf f.ext) := by
  refine ⟨_, h.instrMem_ready (fun a n hacc => ?_) _, ?_⟩
  · rw [if_pos hp] at hacc
    cases hacc
    exact hw
  · simp only [hp, Bool.not_true, Bool.false_eq_true, if_false, h.rd_fetched]
    exact advance_wrote ..

theorem exec_store_listed {s : State} {f : IForm} {i : Instr} {k : Nat}
    (hi : (i, k) ∈ [(Instr.std f, 3), (.stw f, 2), (.sts f, 1), (.stb f, 0)]) : exec i s = store s f k := by
  simp only [List.mem_cons, Prod.mk.injEq, List.not_mem_nil, or_false] at hi
  rcases hi with ⟨rfl, rfl⟩ | ⟨rfl, rfl⟩ | ⟨rfl, rfl⟩ | ⟨rfl, rfl⟩ <;> rfl

/-- Settles O11: every store is store_wrote, and its bytes are stored. -/
theorem stores : Obligations.Stores := by
  intro s f i k hi a n bs h hp hw hd
  obtain ⟨t, ht, hwrote⟩ := store_wrote h hp hw
  have hlen : bs.length = n := leBytes_length ..
  have hstored : Stored (fetched s (lenOf f.ext)) (memWr (fetched s (lenOf f.ext)) rqDATA a bs) a bs :=
    memWr_stored rqDATA (hlen ▸ permits_le hp) (by rw [hlen, fetched, hasDouble_touchRead]; exact hd)
  refine ⟨t, (exec_store_listed hi).trans ht, hwrote, fun x => ?_, hlen, leNat_leBytes .., dvd_accAddr s f k⟩
  rw [hwrote.mem, hstored x, fetched_sameBytes]

/-! Branches and jumps. -/

/-- Completing at any program counter is a completion. -/
theorem complete_completed (s : State) (pc : Addr) : Completed s (complete s pc) 0 0 pc := by
  have hpc : (curCtx s).pc + BitVec.ofNat 21 (pc - (curCtx s).pc).toNat = pc := by
    rw [BitVec.ofNat_toNat, BitVec.setWidth_eq, add_sub_cancel]
  have h := advance_wrote s (pc - (curCtx s).pc).toNat
  rwa [Wrote, advance, hpc] at h

theorem complete_wrReg_completed (s : State) (d : SReg) (v : Dword) (pc : Addr) :
    Completed s (complete (wrReg s s.core.cur d v) pc) d v pc := by
  have hpc : (curCtx s).pc + BitVec.ofNat 21 (pc - (curCtx s).pc).toNat = pc := by
    rw [BitVec.ofNat_toNat, BitVec.setWidth_eq, add_sub_cancel]
  have h := wrAdvance_wrote s d v (pc - (curCtx s).pc).toNat
  rwa [Wrote, wrAdvance, advance, pc_wrReg, hpc] at h

/-- A target in the address space is where the program counter goes. -/
theorem jumpTo_inside (s : State) {target : Int} (hlo : 0 ≤ target) (hhi : target < 2 ^ 21) :
    jumpTo s target = complete s (BitVec.ofInt 21 target) := if_pos ⟨hlo, hhi⟩

theorem brTaken_of_listed {c : BitVec 5} {a b : Dword} {taken : Bool}
    (h : (c, taken) ∈ [((0 : BitVec 5), a == b), (1, a != b), (2, a.slt b), (3, !a.slt b), (4, a.ult b), (5, !a.ult b), (6, true)]) :
    brTaken c a b = some taken ∧ c.toNat < 7 := by
  simp only [List.mem_cons, Prod.mk.injEq, List.not_mem_nil, or_false] at h
  have signed : decide (b.toInt ≤ a.toInt) = !decide (a.toInt < b.toInt) := by rw [← decide_not]; simp
  have unsigned : decide (b.toNat ≤ a.toNat) = !decide (a.toNat < b.toNat) := by rw [← decide_not]; simp
  rcases h with ⟨rfl, rfl⟩ | ⟨rfl, rfl⟩ | ⟨rfl, rfl⟩ | ⟨rfl, rfl⟩ | ⟨rfl, rfl⟩ | ⟨rfl, rfl⟩ | ⟨rfl, rfl⟩ <;>
    simp [brTaken, BitVec.slt, BitVec.ult, bne, Bool.beq_eq_decide_eq, signed, unsigned]

theorem brOffset_eq (ext : Option Word) (off : BitVec 10) :
    brOffset ext off = 4 * (match ext with | none => off.toInt | some e => e.toInt) := by
  cases ext <;> rfl

/-- A branch whose condition is known. -/
theorem br_completed {s : State} {f : BForm} {taken : Bool} (h : Runs s (lenOf f.ext))
    (hc : brTaken f.cond (rd s f.a) (rd s f.b) = some taken) (hlegal : f.cond.toNat < 7)
    (hin : taken = true → 0 ≤ (curCtx s).pc.toNat + brOffset f.ext f.off ∧ (curCtx s).pc.toNat + brOffset f.ext f.off < 2 ^ 21) :
    ∃ t, execBr f s = .next t ∧ Completed (fetched s (lenOf f.ext)) t 0 0
      (if taken then BitVec.ofInt 21 ((curCtx s).pc.toNat + brOffset f.ext f.off) else (curCtx s).pc + BitVec.ofNat 21 (lenOf f.ext)) := by
  refine ⟨_, h.instr_legal (decide_eq_true hlegal) _, ?_⟩
  simp only [h.rd_fetched, h.curCtx_fetched, hc]
  cases taken with
  | true =>
    obtain ⟨hlo, hhi⟩ := hin rfl
    rw [if_pos rfl, if_pos rfl, jumpTo_inside _ hlo hhi]
    exact complete_completed ..
  | false =>
    rw [if_neg (by simp), if_neg (by simp), advance, h.curCtx_fetched]
    exact complete_completed ..

theorem jal_completed {s : State} {f : JForm} (h : Runs s 4) (hx : f.x = false)
    (hlo : 0 ≤ (curCtx s).pc.toNat + 4 * f.off.toInt) (hhi : (curCtx s).pc.toNat + 4 * f.off.toInt < 2 ^ 21) :
    ∃ t, execJal f s = .next t ∧
      Completed (fetched s 4) t f.d ((curCtx s).pc.zeroExtend 64 + 4) (BitVec.ofInt 21 ((curCtx s).pc.toNat + 4 * f.off.toInt)) := by
  refine ⟨_, h.instr_legal (by simp [hx]) _, ?_⟩
  have hlink : BitVec.ofNat 64 ((curCtx s).pc.toNat + 4) = (curCtx s).pc.zeroExtend 64 + 4 := by
    rw [BitVec.ofNat_add, BitVec.ofNat_toNat]
    rfl
  simp only [h.curCtx_fetched, hlink]
  rw [jumpTo_inside _ hlo hhi]
  exact complete_wrReg_completed ..

theorem and_not_three {w : Nat} (x : BitVec w) : x &&& ~~~(3 : BitVec w) = (x >>> 2) <<< 2 := by
  refine BitVec.eq_of_getLsbD_eq fun i hi => ?_
  have h3 : (3 : BitVec w).getLsbD i = decide (i < 2) := by
    rw [show (3 : BitVec w) = BitVec.ofNat w (2 ^ 2 - 1) from rfl, BitVec.getLsbD_ofNat, Nat.testBit_two_pow_sub_one, decide_eq_true hi,
      Bool.true_and]
  rw [BitVec.getLsbD_and, BitVec.getLsbD_not, BitVec.getLsbD_shiftLeft, BitVec.getLsbD_ushiftRight, h3]
  by_cases h2 : i < 2
  · simp [h2]
  · rw [Nat.add_sub_cancel' (Nat.le_of_not_lt h2)]
    simp [h2, hi]

/-- Clearing the two low bits is rounding down to a word address. -/
theorem toNat_and_not_three (x : Dword) : (x &&& ~~~(3 : Dword)).toNat = x.toNat / 4 * 4 := by
  rw [and_not_three, BitVec.toNat_shiftLeft, BitVec.toNat_ushiftRight, Nat.shiftRight_eq_div_pow, Nat.shiftLeft_eq]
  have := x.isLt
  omega

theorem jalr_completed {s : State} {f : IForm} (h : Runs s (lenOf f.ext))
    (hhi : ((rd s f.a + immOf f.ext f.imm) &&& ~~~3).toNat < 2 ^ 21) :
    ∃ t, execJalr f s = .next t ∧
      Completed (fetched s (lenOf f.ext)) t f.d ((curCtx s).pc.zeroExtend 64 + BitVec.ofNat 64 (lenOf f.ext))
        (((rd s f.a + immOf f.ext f.imm) &&& ~~~3).setWidth 21) := by
  refine ⟨_, h.instr_legal rfl _, ?_⟩
  have hlink : BitVec.ofNat 64 ((curCtx s).pc.toNat + lenOf f.ext) = (curCtx s).pc.zeroExtend 64 + BitVec.ofNat 64 (lenOf f.ext) := by
    rw [BitVec.ofNat_add, BitVec.ofNat_toNat]
  simp only [h.curCtx_fetched, h.rd_fetched, hlink, ← toNat_and_not_three]
  rw [jumpTo_inside _ (Int.natCast_nonneg _) (by exact_mod_cast hhi), BitVec.ofInt_natCast, BitVec.ofNat_toNat]
  exact complete_wrReg_completed ..

/-- Settles O12: branches by their condition, JAL and JALR with their link. -/
theorem branches : Obligations.Branches := by
  refine ⟨?_, ?_, ?_⟩
  case refine_2 => intro s f h hx pc target hlo hhi; exact jal_completed h hx hlo hhi
  case refine_3 => intro s f h pc target hhi; exact jalr_completed h hhi
  intro s f taken h a b pc target hc hin
  obtain ⟨htaken, hlegal⟩ := brTaken_of_listed hc
  have htarget : target = pc.toNat + brOffset f.ext f.off := congrArg (fun z : Int => pc.toNat + z) (brOffset_eq f.ext f.off).symm
  rw [htarget] at hin ⊢
  exact br_completed h htaken hlegal hin

end Sys2Proof.Machine
end
section
/-! PROOFS. Engine issue and SYNC (03 R81 to R87; 06 R163). -/

namespace Sys2Proof.Machine

section Fetch
variable {s : State} {n : Nat} (h : Runs s n)
include h

theorem Runs.fetched_q : (fetched s n).q = s.q := by rw [h.fetched_frame]

theorem Runs.qOf_fetched (e : Nat) : qOf (fetched s n) e = qOf s e := by rw [qOf, h.fetched_q, qOf]

theorem Runs.qFull_fetched (e : Nat) : qFull (fetched s n) e = qFull s e := by rw [qFull, h.qOf_fetched, qFull]

theorem Runs.wantId_fetched (on : Bool) (i : Nat) : wantId (fetched s n) on i = wantId s on i := by
  rw [wantId, h.fetched_core, h.mapId_fetched, wantId]

theorem Runs.entryOf_fetched (f : EForm) : entryOf (fetched s n) f = entryOf s f := by
  simp only [entryOf, h.wantId_fetched, h.fetched_core, h.rd_fetched]

end Fetch

/-! Queues. -/

/-- A head that registers its watch touches the watches only. -/
theorem armHead_frame (s : State) (e : Nat) : armHead s e = { s with syn := { s.syn with watch := (armHead s e).syn.watch } } := by
  unfold armHead
  dsimp only
  split
  · rfl
  · split
    · rfl
    · split <;> rfl

theorem qOf_armHead (s : State) (e k : Nat) : qOf (armHead s e) k = qOf s k := by rw [armHead_frame]; rfl

theorem armHead_mem (s : State) (e : Nat) : (armHead s e).mem = s.mem := by rw [armHead_frame]

/-- An enqueued entry stands behind those of its queue, and no other queue changes. -/
theorem qOf_enqueue (s : State) (e k : Nat) (ent : QEntry) :
    qOf (enqueue s e ent) k = if k = e then { qOf s e with wait := (qOf s e).wait ++ [ent] } else qOf s k := by
  rw [enqueue, qOf_armHead, qOf_modQ]

theorem enqueue_mem (s : State) (e : Nat) (ent : QEntry) : (enqueue s e ent).mem = s.mem := by
  rw [enqueue, armHead_mem]; rfl

/-- What an entry latches at its issue (03 R82, R84). -/
theorem entryOf_fields {s : State} {f : EForm} {ent : QEntry} (h : entryOf s f = some ent) :
    ent.ctx = s.core.cur ∧ ent.fn = f.fn ∧ ent.sub = f.sub ∧ ent.dreg = f.d ∧
      ent.d = rd s f.d ∧ ent.a = rd s f.a ∧ ent.b = rd s f.b ∧ ent.fs = (f.ext.getD 0).setWidth 18 := by
  unfold entryOf at h
  dsimp only at h
  split at h
  · cases h
    exact ⟨rfl, rfl, rfl, rfl, rfl, rfl, rfl, rfl⟩
  · cases h

/-! Issue. -/

/-- The engine, the function count and the form of an issue instruction. -/
theorem exec_issue_listed {s : State} {f : EForm} {i : Instr} {e fns : Nat}
    (hi : (i, e, fns) ∈ [(Instr.arr f, eARR, 5), (.vec f, eVEC, 10), (.fac f, eFAC, 6), (.wgh f, eWGH, 5), (.str f, eSTR, 3),
      (.pst f, ePST, 4), (.sth f, eSTH, 4)]) : exec i s = issue s i ⟨e, f, fns⟩ := by
  simp only [List.mem_cons, Prod.mk.injEq, List.not_mem_nil, or_false] at hi
  rcases hi with ⟨rfl, rfl, rfl⟩ | ⟨rfl, rfl, rfl⟩ | ⟨rfl, rfl, rfl⟩ | ⟨rfl, rfl, rfl⟩ | ⟨rfl, rfl, rfl⟩ | ⟨rfl, rfl, rfl⟩ | ⟨rfl, rfl, rfl⟩ <;> rfl

section Issue
variable {s : State} {r : IssueReq} {ent : QEntry} (h : Runs s (lenOf r.f.ext)) (hfn : r.f.fn.toNat < r.fns) (hent : entryOf s r.f = some ent)
include h hfn hent

theorem issue_room (i : Instr) (hroom : qFull s r.e = false) :
    issue s i r = .next (advance (enqueue (fetched s (lenOf r.f.ext)) r.e ent) (lenOf r.f.ext)) := by
  rw [issue, h.instr_legal (decide_eq_true hfn)]
  simp only [h.entryOf_fetched, hent, h.qFull_fetched, hroom, Bool.false_eq_true, if_false]

theorem issue_full (i : Instr) (hfull : qFull s r.e = true) :
    issue s i r = .next { fetched s (lenOf r.f.ext) with core := { s.core with mode := .full i } } := by
  rw [issue, h.instr_legal (decide_eq_true hfn)]
  simp only [h.entryOf_fetched, hent, h.qFull_fetched, hfull, if_true]
  rw [State.modCore, h.fetched_core]

end Issue

/-- Settles O13: an issue enqueues what entryOf latches, or stalls on a full queue. -/
theorem engineIssue : Obligations.EngineIssue := by
  constructor
  · intro s f i e fns ent hi h hfn hent hroom
    have hwrote := advance_wrote (enqueue (fetched s (lenOf f.ext)) e ent) (lenOf f.ext)
    have hq (k : Nat) : qOf (advance (enqueue (fetched s (lenOf f.ext)) e ent) (lenOf f.ext)) k =
        if k = e then { qOf s e with wait := (qOf s e).wait ++ [ent] } else qOf s k := by
      rw [qOf, hwrote.q, ← qOf, qOf_enqueue, h.qOf_fetched, h.qOf_fetched]
    obtain ⟨hctx, hfnE, hsub, hdreg, hd, ha, hb, hfs⟩ := entryOf_fields hent
    refine ⟨_, (exec_issue_listed hi).trans (issue_room (r := ⟨e, f, fns⟩) h hfn hent i hroom), hwrote, ?_, ?_, fun k hk => ?_,
      hctx, hfnE, hsub, hdreg, hd, ha, hb, hfs, fun x => ?_⟩
    · rw [hq, if_pos rfl]
    · rw [hq, if_pos rfl]
    · rw [hq, if_neg hk]
    · rw [hwrote.mem, enqueue_mem, fetched_sameBytes]
  · intro s f i e fns ent hi h hfn hent hfull
    refine ⟨_, (exec_issue_listed hi).trans (issue_full (r := ⟨e, f, fns⟩) h hfn hent i hfull), rfl, fun k => ?_, ?_⟩
    · simp only [qOf, h.fetched_q]
    · simp only [curCtx, ctxOf]

/-! SYNC. -/

/-- A departure closes the caravan of its number and opens none. -/
theorem open_departId {a : Arr} {id : Nat} {why : DepCause} {x : ArrOp} (hx : x ∈ (departId a id why).ops) (ho : x.open_ = true) :
    x ∈ a.ops ∧ x.id ≠ id := by
  unfold departId at hx
  split at hx
  next hnone =>
    refine ⟨hx, fun hid => ?_⟩
    have := List.find?_eq_none.mp hnone x hx
    simp [hid, ho] at this
  next o _ =>
    obtain ⟨y, hy, rfl⟩ := List.mem_map.mp hx
    by_cases hid : y.id = id
    · simp [hid] at ho
    · rw [if_neg hid]
      exact ⟨hy, hid⟩

theorem open_departFold (l : List ArrOp) {a : Arr} {x : ArrOp}
    (hx : x ∈ (l.foldl (fun b o => departId b o.id .force) a).ops) (ho : x.open_ = true) : x ∈ a.ops ∧ ∀ o ∈ l, x.id ≠ o.id := by
  induction l generalizing a with
  | nil => exact ⟨hx, by simp⟩
  | cons o l ih =>
    obtain ⟨hmem, hne⟩ := ih hx
    obtain ⟨hin, hid⟩ := open_departId hmem ho
    exact ⟨hin, List.forall_mem_cons.mpr ⟨hid, hne⟩⟩

/-- No caravan stays open when every open one departs (06 R163). -/
theorem departAll_closes (a : Arr) : ∀ x ∈ (departAll a).ops, x.open_ = false := by
  intro x hx
  by_contra hopen
  rw [Bool.not_eq_false] at hopen
  obtain ⟨hin, hne⟩ := open_departFold _ hx hopen
  exact hne x (List.mem_filter.mpr ⟨hin, hopen⟩) rfl

/-- F[5:4] and F[2:1] of a SYNC. -/
theorem ofNat_bitsOf_field (f : BitVec 10) (lo : Nat) : BitVec.ofNat 2 (bitsOf f.toNat (lo + 1) lo) = f.extractLsb' lo 2 := by
  rw [bitsOf_toNat, BitVec.ofNat_toNat, show lo + 1 + 1 - lo = 2 by omega, BitVec.setWidth_eq]

theorem takeSync_ctxs (s : State) (f : CForm) :
    (takeSync s f).core.ctxs = (modCtx s s.core.cur (fun x =>
      { x with pc := x.pc + 4, atSync := true, zone := some (f.f.extractLsb' 1 2) })).core.ctxs := by
  rw [← ofNat_bitsOf_field f.f 1]; rfl

theorem curCtx_takeSync (s : State) (f : CForm) :
    curCtx (takeSync s f) = { curCtx s with pc := (curCtx s).pc + 4, atSync := true, zone := some (f.f.extractLsb' 1 2) } := by
  rw [← curCtx_modCtx s (fun x => { x with pc := x.pc + 4, atSync := true, zone := some (f.f.extractLsb' 1 2) }), curCtx, ctxOf, takeSync_ctxs]
  rfl

theorem ctxOf_takeSync_of_ne (s : State) (f : CForm) {c : BitVec 2} (hc : c ≠ s.core.cur) : ctxOf (takeSync s f) c = ctxOf s c := by
  rw [ctxOf, takeSync_ctxs, ← ctxOf, ctxOf_modCtx_of_ne s hc]

/-- SYNC takes the core to its zone, lets the caravans depart and restarts the watchman. -/
def synced (s : State) (f : CForm) : State :=
  progress (((takeSync s f).modDbg (fun d => { d with stepping := false, cause := if d.stepping then 3 else d.cause })).modArr departAll)

theorem synced_core (s : State) (f : CForm) : (synced s f).core = (takeSync s f).core := rfl

theorem curCtx_synced (s : State) (f : CForm) : curCtx (synced s f) = curCtx (takeSync s f) := by
  simp only [curCtx, ctxOf, synced_core]

theorem takeSync_frame (s : State) (f : CForm) : takeSync s f = { s with core := (takeSync s f).core } := rfl

theorem synced_frame (s : State) (f : CForm) :
    synced s f = { s with core := (synced s f).core, dbg := (synced s f).dbg, syn := { s.syn with wmCount := 0 }, arr := (synced s f).arr } := by
  rw [synced, takeSync_frame]
  rfl

theorem exec_sync {s : State} {f : CForm} (h : Runs s 4) (hx : f.ext = none) (hd : f.d = 0) (ha : f.a = 0) (hb : f.b = 0)
    (hf : f.f.toNat < 64) (hzone : f.f.extractLsb' 1 2 ≠ 3) : exec (.sync f) s = .next (synced (fetched s 4) f) := by
  have hlegal : (noExt f && decide (f.d = 0) && decide (f.a = 0) && decide (f.b = 0) && decide (f.f.toNat < 64) &&
      decide (BitVec.ofNat 2 (bitsOf f.f.toNat 2 1) ≠ 3)) = true := by
    rw [ofNat_bitsOf_field f.f 1, noExt, hx, hd, ha, hb, decide_eq_true hf, decide_eq_true hzone]
    rfl
  rw [show exec (.sync f) s = execSync f s from rfl, execSync, hx, lenOf]
  exact h.instr_legal hlegal _

/-- Settles O14: takeSync moves the context on and keeps the request, and every open caravan departs. -/
theorem syncStops : Obligations.SyncStops := by
  intro s f h hx hd ha hb hf hzone
  have hctx := curCtx_synced (fetched s 4) f
  rw [curCtx_takeSync, h.curCtx_fetched] at hctx
  refine ⟨_, exec_sync h hx hd ha hb hf hzone, rfl, ?_, ?_, ?_, ?_, ?_, fun r => ?_, fun c hc => ?_, departAll_closes _, ?_⟩
  · rw [hctx]
  · rw [hctx]
  · rw [hctx]
  · rw [← ofNat_bitsOf_field f.f 4, ← h.fetched_core]; rfl
  · rw [← h.fetched_core]; rfl
  · exact rd_eq_of_regs (by rw [hctx]) r
  · rw [ctxOf, synced_core, ← ctxOf, ctxOf_takeSync_of_ne _ _ (by rwa [h.fetched_core]), ctxOf, h.fetched_core, ctxOf]
  · rw [← h.fetched_syn]
    exact synced_frame (fetched s 4) f

end Sys2Proof.Machine
end
section
/-! PROOFS. WAIT, FEW, FER, FENCE and wakes (03 R88, R93; 12 R286, R291, R292; 07 R175). -/

namespace Sys2Proof.Machine

/-! What a completed instruction leaves. -/

namespace Completed
variable {s t : State} {d : SReg} {v : Dword} {pc : Addr} (h : Completed s t d v pc)
include h

theorem mode : t.core.mode = .run := by rw [h.core]
theorem curPc : (curCtx t).pc = pc := by rw [h.context]
theorem man : t.man = s.man := by rw [h.units]
theorem rd_dest : rd t d = if d = 0 then 0 else v := by rw [h.regs, if_pos rfl]
theorem objOf (o : Byte) : objOf t o = Machine.objOf s o := by simp only [Machine.objOf, h.watchman]
theorem watchOf (k : Nat) : watchOf t k = Machine.watchOf s k := by simp only [Machine.watchOf, h.watchman]
theorem wakes : t.syn.wakes = s.syn.wakes := by rw [h.watchman]
theorem sameBytes : SameBytes s t := fun _ => by rw [h.mem]

theorem rd_other {r : SReg} (hr : r ≠ d) : rd t r = rd s r := by
  rw [h.regs, if_neg hr]
  by_cases h0 : r = 0
  · rw [if_pos h0, h0]; rfl
  · rw [if_neg h0]

end Completed

/-! The sync unit: objects, watches, takes. -/

theorem objOf_setWatch (s : State) (k : Nat) (w : Watch) (o : Byte) : objOf (setWatch s k w) o = objOf s o := rfl

@[simp] theorem objOf_dropWatch (s : State) (k : Nat) (o : Byte) : objOf (dropWatch s k) o = objOf s o := rfl

theorem watchOf_dropWatch_self (s : State) (k : Nat) : watchOf (dropWatch s k) k = {} := by
  rw [dropWatch, watchOf_setWatch, if_pos rfl]

theorem take_objs (s : State) (o : Byte) :
    (take s o).syn.objs = (setObj s o { objOf s o with val := (objOf s o).val - 1 }).syn.objs := rfl

theorem objOf_take (s : State) (o p : Byte) :
    objOf (take s o) p = if p = o then { objOf s o with val := (objOf s o).val - 1 } else objOf s p := by
  rw [objOf, take_objs, ← objOf, objOf_setObj]

/-- What a WAIT takes from its object (12 R286). -/
def taken (s : State) (o : Byte) (cond : BitVec 2) : State := if cond = 2 then take s o else s

theorem taken_frame (s : State) (o : Byte) (cond : BitVec 2) : taken s o cond = { s with syn := (taken s o cond).syn } := by
  unfold taken
  split <;> rfl

theorem objOf_taken (s : State) (o p : Byte) (cond : BitVec 2) :
    objOf (taken s o cond) p = if p = o then (if cond = 2 then { objOf s o with val := (objOf s o).val - 1 } else objOf s o) else objOf s p := by
  unfold taken
  split
  · exact objOf_take s o p
  · split <;> simp [*]

theorem taken_wakes (s : State) (o : Byte) (cond : BitVec 2) : (taken s o cond).syn.wakes = s.syn.wakes := by
  unfold taken
  split <;> rfl

/-- A WAIT that completes: its object is taken from, slot 7 is free, and D has the value before the take. -/
theorem waitDone_wrote (s : State) (o : Byte) (cond : BitVec 2) (d : SReg) :
    Wrote (dropWatch (taken s o cond) 7) (waitDone s o cond d) d ((objOf s o).val.zeroExtend 64) 4 := wrAdvance_wrote ..

theorem rd_dropWatch_taken (s : State) (o : Byte) (cond : BitVec 2) (r : SReg) : rd (dropWatch (taken s o cond) 7) r = rd s r := by
  rw [taken_frame]; rfl

theorem pc_dropWatch_taken (s : State) (o : Byte) (cond : BitVec 2) : (curCtx (dropWatch (taken s o cond) 7)).pc = (curCtx s).pc := by
  rw [taken_frame]; rfl

theorem mem_dropWatch_taken (s : State) (o : Byte) (cond : BitVec 2) : (dropWatch (taken s o cond) 7).mem = s.mem := by
  rw [taken_frame]; rfl

/-! WAIT. -/

/-- The conditions of a wait, read off its number. -/
theorem condHolds_iff {cond : BitVec 2} (val tgt : Word) (h : cond ≠ 3) :
    condHolds cond val tgt = true ↔
      (cond = 0 ∧ (val - tgt).toNat < 2 ^ 31) ∨ (cond = 1 ∧ val = tgt) ∨ (cond = 2 ∧ 0 < val.toInt) := by
  obtain rfl | rfl | rfl : cond = 0 ∨ cond = 1 ∨ cond = 2 := by
    revert cond; decide
  all_goals simp [condHolds]

section Wait
variable {s : State} {f : CForm} {o : Byte} (h : Runs s 4) (hx : f.ext = none) (hb : f.b = 0) (h98 : f.f.extractLsb' 8 2 = 0)
  (hcond : f.f.extractLsb' 6 2 ≠ 3) (ho : mapId s s.core.cur.toNat (f.f.extractLsb' 0 6).toNat = some o)
include h hx hb h98 hcond ho

theorem exec_wait : exec (.wait f) s = .next
    (if condHolds (f.f.extractLsb' 6 2) (objOf s o).val ((rd s f.a).extractLsb' 0 32) then
      waitDone (fetched s 4) o (f.f.extractLsb' 6 2) f.d
    else (setWatch (fetched s 4) 7 { obj := o, cond := f.f.extractLsb' 6 2, active := true, tgt := (rd s f.a).extractLsb' 0 32 }).modCore
      (fun k => { k with mode := .wait f.d })) := by
  have hlegal : (noExt f && decide (f.b = 0) && decide (bitsOf f.f.toNat 9 8 = 0) &&
      decide (BitVec.ofNat 2 (bitsOf f.f.toNat 7 6) ≠ 3)) = true := by
    rw [ofNat_bitsOf_field f.f 6, bitsOf_toNat, h98, noExt, hx, hb, decide_eq_true hcond]
    rfl
  rw [show exec (.wait f) s = execWait f s from rfl, execWait, hx, lenOf, h.instr_legal hlegal]
  simp only [h.fetched_core, h.mapId_fetched, bitsOf_five_zero, ho, ofNat_bitsOf_field f.f 6, h.objOf_fetched, h.rd_fetched, low_eq_extractLsb']

end Wait

/-- Settles O17: a WAIT whose condition holds is waitDone, one whose does not sets its watch. -/
theorem waitCompletes : Obligations.WaitCompletes := by
  intro s f o h hx hb h98 hcond ho cond x tgt holds
  have hiff : condHolds cond x.val tgt = true ↔ holds := condHolds_iff x.val tgt hcond
  refine ⟨_, exec_wait h hx hb h98 hcond ho, ?_⟩
  by_cases hh : holds
  · rw [if_pos (hiff.mpr hh)]
    have hw := waitDone_wrote (fetched s 4) o cond f.d
    refine ⟨fun _ => ⟨?_, fun r hr => ?_, ?_, hw.mode, ?_, ?_, fun p hp => ?_⟩, fun hn => absurd hh hn, fun a => ?_⟩
    · rw [hw.rd_dest, h.objOf_fetched]
    · rw [hw.rd_other hr, rd_dropWatch_taken, h.rd_fetched]
    · rw [hw.curPc, pc_dropWatch_taken, h.curCtx_fetched]; rfl
    · rw [hw.watchOf, watchOf_dropWatch_self]
    · rw [hw.objOf, objOf_dropWatch, objOf_taken, if_pos rfl, h.objOf_fetched]
    · rw [hw.objOf, objOf_dropWatch, objOf_taken, if_neg hp, h.objOf_fetched]
    · rw [hw.sameBytes, mem_dropWatch_taken, fetched_sameBytes]
  · rw [if_neg (fun hc => hh (hiff.mp hc))]
    refine ⟨fun hp => absurd hp hh, fun _ => ⟨rfl, ?_, fun r => ?_, ?_, fun p => ?_⟩, fetched_sameBytes s 4⟩
    · rw [← h.curCtx_fetched]; rfl
    · exact (rd_eq_of_regs (s := fetched s 4) rfl r).trans (h.rd_fetched r)
    · exact (watchOf_setWatch ..).trans (if_pos rfl)
    · rw [← h.objOf_fetched]; rfl

/-! Full bits (07 R175). -/

theorem partBase_congr {s t : State} (h : t.man = s.man) (p : Nat) : partBase t p = partBase s p := by
  simp only [partBase, cfg, liveByte, h]

theorem feIdx_congr {s t : State} (h : t.man = s.man) (a : Nat) : feIdx t a = feIdx s a := by
  rw [feIdx, partBase_congr h, feIdx]

theorem feFull_congr {s t : State} (h : t.man = s.man) (hf : t.mem.full = s.mem.full) (a : Nat) : feFull t a = feFull s a := by
  rw [feFull, feIdx_congr h, hf, feFull]

theorem permits_congr {s t : State} (h : t.man = s.man) (ps : List Nat) (a n : Nat) : permits t ps a n = permits s ps a n := by
  simp only [permits, partBase, partSize, cfg, liveByte, h]

theorem feOk_congr {s t : State} (h : t.man = s.man) (a : Nat) : feOk t a = feOk s a := by
  rw [feOk, permits_congr h, feOk]

theorem feFull_setFull (s : State) (a : Nat) (b : Bool) : feFull (setFull s a b) a = b := by
  rw [feFull, feIdx_congr (s := s) (t := setFull s a b) rfl]
  exact tabGet_set_same ..

/-- An uncorrectable error is captured and raised: what memory holds, errors and full bits among it, stays. -/
theorem memUe_kept (s : State) (req cw : Nat) (fe : Bool) :
    (memUe s req cw fe).mem.bytes = s.mem.bytes ∧ (memUe s req cw fe).mem.ecc = s.mem.ecc ∧ (memUe s req cw fe).mem.full = s.mem.full := by
  unfold memUe
  rw [raise_frame]
  split <;> exact ⟨rfl, rfl, rfl⟩

/-- Reading a full bit touches what a fault of memory touches. -/
theorem readFull_frame (s : State) (req a : Nat) :
    readFull s req a = { s with
      mem := (readFull s req a).mem, flt := (readFull s req a).flt, fac := (readFull s req a).fac, wgh := (readFull s req a).wgh } := by
  unfold readFull
  split
  · rw [memUe_frame]
  · rfl

theorem readFull_kept (s : State) (req a : Nat) :
    (readFull s req a).mem.bytes = s.mem.bytes ∧ (readFull s req a).mem.ecc = s.mem.ecc ∧ (readFull s req a).mem.full = s.mem.full := by
  unfold readFull
  split
  · exact memUe_kept ..
  · exact ⟨rfl, rfl, rfl⟩

section ReadFull
variable (s : State) (req a : Nat)

theorem readFull_man : (readFull s req a).man = s.man := by rw [readFull_frame]
theorem readFull_core : (readFull s req a).core = s.core := by rw [readFull_frame]
theorem readFull_syn : (readFull s req a).syn = s.syn := by rw [readFull_frame]

theorem curCtx_readFull : curCtx (readFull s req a) = curCtx s := by simp only [curCtx, ctxOf, readFull_core]
theorem rd_readFull (r : SReg) : rd (readFull s req a) r = rd s r := by simp only [rd, curCtx_readFull]

theorem readFull_sameBytes : SameBytes s (readFull s req a) := fun _ => by rw [(readFull_kept s req a).1]

theorem hasDouble_readFull (b k : Nat) : hasDouble (readFull s req a) b k = hasDouble s b k := by
  rw [hasDouble, eccIn, (readFull_kept s req a).2.1, hasDouble, eccIn]

theorem feFull_readFull (b : Nat) : feFull (readFull s req a) b = feFull s b :=
  feFull_congr (readFull_man ..) (readFull_kept s req a).2.2 b

theorem feOk_readFull (b : Nat) : feOk (readFull s req a) b = feOk s b := feOk_congr (readFull_man ..) b

end ReadFull

theorem feOk_le {s : State} {a : Nat} (h : feOk s a = true) : a + 8 ≤ memTop := by
  simp only [feOk, Bool.and_eq_true] at h
  exact permits_le h.2

theorem eccFold_full (req : Nat) (l : List (Nat × EccErr)) (s : State) : (l.foldl (eccRdOne req) s).mem.full = s.mem.full := by
  induction l generalizing s with
  | nil => rfl
  | cons p l ih =>
    rw [List.foldl_cons, ih]
    unfold eccRdOne
    split
    · rfl
    · rfl
    · exact (memUe_kept ..).2.2

theorem serve_full (s : State) (req a n : Nat) : (serve s req a n).mem.full = s.mem.full := by
  have hfold (l : List Nat) (t : State) : (l.foldl (serveBank req) t).mem.full = t.mem.full := by
    induction l generalizing t with
    | nil => rfl
    | cons b l ih => rw [List.foldl_cons, ih]; rfl
  exact hfold ..

theorem touchRead_full (s : State) (req a n : Nat) : (touchRead s req a n).mem.full = s.mem.full := by
  rw [touchRead, serve_full]
  exact eccFold_full ..

section Fetch
variable {s : State} {n : Nat} (h : Runs s n)
include h

theorem Runs.feOk_fetched (a : Nat) : feOk (fetched s n) a = feOk s a := feOk_congr h.fetched_man a
theorem Runs.feFull_fetched (a : Nat) : feFull (fetched s n) a = feFull s a := feFull_congr h.fetched_man (touchRead_full ..) a

end Fetch

/-! FEW and FER. -/

/-- A filled word: its bytes, and its full bit. -/
theorem fewDone_fills {s : State} {a : Nat} (v : Dword) (hok : feOk s a = true) (hd : hasDouble s a 8 = false) :
    Wrote (dropWatch (setFull (memWr s rqDATA a (leBytes 8 v)) a true) 7) (fewDone s a v) 0 0 4 ∧
      Stored s (fewDone s a v) a (leBytes 8 v) ∧ feFull (fewDone s a v) a = true := by
  have hw : Wrote (dropWatch (setFull (memWr s rqDATA a (leBytes 8 v)) a true) 7) (fewDone s a v) 0 0 4 := advance_wrote ..
  have hlen : (leBytes 8 v).length = 8 := leBytes_length ..
  have hst : Stored s (memWr s rqDATA a (leBytes 8 v)) a (leBytes 8 v) :=
    memWr_stored rqDATA (by rw [hlen]; exact feOk_le hok) (by rw [hlen]; exact hd)
  refine ⟨hw, fun x => ?_, ?_⟩
  · rw [hw.mem]
    exact hst x
  · rw [feFull_congr hw.man (congrArg Mem.full hw.mem)]
    exact feFull_setFull ..

/-- An emptied word: D has its value, and its full bit is clear. -/
theorem ferDone_empties (s : State) (a : Nat) (d : SReg) :
    Wrote (dropWatch (setFull (touchRead s rqDATA a 8) a false) 7) (ferDone s a d) d (BitVec.ofNat 64 (memNat s.mem.bytes a 8)) 4 ∧
      SameBytes s (ferDone s a d) ∧ feFull (ferDone s a d) a = false := by
  have hw : Wrote (dropWatch (setFull (touchRead s rqDATA a 8) a false) 7) (ferDone s a d) d (BitVec.ofNat 64 (memNat s.mem.bytes a 8)) 4 := by
    rw [← mNat, ← mNat_touchRead s rqDATA a 8]
    exact wrAdvance_wrote ..
  refine ⟨hw, fun x => ?_, ?_⟩
  · rw [hw.mem, ← touchRead_bytes s rqDATA a 8]
    rfl
  · rw [feFull_congr hw.man (congrArg Mem.full hw.mem)]
    exact feFull_setFull ..

section FullEmpty
variable {s : State} {f : CForm} (h : Runs s 4) (hx : f.ext = none) (hf : f.f = 0) (hok : feOk s (rd s f.a).toNat = true)
  (hw : memWaits s (rd s f.a).toNat 8 = false)
include h hx hf hok hw

/-- A full/empty instruction whose word can be reached runs behind the read of the full bit. -/
theorem fullEmpty_ready (body : State → State) :
    instrMem s (lenOf f.ext) (noExt f && decide (f.f = 0)) (if feOk s (rd s f.a).toNat then some ((rd s f.a).toNat, 8) else none)
      (fun t0 =>
        let t := if feOk t0 (rd s f.a).toNat then readFull t0 rqDATA (rd s f.a).toNat else t0
        if !feOk t (rd s f.a).toNat then coreFault t fcBOUNDS 0 else body t) =
      .next (body (readFull (fetched s 4) rqDATA (rd s f.a).toNat)) := by
  have hlegal : (noExt f && decide (f.f = 0)) = true := by rw [noExt, hx, hf]; rfl
  rw [hx, lenOf, hlegal, h.instrMem_ready (fun a k hacc => by rw [if_pos hok] at hacc; cases hacc; exact hw)]
  simp only [h.feOk_fetched, hok, feOk_readFull, if_true, Bool.not_true, Bool.false_eq_true, if_false]

theorem exec_few : exec (.few f) s = .next
    (if feFull s (rd s f.a).toNat then
      (setWatch (readFull (fetched s 4) rqDATA (rd s f.a).toNat) 7 { active := true }).modCore
        (fun k => { k with mode := .few (BitVec.ofNat 21 (rd s f.a).toNat) (rd s f.b) })
    else fewDone (readFull (fetched s 4) rqDATA (rd s f.a).toNat) (rd s f.a).toNat (rd s f.b)) := by
  refine (fullEmpty_ready h hx hf hok hw (fun t => if feFull t (rd s f.a).toNat then
      (setWatch t 7 { active := true }).modCore (fun k => { k with mode := .few (BitVec.ofNat 21 (rd s f.a).toNat) (rd t f.b) })
    else fewDone t (rd s f.a).toNat (rd t f.b))).trans ?_
  simp only [feFull_readFull, h.feFull_fetched, rd_readFull, h.rd_fetched]

theorem exec_fer : exec (.fer f) s = .next
    (if !feFull s (rd s f.a).toNat then
      (setWatch (readFull (fetched s 4) rqDATA (rd s f.a).toNat) 7 { active := true }).modCore
        (fun k => { k with mode := .fer (BitVec.ofNat 21 (rd s f.a).toNat) f.d })
    else ferDone (readFull (fetched s 4) rqDATA (rd s f.a).toNat) (rd s f.a).toNat f.d) := by
  refine (fullEmpty_ready h hx hf hok hw (fun t => if !feFull t (rd s f.a).toNat then
      (setWatch t 7 { active := true }).modCore (fun k => { k with mode := .fer (BitVec.ofNat 21 (rd s f.a).toNat) f.d })
    else ferDone t (rd s f.a).toNat f.d)).trans ?_
  simp only [feFull_readFull, h.feFull_fetched]

end FullEmpty

/-- Settles O18: the full bit decides between fewDone or ferDone and a stall. -/
theorem fullEmptyInstr : Obligations.FullEmptyInstr := by
  intro s f h hx hf a hok hw hd
  have hsame : SameBytes s (readFull (fetched s 4) rqDATA a) := fun x => by rw [readFull_sameBytes, fetched_sameBytes]
  have hpc : (curCtx (readFull (fetched s 4) rqDATA a)).pc = (curCtx s).pc := by rw [curCtx_readFull, h.curCtx_fetched]
  refine ⟨⟨_, exec_few h hx hf hok hw, fun he => ?_, fun hfull => ?_⟩, ⟨_, exec_fer h hx hf hok hw, fun hfull => ?_, fun he => ?_⟩⟩
  · have hok' : feOk (readFull (fetched s 4) rqDATA a) a = true := by rw [feOk_readFull, h.feOk_fetched, hok]
    have hd' : hasDouble (readFull (fetched s 4) rqDATA a) a 8 = false := by rw [hasDouble_readFull, fetched, hasDouble_touchRead, hd]
    obtain ⟨hwrote, hst, hf1⟩ := fewDone_fills (rd s f.b) hok' hd'
    rw [he, if_neg Bool.false_ne_true]
    exact ⟨hwrote, fun x => by rw [hst x, hsame x], hf1⟩
  · rw [hfull, if_pos rfl]
    exact ⟨rfl, hpc, hsame⟩
  · obtain ⟨hwrote, hst, hf1⟩ := ferDone_empties (readFull (fetched s 4) rqDATA a) a f.d
    rw [hfull, Bool.not_true, if_neg Bool.false_ne_true]
    refine ⟨?_, fun x => by rw [hst x, hsame x], hf1⟩
    rwa [(readFull_kept ..).1, fetched, touchRead_bytes] at hwrote
  · rw [he, Bool.not_false, if_pos rfl]
    exact ⟨rfl, hpc, hsame⟩

end Sys2Proof.Machine
end
section
/-! PROOFS. FENCE, wakes, RNG, PHASE and MAN (03 R89 to R93; 12 R291, R292; 02 R46, R49). -/

namespace Sys2Proof.Machine

/-! FENCE. -/

theorem engIdle_iff (s : State) (e : Nat) : engIdle s e = true ↔ (qOf s e).wait = [] ∧ (qOf s e).infl = [] := by
  simp [engIdle]

/-- Every engine of the mask is idle. -/
theorem fenced_iff (s : State) (m : BitVec 7) :
    fenced s m = true ↔ ∀ e, e < 7 → m.getLsbD e = true → (qOf s e).wait = [] ∧ (qOf s e).infl = [] := by
  simp only [fenced, List.all_eq_true, List.mem_range, Bool.or_eq_true, Bool.not_eq_true', engIdle_iff]
  refine forall₂_congr fun e _ => ?_
  cases m.getLsbD e <;> simp

/-- The mask of a FENCE is F[6:0]. -/
theorem fenced_setWidth_iff (s : State) (f : BitVec 10) :
    fenced s (f.setWidth 7) = true ↔ ∀ e, e < 7 → f.getLsbD e = true → (qOf s e).wait = [] ∧ (qOf s e).infl = [] := by
  rw [fenced_iff]
  refine forall₂_congr fun e he => ?_
  simp [he]

theorem Runs.fenced_fetched {s : State} {n : Nat} (h : Runs s n) (m : BitVec 7) : fenced (fetched s n) m = fenced s m := by
  simp only [fenced, engIdle, h.qOf_fetched]

theorem exec_fence {s : State} {f : CForm} (h : Runs s 4) (hx : f.ext = none) :
    exec (.fence f) s = .next (if fenced s (f.f.setWidth 7) then advance (fetched s 4) 4
      else { fetched s 4 with core := { s.core with mode := .fence (f.f.setWidth 7) } }) := by
  rw [show exec (.fence f) s = execFence f s from rfl, execFence, hx, lenOf, h.instr_legal (by rw [noExt, hx]; rfl)]
  simp only [h.fenced_fetched, State.modCore, h.fetched_core]

theorem exec_fenceDone {s : State} {m : BitVec 7} (hu : unitsOn s = true) (hm : s.core.mode = .fence m) (hf : fenced s m = true) :
    exec .fenceDone s = .next (advance s 4) := by
  rw [show exec .fenceDone s = execFenceDone s from rfl, execFenceDone, hm]
  simp [hu, hf, whenOn]

/-! Wakes. -/

theorem countWake_wakes (s : State) : (countWake s).syn.wakes = s.syn.wakes + 1 := rfl

theorem watchOf_countWake (s : State) (j : Nat) : watchOf (countWake s) j = watchOf s j := rfl

section Wake
variable {s : State} {slot : BitVec 5} (hu : unitsOn s = true)
include hu

theorem exec_wake_head (hm : watchMet s slot.toNat = true) (hk : slot.toNat < 7) (ha : (watchOf s slot.toNat).active = true)
    (hw : (watchOf s slot.toNat).woken = false) :
    exec (.wake slot) s = .next (countWake (setWatch s slot.toNat { watchOf s slot.toNat with woken := true })) := by
  rw [show exec (.wake slot) s = execWake slot s from rfl, execWake]
  simp [hk, hu, ha, hw, hm, whenOn]

theorem exec_wake_management (hm : watchMet s slot.toNat = true) (hk : 7 < slot.toNat) (he : (watchOf s slot.toNat).en = true)
    (hh : (watchOf s slot.toNat).hit = false) :
    exec (.wake slot) s = .next (countWake (setWatch s slot.toNat { watchOf s slot.toNat with hit := true })) := by
  rw [show exec (.wake slot) s = execWake slot s from rfl, execWake]
  simp [show ¬ slot.toNat < 7 by omega, show slot.toNat ≠ 7 by omega, hu, he, hh, hm, whenOn]

theorem exec_wake_wait {d : SReg} (hm : watchMet s 7 = true) (hmode : s.core.mode = .wait d) :
    exec (.wake 7) s = .next (waitDone (countWake s) (watchOf s 7).obj (watchOf s 7).cond d) := by
  rw [show exec (.wake 7) s = execWake 7 s from rfl, execWake]
  simp [hmode, hu, hm, whenOn]

theorem exec_wake_few {a : Addr} {v : Dword} (hw : memWaits s a.toNat 8 = false) (hmode : s.core.mode = .few a v)
    (he : feFull s a.toNat = false) :
    exec (.wake 7) s = .next (fewDone (countWake (readFull s rqDATA a.toNat)) a.toNat v) := by
  rw [show exec (.wake 7) s = execWake 7 s from rfl, execWake]
  simp [hmode, hu, he, hw, whenMem, spansWait]

theorem exec_wake_fer {a : Addr} {d : SReg} (hw : memWaits s a.toNat 8 = false) (hmode : s.core.mode = .fer a d)
    (hf : feFull s a.toNat = true) :
    exec (.wake 7) s = .next (ferDone (countWake (readFull s rqDATA a.toNat)) a.toNat d) := by
  rw [show exec (.wake 7) s = execWake 7 s from rfl, execWake]
  simp [hmode, hu, hf, hw, whenMem, spansWait]

end Wake

/-! What a wake's count leaves as it was. -/

section CountWake
variable (s : State) (a : Nat)

theorem feOk_countWake_readFull (b : Nat) : feOk (countWake (readFull s rqDATA a)) b = feOk s b := feOk_congr (readFull_man ..) b

theorem hasDouble_countWake_readFull (b k : Nat) : hasDouble (countWake (readFull s rqDATA a)) b k = hasDouble s b k :=
  hasDouble_readFull s rqDATA a b k

theorem countWake_readFull_sameBytes : SameBytes s (countWake (readFull s rqDATA a)) := readFull_sameBytes s rqDATA a

theorem countWake_readFull_wakes : (countWake (readFull s rqDATA a)).syn.wakes = s.syn.wakes + 1 := by
  rw [countWake_wakes, readFull_syn]

end CountWake

/-! The core and the sync unit see nothing of an access to memory. -/

theorem curCtx_congr {s t : State} (h : t.core = s.core) : curCtx t = curCtx s := by simp only [curCtx, ctxOf, h]

/-- An instruction that completes behind effects outside the core goes on from its own program counter. -/
theorem Wrote.pc_of_core {s u t : State} {d : SReg} {v : Dword} {n : Nat} (h : Wrote u t d v n) (hc : u.core = s.core) :
    (curCtx t).pc = (curCtx s).pc + BitVec.ofNat 21 n := by
  rw [h.curPc, curCtx_congr hc]

/-- A read touches memory, the energy account, the count of errors, and what a fault touches. -/
theorem touchRead_frame (s : State) (req a n : Nat) :
    touchRead s req a n = { s with
      mem := (touchRead s req a n).mem, gov := (touchRead s req a n).gov, ldg := (touchRead s req a n).ldg
      flt := (touchRead s req a n).flt, fac := (touchRead s req a n).fac, wgh := (touchRead s req a n).wgh } := by
  unfold touchRead
  rw [serve_frame, spend_frame, (eccRead_frame s req a n).1]

section Access
variable (s : State) (req a : Nat)

theorem memWr_syn (bs : List Byte) : (memWr s req a bs).syn = s.syn := by rw [memWr_frame]
theorem memWr_core (bs : List Byte) : (memWr s req a bs).core = s.core := by rw [memWr_frame]
theorem touchRead_syn (n : Nat) : (touchRead s req a n).syn = s.syn := by rw [touchRead_frame]
theorem touchRead_core (n : Nat) : (touchRead s req a n).core = s.core := by rw [touchRead_frame]

end Access

/-- Settles O19: FENCE by the idleness of its engines, wakes by the kind of their slot. -/
theorem fenceAndWake : Obligations.FenceAndWake := by
  refine ⟨?_, ?_, ?_, ?_⟩
  · intro s f h hx idle
    have hidle : fenced s (f.f.setWidth 7) = true ↔ idle := fenced_setWidth_iff s f.f
    refine ⟨fun hi => ⟨_, exec_fence h hx, ?_⟩, fun hn => (exec_fence h hx).trans ?_⟩
    · rw [if_pos (hidle.mpr hi)]
      exact advance_wrote ..
    · rw [if_neg (fun hf => hn (hidle.mp hf))]
  · intro s m hu hm hidle
    exact ⟨_, exec_fenceDone hu hm ((fenced_iff s m).mpr hidle), advance_wrote ..⟩
  · intro s slot hu hm w
    refine ⟨fun hk ha hw => ⟨_, exec_wake_head hu hm hk ha hw, rfl, ?_, rfl⟩,
      fun hk he hh => ⟨_, exec_wake_management hu hm hk he hh, rfl, ?_, rfl⟩, fun d hs hmode => ?_⟩
    · exact (watchOf_setWatch ..).trans (if_pos rfl)
    · exact (watchOf_setWatch ..).trans (if_pos rfl)
    · subst hs
      have hw := waitDone_wrote (countWake s) (watchOf s 7).obj (watchOf s 7).cond d
      refine ⟨_, exec_wake_wait hu hm hmode, hw.mode, ?_, hw.rd_dest, ?_, fun x => ?_⟩
      · rw [hw.curPc, pc_dropWatch_taken]; rfl
      · exact hw.wakes.trans (taken_wakes ..)
      · rw [hw.sameBytes, mem_dropWatch_taken]; rfl
  · intro s a hu hw hd hok
    refine ⟨fun v hmode he => ⟨_, exec_wake_few hu hw hmode he, ?_⟩, fun d hmode hf => ⟨_, exec_wake_fer hu hw hmode hf, ?_⟩⟩
    · obtain ⟨hwrote, hst, hf1⟩ := fewDone_fills (s := countWake (readFull s rqDATA a.toNat)) v
        ((feOk_countWake_readFull ..).trans hok) ((hasDouble_countWake_readFull ..).trans hd)
      refine ⟨hwrote.mode, ?_, fun x => by rw [hst x, countWake_readFull_sameBytes], hf1, ?_⟩
      · exact hwrote.pc_of_core ((memWr_core ..).trans (readFull_core ..))
      · exact hwrote.wakes.trans ((congrArg Syn.wakes (memWr_syn ..)).trans (countWake_readFull_wakes ..))
    · obtain ⟨hwrote, hsame, hf1⟩ := ferDone_empties (countWake (readFull s rqDATA a.toNat)) a.toNat d
      refine ⟨hwrote.mode, ?_, ?_, fun x => by rw [hsame x, countWake_readFull_sameBytes], hf1, ?_⟩
      · exact hwrote.pc_of_core ((touchRead_core ..).trans (readFull_core ..))
      · rw [hwrote.rd_dest, show (countWake (readFull s rqDATA a.toNat)).mem.bytes = s.mem.bytes from (readFull_kept ..).1]
      · exact hwrote.wakes.trans ((congrArg Syn.wakes (touchRead_syn ..)).trans (countWake_readFull_wakes ..))

/-! RNG and PHASE. -/

section Generator
variable {s : State} {n : Nat} (h : Runs s n)
include h

theorem Runs.draw128_fetched (idx tensor step drw : Nat) : draw128 (fetched s n) idx tensor step drw = draw128 s idx tensor step drw := by
  simp only [draw128, h.cfg_fetched]

theorem Runs.stepField_fetched (c : BitVec 2) : stepField (fetched s n) c = stepField s c := by
  have hfac : facOf (fetched s n) c = facOf s c := by rw [facOf, h.fetched_fac, facOf]
  rw [stepField, hfac, stepField]

end Generator

/-- The half of a number of 128 bits. -/
theorem ofNat_half (o : Nat) (high : Bool) :
    BitVec.ofNat 64 (if high then o / 2 ^ 64 else o) =
      if high then (BitVec.ofNat 128 o).extractLsb' 64 64 else (BitVec.ofNat 128 o).extractLsb' 0 64 := by
  cases high <;>
  · refine BitVec.eq_of_toNat_eq ?_
    simp only [if_true, if_false, Bool.false_eq_true, BitVec.extractLsb'_toNat, BitVec.toNat_ofNat, Nat.shiftRight_eq_div_pow]
    omega

theorem exec_rng {s : State} {f : CForm} (h : Runs s (lenOf f.ext)) :
    exec (.rng f) s = .next (wrAdvance (fetched s (lenOf f.ext)) f.d
      (BitVec.ofNat 64 (if f.f.getLsbD 0 then
        draw128 s ((rd s f.a).extractLsb' 0 48).toNat ((f.ext.getD 0).extractLsb' 0 16).toNat (stepField s s.core.cur).toNat
          ((rd s f.b).extractLsb' 0 16).toNat / 2 ^ 64
        else
        draw128 s ((rd s f.a).extractLsb' 0 48).toNat ((f.ext.getD 0).extractLsb' 0 16).toNat (stepField s s.core.cur).toNat
          ((rd s f.b).extractLsb' 0 16).toNat)) (lenOf f.ext)) := by
  have low {w : Nat} (x : BitVec w) (k : Nat) : (x.extractLsb' 0 k).toNat = x.toNat % 2 ^ k := by simp
  rw [show exec (.rng f) s = execRng f s from rfl, execRng, h.instr_legal rfl]
  simp only [h.rd_fetched, h.draw128_fetched, h.stepField_fetched, h.fetched_core, extOf, low]

/-- A fetch spends energy, and no a-cycle. -/
theorem fetched_acyc (s : State) (n : Nat) : (fetched s n).gov.acyc = s.gov.acyc := by
  rw [fetched, touchRead, serve_frame]
  have hread : (eccRead s rqFETCH (curCtx s).pc.toNat n).gov = s.gov := by rw [(eccRead_frame s rqFETCH (curCtx s).pc.toNat n).1]
  exact (show (spend (eccRead s rqFETCH (curCtx s).pc.toNat n) 4 _).gov.acyc = (eccRead s rqFETCH (curCtx s).pc.toNat n).gov.acyc
    from rfl).trans (congrArg Gov.acyc hread)

theorem exec_phase {s : State} {f : CForm} (h : Runs s (lenOf f.ext)) :
    exec (.phase f) s = .next (advance ((fetched s (lenOf f.ext)).modGov (fun g => { g with
      pend := some { phase := f.f.extractLsb' 0 6, start := g.acyc + ((f.ext.getD 0).extractLsb' 0 24).toNat
                     lateNow := g.curReq, afterReq := g.reqFixed } })) (lenOf f.ext)) := by
  rw [show exec (.phase f) s = execPhase f s from rfl, execPhase, h.instr_legal rfl, bitsOf_toNat,
    BitVec.setWidth_eq_extractLsb' (by decide)]
  rfl

/-! MAN. -/

section Man
variable (s : State)

/-- A load that nothing holds back starts, or waits on the copy (02 R46, R48). -/
theorem startLoad_free (ha : s.man.armed = none) (hl : s.man.load = none) (hw : s.man.loadWait = none) :
    (startLoad s).2 = 0 ∧ (startLoad s).1.man.loadSt = 1 ∧
      (s.man.syncing = false → (startLoad s).1.man.load = some (s.man.loadAddr.toNat, s.man.loadLen.toNat)) := by
  simp only [startLoad, ha, hl, hw, Option.isSome_none, Bool.or_self, Bool.false_eq_true, if_false, State.modMan]
  refine ⟨trivial, ?_, fun hs => ?_⟩
  · split <;> rfl
  · rw [hs]; rfl

/-- An arm with the shadow's epoch, when it is not the current one (02 R49). -/
theorem armWith_armed {e : Word} (hl : s.man.load = none) (hw : s.man.loadWait = none) (he : e = s.man.epochShadow) (hc : e ≠ s.man.epochCur) :
    armWith s e = (s.modMan (fun m => { m with armed := some e }), 0) := by
  simp [armWith, hl, hw, he, he ▸ hc]

/-- An arm with another epoch is refused (02 R49). -/
theorem armWith_refused {e : Word} (hl : s.man.load = none) (hw : s.man.loadWait = none) (he : e = s.man.epochCur ∨ e ≠ s.man.epochShadow) :
    armWith s e = (manErr s 10 0 0, 10) := by
  simp [armWith, hl, hw, he.symm]

theorem manErr_armed (code type off : Nat) : (manErr s code type off).man.armed = s.man.armed := by
  unfold manErr
  split <;> rfl

end Man

section ManInstr
variable {s : State} {f : CForm} (h : Runs s 4) (hx : f.ext = none)
include h hx

theorem exec_manLoad (h0 : f.f.getLsbD 0 = false) :
    exec (.manLoad f) s = .next
      (wrAdvance (startLoad ((fetched s 4).modMan (fun m => { m with
          loadAddr := (rd s f.a).extractLsb' 0 21 &&& ~~~3, loadLen := (rd s f.b).extractLsb' 0 17 }))).1 f.d
        (BitVec.ofNat 64 (startLoad ((fetched s 4).modMan (fun m => { m with
          loadAddr := (rd s f.a).extractLsb' 0 21 &&& ~~~3, loadLen := (rd s f.b).extractLsb' 0 17 }))).2) 4) := by
  rw [show exec (.manLoad f) s = execManLoad f s from rfl, execManLoad, hx, lenOf, h.instr_legal (by rw [noExt, hx, h0]; rfl)]
  simp only [h.rd_fetched, and_not_three, BitVec.setWidth_eq_extractLsb' (show 21 ≤ 64 by decide),
    BitVec.setWidth_eq_extractLsb' (show 17 ≤ 64 by decide)]

theorem exec_manArm (h0 : f.f.getLsbD 0 = true) :
    exec (.manArm f) s = .next
      (wrAdvance (armWith (fetched s 4) ((rd s f.a).extractLsb' 0 32)).1 f.d
        (BitVec.ofNat 64 (armWith (fetched s 4) ((rd s f.a).extractLsb' 0 32)).2) 4) := by
  rw [show exec (.manArm f) s = execManArm f s from rfl, execManArm, hx, lenOf, h.instr_legal (by rw [noExt, hx, h0]; rfl)]
  simp only [h.rd_fetched, low_eq_extractLsb']

end ManInstr

/-- Settles O21: RNG, PHASE and MAN by what they put in D and what becomes pending. -/
theorem generatorPhaseManifest : Obligations.GeneratorPhaseManifest := by
  refine ⟨?_, ?_⟩
  · intro s f h n o
    constructor
    · refine ⟨_, exec_rng h, ?_⟩
      rw [ofNat_half]
      exact wrAdvance_wrote ..
    · have hw := advance_wrote ((fetched s n).modGov (fun g => { g with
        pend := some { phase := f.f.extractLsb' 0 6, start := g.acyc + ((f.ext.getD 0).extractLsb' 0 24).toNat
                       lateNow := g.curReq, afterReq := g.reqFixed } })) n
      refine ⟨_, _, exec_phase h, rfl, rfl, ?_, hw.pc_of_core h.fetched_core, fun r => ?_, fun x => ?_⟩
      · exact congrArg (· + _) (fetched_acyc ..)
      · rw [rd_advance]
        exact h.rd_fetched r
      · rw [hw.mem]
        exact fetched_sameBytes s n x
  · intro s f h hx u
    constructor
    · intro h0 v
      have hw := wrAdvance_wrote (startLoad v).1 f.d (BitVec.ofNat 64 (startLoad v).2) 4
      refine ⟨_, exec_manLoad h hx h0, hw, fun ha hl hwait => ?_⟩
      have hman : v.man = { s.man with
          loadAddr := (rd s f.a).extractLsb' 0 21 &&& ~~~3, loadLen := (rd s f.b).extractLsb' 0 17 } := by
        rw [← h.fetched_man]; rfl
      obtain ⟨hcode, hst, hload⟩ := startLoad_free v (by rw [hman, ← ha]) (by rw [hman, ← hl]) (by rw [hman, ← hwait])
      refine ⟨?_, ?_, fun hs => ?_⟩
      · rw [hw.rd_dest, hcode]
        exact ite_self _
      · rw [hw.man, hst]
      · rw [hw.man, hload (by rw [hman, ← hs]), hman]
    · intro h0 e
      have hw := wrAdvance_wrote (armWith u e).1 f.d (BitVec.ofNat 64 (armWith u e).2) 4
      refine ⟨_, exec_manArm h hx h0, hw, fun hl hwait he hc => ?_, fun hl hwait he => ?_⟩
      · have harm := armWith_armed u (h.fetched_man ▸ hl) (h.fetched_man ▸ hwait) (h.fetched_man ▸ he) (h.fetched_man ▸ hc)
        rw [hw.rd_dest, hw.man, harm]
        exact ⟨ite_self _, rfl⟩
      · have harm := armWith_refused u (h.fetched_man ▸ hl) (h.fetched_man ▸ hwait) (h.fetched_man ▸ he)
        rw [hw.rd_dest, hw.man, harm, manErr_armed, h.fetched_man]
        exact ⟨rfl, rfl⟩

end Sys2Proof.Machine
end
section
/-! PROOFS. What stops the control core: illegal encodings, and accesses, fetches and targets outside the partitions (03 R76, R78, R95). -/

namespace Sys2Proof.Machine

/-- A command answers with the core stopped at its instruction by a fault, and no byte changed. -/
def StopsWith (s u : State) (code : Nat) (r : Res) : Prop := ∃ t, r = .next t ∧ FaultStopped u t code ∧ SameBytes s t

theorem coreFault_mem (s : State) (code detail : Nat) : (coreFault s code detail).mem = s.mem := by rw [coreFault_frame]

theorem coreFault_stopsWith {s u : State} (hrun : ctxRuns u = true) (hsame : SameBytes s u) (code : Nat) :
    StopsWith s u code (.next (coreFault u code 0)) :=
  ⟨_, rfl, coreFault_stopped hrun code, fun x => by rw [coreFault_mem, hsame]⟩

theorem coreOn_ctxRuns {s : State} (h : coreOn s = true) : ctxRuns s = true := by
  simp only [coreOn, Bool.and_eq_true, decide_eq_true_eq, Bool.not_eq_true'] at h
  obtain ⟨⟨⟨⟨⟨⟨-, hrun⟩, -⟩, hhold⟩, -⟩, -⟩, -⟩ := h
  rw [ctxRuns, hrun, hhold]
  rfl

/-! Encodings. -/

section Illegal
variable {s : State} {n : Nat} (h : Runs s n)
include h

theorem Runs.faults (code : Nat) : StopsWith s (fetched s n) code (.next (coreFault (fetched s n) code 0)) :=
  coreFault_stopsWith h.ctxRuns_fetched (fetched_sameBytes s n) code

/-- An encoding that is not legal stops the core with ILLEGAL (03 R76). -/
theorem Runs.instr_illegal {legal : Bool} (hl : legal = false) (body : State → State) :
    StopsWith s (fetched s n) fcILLEGAL (instr s n legal body) := by
  have hinstr : instr s n legal body = .next (coreFault (fetched s n) fcILLEGAL 0) := by
    obtain ⟨hon, hok, hwait, hdouble⟩ := h
    simp [instr, whenMem, fetchSpans, spansWait, fetched, hon, hok, hwait, hdouble, hl]
  rw [hinstr]
  exact h.faults _

/-- An instruction whose body finds it illegal stops the core with ILLEGAL, legal encoding or not. -/
theorem Runs.instr_refused (legal : Bool) {body : State → State} (hb : body (fetched s n) = coreFault (fetched s n) fcILLEGAL 0) :
    StopsWith s (fetched s n) fcILLEGAL (instr s n legal body) := by
  cases legal with
  | true => rw [h.instr_legal rfl, hb]; exact h.faults _
  | false => exact h.instr_illegal rfl body

theorem Runs.instrMem_illegal {legal : Bool} (hl : legal = false) (acc : Option (Nat × Nat)) (body : State → State) :
    StopsWith s (fetched s n) fcILLEGAL (instrMem s n legal acc body) := by
  unfold instrMem
  split
  · rw [hl]
    simp only [Bool.and_false, Bool.false_and, Bool.false_eq_true, if_false]
    exact h.instr_illegal rfl body
  · exact h.instr_illegal hl body

end Illegal

/-! Fetches outside CODE, and a core that is off. -/

/-- A result of executing an instruction of n bytes: every instruction goes through the fetch. -/
def Fetches (s : State) (n : Nat) (r : Res) : Prop := ∃ legal acc body, r = instrMem s n legal acc body

theorem instrMem_fetches (s : State) (n : Nat) (legal : Bool) (acc : Option (Nat × Nat)) (body : State → State) :
    Fetches s n (instrMem s n legal acc body) := ⟨legal, acc, body, rfl⟩

theorem instr_fetches (s : State) (n : Nat) (legal : Bool) (body : State → State) : Fetches s n (instr s n legal body) :=
  ⟨legal, none, body, rfl⟩

section Fetches
variable {s : State} {n : Nat} {r : Res} (h : Fetches s n r)
include h

/-- An instruction that lies outside CODE stops the core with BOUNDS (03 R78). -/
theorem Fetches.outside (hon : coreOn s = true) (hf : fetchOk s (curCtx s).pc.toNat n = false) : StopsWith s s fcBOUNDS r := by
  obtain ⟨legal, acc, body, rfl⟩ := h
  have hinstr : instr s n legal body = .next (coreFault s fcBOUNDS 0) := by
    simp [instr, whenMem, fetchSpans, spansWait, hon, hf]
  have hmem : instrMem s n legal acc body = instr s n legal body := by
    unfold instrMem
    split
    · simp [hf]
    · rfl
  rw [hmem, hinstr]
  exact coreFault_stopsWith (coreOn_ctxRuns hon) (fun _ => rfl) _

/-- A core that cannot execute does nothing. -/
theorem Fetches.off (hoff : coreOn s = false) : r = .next s := by
  obtain ⟨legal, acc, body, rfl⟩ := h
  unfold instrMem
  split <;> simp [instr, whenMem, hoff]

end Fetches

/-! The instructions of each form, by what they execute. -/

section Forms
variable (s : State)

theorem map_exec_rInstrs (f : RForm) : (rInstrs f).map (exec · s) =
    [execAdd f s, execSub f s, execAnd f s, execOr f s, execXor f s, execAndn f s, execSll f s, execSrl f s, execSra f s, execSlt f s,
     execSltu f s, execMin f s, execMax f s, execMinu f s, execMaxu f s, execSxw f s, execZxw f s, execDifw f s, execMul f s,
     execMulh f s, execMulhu f s, execDiv f s, execDivu f s, execRem f s, execRemu f s, execClz f s, execPopc f s] := rfl

theorem map_exec_iInstrs (f : IForm) : (iInstrs f).map (exec · s) =
    [execAddi f s, execAndi f s, execOri f s, execXori f s, execSlli f s, execSrli f s, execSrai f s, execSlti f s, execOrhi f s,
     execLdd f s, execLdw f s, execLdwu f s, execLds f s, execLdsu f s, execLdb f s, execLdbu f s, execStd f s, execStw f s,
     execSts f s, execStb f s, execJalr f s] := rfl

theorem map_exec_cInstrs (f : CForm) : (cInstrs f).map (exec · s) =
    [execSync f s, execSig f s, execSigBar f s, execSigSet f s, execWait f s, execFew f s, execFer f s, execFence f s, execManLoad f s,
     execManArm f s, execMfs f s, execMts f s, execCtx f s, execBrk f s, execRng f s, execPhase f s] := rfl

theorem map_exec_eInstrs (f : EForm) : (eInstrs f).map (exec · s) =
    [execArr f s, execVec f s, execFac f s, execWgh f s, execStr f s, execPst f s, execSth f s] := rfl

/-- Every register function is aluR of an operation. -/
theorem rInstrs_aluR (f : RForm) : ∀ i ∈ rInstrs f, ∃ op, exec i s = aluR s f op := by
  have hall : ∀ r ∈ (rInstrs f).map (exec · s), ∃ op, r = aluR s f op := by
    have alu (o : Dword → Dword → Dword) : ∃ op, aluR s f o = aluR s f op := ⟨o, rfl⟩
    rw [map_exec_rInstrs]
    simp only [List.forall_mem_cons]
    exact ⟨alu _, alu _, alu _, alu _, alu _, alu _, alu _, alu _, alu _, alu _, alu _, alu _, alu _, alu _, alu _, alu _, alu _, alu _,
      alu _, alu _, alu _, alu _, alu _, alu _, alu _, alu _, alu _, by simp⟩
  exact fun i hi => hall _ (List.mem_map_of_mem hi)

theorem rInstrs_fetch (f : RForm) : ∀ i ∈ rInstrs f, Fetches s 4 (exec i s) := by
  intro i hi
  obtain ⟨op, hop⟩ := rInstrs_aluR s f i hi
  rw [hop]
  exact instr_fetches ..

theorem iInstrs_fetch (f : IForm) : ∀ i ∈ iInstrs f, Fetches s (lenOf f.ext) (exec i s) := by
  have hall : ∀ r ∈ (iInstrs f).map (exec · s), Fetches s (lenOf f.ext) r := by
    have alu := instr_fetches s (lenOf f.ext)
    have mem := instrMem_fetches s (lenOf f.ext)
    rw [map_exec_iInstrs]
    simp only [List.forall_mem_cons, execAddi, execAndi, execOri, execXori, execSlti, aluI, execSlli, execSrli, execSrai, shiftI, execOrhi,
      execLdd, execLdw, execLdwu, execLds, execLdsu, execLdb, execLdbu, load, execStd, execStw, execSts, execStb, store, execJalr]
    exact ⟨alu _ _, alu _ _, alu _ _, alu _ _, alu _ _, alu _ _, alu _ _, alu _ _, alu _ _, mem _ _ _, mem _ _ _, mem _ _ _, mem _ _ _,
      mem _ _ _, mem _ _ _, mem _ _ _, mem _ _ _, mem _ _ _, mem _ _ _, mem _ _ _, alu _ _, by simp⟩
  exact fun i hi => hall _ (List.mem_map_of_mem hi)

theorem cInstrs_fetch (f : CForm) : ∀ i ∈ cInstrs f, Fetches s (lenOf f.ext) (exec i s) := by
  have hall : ∀ r ∈ (cInstrs f).map (exec · s), Fetches s (lenOf f.ext) r := by
    have alu := instr_fetches s (lenOf f.ext)
    have mem := instrMem_fetches s (lenOf f.ext)
    rw [map_exec_cInstrs]
    simp only [List.forall_mem_cons, execSync, execSig, execSigSet, sigObj, execSigBar, execWait, execFew, execFer, execFence, execManLoad,
      execManArm, execMfs, execMts, execCtx, execBrk, execRng, execPhase]
    exact ⟨alu _ _, alu _ _, alu _ _, alu _ _, alu _ _, mem _ _ _, mem _ _ _, alu _ _, alu _ _, alu _ _, alu _ _, alu _ _, alu _ _,
      alu _ _, alu _ _, alu _ _, by simp⟩
  exact fun i hi => hall _ (List.mem_map_of_mem hi)

theorem eInstrs_fetch (f : EForm) : ∀ i ∈ eInstrs f, Fetches s (lenOf f.ext) (exec i s) := by
  have hall : ∀ r ∈ (eInstrs f).map (exec · s), Fetches s (lenOf f.ext) r := by
    have alu := instr_fetches s (lenOf f.ext)
    rw [map_exec_eInstrs]
    simp only [List.forall_mem_cons, execArr, execVec, execFac, execWgh, execStr, execPst, execSth, issue]
    exact ⟨alu _ _, alu _ _, alu _ _, alu _ _, alu _ _, alu _ _, alu _ _, by simp⟩
  exact fun i hi => hall _ (List.mem_map_of_mem hi)

theorem br_fetches (f : BForm) : Fetches s (lenOf f.ext) (exec (.br f) s) := by
  rw [show exec (.br f) s = execBr f s from rfl, execBr]
  exact instr_fetches ..

theorem jal_fetches (f : JForm) : Fetches s 4 (exec (.jal f) s) := by
  rw [show exec (.jal f) s = execJal f s from rfl, execJal]
  exact instr_fetches ..

theorem reservedOpcode_fetches (w : Word) : Fetches s 4 (exec (.reservedOpcode w) s) := instr_fetches s 4 false (fun t => t)

end Forms

/-! Illegal encodings, form by form. -/

section IllegalForms
variable {s : State}

/-- A register function with X or F[9:6] set. -/
theorem rInstrs_illegal {f : RForm} (h : Runs s 4) (hf : f.x = true ∨ f.f96 ≠ 0) :
    ∀ i ∈ rInstrs f, StopsWith s (fetched s 4) fcILLEGAL (exec i s) := by
  intro i hi
  obtain ⟨op, hop⟩ := rInstrs_aluR s f i hi
  rw [hop]
  refine h.instr_illegal ?_ _
  rcases hf with hx | h9
  · simp [hx]
  · rw [decide_eq_false h9, Bool.and_false]

section Immediate
variable {f : IForm} (h : Runs s (lenOf f.ext))
include h

/-- A shift with an extension word, or by 64 or more. -/
theorem shifts_illegal (hf : f.ext ≠ none ∨ 64 ≤ f.imm.toNat) :
    ∀ i ∈ [Instr.slli f, .srli f, .srai f], StopsWith s (fetched s (lenOf f.ext)) fcILLEGAL (exec i s) := by
  have hl : (f.ext.isNone && decide (f.imm.toNat < 64)) = false := by
    rcases hf with he | hi
    · rw [Option.isNone_eq_false_iff.mpr (Option.isSome_iff_ne_none.mpr he), Bool.false_and]
    · rw [decide_eq_false (by omega), Bool.and_false]
  have shift (op : Dword → Nat → Dword) : StopsWith s (fetched s (lenOf f.ext)) fcILLEGAL (shiftI s f op) := h.instr_illegal hl _
  simp only [List.forall_mem_cons]
  exact ⟨shift (· <<< ·), shift (· >>> ·), shift BitVec.sshiftRight, by simp⟩

theorem orhi_illegal (hf : f.ext = none ∨ f.imm ≠ 0) : StopsWith s (fetched s (lenOf f.ext)) fcILLEGAL (exec (.orhi f) s) := by
  rw [show exec (.orhi f) s = execOrhi f s from rfl, execOrhi]
  refine h.instr_illegal ?_ _
  rcases hf with he | hi
  · rw [he]; rfl
  · rw [decide_eq_false hi, Bool.and_false]

end Immediate

section Branch
variable {f : BForm} (h : Runs s (lenOf f.ext))
include h

theorem br_illegal (hc : 7 ≤ f.cond.toNat) : StopsWith s (fetched s (lenOf f.ext)) fcILLEGAL (exec (.br f) s) := by
  rw [show exec (.br f) s = execBr f s from rfl, execBr]
  exact h.instr_illegal (decide_eq_false (by omega)) _

end Branch

theorem jal_illegal {f : JForm} (h : Runs s 4) (hx : f.x = true) : StopsWith s (fetched s 4) fcILLEGAL (exec (.jal f) s) := by
  rw [show exec (.jal f) s = execJal f s from rfl, execJal]
  exact h.instr_illegal (by rw [hx]; rfl) _

theorem reservedOpcode_illegal (h : Runs s 4) (w : Word) : StopsWith s (fetched s 4) fcILLEGAL (exec (.reservedOpcode w) s) :=
  h.instr_illegal rfl (fun t => t)

section System
variable {f : CForm} (h : Runs s (lenOf f.ext))
include h

/-- Only RNG and PHASE of form C take an extension word. -/
theorem cInstrs_ext_illegal (hx : f.ext ≠ none) :
    ∀ i ∈ (cInstrs f).take 14, StopsWith s (fetched s (lenOf f.ext)) fcILLEGAL (exec i s) := by
  have hno : noExt f = false := Option.isNone_eq_false_iff.mpr (Option.isSome_iff_ne_none.mpr hx)
  have hall : ∀ r ∈ ((cInstrs f).take 14).map (exec · s), StopsWith s (fetched s (lenOf f.ext)) fcILLEGAL r := by
    have alu := h.instr_illegal (legal := false) rfl
    have mem := h.instrMem_illegal (legal := false) rfl
    rw [List.map_take, map_exec_cInstrs]
    simp only [List.take_succ_cons, List.take_zero, List.forall_mem_cons, execSync, execSig, execSigSet, sigObj, execSigBar, execWait, execFew,
      execFer, execFence, execManLoad, execManArm, execMfs, execMts, execCtx, execBrk, sigLegal, hno, Bool.false_and]
    exact ⟨alu _, alu _, alu _, alu _, alu _, mem _ _, mem _ _, alu _, alu _, alu _, alu _, alu _, alu _, alu _, by simp⟩
  exact fun i hi => hall _ (List.mem_map_of_mem hi)

theorem sync_illegal (hf : f.f.extractLsb' 1 2 = 3 ∨ f.d ≠ 0 ∨ f.a ≠ 0 ∨ f.b ≠ 0 ∨ 64 ≤ f.f.toNat) :
    StopsWith s (fetched s (lenOf f.ext)) fcILLEGAL (exec (.sync f) s) := by
  rw [show exec (.sync f) s = execSync f s from rfl, execSync]
  refine h.instr_illegal ?_ _
  rw [Bool.eq_false_iff]
  intro hl
  simp only [Bool.and_eq_true, decide_eq_true_eq, ofNat_bitsOf_field f.f 1] at hl
  obtain ⟨⟨⟨⟨⟨-, hd⟩, ha⟩, hb⟩, hsize⟩, hzone⟩ := hl
  rcases hf with h3 | hd' | ha' | hb' | h64
  · exact hzone h3
  · exact hd' hd
  · exact ha' ha
  · exact hb' hb
  · omega

omit h in
theorem sigLegal_fields {op : Nat} (hl : sigLegal f op = true) :
    f.d = 0 ∧ f.b = 0 ∧ f.f.getLsbD 9 = false ∧ (f.f.extractLsb' 7 2).toNat = op ∧ (op = 0 ∨ f.f.getLsbD 6 = false) := by
  simp only [sigLegal, Bool.and_eq_true, Bool.or_eq_true, decide_eq_true_eq, bitsOf_bit, Bool.toNat_eq_zero, bitsOf_toNat] at hl
  obtain ⟨⟨⟨⟨⟨-, hd⟩, hb⟩, h9⟩, hop⟩, h6⟩ := hl
  exact ⟨hd, hb, h9, hop, h6⟩

theorem sig_fields_illegal (hf : f.d ≠ 0 ∨ f.b ≠ 0 ∨ f.f.getLsbD 9 = true) :
    ∀ i ∈ [Instr.sig f, .sigBar f, .sigSet f], StopsWith s (fetched s (lenOf f.ext)) fcILLEGAL (exec i s) := by
  have hl (op : Nat) : sigLegal f op = false := by
    rw [Bool.eq_false_iff]
    intro hl
    obtain ⟨hd, hb, h9, -⟩ := sigLegal_fields hl
    rcases hf with hd' | hb' | h9'
    · exact hd' hd
    · exact hb' hb
    · exact Bool.false_ne_true (h9.symm.trans h9')
  simp only [List.forall_mem_cons, exec_sig, execSig, exec_sigBar, execSigBar, exec_sigSet, execSigSet, sigObj]
  exact ⟨h.instr_illegal (hl 0) _, h.instr_illegal (hl 1) _, h.instr_illegal (hl 2) _, by simp⟩

theorem sig_amount_illegal (h6 : f.f.getLsbD 6 = true) :
    ∀ i ∈ [Instr.sigBar f, .sigSet f], StopsWith s (fetched s (lenOf f.ext)) fcILLEGAL (exec i s) := by
  have hl {op : Nat} (hop : op ≠ 0) : sigLegal f op = false := by
    rw [Bool.eq_false_iff]
    intro hl
    obtain ⟨-, -, -, -, h0 | h6'⟩ := sigLegal_fields hl
    · exact hop h0
    · exact Bool.false_ne_true (h6'.symm.trans h6)
  simp only [List.forall_mem_cons, exec_sigBar, execSigBar, exec_sigSet, execSigSet, sigObj]
  exact ⟨h.instr_illegal (hl one_ne_zero) _, h.instr_illegal (hl two_ne_zero) _, by simp⟩

theorem sig_op_illegal (h3 : f.f.extractLsb' 7 2 = 3) : StopsWith s (fetched s (lenOf f.ext)) fcILLEGAL (exec (.sig f) s) := by
  rw [exec_sig, execSig, sigObj]
  refine h.instr_illegal ?_ _
  rw [Bool.eq_false_iff]
  intro hl
  obtain ⟨-, -, -, hop, -⟩ := sigLegal_fields hl
  simp [h3] at hop

theorem wait_illegal (hf : f.b ≠ 0 ∨ f.f.extractLsb' 8 2 ≠ 0 ∨ f.f.extractLsb' 6 2 = 3) :
    StopsWith s (fetched s (lenOf f.ext)) fcILLEGAL (exec (.wait f) s) := by
  rw [show exec (.wait f) s = execWait f s from rfl, execWait]
  refine h.instr_illegal ?_ _
  rw [Bool.eq_false_iff, ofNat_bitsOf_field f.f 6, bitsOf_toNat]
  intro hl
  simp only [Bool.and_eq_true, decide_eq_true_eq] at hl
  obtain ⟨⟨⟨-, hb⟩, h98⟩, hcond⟩ := hl
  rcases hf with hb' | h98' | h3
  · exact hb' hb
  · exact h98' (BitVec.eq_of_toNat_eq h98)
  · exact hcond h3

theorem fullEmpty_illegal (hf : f.f ≠ 0) :
    ∀ i ∈ [Instr.few f, .fer f], StopsWith s (fetched s (lenOf f.ext)) fcILLEGAL (exec i s) := by
  have hl : (noExt f && decide (f.f = 0)) = false := by rw [decide_eq_false hf, Bool.and_false]
  have hall : ∀ r ∈ [execFew f s, execFer f s], StopsWith s (fetched s (lenOf f.ext)) fcILLEGAL r := by
    simp only [List.forall_mem_cons, execFew, execFer]
    exact ⟨h.instrMem_illegal hl _ _, h.instrMem_illegal hl _ _, by simp⟩
  exact fun i hi => hall _ (List.mem_map_of_mem (f := (exec · s)) hi)

theorem mts_illegal (hf : (f.f.extractLsb' 0 6).toNat < 16 ∨ 23 < (f.f.extractLsb' 0 6).toNat) :
    StopsWith s (fetched s (lenOf f.ext)) fcILLEGAL (exec (.mts f) s) := by
  rw [exec_mts, execMts, bitsOf_five_zero]
  refine h.instr_illegal ?_ _
  rw [Bool.eq_false_iff]
  intro hl
  simp only [Bool.and_eq_true, decide_eq_true_eq] at hl
  omega

/-- A sync ID that no object has (12 R283). -/
theorem unmapped_illegal (hm : mapId s s.core.cur.toNat (f.f.extractLsb' 0 6).toNat = none) :
    ∀ i ∈ [Instr.sig f, .sigBar f, .sigSet f, .wait f], StopsWith s (fetched s (lenOf f.ext)) fcILLEGAL (exec i s) := by
  have hm' : mapId (fetched s (lenOf f.ext)) (fetched s (lenOf f.ext)).core.cur.toNat (bitsOf f.f.toNat 5 0) = none := by
    rw [h.fetched_core, h.mapId_fetched, bitsOf_five_zero, hm]
  have hall : ∀ r ∈ [execSig f s, execSigBar f s, execSigSet f s, execWait f s], StopsWith s (fetched s (lenOf f.ext)) fcILLEGAL r := by
    simp only [List.forall_mem_cons, execSig, execSigBar, execSigSet, sigObj, execWait]
    refine ⟨h.instr_refused _ ?_, h.instr_refused _ ?_, h.instr_refused _ ?_, h.instr_refused _ ?_, by simp⟩ <;> simp only [hm']
  exact fun i hi => hall _ (List.mem_map_of_mem (f := (exec · s)) hi)

end System

/-- A function that Table 9 does not list, or an entry with an unmapped sync ID. -/
theorem issue_illegal {f : EForm} {i : Instr} {fns : Nat} (h : Runs s (lenOf f.ext))
    (hi : (i, fns) ∈ [(Instr.arr f, 5), (.vec f, 10), (.fac f, 6), (.wgh f, 5), (.str f, 3), (.pst f, 4), (.sth f, 4)])
    (hf : fns ≤ f.fn.toNat ∨ entryOf s f = none) : StopsWith s (fetched s (lenOf f.ext)) fcILLEGAL (exec i s) := by
  have hissue : ∃ e, exec i s = issue s i ⟨e, f, fns⟩ := by
    simp only [List.mem_cons, Prod.mk.injEq, List.not_mem_nil, or_false] at hi
    rcases hi with ⟨rfl, rfl⟩ | ⟨rfl, rfl⟩ | ⟨rfl, rfl⟩ | ⟨rfl, rfl⟩ | ⟨rfl, rfl⟩ | ⟨rfl, rfl⟩ | ⟨rfl, rfl⟩
    exacts [⟨eARR, rfl⟩, ⟨eVEC, rfl⟩, ⟨eFAC, rfl⟩, ⟨eWGH, rfl⟩, ⟨eSTR, rfl⟩, ⟨ePST, rfl⟩, ⟨eSTH, rfl⟩]
  obtain ⟨e, he⟩ := hissue
  rw [he, issue]
  rcases hf with hfn | hent
  · exact h.instr_illegal (decide_eq_false (by simpa using hfn)) _
  · refine h.instr_refused _ ?_
    simp only [h.entryOf_fetched, hent]

end IllegalForms

/-! Accesses outside the partitions. -/

section Outside
variable {s : State}

theorem load_outside {f : IForm} {k : Nat} (h : Runs s (lenOf f.ext)) (hp : permits s loadParts (accAddr s f k) (2 ^ k) = false)
    (ext : Nat → Dword) : StopsWith s (fetched s (lenOf f.ext)) fcBOUNDS (load s f k ext) := by
  have hload : load s f k ext = .next (coreFault (fetched s (lenOf f.ext)) fcBOUNDS 0) := by
    rw [load, h.instrMem_ready (by simp [hp])]
    simp [hp]
  rw [hload]
  exact h.faults _

theorem store_outside {f : IForm} {k : Nat} (h : Runs s (lenOf f.ext)) (hp : permits s storeParts (accAddr s f k) (2 ^ k) = false) :
    StopsWith s (fetched s (lenOf f.ext)) fcBOUNDS (store s f k) := by
  have hstore : store s f k = .next (coreFault (fetched s (lenOf f.ext)) fcBOUNDS 0) := by
    rw [store, h.instrMem_ready (by simp [hp])]
    simp [hp]
  rw [hstore]
  exact h.faults _

theorem accesses_outside {f : IForm} {i : Instr} {k : Nat} {ps : List Nat}
    (hi : (i, k, ps) ∈ [(Instr.ldd f, 3, loadParts), (.ldw f, 2, loadParts), (.ldwu f, 2, loadParts), (.lds f, 1, loadParts),
        (.ldsu f, 1, loadParts), (.ldb f, 0, loadParts), (.ldbu f, 0, loadParts), (.std f, 3, storeParts), (.stw f, 2, storeParts),
        (.sts f, 1, storeParts), (.stb f, 0, storeParts)])
    (h : Runs s (lenOf f.ext)) (hp : permits s ps (accAddr s f k) (2 ^ k) = false) :
    StopsWith s (fetched s (lenOf f.ext)) fcBOUNDS (exec i s) := by
  have hkind : (ps = loadParts ∧ ∃ ext, exec i s = load s f k ext) ∨ (ps = storeParts ∧ exec i s = store s f k) := by
    simp only [List.mem_cons, Prod.mk.injEq, List.not_mem_nil, or_false] at hi
    rcases hi with ⟨rfl, rfl, rfl⟩ | ⟨rfl, rfl, rfl⟩ | ⟨rfl, rfl, rfl⟩ | ⟨rfl, rfl, rfl⟩ | ⟨rfl, rfl, rfl⟩ | ⟨rfl, rfl, rfl⟩ |
      ⟨rfl, rfl, rfl⟩ | ⟨rfl, rfl, rfl⟩ | ⟨rfl, rfl, rfl⟩ | ⟨rfl, rfl, rfl⟩ | ⟨rfl, rfl, rfl⟩
    exacts [.inl ⟨rfl, BitVec.ofNat 64, rfl⟩, .inl ⟨rfl, sextTo64 32, rfl⟩, .inl ⟨rfl, BitVec.ofNat 64, rfl⟩, .inl ⟨rfl, sextTo64 16, rfl⟩,
      .inl ⟨rfl, BitVec.ofNat 64, rfl⟩, .inl ⟨rfl, sextTo64 8, rfl⟩, .inl ⟨rfl, BitVec.ofNat 64, rfl⟩, .inr ⟨rfl, rfl⟩, .inr ⟨rfl, rfl⟩,
      .inr ⟨rfl, rfl⟩, .inr ⟨rfl, rfl⟩]
  rcases hkind with ⟨rfl, ext, he⟩ | ⟨rfl, he⟩
  · rw [he]
    exact load_outside h hp ext
  · rw [he]
    exact store_outside h hp

/-- FEW and FER of an address that is no full/empty word (12 R296). -/
theorem fullEmpty_outside {f : CForm} (h : Runs s 4) (hx : f.ext = none) (hf : f.f = 0) (hok : feOk s (rd s f.a).toNat = false) :
    ∀ i ∈ [Instr.few f, .fer f], StopsWith s (fetched s 4) fcBOUNDS (exec i s) := by
  have hl : (noExt f && decide (f.f = 0)) = true := by rw [noExt, hx, hf]; rfl
  have hall : ∀ r ∈ [execFew f s, execFer f s], r = .next (coreFault (fetched s 4) fcBOUNDS 0) := by
    simp only [List.forall_mem_cons, execFew, execFer, hl, hx, lenOf, hok, Bool.false_eq_true, if_false]
    refine ⟨?_, ?_, by simp⟩
    all_goals
      rw [h.instrMem_ready (by simp)]
      simp [h.feOk_fetched, hok]
  intro i hi
  rw [hall _ (List.mem_map_of_mem (f := (exec · s)) hi)]
  exact h.faults _

end Outside

/-! Targets outside the address space. -/

/-- The instruction completes at its target, and the core stops there. -/
def StopsAway (s v : State) (r : Res) (d : SReg) (x : Dword) (pc : Addr) : Prop :=
  ∃ u t, r = .next t ∧ Completed v u d x pc ∧ FaultStopped u t fcBOUNDS ∧ SameBytes s t

theorem Completed.ctxRuns {s t : State} {d : SReg} {v : Dword} {pc : Addr} (h : Completed s t d v pc) (hs : ctxRuns s = true) :
    ctxRuns t = true := by
  simp only [Machine.ctxRuns, Bool.and_eq_true] at hs
  rw [Machine.ctxRuns, h.mode, h.man, hs.2]
  rfl

theorem jumpTo_outside (s : State) {target : Int} (ht : target < 0 ∨ 2 ^ 21 ≤ target) :
    jumpTo s target = coreFault (complete s (BitVec.ofInt 21 target)) fcBOUNDS 0 := if_neg (by omega)

section Away
variable {s : State}

theorem completed_stopsAway {u v : State} {d : SReg} {x : Dword} {pc : Addr} (hv : ctxRuns v = true) (hsame : SameBytes s v)
    (hc : Completed v u d x pc) : StopsAway s v (.next (coreFault u fcBOUNDS 0)) d x pc :=
  ⟨u, _, rfl, hc, coreFault_stopped (hc.ctxRuns hv) _, fun a => by rw [coreFault_mem, hc.mem, hsame]⟩

theorem jalr_away {f : IForm} (h : Runs s (lenOf f.ext)) (ht : 2 ^ 21 ≤ ((rd s f.a + immOf f.ext f.imm) &&& ~~~3).toNat) :
    StopsAway s (fetched s (lenOf f.ext)) (exec (.jalr f) s) f.d ((curCtx s).pc.zeroExtend 64 + BitVec.ofNat 64 (lenOf f.ext))
      (((rd s f.a + immOf f.ext f.imm) &&& ~~~3).setWidth 21) := by
  have hexec : exec (.jalr f) s = .next (coreFault (complete (wrReg (fetched s (lenOf f.ext)) (fetched s (lenOf f.ext)).core.cur f.d
      ((curCtx s).pc.zeroExtend 64 + BitVec.ofNat 64 (lenOf f.ext))) (((rd s f.a + immOf f.ext f.imm) &&& ~~~3).setWidth 21)) fcBOUNDS 0) := by
    have hlink : BitVec.ofNat 64 ((curCtx s).pc.toNat + lenOf f.ext) = (curCtx s).pc.zeroExtend 64 + BitVec.ofNat 64 (lenOf f.ext) := by
      rw [BitVec.ofNat_add, BitVec.ofNat_toNat]
    rw [show exec (.jalr f) s = execJalr f s from rfl, execJalr, h.instr_legal rfl]
    simp only [h.curCtx_fetched, h.rd_fetched, hlink, ← toNat_and_not_three]
    rw [jumpTo_outside _ (.inr (by exact_mod_cast ht)), BitVec.ofInt_natCast, BitVec.ofNat_toNat]
  rw [hexec]
  exact completed_stopsAway h.ctxRuns_fetched (fetched_sameBytes s _) (complete_wrReg_completed ..)

theorem br_away {f : BForm} (h : Runs s (lenOf f.ext))
    (ht : (curCtx s).pc.toNat + brOffset f.ext f.off < 0 ∨ 2 ^ 21 ≤ (curCtx s).pc.toNat + brOffset f.ext f.off)
    (hc : brTaken f.cond (rd s f.a) (rd s f.b) = some true) :
    StopsAway s (fetched s (lenOf f.ext)) (exec (.br f) s) 0 0 (BitVec.ofInt 21 ((curCtx s).pc.toNat + brOffset f.ext f.off)) := by
  have hlegal : f.cond.toNat < 7 := by
    by_contra hge
    unfold brTaken at hc
    split at hc <;> first | omega | cases hc
  have hexec : exec (.br f) s = .next (coreFault (complete (fetched s (lenOf f.ext))
      (BitVec.ofInt 21 ((curCtx s).pc.toNat + brOffset f.ext f.off))) fcBOUNDS 0) := by
    rw [show exec (.br f) s = execBr f s from rfl, execBr, h.instr_legal (decide_eq_true hlegal)]
    simp only [h.rd_fetched, h.curCtx_fetched, hc, if_true]
    rw [jumpTo_outside _ ht]
  rw [hexec]
  exact completed_stopsAway h.ctxRuns_fetched (fetched_sameBytes s _) (complete_completed ..)

theorem jal_away {f : JForm} (h : Runs s 4) (hx : f.x = false)
    (ht : (curCtx s).pc.toNat + 4 * f.off.toInt < 0 ∨ 2 ^ 21 ≤ (curCtx s).pc.toNat + 4 * f.off.toInt) :
    StopsAway s (fetched s 4) (exec (.jal f) s) f.d ((curCtx s).pc.zeroExtend 64 + 4)
      (BitVec.ofInt 21 ((curCtx s).pc.toNat + 4 * f.off.toInt)) := by
  have hexec : exec (.jal f) s = .next (coreFault (complete (wrReg (fetched s 4) (fetched s 4).core.cur f.d
      ((curCtx s).pc.zeroExtend 64 + 4)) (BitVec.ofInt 21 ((curCtx s).pc.toNat + 4 * f.off.toInt))) fcBOUNDS 0) := by
    have hlink : BitVec.ofNat 64 ((curCtx s).pc.toNat + 4) = (curCtx s).pc.zeroExtend 64 + 4 := by
      rw [BitVec.ofNat_add, BitVec.ofNat_toNat]
      rfl
    rw [show exec (.jal f) s = execJal f s from rfl, execJal, h.instr_legal (by rw [hx]; rfl)]
    simp only [h.curCtx_fetched, hlink]
    rw [jumpTo_outside _ ht]
  rw [hexec]
  exact completed_stopsAway h.ctxRuns_fetched (fetched_sameBytes s _) (complete_wrReg_completed ..)

end Away

/-- Settles O22: each class of instruction by its own lemma; a fetch outside CODE by the form. -/
theorem instructionFaults : Obligations.InstructionFaults := by
  intro s illegal bounds nofetch away pc
  refine ⟨fun f i k ps hi h hp => accesses_outside hi h hp, fun w h => reservedOpcode_illegal h w, fun f h hf => rInstrs_illegal h hf,
    fun f h => ⟨shifts_illegal h, orhi_illegal h, jalr_away h⟩, fun f h => ⟨br_illegal h, ?_⟩,
    fun f h => ⟨jal_illegal h, jal_away h⟩,
    fun f h => ⟨cInstrs_ext_illegal h, sync_illegal h, sig_fields_illegal h, sig_amount_illegal h, sig_op_illegal h, wait_illegal h,
      fullEmpty_illegal h, mts_illegal h, unmapped_illegal h, fun hx hf hok => ?_⟩,
    fun f i fns hi h hf => issue_illegal h hi hf, fun hon => ?_⟩
  · intro target ht hc
    have htarget : target = pc.toNat + brOffset f.ext f.off := congrArg (fun z : Int => pc.toNat + z) (brOffset_eq f.ext f.off).symm
    rw [htarget] at ht ⊢
    exact br_away h ht hc
  · rw [hx] at h
    exact fullEmpty_outside h hx hf hok
  · exact ⟨fun f hf i hi => (rInstrs_fetch s f i hi).outside hon hf, fun f hf i hi => (iInstrs_fetch s f i hi).outside hon hf,
      fun f hf => (br_fetches s f).outside hon hf, fun f hf => (jal_fetches s f).outside hon hf,
      fun f hf i hi => (cInstrs_fetch s f i hi).outside hon hf, fun f hf i hi => (eInstrs_fetch s f i hi).outside hon hf,
      fun w hf => (reservedOpcode_fetches s w).outside hon hf⟩

end Sys2Proof.Machine
end
section
/-! PROOFS. What makes each command idle: a core or a unit that is off, a queue head of another function, a condition that does not hold (log 1). -/

namespace Sys2Proof.Machine

theorem whenOn_off {c : Bool} (h : c = false) (s t : State) : whenOn c s t = .next s := by rw [h]; rfl

theorem whenMem_off {c : Bool} (h : c = false) (req : Nat) (sp : List (Nat × Nat)) (s t : State) : whenMem c req sp s t = .next s := by
  rw [h]; rfl

/-! Fields of packet and message headers. -/

theorem h0Kind_ne {h : Dword} {k : Nat} (hk : h.extractLsb' 0 4 ≠ BitVec.ofNat 4 k) : decide (h0Kind h = k) = false := by
  refine decide_eq_false fun he => hk ?_
  rw [← he, h0Kind, bitsOf_toNat, BitVec.ofNat_toNat, BitVec.setWidth_eq]

theorem h0Tag_eq (h : Dword) : h0Tag h = h.extractLsb' 4 6 := by
  rw [h0Tag, bitsOf_toNat, BitVec.ofNat_toNat, BitVec.setWidth_eq]

theorem phKind_ne {h : Dword} {k : Nat} (hk : h.extractLsb' 0 4 ≠ BitVec.ofNat 4 k) : decide (phKind h = k) = false := h0Kind_ne hk

theorem strTakes_false {s : State} (h : unitsOn s = false ∧ (busOn s = false ∨ s.sec.stop = false)) : strTakes s = false := by
  obtain ⟨hu, hb | hs⟩ := h
  · simp [strTakes, hu, hb]
  · simp [strTakes, hu, hs]

theorem nominalCode_none {op : BitVec 3} (h : 5 ≤ op.toNat) : nominalCode op = none := by
  revert op
  decide

/-! Commands. -/

section Idle
variable {s : State}

theorem wake_idle {slot : BitVec 5} (h : unitsOn s = false ∨ (slot.toNat ≠ 7 ∧ watchMet s slot.toNat = false)) :
    exec (.wake slot) s = .next s := by
  rw [show exec (.wake slot) s = execWake slot s from rfl, execWake]
  split
  · exact whenOn_off (by rcases h with h | ⟨-, h⟩ <;> simp [h]) s _
  · split
    next h7 =>
      have hu : unitsOn s = false := h.resolve_right fun hn => hn.1 h7
      split
      · exact whenOn_off (by simp [hu]) s _
      · exact whenMem_off (by simp [hu]) _ _ s _
      · exact whenMem_off (by simp [hu]) _ _ s _
      · rfl
    · exact whenOn_off (by rcases h with h | ⟨-, h⟩ <;> simp [h]) s _

theorem fenceDone_idle (h : unitsOn s = false ∨ ∀ m, s.core.mode = .fence m → fenced s m = false) :
    exec .fenceDone s = .next s := by
  rw [show exec .fenceDone s = execFenceDone s from rfl, execFenceDone]
  split
  next m hm => exact whenOn_off (by rcases h with h | h <;> simp [h, hm]) s _
  · rfl

theorem engineRetire_idle {q : BitVec 3} {n : Nat} (h : unitsOn s = false ∨ ∀ y, (qOf s q.toNat).infl[n]? = some y → y.done = false) :
    exec (.engineRetire q n) s = .next s := by
  rw [show exec (.engineRetire q n) s = execEngineRetire q n s from rfl, execEngineRetire]
  split
  · rfl
  next x hx => exact whenMem_off (by rcases h with h | h <;> simp [h, hx]) _ _ s _

theorem queueDiscard_idle {q : BitVec 3} (h : unitsOn s = false ∨ ((qOf s q.toNat).wait ≠ [] ∧ (qOf s q.toNat).failed = false)) :
    exec (.queueDiscard q) s = .next s := by
  rw [show exec (.queueDiscard q) s = execQueueDiscard q s from rfl, execQueueDiscard]
  split
  next hw => exact whenOn_off (by rcases h with h | ⟨h, -⟩; exacts [h, absurd hw h]) s _
  · exact whenOn_off (by rcases h with h | ⟨-, h⟩ <;> simp [h]) s _

theorem itemClaim_idle {str : BitVec 6} (h : strNext s str.toNat = none ∨ strCan s str.toNat = false) :
    exec (.itemClaim str) s = .next s := by
  rw [show exec (.itemClaim str) s = execItemClaim str s from rfl, execItemClaim]
  split
  · rfl
  next o ho => exact whenMem_off (by rcases h with h | h <;> simp_all) _ _ s _

theorem itemSteal_idle {str : BitVec 6} (h : victims s str.toNat = [] ∨ strIdle s str.toNat = false) :
    exec (.itemSteal str) s = .next s := by
  rw [show exec (.itemSteal str) s = execItemSteal str s from rfl, execItemSteal]
  split
  · rfl
  next o ho =>
    rcases h with h | h
    · rw [h] at ho
      cases ho
    · exact whenMem_off (by simp [h]) _ _ s _

theorem listEntryClaim_idle {str : BitVec 6} (h : groupList s (strGrp s str.toNat) = none ∨ strIdle s str.toNat = false) :
    exec (.listEntryClaim str) s = .next s := by
  rw [show exec (.listEntryClaim str) s = execListEntryClaim str s from rfl, execListEntryClaim]
  split
  · rfl
  next o ho => exact whenMem_off (by rcases h with h | h <;> simp_all) _ _ s _

theorem caravanDeadline_idle {str : BitVec 6} (h : unitsOn s = false) :
    exec (.caravanDeadline str) s = .next s := by
  rw [show exec (.caravanDeadline str) s = execCaravanDeadline str s from rfl, execCaravanDeadline]
  exact whenOn_off (by simp [h]) s _

theorem baleDrain_idle (h : unitsOn s = false ∨ nextBale s = none) :
    exec .baleDrain s = .next s := by
  rw [show exec .baleDrain s = execBaleDrain s from rfl, execBaleDrain]
  split
  · rfl
  · exact whenMem_off (by rcases h with h | h <;> simp_all) _ _ s _

theorem baleRead_idle (h : unitsOn s = false ∨ baleRun s = none ∨ presented s = none) :
    exec .baleRead s = .next s := by
  rw [show exec .baleRead s = execBaleRead s from rfl, execBaleRead]
  split
  · exact whenMem_off (by rcases h with h | h | h <;> simp_all) _ _ s _
  · rfl

theorem scheduleGroupEval_idle (h : unitsOn s = false ∨ ∀ y ∈ (qOf s eFAC).infl, y.ent.fn ≠ 0 ∨ y.done = true) :
    exec .scheduleGroupEval s = .next s := by
  rw [show exec .scheduleGroupEval s = execScheduleGroupEval s from rfl, execScheduleGroupEval]
  split
  · rfl
  next i hi =>
    have hu : unitsOn s = false := by
      refine h.resolve_right fun hall => ?_
      have hfound := List.find?_some hi
      rcases hall i (List.mem_of_find?_eq_some hi) with hfn | hdone <;> simp_all
    dsimp only
    split
    · rfl
    · exact whenOn_off hu s _

theorem packetIssue_idle (h : busOn s = false ∨ s.str.cred = 0 ∨ (s.flt.fatal = false ∧ s.sec.rekey ≠ none) ∨
      (s.str.acks = [] ∧ (s.flt.fatal = true ∨ nextJob s = none))) :
    exec .packetIssue s = .next s := by
  rw [show exec .packetIssue s = execPacketIssue s from rfl, execPacketIssue]
  rcases h with h | h | ⟨hf, hr⟩ | ⟨hacks, hf | hj⟩
  · simp [h]
  · simp [h]
  · simp [hf, Option.isSome_iff_ne_none.mpr hr]
  · simp [hf, hacks]
  · simp [hacks, hj]

theorem streamCredit_idle (h : busOn s = false) :
    exec .streamCredit s = .next s := by
  rw [show exec .streamCredit s = execStreamCredit s from rfl, execStreamCredit]
  exact whenOn_off (by simp [h]) s _

theorem postCredit_idle (h : busOn s = false) :
    exec .postCredit s = .next s := by
  rw [show exec .postCredit s = execPostCredit s from rfl, execPostCredit]
  exact whenOn_off (by simp [h]) s _

theorem mbistRun_idle (h : busOn s = false) :
    exec .mbistRun s = .next s := by
  rw [show exec .mbistRun s = execMbistRun s from rfl, execMbistRun]
  exact whenOn_off (by simp [h]) s _

theorem rdatReceived_idle {pk : StrPacket} (h : (unitsOn s = false ∧ (busOn s = false ∨ s.sec.stop = false)) ∨ pk.h0.extractLsb' 0 4 ≠ 4 ∨
      ∀ y ∈ s.str.reads, y.tag ≠ pk.h0.extractLsb' 4 6) :
    exec (.rdatReceived pk) s = .next s := by
  rw [show exec (.rdatReceived pk) s = execRdatReceived pk s from rfl, execRdatReceived]
  refine whenOn_off ?_ s _
  rcases h with h | h | h
  · simp [strTakes_false h]
  · simp only [h0Kind_ne (k := 4) h, Bool.and_false, Bool.false_and]
  · have hnone : s.str.reads.any (fun r => decide (r.tag = h0Tag pk.h0)) = false := by simpa [List.any_eq_false, h0Tag_eq] using h
    simp only [hnone, Bool.and_false, Bool.false_and]

theorem ackReceived_idle {hd : Dword} (h : (unitsOn s = false ∧ (busOn s = false ∨ s.sec.stop = false)) ∨ hd.extractLsb' 0 4 ≠ 5 ∨
      ∀ y ∈ s.str.writes, y.tag ≠ hd.extractLsb' 4 6) :
    exec (.ackReceived hd) s = .next s := by
  rw [show exec (.ackReceived hd) s = execAckReceived hd s from rfl, execAckReceived]
  split
  · rfl
  next w hw =>
    refine whenOn_off ?_ s _
    rcases h with h | h | h
    · simp [strTakes_false h]
    · rw [h0Kind_ne (k := 5) h, Bool.and_false]
    · have htag := List.find?_some hw
      rw [h0Tag_eq, decide_eq_true_eq] at htag
      exact absurd htag (h w (List.mem_of_find?_eq_some hw))

theorem rputReceived_idle {pk : StrPacket} (h : busOn s = false ∨ pk.h0.extractLsb' 0 4 ≠ 3 ∨ s.str.inbuf = 0) :
    exec (.rputReceived pk) s = .next s := by
  rw [show exec (.rputReceived pk) s = execRputReceived pk s from rfl, execRputReceived]
  refine whenOn_off ?_ s _
  rcases h with h | h | h
  · simp [h]
  · simp only [h0Kind_ne (k := 3) h, Bool.and_false, Bool.false_and]
  · simp [h]

theorem postTransmit_idle {m2 : BitVec 2} (h : unitsOn s = false ∨ s.pst.cred = 0 ∨ ∀ y, s.pst.msgs[m2.toNat]? = some y → y.st ≠ .held) :
    exec (.postTransmit m2) s = .next s := by
  rw [show exec (.postTransmit m2) s = execPostTransmit m2 s from rfl, execPostTransmit]
  split
  · rfl
  next m hm => exact whenOn_off (by rcases h with h | h | h <;> simp [h, hm]) s _

theorem postResend_idle {m2 : BitVec 2} (h : unitsOn s = false ∨ s.pst.cred = 0 ∨ ∀ y, s.pst.msgs[m2.toNat]? = some y → y.st ≠ .retry) :
    exec (.postResend m2) s = .next s := by
  rw [show exec (.postResend m2) s = execPostResend m2 s from rfl, execPostResend]
  split
  · rfl
  next m hm => exact whenOn_off (by rcases h with h | h | h <;> simp [h, hm]) s _

theorem inboundMessage_idle {hd : Dword} {pl : BitVec 512} (h : busOn s = false ∨ hd.extractLsb' 0 4 ≠ 1 ∨ s.pst.waiting ≠ []) :
    exec (.inboundMessage hd pl) s = .next s := by
  rw [show exec (.inboundMessage hd pl) s = execInboundMessage hd pl s from rfl, execInboundMessage]
  refine whenOn_off ?_ s _
  rcases h with h | h | h
  · simp [h]
  · simp only [phKind_ne (k := 1) h, Bool.and_false, Bool.false_and]
  · simp [h]

theorem postResponse_idle {hd : Dword} (h : unitsOn s = false ∨ hd.extractLsb' 0 4 ≠ 2 ∨ answered s hd = none) :
    exec (.postResponse hd) s = .next s := by
  rw [show exec (.postResponse hd) s = execPostResponse hd s from rfl, execPostResponse]
  split
  · rfl
  next m hm =>
    refine whenOn_off ?_ s _
    rcases h with h | h | h
    · simp [h]
    · rw [phKind_ne (k := 2) h, Bool.and_false]
    · simp [h] at hm

theorem watchmanFire_idle (h : unitsOn s = false ∨ wmHeld s = true ∨ s.syn.wmCount.toNat < max s.syn.wmThresh.toNat 0x1000) :
    exec .watchmanFire s = .next s := by
  rw [show exec .watchmanFire s = execWatchmanFire s from rfl, execWatchmanFire]
  refine whenOn_off ?_ s _
  rcases h with h | h | h
  · simp [h]
  · simp [h]
  · rw [wmLimit, decide_eq_false (Nat.not_le.mpr h), Bool.and_false]

theorem manifestLoadDone_idle (h : unitsOn s = false ∨ s.man.load = none) :
    exec .manifestLoadDone s = .next s := by
  rw [show exec .manifestLoadDone s = execManifestLoadDone s from rfl, execManifestLoadDone]
  split
  · rfl
  · exact whenMem_off (by rcases h with h | h <;> simp_all) _ _ s _

theorem shadowCopyDone_idle (h : unitsOn s = false ∨ s.man.syncing = false) :
    exec .shadowCopyDone s = .next s := by
  rw [show exec .shadowCopyDone s = execShadowCopyDone s from rfl, execShadowCopyDone]
  exact whenOn_off (by rcases h with h | h <;> simp [h]) s _

theorem reloadDone_idle (h : unitsOn s = false ∨ s.core.rldBusy = false ∨ enginesDone s = false ∨ streamDrained s = false) :
    exec .reloadDone s = .next s := by
  rw [show exec .reloadDone s = execReloadDone s from rfl, execReloadDone]
  exact whenOn_off (by rcases h with h | h | h | h <;> simp [h]) s _

theorem zeroisationDone_idle (h : busOn s = false ∨ s.mem.zeroing = false) :
    exec .zeroisationDone s = .next s := by
  rw [show exec .zeroisationDone s = execZeroisationDone s from rfl, execZeroisationDone]
  exact whenOn_off (by rcases h with h | h <;> simp [h]) s _

theorem scrubRead_idle (h : unitsOn s = false ∨ s.mem.zeroing = true) :
    exec .scrubRead s = .next s := by
  rw [show exec .scrubRead s = execScrubRead s from rfl, execScrubRead]
  exact whenOn_off (by rcases h with h | h <;> simp [h]) s _

theorem scrubWriteback_idle (h : unitsOn s = false ∨ s.mem.wbq = []) :
    exec .scrubWriteback s = .next s := by
  rw [show exec .scrubWriteback s = execScrubWriteback s from rfl, execScrubWriteback]
  split
  · rfl
  · exact whenMem_off (by rcases h with h | h <;> simp_all) _ _ s _

theorem fatalFault_idle (h : s.pin.coreRst = false) :
    exec .fatalFault s = .next s := by
  rw [show exec .fatalFault s = execFatalFault s from rfl, execFatalFault]
  exact whenOn_off (by simp [h]) s _

theorem allowanceStrobe_idle {half : Half} (h : unitsOn s = false) :
    exec (.allowanceStrobe half) s = .next s := by
  rw [show exec (.allowanceStrobe half) s = execAllowanceStrobe half s from rfl, execAllowanceStrobe]
  exact whenOn_off (by simp [h]) s _

theorem defaultWindow_idle (h : unitsOn s = false ∨ s.gov.noStrobe < 12 ∨ (s.gov.winOwn = true ∧ s.gov.winTick < 10)) :
    exec .defaultWindow s = .next s := by
  rw [show exec .defaultWindow s = execDefaultWindow s from rfl, execDefaultWindow]
  refine whenOn_off ?_ s _
  rcases h with h | h | ⟨ho, ht⟩
  · simp [h]
  · simp [Nat.not_le.mpr h]
  · simp [ho, Nat.not_le.mpr ht]

theorem maskUpdate_idle (h : unitsOn s = false) :
    exec .maskUpdate s = .next s := by
  rw [show exec .maskUpdate s = execMaskUpdate s from rfl, execMaskUpdate]
  exact whenOn_off (by simp [h]) s _

theorem budgetRequest_idle (h : unitsOn s = false ∨ s.gov.winOwn = true ∨ s.gov.reqFixed = true ∨ s.gov.winTick < 8) :
    exec .budgetRequest s = .next s := by
  rw [show exec .budgetRequest s = execBudgetRequest s from rfl, execBudgetRequest]
  refine whenOn_off ?_ s _
  rcases h with h | h | h | h
  · simp [h]
  · simp [h]
  · simp [h]
  · simp [Nat.not_le.mpr h]

theorem phaseBegin_idle (h : unitsOn s = false ∨ s.gov.pend = none) :
    exec .phaseBegin s = .next s := by
  rw [show exec .phaseBegin s = execPhaseBegin s from rfl, execPhaseBegin]
  split
  · rfl
  · exact whenOn_off (by rcases h with h | h <;> simp_all) s _

theorem thermalChange_idle {m2 : BitVec 2} (h : unitsOn s = false) :
    exec (.thermalChange m2) s = .next s := by
  rw [show exec (.thermalChange m2) s = execThermalChange m2 s from rfl, execThermalChange]
  exact whenOn_off (by simp [h]) s _

theorem marginReading_idle {rdg : Byte} (h : unitsOn s = false ∨ s.clk.stretch = true ∨ s.gov.mmInt = 0) :
    exec (.marginReading rdg) s = .next s := by
  rw [show exec (.marginReading rdg) s = execMarginReading rdg s from rfl, execMarginReading]
  exact whenOn_off (by rcases h with h | h | h <;> simp [h]) s _

theorem operatingPointNotice_idle {op opn : BitVec 3} (h : unitsOn s = false) :
    exec (.operatingPointNotice op opn) s = .next s := by
  rw [show exec (.operatingPointNotice op opn) s = execOperatingPointNotice op opn s from rfl, execOperatingPointNotice]
  exact whenOn_off (by simp [h]) s _

theorem snapshotCapture_idle (h : s.ldg.snapReq = false ∨ s.ldg.savebusy = true) :
    exec .snapshotCapture s = .next s := by
  rw [show exec .snapshotCapture s = execSnapshotCapture s from rfl, execSnapshotCapture]
  rcases h with h | h <;> simp [h]

theorem autoSnapshot_idle (h : s.ldg.auto_ = 0 ∨ s.ldg.savebusy = true) :
    exec .autoSnapshot s = .next s := by
  rw [show exec .autoSnapshot s = execAutoSnapshot s from rfl, execAutoSnapshot]
  rcases h with h | h <;> simp [h]

theorem saveWord_idle (h : s.ldg.svReq = false) :
    exec .saveWord s = .next s := by
  rw [show exec .saveWord s = execSaveWord s from rfl, execSaveWord]
  simp [h]

theorem keyLd_idle {key : BitVec 256} {id : Word} {lim : Bool} (h : busOn s = false ∨ s.sec.busy = true) :
    exec (.keyLd key id lim) s = .next s := by
  rw [show exec (.keyLd key id lim) s = execKeyLd key id lim s from rfl, execKeyLd]
  exact whenOn_off (by rcases h with h | h <;> simp [h]) s _

theorem keyEnd_idle (h : busOn s = false ∨ s.sec.busy = true) :
    exec .keyEnd s = .next s := by
  rw [show exec .keyEnd s = execKeyEnd s from rfl, execKeyEnd]
  exact whenOn_off (by rcases h with h | h <;> simp [h]) s _

theorem rekey_idle (h : unitsOn s = false ∨ s.sec.rekey = none ∨ s.str.reads ≠ [] ∨ s.str.writes ≠ []) :
    exec .rekey s = .next s := by
  rw [show exec .rekey s = execRekey s from rfl, execRekey]
  split
  · rfl
  · exact whenOn_off (by rcases h with h | h | h | h <;> simp_all) s _

theorem codeLoadDone_idle (h : unitsOn s = false ∨ s.sec.codeLoad = none) :
    exec .codeLoadDone s = .next s := by
  rw [show exec .codeLoadDone s = execCodeLoadDone s from rfl, execCodeLoadDone]
  split
  · rfl
  · exact whenMem_off (by rcases h with h | h <;> simp_all) _ _ s _

theorem stageOpChange_idle {op : BitVec 3} (h : unitsOn s = false ∨ s.core.syncArr = false ∨ 5 ≤ op.toNat) :
    exec (.stageOpChange op) s = .next s := by
  rw [show exec (.stageOpChange op) s = execStageOpChange op s from rfl, execStageOpChange]
  refine whenOn_off ?_ s _
  rcases h with h | h | h
  · simp [h]
  · simp [h]
  · rw [nominalCode_none h, Option.isSome_none, Bool.and_false]

theorem syncArrival_idle (h : unitsOn s = false ∨ s.core.syncArr = true ∨ s.core.rldBusy = true) :
    exec .syncArrival s = .next s := by
  rw [show exec .syncArrival s = execSyncArrival s from rfl, execSyncArrival]
  have hcan : (unitsOn s && !s.core.syncArr && !s.core.rldBusy) = false := by rcases h with h | h | h <;> simp [h]
  simp only [hcan, Bool.false_and]
  split
  · rfl
  · split <;> rfl

theorem syncRelease_idle {rl : ReleaseIn} (h : unitsOn s = false ∨ s.core.syncArr = false) :
    exec (.syncRelease rl) s = .next s := by
  rw [show exec (.syncRelease rl) s = execSyncRelease rl s from rfl, execSyncRelease]
  exact whenOn_off (by rcases h with h | h <;> simp [h]) s _

theorem exchStart_idle (h : unitsOn s = false ∨ s.core.phase ≠ 2) :
    exec .exchStart s = .next s := by
  rw [show exec .exchStart s = execExchStart s from rfl, execExchStart]
  refine whenOn_off ?_ s _
  rcases h with h | h
  · simp [h]
  · rw [decide_eq_false h, Bool.and_false]

theorem exchEnd_idle (h : unitsOn s = false ∨ s.core.phase ≠ 3) :
    exec .exchEnd s = .next s := by
  rw [show exec .exchEnd s = execExchEnd s from rfl, execExchEnd]
  refine whenOn_off ?_ s _
  rcases h with h | h
  · simp [h]
  · rw [decide_eq_false h, Bool.and_false]

theorem exchSendBeat_idle {off : Word} (h : unitsOn s = false ∨ exchRuns s = false) :
    exec (.exchSendBeat off) s = .next s := by
  rw [show exec (.exchSendBeat off) s = execExchSendBeat off s from rfl, execExchSendBeat]
  exact whenOn_off (by rcases h with h | h <;> simp [h]) s _

theorem exchRecvBeat_idle {off : Word} {bt : XchBeat} (h : unitsOn s = false) :
    exec (.exchRecvBeat off bt) s = .next s := by
  rw [show exec (.exchRecvBeat off bt) s = execExchRecvBeat off bt s from rfl, execExchRecvBeat]
  exact whenOn_off (by simp [h]) s _

theorem itinLoadDone_idle {cyc : Word} (h : unitsOn s = false ∨ s.xch.load = none) :
    exec (.itinLoadDone cyc) s = .next s := by
  rw [show exec (.itinLoadDone cyc) s = execItinLoadDone cyc s from rfl, execItinLoadDone]
  split
  · rfl
  · exact whenMem_off (by rcases h with h | h <;> simp_all) _ _ s _

theorem alertRise_idle (h : s.clk.alert = false) :
    exec .alertRise s = .next s := by
  rw [show exec .alertRise s = execAlertRise s from rfl, execAlertRise]
  exact whenOn_off (by simp [h]) s _

theorem alertReturn_idle (h : s.clk.alert = false ∨ s.clk.alertHold = false) :
    exec .alertReturn s = .next s := by
  rw [show exec .alertReturn s = execAlertReturn s from rfl, execAlertReturn]
  exact whenOn_off (by rcases h with h | h <;> simp [h]) s _

theorem droopTrip_idle (h : unitsOn s = false ∨ s.gov.droopEn = false ∨ s.clk.armed = false ∨ s.clk.stretch = true) :
    exec .droopTrip s = .next s := by
  rw [show exec .droopTrip s = execDroopTrip s from rfl, execDroopTrip]
  exact whenOn_off (by rcases h with h | h | h | h <;> simp [h]) s _

theorem stretchEnd_idle {lim : Bool} (h : unitsOn s = false ∨ s.clk.stretch = false) :
    exec (.stretchEnd lim) s = .next s := by
  rw [show exec (.stretchEnd lim) s = execStretchEnd lim s from rfl, execStretchEnd]
  exact whenOn_off (by rcases h with h | h <;> simp [h]) s _

theorem droopRearm_idle {lim : Bool} (h : unitsOn s = false ∨ s.clk.armed = true ∨ s.clk.stretch = true) :
    exec (.droopRearm lim) s = .next s := by
  rw [show exec (.droopRearm lim) s = execDroopRearm lim s from rfl, execDroopRearm]
  exact whenOn_off (by rcases h with h | h | h <;> simp [h]) s _

theorem suspendEntry_idle (h : s.pin.coreRst = false ∨ s.clk.suspend = true) :
    exec .suspendEntry s = .next s := by
  rw [show exec .suspendEntry s = execSuspendEntry s from rfl, execSuspendEntry]
  exact whenOn_off (by rcases h with h | h <;> simp [h]) s _

theorem suspendExit_idle (h : s.pin.coreRst = false ∨ s.clk.suspend = false) :
    exec .suspendExit s = .next s := by
  rw [show exec .suspendExit s = execSuspendExit s from rfl, execSuspendExit]
  exact whenOn_off (by rcases h with h | h <;> simp [h]) s _

theorem coreReset_idle {tile : BitVec 20} {lim : Bool} (h : s.pin.coreRst = true) :
    exec (.coreReset tile lim) s = .next s := by
  rw [show exec (.coreReset tile lim) s = execCoreReset tile lim s from rfl, execCoreReset]
  exact whenOn_off (by simp [h]) s _

theorem coreResetAssert_idle (h : s.pin.coreRst = false) :
    exec .coreResetAssert s = .next s := by
  rw [show exec .coreResetAssert s = execCoreResetAssert s from rfl, execCoreResetAssert]
  exact whenOn_off (by simp [h]) s _

theorem mbistDone_idle {mb : BitVec 40} (h : busOn s = false ∨ s.dft.mbistBusy = false) :
    exec (.mbistDone mb) s = .next s := by
  rw [show exec (.mbistDone mb) s = execMbistDone mb s from rfl, execMbistDone]
  exact whenOn_off (by rcases h with h | h <;> simp [h]) s _

end Idle

end Sys2Proof.Machine
end
section
/-! PROOFS. Every command answers, and is idle where its condition does not hold (log 1). -/

namespace Sys2Proof.Machine

/-- The commands that dispatch the head of a queue, with the queue and the function. -/
def dispatchRows : List (Instr × Nat × Nat) :=
  [(Instr.arrMm, eARR, 0), (.arrConv, eARR, 1), (.arrCar, eARR, 2), (.arrList, eARR, 3), (.arrFlush, eARR, 4), (.vecRun, eVEC, 0),
   (.vecProg, eVEC, 1), (.vecPerm, eVEC, 2), (.vecShuf, eVEC, 3), (.vecPack, eVEC, 4), (.vecUnpk, eVEC, 5), (.vecVld, eVEC, 6),
   (.vecVst, eVEC, 7), (.vecBcst, eVEC, 8), (.vecRds, eVEC, 9), (.facStep, eFAC, 0), (.facP1, eFAC, 1), (.facToken, eFAC, 2),
   (.facP2, eFAC, 3), (.facCommit, eFAC, 4), (.facCnt, eFAC, 5), (.wghRead, eWGH, 0), (.wghStep, eWGH, 1), (.wghLsread, eWGH, 2),
   (.wghFlags, eWGH, 3), (.wghClr, eWGH, 4), (.strGet, eSTR, 0), (.strPut, eSTR, 1), (.strRput, eSTR, 2), (.pstSend, ePST, 0),
   (.pstAck, ePST, 1), (.pstOpen, ePST, 2), (.pstClose, ePST, 3), (.sthPut, eSTH, 0), (.sthGet, eSTH, 1), (.sthFree, eSTH, 2),
   (.sthQuery, eSTH, 3)]

/-- Nothing is dispatched where the head of the queue is not the command's function. -/
def NeedsHead (s : State) (e fn : Nat) (r : Res) : Prop := headFn s e fn = none → r = .next s

theorem dispatchMem_needsHead (s : State) (e fn : Nat) (can : QEntry → Bool) (req : Nat) (sp : QEntry → List (Nat × Nat))
    (body : QEntry → State → State) : NeedsHead s e fn (dispatchMem s e fn can req sp body) := by
  intro h
  rw [dispatchMem, h]

/-- A CAR whose head is another function makes no caravan depart. -/
theorem arrCar_headless (s : State) : NeedsHead s eARR 2 (execArrCar s) := by
  intro h
  have hdep : carDepart s = s := by rw [carDepart, h]
  rw [execArrCar, hdep]
  exact dispatchMem_needsHead s eARR 2 _ _ _ _ h

theorem map_exec_dispatchRows (s : State) : dispatchRows.map (fun p => (exec p.1 s, p.2.1, p.2.2)) =
    [(execArrMm s, eARR, 0), (execArrConv s, eARR, 1), (execArrCar s, eARR, 2), (execArrList s, eARR, 3), (execArrFlush s, eARR, 4),
     (execVecRun s, eVEC, 0), (execVecProg s, eVEC, 1), (execVecPerm s, eVEC, 2), (execVecShuf s, eVEC, 3), (execVecPack s, eVEC, 4),
     (execVecUnpk s, eVEC, 5), (execVecVld s, eVEC, 6), (execVecVst s, eVEC, 7), (execVecBcst s, eVEC, 8), (execVecRds s, eVEC, 9),
     (execFacStep s, eFAC, 0), (execFacP1 s, eFAC, 1), (execFacToken s, eFAC, 2), (execFacP2 s, eFAC, 3), (execFacCommit s, eFAC, 4),
     (execFacCnt s, eFAC, 5), (execWghRead s, eWGH, 0), (execWghStep s, eWGH, 1), (execWghLsread s, eWGH, 2), (execWghFlags s, eWGH, 3),
     (execWghClr s, eWGH, 4), (execStrGet s, eSTR, 0), (execStrPut s, eSTR, 1), (execStrRput s, eSTR, 2), (execPstSend s, ePST, 0),
     (execPstAck s, ePST, 1), (execPstOpen s, ePST, 2), (execPstClose s, ePST, 3), (execSthPut s, eSTH, 0), (execSthGet s, eSTH, 1),
     (execSthFree s, eSTH, 2), (execSthQuery s, eSTH, 3)] := rfl

theorem dispatchRows_needHead (s : State) : ∀ p ∈ dispatchRows, NeedsHead s p.2.1 p.2.2 (exec p.1 s) := by
  have hall : ∀ r ∈ dispatchRows.map (fun p => (exec p.1 s, p.2.1, p.2.2)), NeedsHead s r.2.1 r.2.2 r.1 := by
    have d {e fn : Nat} := dispatchMem_needsHead s e fn
    rw [map_exec_dispatchRows]
    simp only [List.forall_mem_cons, execArrMm, execArrConv, execArrList, execArrFlush, execVecRun, execVecProg, execVecPerm, execVecShuf, execVecPack, execVecUnpk,
    execVecVld, execVecVst, execVecBcst, execVecRds, execFacStep, execFacP1, execFacToken, execFacP2, execFacCommit, execFacCnt,
    execWghRead, execWghStep, execWghLsread, execWghFlags, execWghClr, execStrGet, execStrPut, execStrRput, execPstSend, execPstAck,
    execPstOpen, execPstClose, execSthPut, execSthGet, execSthFree, execSthQuery, arrOp, chainOp, regOp, wghResult, strOp, pstWord, dispatch]
    exact ⟨d _ _ _ _, d _ _ _ _, arrCar_headless s, d _ _ _ _, d _ _ _ _, d _ _ _ _, d _ _ _ _, d _ _ _ _, d _ _ _ _, d _ _ _ _, d _ _ _ _,
      d _ _ _ _, d _ _ _ _, d _ _ _ _, d _ _ _ _, d _ _ _ _, d _ _ _ _, d _ _ _ _, d _ _ _ _, d _ _ _ _, d _ _ _ _, d _ _ _ _, d _ _ _ _,
      d _ _ _ _, d _ _ _ _, d _ _ _ _, d _ _ _ _, d _ _ _ _, d _ _ _ _, d _ _ _ _, d _ _ _ _, d _ _ _ _, d _ _ _ _, d _ _ _ _, d _ _ _ _,
      d _ _ _ _, d _ _ _ _, by simp⟩
  exact fun p hp => hall _ (List.mem_map_of_mem (f := fun p : Instr × Nat × Nat => (exec p.1 s, p.2.1, p.2.2)) hp)

/-! Heads that cannot be accepted, and heads that wait for memory. -/

section Head
variable {s : State} {e fn req : Nat} {ent : QEntry} {can : QEntry → Bool} {sp : QEntry → List (Nat × Nat)}
  {body : QEntry → State → State} (h : Head s e fn ent)
include h

theorem Head.wvMet : wvMet s ent = true := by
  obtain ⟨-, hmet, -⟩ := h
  unfold Machine.wvMet
  split
  · rfl
  next o ho => exact hmet o ho

theorem dispatchMem_cannot (hc : can ent = false) : dispatchMem s e fn can req sp body = .next s := by
  have hmet := h.wvMet
  obtain ⟨hhead, -, hkeep⟩ := h
  simp [dispatchMem, hhead, hkeep, hmet, hc]

theorem dispatchMem_waits (hc : can ent = true) (hw : spansWait s (sp ent) = true) :
    dispatchMem s e fn can req sp body = .next (await s req (sp ent)) := by
  have hmet := h.wvMet
  obtain ⟨hhead, -, hkeep⟩ := h
  simp [dispatchMem, hhead, hkeep, hmet, hc, hw]

end Head

theorem await_wants (s : State) (req : Nat) (sp : List (Nat × Nat)) : ∃ w ∈ (await s req sp).mem.wants, w.req = req :=
  ⟨_, List.mem_cons_self .., rfl⟩

theorem strReady_off {s : State} (h : unitsOn s = false) (i : Nat) : strReady s i = false := by simp [strReady, h]
theorem strCan_off {s : State} (h : unitsOn s = false) (i : Nat) : strCan s i = false := by simp [strCan, strReady_off h]
theorem strIdle_off {s : State} (h : unitsOn s = false) (i : Nat) : strIdle s i = false := by simp [strIdle, strReady_off h]

/-- Settles O2: every command and every step keeps the invariants of a next state; a command that is off is idle by its own lemma. -/
theorem everyCommandAnswers : Obligations.EveryCommandAnswers := by
  refine ⟨fun c s => ?_, fun s => ?_, fun s hoff => ?_, fun s i e fn hi hhead => ?_, ?_, fun s i hu hi => ?_, fun s x hx hcond => ?_⟩
  · obtain ⟨t, ht, -⟩ := exec_keeps (i := c) (s := s)
    exact ⟨t, ht⟩
  · obtain ⟨t, ht, -⟩ := step_keeps (s := s)
    exact ⟨t, ht⟩
  · exact ⟨fun f i hi => (rInstrs_fetch s f i hi).off hoff, fun f i hi => (iInstrs_fetch s f i hi).off hoff,
      fun f i hi => (eInstrs_fetch s f i hi).off hoff, fun f i hi => (cInstrs_fetch s f i hi).off hoff,
      fun f => (br_fetches s f).off hoff, fun f => (jal_fetches s f).off hoff, fun w => (reservedOpcode_fetches s w).off hoff⟩
  · exact dispatchRows_needHead s (i, e, fn) hi hhead
  · intro s e fn req ent can sp body h
    exact ⟨fun hc => dispatchMem_cannot h hc, fun hc hw => ⟨_, dispatchMem_waits h hc hw, rfl, await_wants ..⟩⟩
  · obtain ⟨n, q, str, slot, m2, cyc, off, hd, half, bt, rl, lim, rdg, op, opn, hi⟩ := hi
    refine (show ∀ j ∈ _, exec j s = .next s from ?_) i hi
    simp only [List.forall_mem_cons]
    exact ⟨wake_idle (.inl hu), fenceDone_idle (.inl hu), engineRetire_idle (.inl hu), queueDiscard_idle (.inl hu),
      itemClaim_idle (.inr (strCan_off hu _)), itemSteal_idle (.inr (strIdle_off hu _)), listEntryClaim_idle (.inr (strIdle_off hu _)),
      caravanDeadline_idle hu, baleDrain_idle (.inl hu), baleRead_idle (.inl hu), scheduleGroupEval_idle (.inl hu),
      postTransmit_idle (.inl hu), postResend_idle (.inl hu), postResponse_idle (.inl hu), watchmanFire_idle (.inl hu),
      manifestLoadDone_idle (.inl hu), reloadDone_idle (.inl hu), scrubRead_idle (.inl hu), scrubWriteback_idle (.inl hu),
      allowanceStrobe_idle hu, defaultWindow_idle (.inl hu), maskUpdate_idle hu, budgetRequest_idle (.inl hu), phaseBegin_idle (.inl hu),
      thermalChange_idle hu, marginReading_idle (.inl hu), operatingPointNotice_idle hu, rekey_idle (.inl hu), codeLoadDone_idle (.inl hu),
      stageOpChange_idle (.inl hu), syncArrival_idle (.inl hu), syncRelease_idle (.inl hu), exchStart_idle (.inl hu),
      exchSendBeat_idle (.inl hu), exchRecvBeat_idle hu, exchEnd_idle (.inl hu), itinLoadDone_idle (.inl hu),
      shadowCopyDone_idle (.inl hu), droopTrip_idle (.inl hu), stretchEnd_idle (.inl hu), droopRearm_idle (.inl hu), by simp⟩
  · obtain ⟨n, q, str, m2, cyc, off, hd, pl, pk, rl, lim, rdg, op, key, id, tile, slot, mb, hx⟩ := hx
    refine (show ∀ y ∈ _, y.2 → exec y.1 s = .next s from ?_) x hx hcond
    simp only [List.forall_mem_cons]
    exact ⟨fun h => engineRetire_idle (.inr h), fun h => queueDiscard_idle (.inr h), fun h => wake_idle (.inr h),
      fun h => fenceDone_idle (.inr h), itemClaim_idle, itemSteal_idle, listEntryClaim_idle, fun h => baleDrain_idle (.inr h),
      fun h => baleRead_idle (.inr h), fun h => scheduleGroupEval_idle (.inr h), packetIssue_idle, streamCredit_idle, postCredit_idle,
      rdatReceived_idle, ackReceived_idle, rputReceived_idle, fun h => postTransmit_idle (.inr h), fun h => postResend_idle (.inr h),
      inboundMessage_idle, fun h => postResponse_idle (.inr h), fun h => watchmanFire_idle (.inr h),
      fun h => manifestLoadDone_idle (.inr h), fun h => shadowCopyDone_idle (.inr h), fun h => reloadDone_idle (.inr h),
      zeroisationDone_idle, fun h => scrubRead_idle (.inr h), fun h => scrubWriteback_idle (.inr h), fatalFault_idle,
      fun h => defaultWindow_idle (.inr h), fun h => budgetRequest_idle (.inr h), fun h => phaseBegin_idle (.inr h),
      fun h => marginReading_idle (.inr h), snapshotCapture_idle, autoSnapshot_idle, saveWord_idle, keyLd_idle, keyEnd_idle,
      fun h => rekey_idle (.inr h), fun h => codeLoadDone_idle (.inr h), fun h => stageOpChange_idle (.inr h),
      fun h => syncArrival_idle (.inr h), fun h => syncRelease_idle (.inr h), fun h => exchStart_idle (.inr h),
      fun h => exchEnd_idle (.inr h), fun h => exchSendBeat_idle (.inr h), fun h => itinLoadDone_idle (.inr h), alertRise_idle,
      alertReturn_idle, fun h => droopTrip_idle (.inr h), fun h => stretchEnd_idle (.inr h), fun h => droopRearm_idle (.inr h),
      suspendEntry_idle, suspendExit_idle, coreReset_idle, coreResetAssert_idle, mbistRun_idle, mbistDone_idle, by simp⟩

end Sys2Proof.Machine
end
section
/-! PROOFS. Writings that reach local memory together (03 R98; 07 R172, R184): what they leave, and what else they touch. -/

namespace Sys2Proof.Machine

/-- A byte at an address after one writing. -/
def byteAfter (x : Nat) (b : Byte) (w : Nat × List Byte) : Byte :=
  if w.1 ≤ x ∧ x < w.1 + w.2.length then w.2.getD (x - w.1) 0 else b

/-- A byte at an address after writings in order. -/
def bytesAfter (x : Nat) (b : Byte) (ws : Writes) : Byte := ws.foldl (byteAfter x) b

theorem bytesAfter_append (x : Nat) (b : Byte) (ws vs : Writes) : bytesAfter x b (ws ++ vs) = bytesAfter x (bytesAfter x b ws) vs :=
  List.foldl_append

theorem bytesAfter_reverse_cons (x : Nat) (b : Byte) (w : Nat × List Byte) (ws : Writes) :
    bytesAfter x b (w :: ws).reverse = byteAfter x (bytesAfter x b ws.reverse) w := by
  rw [List.reverse_cons, bytesAfter_append]; rfl

theorem landed_iff (s t : State) (ws : Writes) :
    Landed s t ws ↔ ∀ x, memByte t.mem.bytes x = bytesAfter x (memByte s.mem.bytes x) ws := Iff.rfl

theorem Landed.trans {s t u : State} {ws vs : Writes} (h : Landed s t ws) (k : Landed t u vs) : Landed s u (ws ++ vs) := by
  rw [landed_iff] at *
  intro x
  rw [k x, h x, bytesAfter_append]

theorem landed_nil_iff (s t : State) : Landed s t [] ↔ SameBytes s t := Iff.rfl

theorem Landed.of_mem {s s' t t' : State} {ws : Writes} (h : Landed s t ws) (hs : s'.mem.bytes = s.mem.bytes) (ht : t'.mem.bytes = t.mem.bytes) :
    Landed s' t' ws := by
  intro x
  rw [ht, hs, h x]

/-- Two adjacent writings leave what their join leaves. -/
theorem byteAfter_adjacent (x : Nat) (b : Byte) (a : Nat) (l r : List Byte) :
    byteAfter x b (a, l ++ r) = byteAfter x (byteAfter x b (a, l)) (a + l.length, r) := by
  simp only [byteAfter, List.length_append]
  by_cases hl : a ≤ x ∧ x < a + l.length
  · rw [if_pos (by omega), if_neg (by omega), if_pos hl, List.getD_append _ _ _ _ (by omega)]
  · by_cases hr : a + l.length ≤ x ∧ x < a + l.length + r.length
    · rw [if_pos (by omega), if_pos hr, List.getD_append_right _ _ _ _ (by omega), Nat.sub_add_eq]
    · rw [if_neg (by omega), if_neg hr, if_neg hl]

/-- Writings that do not meet may come in either order. -/
theorem byteAfter_disjoint (x : Nat) (b : Byte) {v w : Nat × List Byte} (h : w.1 + w.2.length ≤ v.1) :
    byteAfter x (byteAfter x b v) w = byteAfter x (byteAfter x b w) v := by
  simp only [byteAfter]
  by_cases hv : v.1 ≤ x ∧ x < v.1 + v.2.length
  · rw [if_pos hv, if_pos hv, if_neg (by omega)]
  · rw [if_neg hv, if_neg hv]

/-- Joining a writing to runs leaves what the runs and then the writing leave. -/
theorem bytesAfter_joinRun (x : Nat) (b : Byte) (runs : Writes) (w : Nat × List Byte) :
    bytesAfter x b (joinRun runs w).reverse = byteAfter x (bytesAfter x b runs.reverse) w := by
  induction runs with
  | nil => rfl
  | cons r t ih =>
    unfold joinRun
    split
    next hadj =>
      rw [bytesAfter_reverse_cons, bytesAfter_reverse_cons, byteAfter_adjacent, ← hadj]
    next =>
      split
      next hdis => rw [bytesAfter_reverse_cons, bytesAfter_reverse_cons, ih, byteAfter_disjoint x _ hdis]
      next => rw [bytesAfter_reverse_cons]

theorem bytesAfter_joinRuns (x : Nat) (b : Byte) (ws runs : Writes) :
    bytesAfter x b (ws.foldl joinRun runs).reverse = bytesAfter x (bytesAfter x b runs.reverse) ws := by
  induction ws generalizing runs with
  | nil => rfl
  | cons w ws ih => rw [List.foldl_cons, ih, bytesAfter_joinRun]; rfl

theorem memByte_memPuts (m : List Host.Cell) (ws : Writes) (x : Nat) :
    memByte (ws.foldl (fun b w => memPut b w.1 w.2) m) x = bytesAfter x (memByte m x) ws := by
  induction ws generalizing m with
  | nil => rfl
  | cons w ws ih => rw [List.foldl_cons, ih, memByte_memPut]; rfl

/-- Bytes put one by one, none held back. -/
theorem putByte_cells (ws : Writes) (s : State) {f : Nat → Bool} (hf : ∀ k, f k = false) :
    ((ws.flatMap cellsOf).foldl (putByte f) s).mem.bytes = ws.foldl (fun b w => memPut b w.1 w.2) s.mem.bytes := by
  induction ws generalizing s with
  | nil => rfl
  | cons w ws ih => rw [List.flatMap_cons, List.foldl_append, ih, cellsOf, putBytes_all _ _ _ hf, List.foldl_cons]

/-! No uncorrectable codeword stands in the way, and none comes. -/

theorem NoDouble.of_ecc {s t : State} (h : NoDouble s) (he : t.mem.ecc = s.mem.ecc) : NoDouble t := by rwa [NoDouble, he]

theorem cleanCw_noDouble {s : State} (h : NoDouble s) (cw : Nat) : NoDouble (cleanCw s cw) := by
  intro p hp
  have hset : p ∈ tabSet .clean s.mem.ecc cw .clean := hp
  rcases mem_tabSet hset with rfl | hp
  · exact EccErr.noConfusion
  · exact h p hp

theorem memCe_ecc (s : State) (req cw : Nat) : (memCe s req cw).mem.ecc = s.mem.ecc := rfl

theorem eccWrOne_noDouble {s : State} (h : NoDouble s) (req : Nat) (whole : Nat → Bool) (p : Nat × EccErr) :
    NoDouble (eccWrOne req whole s p) := by
  unfold eccWrOne
  split
  · exact cleanCw_noDouble h _
  · split
    · exact h.of_ecc (memUe_kept ..).2.1
    · exact cleanCw_noDouble (h.of_ecc (memCe_ecc ..)) _
    · exact h

theorem eccWrFold_noDouble (req : Nat) (whole : Nat → Bool) (l : List (Nat × EccErr)) {s : State} (h : NoDouble s) :
    NoDouble (l.foldl (eccWrOne req whole) s) := by
  induction l generalizing s with
  | nil => exact h
  | cons p l ih => exact ih (eccWrOne_noDouble h req whole p)

theorem eccWr_noDouble {s : State} (h : NoDouble s) (req : Nat) (whole : Nat → Bool) (ws : Writes) : NoDouble (eccWr s req whole ws) := by
  unfold eccWr
  dsimp only
  split
  · exact h
  · rw [putBytes_frame]
    exact eccWrFold_noDouble req whole _ h

theorem serves_ecc (req : Nat) (sp : List (Nat × Nat)) (s : State) :
    (sp.foldl (fun u p => serve u req p.1 p.2) s).mem.ecc = s.mem.ecc := by
  induction sp generalizing s with
  | nil => rfl
  | cons p sp ih => rw [List.foldl_cons, ih, serve_ecc]

theorem memWrJoined_noDouble {s : State} (h : NoDouble s) (req : Nat) (ws : Writes) : NoDouble (memWrJoined s req ws) := by
  unfold memWrJoined
  exact (eccWr_noDouble (h.of_ecc (t := spend s 4 _) rfl) req _ _).of_ecc (serves_ecc ..)

/-- Writings into no uncorrectable codeword leave their bytes. -/
theorem eccWr_landed {s : State} (h : NoDouble s) (req : Nat) (whole : Nat → Bool) (ws : Writes) : Landed s (eccWr s req whole ws) ws := by
  rw [landed_iff]
  intro x
  unfold eccWr
  dsimp only
  split
  · exact memByte_memPuts ..
  next =>
    have hkept : ∀ k, (eccSpans s (spansOf ws)).any (fun p => decide (p.1 = k) && decide (p.2 = .double) && !whole p.1) = false := by
      intro k
      refine List.any_eq_false.mpr fun p hp => ?_
      simp [h p (List.mem_filter.mp hp).1]
    rw [putByte_cells ws _ hkept, (eccWrFold_frame req whole _ s).2, memByte_memPuts]

/-- Writings that reach the banks together leave what they leave one after another (07 R172). -/
theorem memWrJoined_landed {s : State} (h : NoDouble s) (req : Nat) {ws : Writes} (hin : InMemory ws) : Landed s (memWrJoined s req ws) ws := by
  have hall : ws.filter (fun w => decide (w.1 + w.2.length ≤ memTop)) = ws :=
    List.filter_eq_self.mpr fun w hw => decide_eq_true (hin w hw)
  rw [landed_iff]
  intro x
  unfold memWrJoined
  dsimp only
  rw [serves_bytes, (landed_iff ..).mp (eccWr_landed (h.of_ecc (t := spend s 4 _) rfl) req _ _), hall, bytesAfter_joinRuns]
  rfl

theorem memWrJoineds_landed {s : State} (h : NoDouble s) (req : Nat) (gs : List Writes) (hin : InMemory gs.flatten) :
    Landed s (gs.foldl (fun u ws => memWrJoined u req ws) s) gs.flatten ∧ NoDouble (gs.foldl (fun u ws => memWrJoined u req ws) s) := by
  induction gs generalizing s with
  | nil => exact ⟨fun _ => rfl, h⟩
  | cons ws gs ih =>
    have hws : InMemory ws := fun w hw => hin w (by simp [hw])
    have hgs : InMemory gs.flatten := fun w hw => hin w (List.mem_append_right _ hw)
    obtain ⟨hl, hd⟩ := ih (memWrJoined_noDouble h req ws) hgs
    exact ⟨(memWrJoined_landed h req hws).trans hl, hd⟩

/-! What else a writing touches. -/

/-- What an access to local memory can touch besides memory: the energy account, the count of errors, and what a fault touches. -/
def AccessFrame (s t : State) : Prop :=
  t = { s with mem := t.mem, gov := t.gov, ldg := t.ldg, flt := t.flt, fac := t.fac, wgh := t.wgh }

theorem AccessFrame.refl (s : State) : AccessFrame s s := rfl

theorem AccessFrame.trans {s t u : State} (h : AccessFrame s t) (k : AccessFrame t u) : AccessFrame s u := by
  unfold AccessFrame at *
  rw [k, h]

theorem serve_access (s : State) (req a n : Nat) : AccessFrame s (serve s req a n) := by
  unfold AccessFrame
  rw [serve_frame]

theorem serves_access (req : Nat) (sp : List (Nat × Nat)) (s : State) : AccessFrame s (sp.foldl (fun u p => serve u req p.1 p.2) s) := by
  induction sp generalizing s with
  | nil => rfl
  | cons p sp ih => exact (serve_access s req p.1 p.2).trans (ih _)

theorem eccWr_access (s : State) (req : Nat) (whole : Nat → Bool) (ws : Writes) : AccessFrame s (eccWr s req whole ws) := by
  unfold AccessFrame
  rw [eccWr_frame]

theorem memWrJoined_access (s : State) (req : Nat) (ws : Writes) : AccessFrame s (memWrJoined s req ws) := by
  unfold memWrJoined
  exact (AccessFrame.trans (t := spend s 4 _) rfl (eccWr_access ..)).trans (serves_access ..)

theorem memWrJoineds_access (req : Nat) (gs : List Writes) (s : State) : AccessFrame s (gs.foldl (fun u ws => memWrJoined u req ws) s) := by
  induction gs generalizing s with
  | nil => rfl
  | cons ws gs ih => exact (memWrJoined_access s req ws).trans (ih _)

theorem memWr_access (s : State) (req a : Nat) (bs : List Byte) : AccessFrame s (memWr s req a bs) := by
  unfold AccessFrame
  rw [memWr_frame]

theorem touchRead_access (s : State) (req a n : Nat) : AccessFrame s (touchRead s req a n) := by
  unfold AccessFrame
  rw [touchRead_frame]

theorem eccFold_access (req : Nat) (l : List (Nat × EccErr)) (s : State) : AccessFrame s (l.foldl (eccRdOne req) s) := by
  unfold AccessFrame
  rw [(eccFold_frame req l s).1]

theorem touchSpans_access (s : State) (req : Nat) (sp : List (Nat × Nat)) : AccessFrame s (touchSpans s req sp) := by
  unfold touchSpans
  exact ((eccFold_access req _ s).trans (u := spend _ 4 _) rfl).trans (serves_access ..)

end Sys2Proof.Machine
end
section
/-! PROOFS. Retirement, and the discards of a failed queue (03 R84, R85, R433; 06 R165; 12 R284). -/

namespace Sys2Proof.Machine

/-! Signals. -/

theorem signalFold_objs (src : BitVec 4) (f g : Byte → Nat) (l : List Byte) (s : State) (o : Byte) :
    (o ∈ l ∨ (objOf s o).lastSrc = src → (objOf (l.foldl (fun t o => signalAmt t src o (f o) (g o)) s) o).lastSrc = src) ∧
      (o ∉ l → objOf (l.foldl (fun t o => signalAmt t src o (f o) (g o)) s) o = objOf s o) := by
  induction l generalizing s with
  | nil => exact ⟨fun h => h.resolve_left (by simp), fun _ => rfl⟩
  | cons p l ih =>
    obtain ⟨hin, hout⟩ := ih (signalAmt s src p (f p) (g p))
    have hp := objOf_signalAmt s src p (f p) (g p) o
    constructor
    · intro h
      refine hin ?_
      by_cases ho : o = p
      · right
        rw [hp, if_pos ho]
      · rw [hp, if_neg ho]
        exact h.imp_left fun hm => (List.mem_cons.mp hm).resolve_left ho
    · intro h
      obtain ⟨hne, hnot⟩ := not_or.mp (mt List.mem_cons.mpr h)
      exact (hout hnot).trans (hp.trans (if_neg hne))

/-- An object that is signalled has the source; another is as it was. -/
theorem signalMany_source (s : State) (src : BitVec 4) {os : List Byte} {o : Byte} (h : o ∈ os) : (objOf (signalMany s src os) o).lastSrc = src :=
  (signalFold_objs src _ _ _ s o).1 (.inl (List.mem_eraseDups.mpr h))

theorem objOf_signalMany_of_notMem (s : State) (src : BitVec 4) {os : List Byte} {o : Byte} (h : o ∉ os) :
    objOf (signalMany s src os) o = objOf s o := (signalFold_objs src _ _ _ s o).2 (fun hm => h (List.mem_eraseDups.mp hm))

section Signals
variable {s t : State} (h : SigFrame s t)
include h

theorem SigFrame.q : t.q = s.q := by rw [h]
theorem SigFrame.core : t.core = s.core := by rw [h]
theorem SigFrame.mem : t.mem = s.mem := by rw [h]
theorem SigFrame.vec : t.vec = s.vec := by rw [h]
theorem SigFrame.jrnl : t.jrnl = s.jrnl := by rw [h]
theorem SigFrame.qOf (k : Nat) : qOf t k = Machine.qOf s k := congrArg (tabGet ({} : EngQ) · k) h.q
theorem SigFrame.ctxOf (c : BitVec 2) : ctxOf t c = Machine.ctxOf s c := congrArg (fun k : Core => tabGet ({} : Ctx) k.ctxs c.toNat) h.core
theorem SigFrame.rd (r : SReg) : rd t r = Machine.rd s r := congrArg (fun k : Core => (tabGet ({} : Ctx) k.ctxs k.cur.toNat).reg r) h.core
theorem SigFrame.sameBytes : SameBytes s t := fun a => congrArg (fun m : Mem => memByte m.bytes a) h.mem

end Signals

/-! Last writings, lanes and units. -/

theorem listDrop_eq_eraseIdx {α : Type} (l : List α) (n : Nat) : listDrop l n = l.eraseIdx n := by
  induction l generalizing n with
  | nil => rfl
  | cons a l ih =>
    cases n with
    | zero => rfl
    | succ n => simp [listDrop, ih]

theorem tabGet_setAll {α : Type} [DecidableEq α] (d : α) (ls : List (Nat × α)) (v : Tab α) (k : Nat) :
    tabGet d (ls.foldl (fun m p => tabSet d m p.1 p.2) v) k =
      ((ls.reverse.find? (fun p => decide (p.1 = k))).map (·.2)).getD (tabGet d v k) := by
  induction ls generalizing v with
  | nil => rfl
  | cons p ls ih =>
    rw [List.foldl_cons, ih, List.reverse_cons, List.find?_append, tabGet_set]
    cases ls.reverse.find? (fun p => decide (p.1 = k)) with
    | some q => rfl
    | none =>
      by_cases hk : k = p.1
      · simp [hk]
      · simp [hk, Ne.symm hk]

theorem putLanes_frame (s : State) (ls : List (Nat × Word)) : putLanes s ls = { s with vec := { s.vec with v := (putLanes s ls).vec.v } } := by
  unfold putLanes
  split <;> rfl

theorem putLanes_lane (s : State) (ls : List (Nat × Word)) (k : Nat) :
    tabGet 0 (putLanes s ls).vec.v k = ((ls.reverse.find? (fun p => decide (p.1 = k))).map (·.2)).getD (tabGet 0 s.vec.v k) := by
  unfold putLanes
  split
  next hnil => rw [hnil]; rfl
  · exact tabGet_setAll ..

theorem creditArrs_frame (us : List (Nat × List Byte)) (s : State) :
    us.foldl (fun u p => creditArr u 3 p.1 p.2) s = { s with jrnl := { s.jrnl with toArr := s.jrnl.toArr ++ us.map (fun u => unitOfData 3 u.1 u.2) } } := by
  induction us generalizing s with
  | nil => simp
  | cons u us ih =>
    rw [List.foldl_cons, ih]
    simp [creditArr, State.modJrnl]

/-- Where no beats of its own are in the chain, the last writes of an operation are its writings, its units and its lanes. -/
theorem landLast_eq {s : State} {e : Nat} {x : Infl} (h : e = eVEC → vecRunOf s x.id = none) :
    landLast s e x = putLanes (x.units.foldl (fun u p => creditArr u 3 p.1 p.2) (x.wr.foldl (fun u ws => memWrJoined u (rqOf e) ws) s)) x.lanes := by
  unfold landLast
  by_cases he : e = eVEC
  · rw [if_pos he, endRun, h he]
  · rw [if_neg he]

/-- What its last writes touch, and what they leave. -/
structure LastWrites (s t : State) (x : Infl) : Prop where
  frame : t = { s with
    mem := t.mem, gov := t.gov, ldg := t.ldg, flt := t.flt, fac := t.fac, wgh := t.wgh
    jrnl := { s.jrnl with toArr := s.jrnl.toArr ++ x.units.map (fun u => unitOfData 3 u.1 u.2) }, vec := { s.vec with v := t.vec.v } }
  lanes : ∀ k, tabGet 0 t.vec.v k = ((x.lanes.reverse.find? (fun p => decide (p.1 = k))).map (·.2)).getD (tabGet 0 s.vec.v k)
  same : x.wr = [] → SameBytes s t
  landed : NoDouble s → InMemory x.wr.flatten → Landed s t x.wr.flatten

theorem landLast_writes {s : State} {e : Nat} {x : Infl} (h : e = eVEC → vecRunOf s x.id = none) : LastWrites s (landLast s e x) x := by
  rw [landLast_eq h, creditArrs_frame]
  have hacc : AccessFrame s (x.wr.foldl (fun u ws => memWrJoined u (rqOf e) ws) s) := memWrJoineds_access ..
  have hj : (x.wr.foldl (fun u ws => memWrJoined u (rqOf e) ws) s).jrnl = s.jrnl := by rw [hacc]
  have hv : (x.wr.foldl (fun u ws => memWrJoined u (rqOf e) ws) s).vec = s.vec := by rw [hacc]
  refine ⟨?_, fun k => ?_, fun hnil => ?_, fun hd hin => ?_⟩
  · rw [putLanes_frame, hj, hv, hacc]
  · rw [putLanes_lane, hv]
  · rw [putLanes_frame, hnil]
    exact fun _ => rfl
  · rw [putLanes_frame]
    exact (memWrJoineds_landed hd (rqOf e) x.wr hin).1

/-! What an operation does as it retires. -/

theorem writeback_frame (s : State) (x : Infl) : writeback s x = { s with core := { s.core with ctxs := (writeback s x).core.ctxs } } := by
  unfold writeback
  split <;> rfl

theorem ctxOf_writeback (s : State) (x : Infl) (c : BitVec 2) :
    ctxOf (writeback s x) c = if c = x.ent.ctx then (match x.wb with | none => ctxOf s c | some v => (ctxOf s c).setReg x.ent.dreg v) else ctxOf s c := by
  unfold writeback
  cases x.wb with
  | none => exact (ite_self _).symm
  | some v =>
    refine (ctxOf_setCtx s x.ent.ctx c _).trans ?_
    by_cases hc : c = x.ent.ctx
    · rw [if_pos hc, if_pos hc, hc]
    · rw [if_neg hc, if_neg hc]

/-- What a retirement's own effect can touch. -/
def EffectFrame (s t : State) : Prop :=
  t = { s with
    wgh := t.wgh, fac := t.fac, sec := t.sec, jrnl := { t.jrnl with toArr := s.jrnl.toArr }, vec := { t.vec with v := s.vec.v, runs := s.vec.runs } }

theorem EffectFrame.trans {s t u : State} (h : EffectFrame s t) (k : EffectFrame t u) : EffectFrame s u := by
  unfold EffectFrame at *
  rw [k, h]

theorem modFac_effect (s : State) (f : Fac → Fac) : EffectFrame s (s.modFac f) := rfl
theorem modFacCtx_effect (s : State) (c : BitVec 2) (f : FacCtx → FacCtx) : EffectFrame s (modFacCtx s c f) := rfl
theorem modSec_effect (s : State) (f : Sec → Sec) : EffectFrame s (s.modSec f) := rfl
theorem commitEpoch_effect (s : State) : EffectFrame s (commitEpoch s) := modSec_effect ..

theorem commit_effect (s : State) (k : BitVec 2) (f : FacCtx → FacCtx) (g : Fac → Fac) (n : BitVec 64) :
    EffectFrame s (((modFacCtx s k f).modFac g).modJrnl (fun j => { j with commit := n })) := rfl

theorem facRetire_effect (s : State) (x : Infl) : EffectFrame s (facRetire s x) := by
  unfold facRetire
  dsimp only
  split
  · split
    · exact modFacCtx_effect ..
    · rfl
  · split
    · rfl
    · split
      · exact ((modFac_effect ..).trans (modFacCtx_effect ..)).trans (modFac_effect ..)
      · split
        · exact ((modFac_effect ..).trans (commit_effect ..)).trans (commitEpoch_effect _)
        · exact (modFac_effect ..).trans (commit_effect ..)

theorem retireEffect_frame (s : State) (e : Nat) (x : Infl) : EffectFrame s (retireEffect s e x) := by
  unfold retireEffect
  split
  · split <;> rfl
  · split
    · exact facRetire_effect s x
    · split <;> rfl

theorem retireProgress_frame (s : State) (e : Nat) :
    retireProgress s e = { s with syn := { s.syn with wmCount := (retireProgress s e).syn.wmCount } } := by
  unfold retireProgress
  split <;> rfl

/-! The retirement of an operation. -/

/-- The signal that a retirement gives. -/
def Infl.signals (x : Infl) : Option Byte := if x.mute then none else x.ent.sv

/-- The state in which operation i in flight has left its queue. -/
def withoutInfl (s : State) (e i : Nat) : State := modQ s e (fun q => { q with infl := listDrop q.infl i })

theorem retire_eq (s : State) (e i : Nat) (x : Infl) :
    retire s e i x =
      retireProgress (signalMany (retireEffect (writeback (landLast (withoutInfl s e i) e x) x) e x) (srcOf e) x.signals.toList) e := by
  unfold retire Infl.signals
  dsimp only
  cases x.mute <;> rfl

section Retire
variable {s : State} {e i : Nat} {x : Infl}

theorem retireProgress_objOf (t : State) (o : Byte) : objOf (retireProgress t e) o = objOf t o := by
  rw [retireProgress_frame]; rfl

/-- A retirement keeps the objects that it does not signal, and its signal names its engine. -/
theorem objOf_retire (h : e = eVEC → vecRunOf s x.id = none) (o : Byte) :
    (x.signals = some o → (objOf (retire s e i x) o).lastSrc = srcOf e) ∧ (x.signals ≠ some o → objOf (retire s e i x) o = objOf s o) := by
  rw [retire_eq, retireProgress_objOf]
  constructor
  · intro hs
    exact signalMany_source _ _ (Option.mem_toList.mpr hs)
  · intro hs
    rw [objOf_signalMany_of_notMem _ _ (fun hm => hs (Option.mem_toList.mp hm)), objOf, retireEffect_frame, writeback_frame,
      (landLast_writes (s := withoutInfl s e i) h).frame]
    rfl

theorem retire_q (h : e = eVEC → vecRunOf s x.id = none) : (retire s e i x).q = (withoutInfl s e i).q := by
  rw [retire_eq, retireProgress_frame, (signalMany_frame ..).q, retireEffect_frame, writeback_frame, (landLast_writes (s := withoutInfl s e i) h).frame]

theorem ctxOf_retire (h : e = eVEC → vecRunOf s x.id = none) (c : BitVec 2) :
    ctxOf (retire s e i x) c =
      if c = x.ent.ctx then (match x.wb with | none => ctxOf s c | some v => (ctxOf s c).setReg x.ent.dreg v) else ctxOf s c := by
  have hland : ∀ d, ctxOf (landLast (withoutInfl s e i) e x) d = ctxOf s d := by
    intro d
    rw [ctxOf, (landLast_writes (s := withoutInfl s e i) h).frame]
    rfl
  have hcore : (retire s e i x).core = (writeback (landLast (withoutInfl s e i) e x) x).core := by
    rw [retire_eq, retireProgress_frame, (signalMany_frame ..).core, retireEffect_frame]
  rw [ctxOf, hcore, ← ctxOf, ctxOf_writeback, hland]

/-- What a retirement's last writes are stays to its end. -/
theorem retire_kept :
    (retire s e i x).mem = (landLast (withoutInfl s e i) e x).mem ∧ (retire s e i x).vec.v = (landLast (withoutInfl s e i) e x).vec.v ∧
      (retire s e i x).jrnl.toArr = (landLast (withoutInfl s e i) e x).jrnl.toArr := by
  have hmem : (retire s e i x).mem = (landLast (withoutInfl s e i) e x).mem := by
    rw [retire_eq, retireProgress_frame, (signalMany_frame ..).mem, retireEffect_frame, writeback_frame]
  have hvec : (retire s e i x).vec.v = (landLast (withoutInfl s e i) e x).vec.v := by
    rw [retire_eq, retireProgress_frame, (signalMany_frame ..).vec, retireEffect_frame, writeback_frame]
  have hjrnl : (retire s e i x).jrnl.toArr = (landLast (withoutInfl s e i) e x).jrnl.toArr := by
    rw [retire_eq, retireProgress_frame, (signalMany_frame ..).jrnl, retireEffect_frame, writeback_frame]
  exact ⟨hmem, hvec, hjrnl⟩

end Retire

/-- ENGINE_RETIRE of an operation that is no contributor of a caravan and has no beats in the chain. -/
theorem exec_engineRetire {s : State} {q : BitVec 3} {n : Nat} {x : Infl} (hon : unitsOn s = true) (hx : (qOf s q.toNat).infl[n]? = some x)
    (hdone : x.done = true) (hord : inOrder s q.toNat n x = true) (hsp : spansWait s x.spans = false) (hcar : q = 0 → x.car = none)
    (hrun : q = 1 → vecRunOf s x.id = none) : exec (.engineRetire q n) s = .next (retire s q.toNat n x) := by
  have hlast : lastSpans s q.toNat x = x.spans := by
    unfold lastSpans
    split
    next he => rw [hrun (BitVec.eq_of_toNat_eq he)]; exact List.append_nil _
    next => exact List.append_nil _
  have hact : (if q = 0 then (match x.car with | some c => retireCar s c | none => retire s 0 n x) else retire s q.toNat n x) = retire s q.toNat n x := by
    by_cases hq : q = 0
    · rw [if_pos hq, hcar hq, hq]; rfl
    · rw [if_neg hq]
  rw [show exec (.engineRetire q n) s = execEngineRetire q n s from rfl, execEngineRetire, hx]
  simp only [whenMem, hlast, hon, hdone, hord, hsp, Bool.and_true, if_true, Bool.false_eq_true, if_false]
  exact congrArg Host.Outcome.next hact

/-- ENGINE_RETIRE of a contributor: its whole caravan retires. -/
theorem exec_engineRetire_caravan {s : State} {n : Nat} {x : Infl} {c : Nat} (hon : unitsOn s = true) (hx : (qOf s eARR).infl[n]? = some x)
    (hdone : x.done = true) (hcar : x.car = some c) (hsp : spansWait s x.spans = false) : exec (.engineRetire 0 n) s = .next (retireCar s c) := by
  have hlast : lastSpans s eARR x = x.spans := List.append_nil _
  have hx' : (qOf s (0 : BitVec 3).toNat).infl[n]? = some x := hx
  rw [show exec (.engineRetire 0 n) s = execEngineRetire 0 n s from rfl, execEngineRetire, hx']
  simp only [whenMem, show lastSpans s (0 : BitVec 3).toNat x = x.spans from hlast, hon, hdone, show inOrder s (0 : BitVec 3).toNat n x = true from rfl,
    hsp, hcar, Bool.and_true, if_true, Bool.false_eq_true, if_false]

/-- What the retirement of a caravan leaves of the state. -/
theorem retireCar_frame (s : State) (c : Nat) :
    SigFrame (modQ s eARR (fun q => { q with infl := q.infl.filter (fun x => decide (x.car ≠ some c)) })) (retireCar s c) :=
  (signalMany_frame ..).trans rfl

theorem objOf_retireCar (s : State) (c : Nat) (o : Byte) :
    ((∃ y ∈ (qOf s eARR).infl, y.car = some c ∧ y.ent.sv = some o) → (objOf (retireCar s c) o).lastSrc = srcOf eARR) ∧
      ((∀ y ∈ (qOf s eARR).infl, y.car = some c → y.ent.sv ≠ some o) → objOf (retireCar s c) o = objOf s o) := by
  have hmem : o ∈ ((qOf s eARR).infl.filter (fun x => decide (x.car = some c))).filterMap (fun x => x.ent.sv) ↔
      ∃ y ∈ (qOf s eARR).infl, y.car = some c ∧ y.ent.sv = some o := by
    simp [List.mem_filterMap, List.mem_filter, and_assoc]
  constructor
  · intro h
    exact signalMany_source _ _ (hmem.mpr h)
  · intro h
    refine objOf_signalMany_of_notMem _ _ (fun hm => ?_)
    obtain ⟨y, hy, hc, hsv⟩ := hmem.mp hm
    exact h y hy hc hsv

/-! The discards of a failed queue. -/

theorem unstall_of_notFull {s : State} (h : ∀ i, s.core.mode ≠ .full i) : unstall s = s := by
  unfold unstall
  split
  next i hi => exact absurd hi (h i)
  next => rfl

/-- The state in which queue e has discarded its first entry. -/
def discarded (s : State) (e : Nat) (ent : QEntry) (rest : List QEntry) : State :=
  signalMany (dropWatch (modQ s e (fun x => { x with wait := rest })) e) (srcOf e) ent.sv.toList

theorem discarded_frame (s : State) (e : Nat) (ent : QEntry) (rest : List QEntry) :
    SigFrame (modQ s e (fun x => { x with wait := rest })) (discarded s e ent rest) :=
  SigFrame.trans (t := dropWatch (modQ s e (fun x => { x with wait := rest })) e) rfl (signalMany_frame ..)

theorem objOf_discarded (s : State) (e : Nat) (ent : QEntry) (rest : List QEntry) (o : Byte) :
    (ent.sv = some o → (objOf (discarded s e ent rest) o).lastSrc = srcOf e) ∧
      (ent.sv ≠ some o → objOf (discarded s e ent rest) o = objOf s o) := by
  constructor
  · intro h
    exact signalMany_source _ _ (Option.mem_toList.mpr h)
  · intro h
    exact objOf_signalMany_of_notMem _ _ (fun hm => h (Option.mem_toList.mp hm))

theorem exec_queueDiscard {s : State} {q : BitVec 3} {ent : QEntry} {rest : List QEntry} (hon : unitsOn s = true)
    (hfail : (qOf s q.toNat).failed = true) (hwait : (qOf s q.toNat).wait = ent :: rest) (hmode : ∀ i, s.core.mode ≠ .full i) :
    exec (.queueDiscard q) s = .next (discarded s q.toNat ent rest) := by
  have hkeep : ∀ i, (discarded s q.toNat ent rest).core.mode ≠ .full i := by rw [(discarded_frame ..).core]; exact hmode
  rw [show exec (.queueDiscard q) s = execQueueDiscard q s from rfl, execQueueDiscard]
  simp only [hwait, whenOn, hon, hfail, Bool.and_true, if_true]
  exact congrArg Host.Outcome.next (unstall_of_notFull hkeep)

/-- Settles O23: an operation's last writes land, then its writeback, its effect and its signal; a caravan's contributors leave together; a failed
queue discards its first entry. -/
theorem retireAndDiscard : Obligations.RetireAndDiscard := by
  unfold Obligations.RetireAndDiscard
  refine ⟨?_, ?_, ?_⟩
  · intro s q n x hon hx hdone hord hsp hcar hrun
    have hvec : q.toNat = eVEC → vecRunOf s x.id = none := fun h => hrun (BitVec.eq_of_toNat_eq h)
    have hland := landLast_writes (s := withoutInfl s q.toNat n) (e := q.toNat) (x := x) hvec
    obtain ⟨hmem, hlanes, harr⟩ := retire_kept (s := s) (e := q.toNat) (i := n) (x := x)
    have hq : ∀ k, qOf (retire s q.toNat n x) k = if k = q.toNat then { qOf s q.toNat with infl := listDrop (qOf s q.toNat).infl n } else qOf s k := by
      intro k
      rw [qOf, retire_q hvec]
      exact qOf_modQ s q.toNat k _
    refine ⟨_, exec_engineRetire hon hx hdone hord hsp hcar hrun, ?_, ?_, fun k hk => ?_, fun v hv => ?_, fun r hr => ?_, fun c hc => ?_,
      fun o => (objOf_retire hvec o).1, fun o => (objOf_retire hvec o).2, fun hnil => ?_, fun hd hin => ?_, fun k => ?_, ?_⟩
    · rw [hq, if_pos rfl, listDrop_eq_eraseIdx]
    · rw [hq, if_pos rfl]
    · rw [hq, if_neg hk]
    · rw [ctxOf_retire hvec, if_pos rfl, hv]
      exact (reg_setReg ..).trans (by rw [if_pos rfl])
    · rw [ctxOf_retire hvec, if_pos rfl]
      cases hwb : x.wb with
      | none => rfl
      | some v =>
        have hne : r ≠ x.ent.dreg := hr.resolve_left (by rw [hwb]; exact Option.some_ne_none v)
        refine (reg_setReg ..).trans ?_
        rw [if_neg hne]
        exact ite_eq_right_iff.mpr fun h0 => by simp [Ctx.reg, h0]
    · rw [ctxOf_retire hvec, if_neg hc]
    · intro a
      rw [hmem]
      exact hland.same hnil a
    · exact (hland.landed hd hin).of_mem rfl (congrArg Mem.bytes hmem)
    · rw [hlanes]
      exact hland.lanes k
    · rw [harr, hland.frame]
      rfl
  · intro s n x c hon hx hdone hcar hsp
    have hq : ∀ k, qOf (retireCar s c) k =
        if k = eARR then { qOf s eARR with infl := (qOf s eARR).infl.filter (fun x => decide (x.car ≠ some c)) } else qOf s k := by
      intro k
      rw [(retireCar_frame s c).qOf]
      exact qOf_modQ s eARR k _
    refine ⟨_, exec_engineRetire_caravan hon hx hdone hcar hsp, ?_, ?_, fun k hk => ?_, fun o => (objOf_retireCar s c o).1,
      fun o => (objOf_retireCar s c o).2, (retireCar_frame s c).ctxOf, (retireCar_frame s c).sameBytes⟩
    · rw [hq, if_pos rfl]
    · rw [hq, if_pos rfl]
    · rw [hq, if_neg hk]
  · intro s q ent rest hon hfail hwait hmode
    have hq : ∀ k, qOf (discarded s q.toNat ent rest) k = if k = q.toNat then { qOf s q.toNat with wait := rest } else qOf s k := by
      intro k
      rw [(discarded_frame ..).qOf]
      exact qOf_modQ s q.toNat k _
    refine ⟨_, exec_queueDiscard hon hfail hwait hmode, ?_, ?_, ?_, fun k hk => ?_, fun o => (objOf_discarded s _ ent rest o).1,
      fun o => (objOf_discarded s _ ent rest o).2, (discarded_frame ..).rd, (discarded_frame ..).sameBytes⟩
    · rw [hq, if_pos rfl]
    · rw [hq, if_pos rfl]
    · rw [hq, if_pos rfl]; exact hfail
    · rw [hq, if_neg hk]

end Sys2Proof.Machine
end
section
/-! PROOFS. Heads of the queues: what a dispatch that goes through leaves (03 R81, R84; 12 R286, R291), and a head that a contained fault
discards (16 R389). -/

namespace Sys2Proof.Machine

section Head
variable {s : State} {e fn req : Nat} {ent : QEntry} {can : QEntry → Bool} {sp : QEntry → List (Nat × Nat)}
  {body : QEntry → State → State} (h : Head s e fn ent)
include h

/-- A head that the engine accepts, and that does not wait for memory, leaves its queue and is done. -/
theorem dispatchMem_goes (hc : can ent = true) (hw : spansWait s (sp ent) = false) :
    dispatchMem s e fn can req sp body = .next (settled (body ent (left s e ent)) e) := by
  have hmet := h.wvMet
  obtain ⟨hhead, -, hkeep⟩ := h
  rw [dispatchMem, hhead]
  simp only [hkeep, hmet, hc, hw, Bool.not_true, Bool.false_eq_true, if_false]
  rfl

theorem dispatch_goes (hc : can ent = true) : dispatch s e fn can body = .next (settled (body ent (left s e ent)) e) :=
  dispatchMem_goes h hc rfl

theorem Head.unitsOn : unitsOn s = true := by
  obtain ⟨hhead, -⟩ := h
  by_contra hu
  simp [headFn, hu] at hhead

theorem Head.queue : (qOf s e).failed = false ∧ (qOf s e).wait.head? = some ent ∧ ent.fn.toNat = fn := by
  obtain ⟨hhead, -⟩ := h
  unfold headFn at hhead
  split at hhead
  next hon =>
    obtain ⟨hent, hfn⟩ := Option.filter_eq_some_iff.mp hhead
    simp only [Bool.and_eq_true, Bool.not_eq_true'] at hon
    exact ⟨hon.2, hent, of_decide_eq_true hfn⟩
  next => cases hhead

end Head

/-! The state after the head has left. -/

/-- What a head that leaves changes: its queue and the sync unit. -/
theorem left_frame (s : State) (e : Nat) (ent : QEntry) : left s e ent = { s with q := (popHead s e).q, syn := (left s e ent).syn } := by
  unfold left
  split <;> rfl

section Left
variable (s : State) (e : Nat) (ent : QEntry)

@[simp] theorem left_mem : (left s e ent).mem = s.mem := by rw [left_frame]
@[simp] theorem left_wgh : (left s e ent).wgh = s.wgh := by rw [left_frame]
@[simp] theorem left_man : (left s e ent).man = s.man := by rw [left_frame]
@[simp] theorem left_core : (left s e ent).core = s.core := by rw [left_frame]
@[simp] theorem left_clk : (left s e ent).clk = s.clk := by rw [left_frame]
@[simp] theorem left_arr : (left s e ent).arr = s.arr := by rw [left_frame]
@[simp] theorem left_vec : (left s e ent).vec = s.vec := by rw [left_frame]
@[simp] theorem left_fac : (left s e ent).fac = s.fac := by rw [left_frame]
@[simp] theorem left_sth : (left s e ent).sth = s.sth := by rw [left_frame]
@[simp] theorem left_str : (left s e ent).str = s.str := by rw [left_frame]
@[simp] theorem left_pst : (left s e ent).pst = s.pst := by rw [left_frame]
@[simp] theorem left_sec : (left s e ent).sec = s.sec := by rw [left_frame]
@[simp] theorem left_jrnl : (left s e ent).jrnl = s.jrnl := by rw [left_frame]
@[simp] theorem left_opId : (left s e ent).opId = s.opId := by rw [left_frame]
@[simp] theorem left_free : (left s e ent).free = s.free := by rw [left_frame]

theorem qOf_left (k : Nat) : qOf (left s e ent) k = if k = e then { qOf s e with wait := (qOf s e).wait.drop 1 } else qOf s k := by
  have hq : (left s e ent).q = (popHead s e).q := by rw [left_frame]
  exact (congrArg (fun q : Tab EngQ => tabGet ({} : EngQ) q k) hq).trans (qOf_modQ s e k (fun q => { q with wait := q.wait.drop 1 }))

end Left

/-- A FAC.STEP of context 0 that waits on object 1. -/
def waitingStep : QEntry :=
  { ctx := 0, fn := 0, sub := 0, dreg := 0, d := 0, a := 0, b := 0, fs := 0, wv := some 1, sv := none, sid := 0 }

/-- It is at its queue's head, the object's value is 0, and a contained fault of its context waits for its halt. -/
def discardedHead : State := { q := [(eFAC, { wait := [waitingStep] })], flt := { haltCtx := some 0 } }

/-- Refutes O24: a head whose wait is not met does not stay where it is an operation of the Factor, and a contained fault of its context waits for
its halt. It is discarded (16 R389), so that its queue is empty after FAC.STEP. -/
theorem not_queueHeads : ¬ Obligations.QueueHeads := by
  intro h
  obtain ⟨-, hstays⟩ := h
  obtain ⟨t, ht, hframe, -⟩ := hstays discardedHead .facStep eFAC 0 waitingStep 1 (by simp) (by decide +kernel) rfl
    (by decide +kernel)
  have hq : t.q = discardedHead.q := by rw [hframe]
  have hleft : (match exec .facStep discardedHead with | .next u => (qOf u eFAC).wait.isEmpty | _ => false) = true := by decide +kernel
  have hwait : (qOf discardedHead eFAC).wait.isEmpty = false := by decide +kernel
  rw [ht] at hleft
  simp only [qOf, hq] at hleft hwait
  rw [hwait] at hleft
  cases hleft

end Sys2Proof.Machine
end
section
/-! PROOFS. The weigher functions (04 R121, Table 4). -/

namespace Sys2Proof.Machine

/-! Fields of a word that is given as a number. -/

theorem extract_ofNat {n x lo len : Nat} {y : BitVec len} (hn : lo + len ≤ n) (h : x / 2 ^ lo % 2 ^ len = y.toNat) :
    (BitVec.ofNat n x).extractLsb' lo len = y := by
  refine BitVec.eq_of_getLsbD_eq fun i hi => ?_
  have hbit : (x / 2 ^ lo % 2 ^ len).testBit i = y.toNat.testBit i := by rw [h]
  rw [Nat.testBit_mod_two_pow, Nat.testBit_div_two_pow] at hbit
  rw [BitVec.getLsbD_extractLsb', BitVec.getLsbD_ofNat, ← BitVec.testBit_toNat y, ← hbit]
  simp [hi, show lo + i < n by omega, Nat.add_comm]

theorem getLsbD_ofNat_of {n x i : Nat} {b : Bool} (hn : i < n) (h : x / 2 ^ i % 2 = b.toNat) : (BitVec.ofNat n x).getLsbD i = b := by
  rw [BitVec.getLsbD_ofNat, Nat.testBit_eq_decide_div_mod_eq, h]
  cases b <;> simp [hn]

theorem flag_eq (b : Bool) (n : Nat) : (if b = true then n else 0) = n * b.toNat := by cases b <;> simp

theorem toNat_low_four (a : Dword) : (a.extractLsb' 0 4).toNat = a.toNat % 16 := by simp

section Dispatch
variable {s : State} {ent : QEntry} (hfree : (qOf s eWGH).infl = [])
include hfree

theorem wghFree_of : wghFree s = true := by rw [wghFree, hfree]; rfl

theorem wghResult_goes {fn : Nat} (h : Head s eWGH fn ent) (v : QEntry → State → Nat) :
    wghResult s fn v = .next (settled (putInfl (left s eWGH ent) eWGH ent (some (BitVec.ofNat 64 (v ent (left s eWGH ent)))) true) eWGH) :=
  dispatch_goes h (wghFree_of hfree)

end Dispatch

theorem modWgh_putInfl (s : State) (e : Nat) (ent : QEntry) (wb : Option Dword) (done : Bool) (f : Wgh → Wgh) :
    (putInfl s e ent wb done).modWgh f = { putInfl s e ent wb done with wgh := f s.wgh } := rfl

theorem wghClear_eq (w : Wgh) (m : Dword) : wghClear w m =
    { w with nonfin := w.nonfin &&& ~~~(m.extractLsb' 0 16), sat := w.sat &&& ~~~(m.extractLsb' 16 16)
             mixed := w.mixed &&& ~~~(m.extractLsb' 32 16), nanAny := w.nanAny && !m.getLsbD 48
             infAny := w.infAny && !m.getLsbD 49, lsdown := w.lsdown && !m.getLsbD 50, notoken := w.notoken && !m.getLsbD 51 } := by
  have hfield : ∀ k, (m >>> k).setWidth 16 = m.extractLsb' k 16 := fun k => by ext i; simp [BitVec.getElem_eq_testBit_toNat]
  rw [wghClear, hfield, hfield, ← hfield 0]
  rfl

/-! What the live copy says depends on the manifest alone. -/

section LiveCopy
variable {s t : State} (h : t.man = s.man)
include h

theorem liveByte_congr (o : Nat) : liveByte t o = liveByte s o := by unfold liveByte; rw [h]
theorem cfg_congr (o n : Nat) : cfg t o n = cfg s o n := by
  unfold cfg
  simp only [liveByte_congr h]
theorem cfgBits_congr (o hi lo : Nat) : cfgBits t o hi lo = cfgBits s o hi lo := by rw [cfgBits, cfg_congr h]; rfl
theorem lsDyn_congr : lsDyn t = lsDyn s := by rw [lsDyn, cfgBits_congr h]; rfl

end LiveCopy

/-- Settles O25: each function by its dispatch, its word field by field. -/
theorem weigherOps : Obligations.WeigherOps := by
  unfold Obligations.WeigherOps
  intro s ent hfree
  refine ⟨fun h => ?_, fun h => ?_, fun h => ?_, fun h => ?_, fun h => ?_⟩
  · beta_reduce
    rw [show exec .wghRead s = execWghRead s from rfl, execWghRead, wghResult_goes hfree h]
    refine ⟨_, rfl, ?_⟩
    simp only [left_wgh, ← toNat_low_four]
    generalize tabGet ({} : Weigher) s.wgh.w (ent.a.extractLsb' 0 4).toNat = x
    have := x.acc.amax.isLt; have := x.s.isLt; have := x.fill.isLt; have := x.acc.fmt.isLt
    exact ⟨extract_ofNat (by omega) (by omega), extract_ofNat (by omega) (by omega), extract_ofNat (by omega) (by omega),
      extract_ofNat (by omega) (by simp; omega), extract_ofNat (by omega) (by omega), extract_ofNat (by omega) (by simp; omega)⟩
  · beta_reduce
    rw [show exec .wghStep s = execWghStep s from rfl, execWghStep, dispatch_goes h (wghFree_of hfree)]
    rw [modWgh_putInfl, left_wgh]
  · beta_reduce
    rw [show exec .wghLsread s = execWghLsread s from rfl, execWghLsread, wghResult_goes hfree h]
    refine ⟨_, rfl, ?_⟩
    simp only [left_wgh, flag_eq, lsDyn_congr (left_man s eWGH ent)]
    generalize s.wgh = w
    have := w.l.isLt; have := w.good.isLt
    have := w.lsdown.toNat_le; have := w.notoken.toNat_le; have := (lsDyn s).toNat_le
    exact ⟨extract_ofNat (by omega) (by omega), extract_ofNat (by omega) (by omega), getLsbD_ofNat_of (by omega) (by omega),
      getLsbD_ofNat_of (by omega) (by omega), getLsbD_ofNat_of (by omega) (by omega), extract_ofNat (by omega) (by simp; omega)⟩
  · beta_reduce
    rw [show exec .wghFlags s = execWghFlags s from rfl, execWghFlags, wghResult_goes hfree h]
    refine ⟨_, rfl, ?_⟩
    simp only [left_wgh, wghFlags, flag_eq]
    generalize s.wgh = w
    have := w.nonfin.isLt; have := w.sat.isLt; have := w.mixed.isLt
    have := w.nanAny.toNat_le; have := w.infAny.toNat_le; have := w.lsdown.toNat_le; have := w.notoken.toNat_le
    exact ⟨extract_ofNat (by omega) (by omega), extract_ofNat (by omega) (by omega), extract_ofNat (by omega) (by omega),
      getLsbD_ofNat_of (by omega) (by omega), getLsbD_ofNat_of (by omega) (by omega), getLsbD_ofNat_of (by omega) (by omega),
      getLsbD_ofNat_of (by omega) (by omega), extract_ofNat (by omega) (by simp; omega)⟩
  · beta_reduce
    rw [show exec .wghClr s = execWghClr s from rfl, execWghClr, dispatch_goes h (wghFree_of hfree)]
    rw [modWgh_putInfl, left_wgh, wghClear_eq]

end Sys2Proof.Machine
end
section
/-! PROOFS. What a weigher gathers (04 R115, R117), its step update (R116), and the retirement of WGH.STEP (R118, R119). -/

namespace Sys2Proof.Machine

/-! Folds over indices of which one matters. -/

theorem foldl_view_kept {σ α : Type} (V : σ → α) {f : σ → Nat → σ} {l : List Nat} (h : ∀ w, ∀ j ∈ l, V (f w j) = V w) (w : σ) :
    V (l.foldl f w) = V w := by
  induction l generalizing w with
  | nil => rfl
  | cons j l ih =>
    rw [List.foldl_cons, ih fun u i hi => h u i (List.mem_cons_of_mem _ hi)]
    exact h w j (List.mem_cons_self ..)

/-- A view that every other index keeps is changed by its own index once. -/
theorem foldl_view_at {σ α : Type} (V : σ → α) (F : α → α) {f : σ → Nat → σ} {k : Nat} (hother : ∀ w j, j ≠ k → V (f w j) = V w)
    (hown : ∀ w, V (f w k) = F (V w)) {l : List Nat} (hk : k ∈ l) (hl : l.Nodup) (w : σ) : V (l.foldl f w) = F (V w) := by
  induction l generalizing w with
  | nil => cases hk
  | cons j l ih =>
    obtain ⟨hnot, hnd⟩ := List.nodup_cons.mp hl
    rw [List.foldl_cons]
    by_cases hj : j = k
    · subst hj
      rw [foldl_view_kept V (fun u i hi => hother u i fun he => hnot (he ▸ hi)) (f w j)]
      exact hown w
    · rw [ih ((List.mem_cons.mp hk).resolve_left (Ne.symm hj)) hnd, hother w j hj]

/-! One weigher's part of the unit. -/

/-- What of the unit belongs to weigher k. -/
structure WghView where
  y : Weigher
  a2 : WAcc
  stepping : Bool
  nonfin : Bool
  sat : Bool
  mixed : Bool

def Wgh.view (k : Nat) (w : Wgh) : WghView :=
  { y := tabGet {} w.w k, a2 := tabGet {} w.acc2 k, stepping := w.stepping, nonfin := w.nonfin.getLsbD k, sat := w.sat.getLsbD k
    mixed := w.mixed.getLsbD k }

/-- The gathering that takes an observation. -/
def WghView.got (v : WghView) : WAcc := if v.stepping then v.a2 else v.y.acc

/-- An observation, as weigher k sees it. -/
def WghView.see (fmt : Nat) (v : WghView) (x : Seen) : WghView :=
  { v with
    y := { v.y with obs := v.y.obs + 1, acc := if v.stepping then v.y.acc else v.got.see fmt x }
    a2 := if v.stepping then v.got.see fmt x else v.a2
    nonfin := v.nonfin || (!f32IsFinite x.v || x.toInf)
    sat := v.sat || (f32IsFinite x.v && x.sat)
    mixed := v.mixed || (decide (v.got.cnt ≠ 0) && decide (v.got.fmt.toNat ≠ fmt)) }

theorem flagBit_getLsbD (c : Bool) {k : Nat} (hk : k < 16) (j : Nat) : (flagBit c j).getLsbD k = (c && decide (k = j)) := by
  cases c with
  | false => simp [flagBit]
  | true =>
    rw [show flagBit true j = BitVec.twoPow 16 j from rfl, BitVec.getLsbD_twoPow, Bool.true_and, ← Bool.decide_and]
    exact decide_eq_decide.mpr (by omega)

theorem view_see_own {k : Nat} (hk : k < 16) (w : Wgh) (fmt : Nat) (x : Seen) : (w.see k fmt x).view k = (w.view k).see fmt x := by
  cases hs : w.stepping <;>
    simp [Wgh.see, Wgh.view, WghView.see, WghView.got, hs, flagBit_getLsbD _ hk]

theorem view_see_other {k j : Nat} (hk : k < 16) (hj : j ≠ k) (w : Wgh) (fmt : Nat) (x : Seen) : (w.see j fmt x).view k = w.view k := by
  cases hs : w.stepping <;>
    simp [Wgh.see, Wgh.view, hs, tabGet_set, flagBit_getLsbD _ hk, Ne.symm hj]

theorem view_sees_own {k : Nat} (hk : k < 16) (fmt : Nat) (xs : List Seen) (w : Wgh) :
    (xs.foldl (fun v x => v.see k fmt x) w).view k = xs.foldl (WghView.see fmt) (w.view k) := by
  induction xs generalizing w with
  | nil => rfl
  | cons x xs ih => rw [List.foldl_cons, ih, view_see_own hk, List.foldl_cons]

theorem view_sees_other {k j : Nat} (hk : k < 16) (hj : j ≠ k) (fmt : Nat) (xs : List Seen) (w : Wgh) :
    (xs.foldl (fun v x => v.see j fmt x) w).view k = w.view k := by
  induction xs generalizing w with
  | nil => rfl
  | cons x xs ih => rw [List.foldl_cons, ih, view_see_other hk hj]

/-! What a run of observations gives. -/

theorem got_see (fmt : Nat) (v : WghView) (x : Seen) : (v.see fmt x).got = v.got.see fmt x := by
  cases hs : v.stepping <;> simp [WghView.see, WghView.got, hs]

theorem got_sees (fmt : Nat) (xs : List Seen) (v : WghView) : (xs.foldl (WghView.see fmt) v).got = xs.foldl (fun a x => a.see fmt x) v.got := by
  induction xs generalizing v with
  | nil => rfl
  | cons x xs ih => rw [List.foldl_cons, ih, got_see, List.foldl_cons]

theorem sees_gathered (fmt : Nat) (xs : List Seen) (a : WAcc) :
    let b := xs.foldl (fun a x => a.see fmt x) a
    b.cnt = a.cnt + xs.length ∧ (xs ≠ [] → b.fmt = BitVec.ofNat 4 fmt) ∧
      b.nonfin = (a.nonfin || xs.any (fun v => !f32IsFinite v.v || v.toInf)) ∧
      b.amax = xs.foldl (fun m v => if f32IsFinite v.v = true ∧ m.toNat < (f32Abs v.v).toNat then f32Abs v.v else m) a.amax := by
  induction xs generalizing a with
  | nil => exact ⟨rfl, fun h => absurd rfl h, by simp, rfl⟩
  | cons x xs ih =>
    obtain ⟨hcnt, hfmt, hnon, hmax⟩ := ih (a.see fmt x)
    refine ⟨?_, fun _ => ?_, ?_, ?_⟩
    · rw [List.foldl_cons, hcnt]
      simp [WAcc.see]; omega
    · cases xs with
      | nil => rfl
      | cons y ys => exact hfmt (List.cons_ne_nil _ _)
    · rw [List.foldl_cons, hnon]
      simp [WAcc.see, Bool.or_assoc]
    · rw [List.foldl_cons, hmax]
      simp [WAcc.see]

theorem sees_view {fmt : Nat} (hf : fmt < 16) (xs : List Seen) (v : WghView) :
    let u := xs.foldl (WghView.see fmt) v
    u.stepping = v.stepping ∧ u.y.obs = v.y.obs + BitVec.ofNat 32 xs.length ∧ u.y.hist = v.y.hist ∧ u.y.fill = v.y.fill ∧ u.y.s = v.y.s ∧
      u.nonfin = (v.nonfin || xs.any (fun x => !f32IsFinite x.v || x.toInf)) ∧
      u.sat = (v.sat || xs.any (fun x => f32IsFinite x.v && x.sat)) ∧
      u.mixed = (v.mixed || (!xs.isEmpty && decide (v.got.cnt ≠ 0) && decide (v.got.fmt ≠ BitVec.ofNat 4 fmt))) := by
  induction xs generalizing v with
  | nil => simp
  | cons x xs ih =>
    obtain ⟨hst, hobs, hhist, hfill, hs, hnon, hsat, hmix⟩ := ih (v.see fmt x)
    have hfmt : decide (v.got.fmt.toNat ≠ fmt) = decide (v.got.fmt ≠ BitVec.ofNat 4 fmt) := by
      refine decide_eq_decide.mpr (not_congr ⟨fun h => BitVec.eq_of_toNat_eq ?_, fun h => ?_⟩)
      · rw [h, BitVec.toNat_ofNat, Nat.mod_eq_of_lt hf]
      · rw [h, BitVec.toNat_ofNat, Nat.mod_eq_of_lt hf]
    refine ⟨hst, ?_, hhist, hfill, hs, ?_, ?_, ?_⟩
    · rw [List.foldl_cons, hobs, List.length_cons, Nat.add_comm xs.length 1, BitVec.ofNat_add, ← BitVec.add_assoc]
      rfl
    · rw [List.foldl_cons, hnon, List.any_cons, ← Bool.or_assoc]
      rfl
    · rw [List.foldl_cons, hsat, List.any_cons, ← Bool.or_assoc]
      rfl
    · rw [List.foldl_cons, hmix, got_see]
      have hsame : decide ((v.got.see fmt x).fmt ≠ BitVec.ofNat 4 fmt) = false := by simp [WAcc.see]
      rw [hsame, Bool.and_false, Bool.or_false, ← hfmt]
      rfl

/-! The whole unit. -/

/-- Weigher k takes part in the observation of a tensor. -/
def observes (s : State) (tensor k : Nat) : Bool := wghEn s k && decide (wghTensor s k = tensor)

/-- The turn of weigher k. -/
def observeTurn (s : State) (tensor fmt : Nat) (xs : List Seen) (w : Wgh) (k : Nat) : Wgh :=
  if observes s tensor k then xs.foldl (fun v x => v.see k fmt x) w else w

theorem observe_eq (s : State) (tensor fmt : Nat) (xs : List Seen) :
    observe s tensor fmt xs = { s with wgh := (List.range 16).foldl (observeTurn s tensor fmt xs) s.wgh } := by
  have hfold : ∀ (l : List Nat) (t : State), l.foldl (fun t k =>
      if wghEn s k && decide (wghTensor s k = tensor) then t.modWgh (fun w => xs.foldl (fun v x => v.see k fmt x) w) else t) t =
      { t with wgh := l.foldl (observeTurn s tensor fmt xs) t.wgh } := by
    intro l
    induction l with
    | nil => exact fun t => rfl
    | cons k l ih =>
      intro t
      rw [List.foldl_cons, ih, List.foldl_cons]
      unfold observeTurn observes
      split <;> rfl
  exact hfold _ s

section Observe
variable {s : State} {tensor fmt k : Nat} {xs : List Seen} (hk : k < 16)
include hk

theorem view_observe_own (h : observes s tensor k = true) :
    (observe s tensor fmt xs).wgh.view k = xs.foldl (WghView.see fmt) (s.wgh.view k) := by
  rw [observe_eq]
  refine foldl_view_at (Wgh.view k) (xs.foldl (WghView.see fmt)) (fun w j hj => ?_) (fun w => ?_) (List.mem_range.mpr hk) List.nodup_range _
  · unfold observeTurn
    split
    · exact view_sees_other hk hj ..
    · rfl
  · rw [observeTurn, if_pos h, view_sees_own hk]

theorem view_observe_not (h : observes s tensor k = false) : (observe s tensor fmt xs).wgh.view k = s.wgh.view k := by
  rw [observe_eq]
  refine foldl_view_kept (Wgh.view k) (fun w j _ => ?_) _
  unfold observeTurn
  split
  next hj =>
    have hne : j ≠ k := fun he => by rw [he, h] at hj; cases hj
    exact view_sees_other hk hne ..
  next => rfl

end Observe

theorem sees_specials (k fmt : Nat) (xs : List Seen) (w : Wgh) :
    (xs.foldl (fun v x => v.see k fmt x) w).nanAny = (w.nanAny || xs.any (fun v => f32IsNaN v.v)) ∧
      (xs.foldl (fun v x => v.see k fmt x) w).infAny = (w.infAny || xs.any (fun v => f32IsInf v.v || v.toInf)) := by
  induction xs generalizing w with
  | nil => simp
  | cons x xs ih =>
    obtain ⟨hnan, hinf⟩ := ih (w.see k fmt x)
    rw [List.foldl_cons, hnan, hinf, List.any_cons, List.any_cons]
    simp only [Wgh.see, ← Bool.or_assoc, and_self]

/-- The two flags that all weighers share. -/
def Wgh.specials (w : Wgh) : Bool × Bool := (w.nanAny, w.infAny)

theorem specials_turns (s : State) (tensor fmt : Nat) (xs : List Seen) (l : List Nat) (w : Wgh) :
    (l.foldl (observeTurn s tensor fmt xs) w).specials =
      (w.nanAny || (l.any (observes s tensor) && xs.any (fun v => f32IsNaN v.v)),
        w.infAny || (l.any (observes s tensor) && xs.any (fun v => f32IsInf v.v || v.toInf))) := by
  induction l generalizing w with
  | nil => simp [Wgh.specials]
  | cons k l ih =>
    rw [List.foldl_cons, ih, List.any_cons]
    unfold observeTurn
    obtain ⟨hnan, hinf⟩ := sees_specials k fmt xs w
    cases observes s tensor k with
    | false => simp
    | true =>
      simp only [if_true, hnan, hinf, Bool.true_or, Bool.true_and, Bool.or_assoc]
      congr 2
      · cases xs.any (fun v => f32IsNaN v.v) <;> simp
      · cases xs.any (fun v => f32IsInf v.v || v.toInf) <;> simp

theorem specials_observe {s : State} {tensor fmt k : Nat} {xs : List Seen} (hk : k < 16) (h : observes s tensor k = true) :
    (observe s tensor fmt xs).wgh.nanAny = (s.wgh.nanAny || xs.any (fun v => f32IsNaN v.v)) ∧
      (observe s tensor fmt xs).wgh.infAny = (s.wgh.infAny || xs.any (fun v => f32IsInf v.v || v.toInf)) := by
  have hany : (List.range 16).any (observes s tensor) = true := List.any_eq_true.mpr ⟨k, List.mem_range.mpr hk, h⟩
  have hspec := specials_turns s tensor fmt xs (List.range 16) s.wgh
  rw [hany, Bool.true_and, Bool.true_and] at hspec
  rw [observe_eq]
  exact Prod.mk.inj hspec

/-! The step update. -/

theorem tabGet_mem_or {α : Type} (d : α) (t : Tab α) (i : Nat) : tabGet d t i = d ∨ (i, tabGet d t i) ∈ t := by
  induction t with
  | nil => exact .inl rfl
  | cons p t ih =>
    obtain ⟨k, v⟩ := p
    unfold tabGet
    split
    next hik => exact .inr (hik ▸ List.mem_cons_self ..)
    next => exact ih.imp_right (List.mem_cons_of_mem _)

theorem tabGet_shift {t : Tab Word} {n i : Nat} (h : i + 1 < n) :
    tabGet 0 ((t.filter (fun p => decide (p.1 + 1 < n))).map (fun p => (p.1 + 1, p.2))) (i + 1) = tabGet 0 t i := by
  induction t with
  | nil => rfl
  | cons p t ih =>
    obtain ⟨k, v⟩ := p
    by_cases hk : k + 1 < n
    · rw [List.filter_cons_of_pos (by simpa using hk), List.map_cons]
      simp only [tabGet, ih, Nat.add_right_cancel_iff]
    · rw [List.filter_cons_of_neg (by simpa using hk), ih]
      have hne : i ≠ k := by omega
      simp only [tabGet, if_neg hne]

/-- The history's maximum over its first n entries bounds them, and is one of them or 0. -/
theorem histMax_spec (n : Nat) (t : Tab Word) :
    (∀ i, i < n → (tabGet 0 t i).toNat ≤ (histMax t n).toNat) ∧ (histMax t n = 0 ∨ ∃ p ∈ t, p.1 < n ∧ p.2 = histMax t n) := by
  have hfold : ∀ (t : Tab Word) (h0 : Word),
      let h := t.foldl (fun h p => if p.1 < n ∧ h.toNat < p.2.toNat then p.2 else h) h0
      h0.toNat ≤ h.toNat ∧ (∀ p ∈ t, p.1 < n → p.2.toNat ≤ h.toNat) ∧ (h = h0 ∨ ∃ p ∈ t, p.1 < n ∧ p.2 = h) := by
    intro t
    induction t with
    | nil => exact fun h0 => ⟨le_rfl, fun p hp => absurd hp List.not_mem_nil, .inl rfl⟩
    | cons q t ih =>
      intro h0
      obtain ⟨hge, hall, hone⟩ := ih (if q.1 < n ∧ h0.toNat < q.2.toNat then q.2 else h0)
      rw [List.foldl_cons]
      by_cases hq : q.1 < n ∧ h0.toNat < q.2.toNat
      · rw [if_pos hq] at hge hall hone ⊢
        refine ⟨by omega, fun p hp hpn => ?_, ?_⟩
        · rcases List.mem_cons.mp hp with rfl | hp
          · exact hge
          · exact hall p hp hpn
        · exact .inr (hone.elim (fun he => ⟨q, List.mem_cons_self .., hq.1, he.symm⟩)
            fun ⟨p, hp, hpn, he⟩ => ⟨p, List.mem_cons_of_mem _ hp, hpn, he⟩)
      · rw [if_neg hq] at hge hall hone ⊢
        refine ⟨hge, fun p hp hpn => ?_, hone.imp_right fun ⟨p, hp, hpn, he⟩ => ⟨p, List.mem_cons_of_mem _ hp, hpn, he⟩⟩
        rcases List.mem_cons.mp hp with rfl | hp
        · have hle : p.2.toNat ≤ h0.toNat := Nat.not_lt.mp fun hlt => hq ⟨hpn, hlt⟩
          omega
        · exact hall p hp hpn
  obtain ⟨-, hall, hone⟩ := hfold t 0
  refine ⟨fun i hi => ?_, hone⟩
  rcases tabGet_mem_or (0 : Word) t i with hz | hm
  · rw [hz]; exact Nat.zero_le _
  · exact hall _ hm hi

theorem clampS8_toInt (x : Int) : (clampS8 x).toInt = max (-128) (min x 127) := by
  rw [clampS8, BitVec.toInt_ofInt]
  exact Int.bmod_eq_of_le (by omega) (by omega)

/-- What a weigher that gathered a finite step pushes and scales. -/
theorem weigherStep_updates {s : State} {k : Nat} {x : Weigher} {a : WAcc} (hnon : x.acc.nonfin = false) (hcnt : x.acc.cnt ≠ 0) :
    (weigherStep s k x a).hist = histPush x.hist (wghDepth s k) x.acc.amax ∧
      (weigherStep s k x a).fill.toNat = min (x.fill.toNat + 1) (wghDepth s k) ∧
      (weigherStep s k x a).s = scaleFrom s k x.acc.fmt.toNat (histMax (weigherStep s k x a).hist (weigherStep s k x a).fill.toNat) x.s := by
  have hdepth : wghDepth s k ≤ 16 := by unfold wghDepth bitsOf; omega
  have hfill : (BitVec.ofNat 5 (min (x.fill.toNat + 1) (wghDepth s k))).toNat = min (x.fill.toNat + 1) (wghDepth s k) := by
    rw [BitVec.toNat_ofNat]; omega
  have hif : (x.acc.nonfin || decide (x.acc.cnt = 0)) = false := by simp [hnon, hcnt]
  simp [weigherStep, hif, hfill]

theorem weigherStep_gathering (s : State) (k : Nat) (x : Weigher) (a : WAcc) :
    (weigherStep s k x a).obs = x.obs ∧ (weigherStep s k x a).acc.cnt = a.cnt ∧ (weigherStep s k x a).acc.amax = a.amax := by
  have hnext : (if a.cnt = 0 then { a with fmt := x.acc.fmt } else a).cnt = a.cnt ∧
      (if a.cnt = 0 then { a with fmt := x.acc.fmt } else a).amax = a.amax := by
    split <;> exact ⟨rfl, rfl⟩
  unfold weigherStep
  dsimp only
  split <;> exact ⟨rfl, hnext⟩

/-! The retirement of WGH.STEP. -/

theorem signedOf_range (v : Nat) : -128 ≤ signedOf 8 v ∧ signedOf 8 v ≤ 127 := by
  unfold signedOf
  have := (BitVec.ofNat 8 v).le_toInt; have := (BitVec.ofNat 8 v).toInt_lt
  omega

theorem toInt_ofInt_byte {x : Int} (h : -128 ≤ x ∧ x ≤ 127) : (BitVec.ofInt 8 x).toInt = x := by
  rw [BitVec.toInt_ofInt]
  exact Int.bmod_eq_of_le (by omega) (by omega)

theorem lossStep_spec (s : State) (w : Wgh) :
    (lsDyn s = false → (lossStep s w).l = lsInit s ∧ (lossStep s w).good = w.good ∧ (lossStep s w).lsdown = w.lsdown ∧
      (lossStep s w).notoken = w.notoken) ∧
    (lsDyn s = true → w.stepTok = false → (lossStep s w).l = w.l ∧ (lossStep s w).good = w.good ∧ (lossStep s w).notoken = true) ∧
    (lsDyn s = true → w.stepTok = true → w.stepTokNf = true →
      (lossStep s w).l.toInt = max (w.l.toInt - 1) (lsMin s) ∧ (lossStep s w).good = 0 ∧ (lossStep s w).lsdown = true) ∧
    (lsDyn s = true → w.stepTok = true → w.stepTokNf = false →
      ((w.good + 1).toNat = lsGrow s → (lossStep s w).l.toInt = min (w.l.toInt + 1) (lsMax s) ∧ (lossStep s w).good = 0) ∧
      ((w.good + 1).toNat ≠ lsGrow s → (lossStep s w).l = w.l ∧ (lossStep s w).good = w.good + 1)) := by
  have hl := w.l.le_toInt; have hu := w.l.toInt_lt
  have hmin : -128 ≤ lsMin s ∧ lsMin s ≤ 127 := signedOf_range _
  have hmax : -128 ≤ lsMax s ∧ lsMax s ≤ 127 := signedOf_range _
  unfold lossStep
  refine ⟨fun hd => by simp [hd], fun hd ht => by simp [hd, ht], fun hd ht hn => ?_, fun hd ht hn => ⟨fun hg => ?_, fun hg => ?_⟩⟩
  · simp [hd, ht, hn, toInt_ofInt_byte (x := max (w.l.toInt - 1) (lsMin s)) (by omega)]
  · simp only [hd, ht, hn, Bool.not_true, Bool.false_eq_true, if_false, if_pos hg]
    exact ⟨toInt_ofInt_byte (by omega), trivial⟩
  · simp only [hd, ht, hn, Bool.not_true, Bool.false_eq_true, if_false, if_neg hg, and_self]

theorem wghStepDone_weigher (s : State) {k : Nat} (hk : k < 16) :
    tabGet ({} : Weigher) (wghStepDone s).wgh.w k =
      if wghEn s k then weigherStep s k (tabGet {} s.wgh.w k) (tabGet {} s.wgh.acc2 k) else tabGet {} s.wgh.w k := by
  change tabGet ({} : Weigher) ((List.range 16).foldl (fun t k =>
    if wghEn s k then tabMod {} t k (fun x => weigherStep s k x (tabGet {} s.wgh.acc2 k)) else t) s.wgh.w) k = _
  refine foldl_view_at (fun t => tabGet ({} : Weigher) t k)
    (fun y => if wghEn s k then weigherStep s k y (tabGet {} s.wgh.acc2 k) else y) (fun t j hj => ?_) (fun t => ?_)
    (List.mem_range.mpr hk) List.nodup_range _
  · split
    · rw [tabGet_mod, if_neg (Ne.symm hj)]
    · rfl
  · split
    · rw [tabGet_mod, if_pos rfl]
    · rfl

/-- What STEP keeps of a weigher. -/
def copyOf (y : Weigher) : WCopy := { hist := y.hist, fill := y.fill, s := y.s }

theorem wghStepDone_copy (s : State) {k : Nat} (hk : k < 16) :
    tabGet ({} : WCopy) (wghStepDone s).wgh.copy k = copyOf (tabGet ({} : Weigher) s.wgh.w k) := by
  change tabGet ({} : WCopy) ((List.range 16).foldl (fun t k => tabSet {} t k (copyOf (tabGet ({} : Weigher) s.wgh.w k))) []) k = _
  refine foldl_view_at (fun t => tabGet ({} : WCopy) t k) (fun _ => copyOf (tabGet ({} : Weigher) s.wgh.w k)) (fun t j hj => ?_) (fun t => ?_)
    (List.mem_range.mpr hk) List.nodup_range _
  · exact (tabGet_set ..).trans (if_neg (Ne.symm hj))
  · exact (tabGet_set ..).trans (if_pos rfl)

section Congr
variable {s t : State} (hm : t.man = s.man)
include hm

theorem wghEntry_congr (k : Nat) : wghEntry t k = wghEntry s k := cfg_congr hm ..

theorem wghEn_congr (k : Nat) : wghEn t k = wghEn s k := by
  unfold wghEn
  rw [wghEntry_congr hm]

theorem scaleFrom_congr (k fmt : Nat) (h : Word) (keep : Byte) : scaleFrom t k fmt h keep = scaleFrom s k fmt h keep := by
  unfold scaleFrom wghMargin
  rw [wghEntry_congr hm]

theorem weigherStep_congr (k : Nat) (x : Weigher) (a : WAcc) : weigherStep t k x a = weigherStep s k x a := by
  have hdepth : wghDepth t k = wghDepth s k := by rw [wghDepth, wghEntry_congr hm]; rfl
  simp only [weigherStep, hdepth, scaleFrom_congr hm]

theorem lossStep_congr (w : Wgh) : lossStep t w = lossStep s w := by
  unfold lossStep lsInit lsMin lsMax lsGrow
  rw [lsDyn_congr hm, cfgBits_congr hm, cfgBits_congr hm, cfgBits_congr hm, cfgBits_congr hm]

theorem wghStepDone_congr (hw : t.wgh = s.wgh) : (wghStepDone t).wgh = (wghStepDone s).wgh := by
  unfold wghStepDone State.modWgh
  simp only [hw, wghEn_congr hm, weigherStep_congr hm, lossStep_congr hm]

end Congr

/-- Where no WGH.STEP is in flight, signals keep the weighers. -/
theorem abandonStep_idle {s : State} (h : s.wgh.stepping = false) : abandonStep s = s := by
  rw [abandonStep, h]; rfl

theorem raise_wgh {s : State} (h : s.wgh.stepping = false) (code unit : Nat) (addr : Addr) (d : Nat) : (raise s code unit addr d).wgh = s.wgh := by
  unfold raise
  dsimp only
  split
  · rw [abandonStep_idle, facIdle_frame]
    · rfl
    · rw [facIdle_frame]; exact h
  · rfl

theorem signalAmt_wgh {s : State} (h : s.wgh.stepping = false) (src : BitVec 4) (o : Byte) (a cnt : Nat) : (signalAmt s src o a cnt).wgh = s.wgh := by
  cases ho : ((objOf s o).apply a).overflows with
  | false => rw [signalAmt_quiet s src o a cnt ho]; rfl
  | true =>
    have hw : (noteOverflow (reached s src o a cnt) src o).wgh = s.wgh := by rw [(noteOverflow_frame ..).1]; rfl
    rw [signalAmt_overflow s src o a cnt ho, raise_wgh (by rw [hw, h]), hw]

theorem signalMany_wgh {s : State} (h : s.wgh.stepping = false) (src : BitVec 4) (os : List Byte) : (signalMany s src os).wgh = s.wgh := by
  unfold signalMany
  generalize os.eraseDups = l
  induction l generalizing s with
  | nil => rfl
  | cons o l ih =>
    have hw := signalAmt_wgh h src o (os.count o) (os.count o)
    rw [List.foldl_cons, ih (by rw [hw, h]), hw]

theorem retire_wghStep {s : State} {n : Nat} {x : Infl} (hfn : x.ent.fn = 1) (hwr : x.wr = []) (hst : s.wgh.stepping = true) :
    (retire s eWGH n x).wgh = (wghStepDone s).wgh ∧ (retire s eWGH n x).jrnl.wstep = true := by
  have hland : landLast (withoutInfl s eWGH n) eWGH x =
      putLanes (x.units.foldl (fun u p => creditArr u 3 p.1 p.2) (withoutInfl s eWGH n)) x.lanes := by
    rw [landLast_eq (fun h => absurd h (by decide)), hwr]; rfl
  obtain ⟨u, hu, hman, hwgh⟩ : ∃ u, writeback (landLast (withoutInfl s eWGH n) eWGH x) x = u ∧ u.man = s.man ∧ u.wgh = s.wgh := by
    refine ⟨_, rfl, ?_, ?_⟩
    · rw [writeback_frame, hland, putLanes_frame, creditArrs_frame]; rfl
    · rw [writeback_frame, hland, putLanes_frame, creditArrs_frame]; rfl
  have heff : retireEffect u eWGH x = (wghStepDone u).modJrnl (fun j => { j with wstep := true }) := by
    rw [retireEffect, if_pos ⟨rfl, hfn⟩, if_pos (by rw [hwgh, hst])]
  rw [retire_eq, hu, retireProgress_frame, heff]
  constructor
  · rw [← wghStepDone_congr hman hwgh]
    exact signalMany_wgh rfl ..
  · rw [(signalMany_frame ..).jrnl]
    rfl

/-- Settles O26: observation by observation of one weigher's part of the unit, the step update by its cases, and the retirement through the
weighers' own fold. -/
theorem weigherStep_holds : Obligations.WeigherStep := by
  unfold Obligations.WeigherStep
  refine ⟨?_, ?_, ?_⟩
  · intro s tensor fmt xs k hk hfmt
    have hview : ∀ u : State, (if s.wgh.stepping then tabGet ({} : WAcc) u.wgh.acc2 k else (tabGet ({} : Weigher) u.wgh.w k).acc) =
        if s.wgh.stepping then (u.wgh.view k).a2 else (u.wgh.view k).y.acc := fun u => rfl
    have hgot : ∀ v : WghView, v.stepping = s.wgh.stepping → (if s.wgh.stepping then v.a2 else v.y.acc) = v.got := fun v h => by
      rw [WghView.got, h]
    have hmine : (wghEn s k = true ∧ wghTensor s k = tensor) ↔ observes s tensor k = true := by simp [observes]
    have hst : (observe s tensor fmt xs).wgh.stepping = s.wgh.stepping := by
      cases ho : observes s tensor k with
      | true => exact (congrArg WghView.stepping (view_observe_own hk ho)).trans (sees_view hfmt xs (s.wgh.view k)).1
      | false => exact congrArg WghView.stepping (view_observe_not hk ho)
    refine ⟨by rw [observe_eq], hst, fun hm => ?_, fun hm => ?_, fun hm => specials_observe hk (hmine.mp hm)⟩
    · have hv := view_observe_own (fmt := fmt) (xs := xs) hk (hmine.mp hm)
      obtain ⟨-, hobs, hhist, hfill, hs, hnon, hsat, hmix⟩ := sees_view hfmt xs (s.wgh.view k)
      obtain ⟨hcnt, hf, hgn, hmax⟩ := sees_gathered fmt xs (s.wgh.view k).got
      rw [← got_sees, ← hv] at hcnt hf hgn hmax
      rw [← hv] at hobs hhist hfill hs hnon hsat hmix
      beta_reduce
      rw [hview, hview, hgot _ hst, hgot _ rfl]
      exact ⟨hobs, hhist, hfill, hs, hcnt, hf, hgn, hmax, hnon, hsat, hmix⟩
    · have hv := view_observe_not (fmt := fmt) (xs := xs) hk (Bool.eq_false_iff.mpr (mt hmine.mpr hm))
      beta_reduce
      rw [hview, hview, hv]
      exact ⟨congrArg WghView.y hv, rfl, congrArg WghView.nonfin hv, congrArg WghView.sat hv, congrArg WghView.mixed hv⟩
  · intro s k x a
    obtain ⟨hobs, hcnt, hmax⟩ := weigherStep_gathering s k x a
    refine ⟨hobs, hcnt, hmax, fun hskip => ?_, fun hnon hc => ?_⟩
    · have hif : (x.acc.nonfin || decide (x.acc.cnt = 0)) = true := by simpa using hskip
      simp [weigherStep, hif]
    · obtain ⟨hhist, hfill, hs⟩ := weigherStep_updates (s := s) (k := k) (a := a) hnon hc
      obtain ⟨hall, hone⟩ := histMax_spec (weigherStep s k x a).fill.toNat (weigherStep s k x a).hist
      refine ⟨?_, fun i hi => ?_, hfill, hall, hone, fun hf => ?_, fun hf hz => ?_, fun hf hz => ?_⟩
      · rw [hhist, histPush, tabGet_set, if_pos rfl]
      · rw [hhist, histPush, tabGet_set, if_neg (Nat.succ_ne_zero i), tabGet_shift hi]
      · rw [hs, scaleFrom, if_pos hf]
      · rw [hs, scaleFrom, if_neg hf, if_pos hz]
      · rw [hs, scaleFrom, if_neg hf, if_neg hz, clampS8_toInt]
  · intro s n x hon hx hdone hfn hwr hunits hst
    have hspans : x.spans = [] := by rw [Infl.spans, hwr]; rfl
    have hexec := exec_engineRetire (q := 3) (n := n) hon hx hdone rfl (by rw [hspans]; rfl) (fun h => absurd h (by decide)) (fun h => absurd h (by decide))
    obtain ⟨hw, hj⟩ := retire_wghStep (n := n) hfn hwr hst
    obtain ⟨hinit, hnone, hdown, hup⟩ := lossStep_spec s s.wgh
    refine ⟨_, hexec, hj, ?_, ?_, ?_, ?_, fun k hk => ⟨?_, ?_⟩, ?_, ?_, ?_, ?_⟩ <;> rw [show (3 : BitVec 3).toNat = eWGH from rfl, hw]
    · rfl
    · rfl
    · rfl
    · rfl
    · exact wghStepDone_copy s hk
    · exact wghStepDone_weigher s hk
    · exact hinit
    · exact hnone
    · exact hdown
    · exact hup

end Sys2Proof.Machine
end
section
/-! PROOFS. What a reading of local memory leaves: bytes, the configuration, the weighers' scales and the Factor's steps (07 R184; 16 R389), and
what depends on no more: layouts, step fields and random bits (04 R103, R110; 11 R265). -/

namespace Sys2Proof.Machine

/-- What a reading of local memory leaves, whatever errors it meets. -/
structure Reads (s t : State) : Prop where
  access : AccessFrame s t
  bytes : t.mem.bytes = s.mem.bytes
  scale : ∀ k, wghScale t k = wghScale s k
  step : ∀ c, (facOf t c).step = (facOf s c).step ∧ (facOf t c).wrapped = (facOf s c).wrapped

theorem Reads.refl (s : State) : Reads s s := ⟨rfl, rfl, fun _ => rfl, fun _ => ⟨rfl, rfl⟩⟩

theorem Reads.trans {s t u : State} (h : Reads s t) (k : Reads t u) : Reads s u :=
  ⟨h.access.trans k.access, k.bytes.trans h.bytes, fun i => (k.scale i).trans (h.scale i),
    fun c => ⟨(k.step c).1.trans (h.step c).1, (k.step c).2.trans (h.step c).2⟩⟩

/-- Where the Factor and the weighers stay, so do steps and scales. -/
theorem Reads.of_kept {s t : State} (ha : AccessFrame s t) (hb : t.mem.bytes = s.mem.bytes) (hf : t.fac = s.fac) (hw : t.wgh = s.wgh) : Reads s t :=
  ⟨ha, hb, fun k => by rw [wghScale, hw]; rfl, fun c => by rw [facOf, hf]; exact ⟨rfl, rfl⟩⟩

section
variable {s t : State} (h : Reads s t)
include h

theorem Reads.man : t.man = s.man := by rw [h.access]
theorem Reads.core : t.core = s.core := by rw [h.access]
theorem Reads.vec : t.vec = s.vec := by rw [h.access]
theorem Reads.q : t.q = s.q := by rw [h.access]
theorem Reads.opId : t.opId = s.opId := by rw [h.access]
theorem Reads.str : t.str = s.str := by rw [h.access]
theorem Reads.sth : t.sth = s.sth := by rw [h.access]
theorem Reads.arr : t.arr = s.arr := by rw [h.access]
theorem Reads.jrnl : t.jrnl = s.jrnl := by rw [h.access]
theorem Reads.sameBytes : SameBytes s t := fun a => by rw [h.bytes]

end

/-! Contained faults. -/

theorem wghScale_abandonStep (s : State) (k : Nat) : wghScale (abandonStep s) k = wghScale s k := by
  have hfold : ∀ (l : List Nat) (a : Tab WAcc) (w : Tab Weigher),
      (tabGet ({} : Weigher) (l.foldl (fun t j => tabMod {} t j (fun x => { x with acc := x.acc.join (tabGet {} a j) })) w) k).s =
        (tabGet ({} : Weigher) w k).s := by
    intro l a w
    refine foldl_view_kept (fun t => (tabGet ({} : Weigher) t k).s) (fun t j _ => ?_) w
    rw [tabGet_mod]
    split
    next hkj => rw [hkj]
    next => rfl
  unfold abandonStep
  split
  · exact congrArg BitVec.toInt (hfold ..)
  · rfl

theorem facOf_facIdle_step (s : State) (d c : BitVec 2) :
    (facOf (facIdle s d) c).step = (facOf s c).step ∧ (facOf (facIdle s d) c).wrapped = (facOf s c).wrapped := by
  have hget := tabGet_mod ({} : FacCtx) s.fac.ctxs d.toNat c.toNat
    (fun x => { x with st := 0, lanes := [], partNf := false, q := 0, tok := {} })
  rw [show facOf (facIdle s d) c = _ from hget]
  split
  next hcd => rw [facOf, hcd]; exact ⟨rfl, rfl⟩
  next => exact ⟨rfl, rfl⟩

theorem raise_reads (s : State) (code unit : Nat) (addr : Addr) (d : Nat) : Reads s (raise s code unit addr d) := by
  have hfac : ∀ u : State, (abandonStep u).fac = u.fac := fun u => by rw [abandonStep_frame]
  refine ⟨?_, by rw [raise_frame], fun k => ?_, fun c => ?_⟩
  · unfold AccessFrame
    rw [raise_frame]
  · unfold raise
    dsimp only
    split
    · rw [wghScale_abandonStep]; rfl
    · rfl
  · unfold raise
    dsimp only
    split
    · rw [facOf, hfac, ← facOf]
      exact facOf_facIdle_step ..
    · exact ⟨rfl, rfl⟩

theorem memUe_reads (s : State) (req cw : Nat) (fe : Bool) : Reads s (memUe s req cw fe) := by
  unfold memUe
  split
  · exact raise_reads ..
  · exact Reads.trans (t := s.modMem _) (.of_kept rfl rfl rfl rfl) (raise_reads ..)

/-! Readings. -/

theorem eccFold_reads (req : Nat) (l : List (Nat × EccErr)) (s : State) : Reads s (l.foldl (eccRdOne req) s) := by
  induction l generalizing s with
  | nil => exact .refl s
  | cons p l ih =>
    refine Reads.trans ?_ (ih _)
    unfold eccRdOne
    split
    · exact .refl s
    · exact .of_kept rfl rfl rfl rfl
    · exact memUe_reads ..

theorem spend_reads (s : State) (k n : Nat) : Reads s (spend s k n) := .of_kept rfl rfl rfl rfl

theorem serve_reads (s : State) (req a n : Nat) : Reads s (serve s req a n) :=
  .of_kept (serve_access ..) (serve_bytes ..) (by rw [serve_frame]) (by rw [serve_frame])

theorem touchRead_reads (s : State) (req a n : Nat) : Reads s (touchRead s req a n) :=
  ((eccFold_reads req _ s).trans (spend_reads ..)).trans (serve_reads ..)

theorem serves_reads (req : Nat) (sp : List (Nat × Nat)) (s : State) : Reads s (sp.foldl (fun u p => serve u req p.1 p.2) s) := by
  induction sp generalizing s with
  | nil => exact .refl s
  | cons p sp ih => exact (serve_reads ..).trans (ih _)

theorem touchSpans_reads (s : State) (req : Nat) (sp : List (Nat × Nat)) : Reads s (touchSpans s req sp) :=
  ((eccFold_reads req _ s).trans (spend_reads ..)).trans (serves_reads ..)

theorem touchSpans_opId (s : State) (req : Nat) (sp : List (Nat × Nat)) : (touchSpans s req sp).opId = s.opId := (touchSpans_reads ..).opId

/-! What depends on the configuration, bytes, scales and steps alone. -/

/-- Two states agree in what layouts and random bits are made of. -/
structure Agree (s t : State) : Prop where
  man : t.man = s.man
  bytes : t.mem.bytes = s.mem.bytes
  scale : ∀ k, wghScale t k = wghScale s k
  step : ∀ c, (facOf t c).step = (facOf s c).step ∧ (facOf t c).wrapped = (facOf s c).wrapped

theorem Reads.agree {s t : State} (h : Reads s t) : Agree s t := ⟨h.man, h.bytes, h.scale, h.step⟩

theorem Agree.trans {s t u : State} (h : Agree s t) (k : Agree t u) : Agree s u :=
  ⟨k.man.trans h.man, k.bytes.trans h.bytes, fun i => (k.scale i).trans (h.scale i),
    fun c => ⟨(k.step c).1.trans (h.step c).1, (k.step c).2.trans (h.step c).2⟩⟩

theorem Agree.of_kept {s t : State} (hm : t.man = s.man) (hb : t.mem.bytes = s.mem.bytes) (hf : t.fac = s.fac) (hw : t.wgh = s.wgh) : Agree s t :=
  ⟨hm, hb, fun k => by rw [wghScale, hw]; rfl, fun c => by rw [facOf, hf]; exact ⟨rfl, rfl⟩⟩

theorem left_agree (s : State) (e : Nat) (ent : QEntry) : Agree s (left s e ent) :=
  .of_kept (left_man ..) (by rw [left_mem]) (left_fac ..) (left_wgh ..)

theorem putInfl_agree (s : State) (e : Nat) (ent : QEntry) (wb : Option Dword) (d : Bool) : Agree s (putInfl s e ent wb d) :=
  .of_kept rfl rfl rfl rfl

section
variable {s t : State} (h : Agree s t)
include h

theorem Agree.mWord (a : Nat) : mWord t a = Machine.mWord s a := by rw [Machine.mWord, mNat, h.bytes]; rfl

theorem Agree.classFmt : classFmt t = Machine.classFmt s := by
  funext k
  rw [Machine.classFmt, liveByte_congr h.man]; rfl

theorem Agree.latchScale (r : RawLayout) : latchScale t r = Machine.latchScale s r := by
  have hsr : classSr t r.l.cls = classSr s r.l.cls := by
    unfold classSr
    rw [liveByte_congr h.man]
  rw [Machine.latchScale, h.scale, hsr]; rfl

theorem Agree.readLayout (a : Nat) : readLayout t a = Machine.readLayout s a := by
  unfold Machine.readLayout
  rw [h.classFmt, funext (h.latchScale), funext (fun i => h.mWord (a + 4 * i))]

theorem Agree.stepField (c : BitVec 2) : stepField t c = Machine.stepField s c := by
  obtain ⟨hstep, hwrap⟩ := h.step c
  unfold Machine.stepField
  dsimp only
  rw [hstep, hwrap]

theorem Agree.rndOf (l : Layout) (n : BitVec 48) : rndOf t l n = Machine.rndOf s l n := by
  funext i
  rw [Machine.rndOf, srBits, draw128, cfg_congr h.man, cfg_congr h.man]; rfl

theorem Agree.permits (ps : List Nat) (a n : Nat) : permits t ps a n = Machine.permits s ps a n := permits_congr h.man ps a n

theorem Agree.dataAt (a al n : Nat) : dataAt t a al n = Machine.dataAt s a al n := by
  rw [Machine.dataAt, h.permits]; rfl

theorem Agree.vldescAt (a : Nat) : vldescAt t a = Machine.vldescAt s a := by
  rw [Machine.vldescAt, h.permits]; rfl

end

end Sys2Proof.Machine
end
section
/-! PROOFS. Register operations (08 R212, Table 6). -/

namespace Sys2Proof.Machine

/-- A register operation that passes its checks, and whose spans the banks serve, acts and has its writings and lanes for its retirement. -/
theorem regOp_goes {s : State} {ent : QEntry} {fn fsHi fsLo : Nat} {acc : QEntry → List (Nat × Nat)} {seen : Bool}
    {cause : State → QEntry → Nat} {act : State → QEntry → RegAct} {wb : State → QEntry → Option Dword} (h : Head s eVEC fn ent)
    (hser : vecSerial s ent = true) (hsub : ent.sub.toNat < 32) (hfs : bitsOf ent.fs.toNat fsHi fsLo = 0) (hw : spansWait s (acc ent) = false)
    {t : State} (ht : t = if seen then touchSpans (left s eVEC ent) rqVRD (acc ent) else left s eVEC ent) (hc : cause t ent = 0) :
    regOp s fn fsHi fsLo acc seen cause act wb =
      .next (settled (finishWith (act (putInfl t eVEC ent (wb t ent) false) ent).s eVEC t.opId
        (if (act (putInfl t eVEC ent (wb t ent) false) ent).wr = [] then [] else [(act (putInfl t eVEC ent (wb t ent) false) ent).wr])
        (act (putInfl t eVEC ent (wb t ent) false) ent).lanes) eVEC) := by
  have hresv : (decide (32 ≤ ent.sub.toNat) || decide (bitsOf ent.fs.toNat fsHi fsLo ≠ 0)) = false := by simp [hfs, hsub]
  rw [regOp, dispatchMem_goes h hser hw]
  simp only [← ht, hresv, hc, Bool.false_eq_true, if_false, ne_eq, not_true_eq_false, show ¬ ((0 : Nat) = 8 ∧ (fn = 2 ∨ fn = 4 ∨ fn = 5)) by omega]

theorem qOf_putInfl (s : State) (e k : Nat) (ent : QEntry) (wb : Option Dword) (d : Bool) : qOf (putInfl s e ent wb d) k =
    if k = e then { qOf s e with infl := (qOf s e).infl ++ [{ ent := ent, id := s.opId, wb := wb, done := d }] } else qOf s k :=
  qOf_modQ s e k (fun q => { q with infl := q.infl ++ [{ ent := ent, id := s.opId, wb := wb, done := d }] })

/-- An operation that has done everything but retire stands in flight with its writings and lanes. -/
theorem finishWith_infl {s t : State} {e : Nat} {ent : QEntry} {wb : Option Dword} {d : Bool} (hq : t.q = (putInfl s e ent wb d).q)
    (wr : List Writes) (lanes : List (Nat × Word)) :
    ∃ x ∈ (qOf (finishWith t e s.opId wr lanes) e).infl, x.ent = ent ∧ x.id = s.opId ∧ x.done = true ∧ x.wb = wb ∧ x.wr = wr ∧ x.lanes = lanes := by
  have hput : (qOf t e).infl = (qOf s e).infl ++ [{ ent := ent, id := s.opId, wb := wb, done := d }] := by
    have hk : qOf t e = qOf (putInfl s e ent wb d) e := congrArg (fun q : Tab EngQ => tabGet ({} : EngQ) q e) hq
    rw [hk, qOf_putInfl, if_pos rfl]
  have hfin : (qOf (finishWith t e s.opId wr lanes) e).infl =
      (qOf t e).infl.map (fun x => if x.id = s.opId then { x with done := true, wr := wr, lanes := lanes } else x) :=
    congrArg EngQ.infl ((qOf_modQ ..).trans (if_pos rfl))
  rw [hfin, hput]
  refine ⟨_, List.mem_map_of_mem (List.mem_append_right _ (List.mem_singleton_self _)), ?_⟩
  rw [if_pos rfl]
  exact ⟨rfl, rfl, rfl, rfl, rfl, rfl⟩

/-! Vector registers. -/

theorem vLane_congr {s t : State} (h : t.vec = s.vec) (v i : Nat) : vLane t v i = vLane s v i := by rw [vLane, h]; rfl
theorem vReg_congr {s t : State} (h : t.vec = s.vec) (v : Nat) : vReg t v = vReg s v := by
  unfold vReg
  rw [show vLane t v = vLane s v from funext (vLane_congr h v)]

theorem vReg_length (s : State) (v : Nat) : (vReg s v).length = 64 := by simp [vReg]

theorem vReg_getD {i : Nat} (h : i < 64) (s : State) (v : Nat) : (vReg s v).getD i 0 = vLane s v i := by simp [vReg, h]

theorem regLanes_range (v n : Nat) (f : Nat → Word) : regLanes v ((List.range n).map f) = (List.range n).map (fun i => (64 * v + i, f i)) := by
  refine List.ext_getElem (by simp [regLanes]) fun i h1 h2 => ?_
  simp [regLanes]

section Entry
variable (ent : QEntry)

theorem rVd_eq : rVd ent = (ent.sub.extractLsb' 0 5).toNat := by simp [rVd]
theorem rVa_eq : rVa ent = (ent.a.extractLsb' 0 5).toNat := bitsOf_toNat ..
theorem rVb_eq : rVb ent = (ent.a.extractLsb' 5 5).toNat := bitsOf_toNat ..

theorem reserved_zero {ent : QEntry} {lo n : Nat} (hn : 0 < n) (h : ent.fs.extractLsb' lo n = 0) : bitsOf ent.fs.toNat (lo + n - 1) lo = 0 := by
  rw [bitsOf_toNat, show lo + n - 1 + 1 - lo = n by omega, h]; rfl

end Entry

/-! Without memory. -/

theorem treeLevel_some (f : Word → Word → Word) (xs : List Word) :
    ∃ ys : List Word, treeLevel f (xs.map some) = ys.map some ∧ ys.length = (xs.length + 1) / 2 := by
  induction xs using List.twoStepInduction with
  | nil => exact ⟨[], rfl, rfl⟩
  | singleton x => exact ⟨[x], rfl, by simp⟩
  | cons_cons x y xs ih =>
    obtain ⟨ys, hys, hlen⟩ := ih
    exact ⟨f x y :: ys, by simp [treeLevel, hys], by simp [hlen]; omega⟩

theorem treeLevels_some (f : Word → Word → Word) (n : Nat) {xs : List Word} (h : xs.length = 2 ^ n) :
    ∃ y, (treeLevel f)^[n] (xs.map some) = [some y] := by
  induction n generalizing xs with
  | zero =>
    obtain ⟨x, rfl⟩ := List.length_eq_one_iff.mp h
    exact ⟨x, rfl⟩
  | succ n ih =>
    obtain ⟨ys, hys, hlen⟩ := treeLevel_some f xs
    rw [Function.iterate_succ_apply, hys]
    exact ih (by omega)

/-- The tree over 64 lanes that all take part has a result. -/
theorem laneTree_some (f : Word → Word → Word) {xs : List Word} (h : xs.length = 64) : ∃ w, laneTree f (xs.map some) = some w := by
  obtain ⟨y, hy⟩ := treeLevels_some f 6 h
  exact ⟨y, congrArg (fun l : List (Option Word) => l.head?.join) hy⟩

theorem laneTree_getD (f : Word → Word → Word) {xs : List Word} (h : xs.length = 64) :
    laneTree f (xs.map some) = some ((laneTree f (xs.map some)).getD 0) := by
  obtain ⟨w, hw⟩ := laneTree_some f h
  rw [hw]; rfl

theorem getLsbD_orAll (xs : List Word) (a : Word) (k : Nat) :
    (xs.foldl (fun a b => a ||| b) a).getLsbD k = (a.getLsbD k || xs.any (fun x => x.getLsbD k)) := by
  induction xs generalizing a with
  | nil => simp
  | cons x xs ih => rw [List.foldl_cons, ih, BitVec.getLsbD_or, List.any_cons, Bool.or_assoc]

theorem rdsVal_congr {s t : State} (h : t.vec = s.vec) (ent : QEntry) : rdsVal t ent = rdsVal s ent := by
  unfold rdsVal
  rw [vReg_congr h]

/-- RDS by its operation. -/
theorem rdsVal_spec (s : State) (ent : QEntry) :
    let xs := (vReg s (ent.sub.extractLsb' 0 5).toNat).map some
    let op := (ent.fs.extractLsb' 0 4).toNat
    (op = 0 → laneTree fAdd xs = some (rdsVal s ent)) ∧ (op = 1 → laneTree fMax xs = some (rdsVal s ent)) ∧
      (op = 2 → laneTree fMin xs = some (rdsVal s ent)) ∧
      (op = 3 → laneTree (fun x y => fMax (f32Abs x) (f32Abs y)) xs = some (rdsVal s ent)) ∧
      (op = 4 → rdsVal s ent = vLane s (ent.sub.extractLsb' 0 5).toNat (ent.fs.extractLsb' 4 6).toNat) ∧
      (op = 5 → ∀ k, (rdsVal s ent).getLsbD k = (List.range 64).any (fun i => (vLane s (ent.sub.extractLsb' 0 5).toNat i).getLsbD k)) := by
  have hlen := vReg_length s (ent.sub.extractLsb' 0 5).toNat
  have hop : bitsOf ent.fs.toNat 3 0 = (ent.fs.extractLsb' 0 4).toNat := bitsOf_toNat ..
  rw [rdsVal, hop, rVd_eq]
  refine ⟨fun h => ?_, fun h => ?_, fun h => ?_, fun h => ?_, fun h => ?_, fun h k => ?_⟩
  · rw [h]; exact laneTree_getD _ hlen
  · rw [h]; exact laneTree_getD _ hlen
  · rw [h]; exact laneTree_getD _ hlen
  · rw [h]; exact laneTree_getD _ hlen
  · rw [h]
    exact (congrArg (fun i => (vReg s _).getD i 0) (bitsOf_toNat ent.fs 9 4)).trans (vReg_getD (ent.fs.extractLsb' 4 6).isLt ..)
  · rw [h]
    refine (getLsbD_orAll ..).trans ?_
    rw [vReg, List.any_map, show (0 : Word).getLsbD k = false from BitVec.getLsbD_zero, Bool.false_or]
    rfl

theorem shufLane_eq (pat amount : Nat) (a b : List Word) (i : Nat) : shufLane pat amount a b i =
    match pat with
    | 0 => if i % 2 = 0 then a.getD (i / 2) 0 else b.getD (i / 2) 0
    | 1 => if i % 2 = 0 then a.getD (i / 2 + 32) 0 else b.getD (i / 2 + 32) 0
    | 2 => if i < 32 then a.getD (2 * i) 0 else b.getD (2 * i - 64) 0
    | 3 => if i < 32 then a.getD (2 * i + 1) 0 else b.getD (2 * i - 63) 0
    | 4 => a.getD ((i + amount) % 64) 0
    | 5 => a.getD (63 - i) 0
    | _ => a.getD (8 * (i % 8) + i / 8) 0 := by
  match pat with
  | 0 | 1 => simp only [shufLane]; split <;> rfl
  | 2 => simp only [shufLane, Nat.mul_sub]
  | 3 =>
    simp only [shufLane]
    split
    · rfl
    · rw [show 2 * (i - 32) + 1 = 2 * i - 63 by omega]
  | 4 | 5 | _ + 6 => rfl

/-- Settles O34: each register operation through its dispatch, its lanes or its writeback computed. -/
theorem vectorRegisters : Obligations.VectorRegisters := by
  unfold Obligations.VectorRegisters
  intro s ent hser hsub
  have hvec : (left s eVEC ent).vec = s.vec := left_vec ..
  refine ⟨fun h hfs hpat => ?_, fun h hfs => ?_, fun h hfs hop => ?_⟩
  · have hcause : (if 6 < bitsOf ent.a.toNat 13 10 then 1 else 0) = 0 := if_neg (by rw [bitsOf_toNat]; exact Nat.not_lt.mpr hpat)
    beta_reduce
    rw [show exec .vecShuf s = execVecShuf s from rfl, execVecShuf,
      regOp_goes h hser hsub (reserved_zero (by decide) hfs) rfl (t := left s eVEC ent) rfl hcause]
    refine ⟨_, rfl, by rw [left_frame]; rfl, fun a => by rw [left_frame]; rfl, ?_⟩
    obtain ⟨x, hx, hent, hid, hdone, hwb, hwr, hlanes⟩ := finishWith_infl (s := left s eVEC ent) (wb := none) (d := false) rfl _ _
    refine ⟨x, hx, hent, hid.trans (left_opId ..), hdone, hwb, hwr, hlanes.trans ?_⟩
    have hv : (putInfl (left s eVEC ent) eVEC ent none false).vec = s.vec := hvec
    dsimp only
    rw [regLanes_range, rVd_eq, rVa_eq, rVb_eq, vReg_congr hv, vReg_congr hv, bitsOf_toNat, bitsOf_toNat]
    exact List.map_congr_left fun i _ => congrArg (Prod.mk _) (shufLane_eq ..)
  · beta_reduce
    rw [show exec .vecBcst s = execVecBcst s from rfl, execVecBcst,
      regOp_goes h hser hsub (by rw [bitsOf_bit, hfs]; rfl) rfl (t := left s eVEC ent) rfl rfl]
    refine ⟨_, rfl, by rw [left_frame]; rfl, fun a => by rw [left_frame]; rfl, ?_⟩
    obtain ⟨x, hx, hent, hid, hdone, hwb, hwr, hlanes⟩ := finishWith_infl (s := left s eVEC ent) (wb := none) (d := false) rfl _ _
    refine ⟨x, hx, hent, hid.trans (left_opId ..), hdone, hwb, hwr, hlanes.trans ?_⟩
    have hall : List.replicate 64 (ent.a.setWidth 32) = (List.range 64).map (fun _ => ent.a.extractLsb' 0 32) := rfl
    dsimp only
    rw [hall, regLanes_range, List.filter_map, rVd_eq]
    refine congrArg (List.map _) (List.filter_congr fun i hi => ?_)
    have hlt := List.mem_range.mp hi
    simp only [Function.comp, show (64 * (ent.sub.extractLsb' 0 5).toNat + i) % 64 / 4 = i / 4 by omega]
  · have hfs' : bitsOf ent.fs.toNat 3 0 = (ent.fs.extractLsb' 0 4).toNat := bitsOf_toNat ..
    have hcause : (if 5 < bitsOf ent.fs.toNat 3 0 then 1 else 0) = 0 := if_neg (by rw [hfs']; exact Nat.not_lt.mpr hop)
    rw [show exec .vecRds s = execVecRds s from rfl, execVecRds,
      regOp_goes h hser hsub (reserved_zero (by decide) hfs) rfl (t := left s eVEC ent) rfl hcause]
    obtain ⟨hadd, hmax, hmin, hamax, hlane, hor⟩ := rdsVal_spec s ent
    have hw : ((rdsVal s ent).setWidth 64).setWidth 32 = rdsVal s ent := by simp
    rw [rdsVal_congr hvec]
    refine ⟨_, (rdsVal s ent).setWidth 64, rfl, by rw [left_frame]; rfl, ?_, ?_, hw.symm ▸ hadd, hw.symm ▸ hmax, hw.symm ▸ hmin, hw.symm ▸ hamax,
      fun h4 => by rw [hlane h4], fun h5 k => ?_⟩
    · obtain ⟨x, hx, -, hid, hdone, hwb, hwr, hlanes⟩ :=
        finishWith_infl (s := left s eVEC ent) (ent := ent) (wb := some ((rdsVal s ent).setWidth 64)) (d := false) rfl [] []
      exact ⟨x, hx, hid.trans (left_opId ..), hdone, hwb, hwr, hlanes⟩
    · have := (rdsVal s ent).isLt
      simp only [BitVec.toNat_setWidth]
      omega
    · rw [← hor h5, BitVec.getLsbD_setWidth]
      by_cases hk : k < 64
      · simp [hk]
      · rw [BitVec.getLsbD_of_ge (rdsVal s ent) k (by omega), decide_eq_false hk, Bool.false_and]

end Sys2Proof.Machine
end
section
/-! PROOFS. Register operations with memory (08 R212, Table 6). -/

namespace Sys2Proof.Machine

/-- What a register operation with memory leaves until its retirement. -/
structure Acted (s t : State) (ent : QEntry) (ws : Writes) (xs : List (Nat × Word)) : Prop where
  vec : t.vec = s.vec
  bytes : SameBytes s t
  infl : ∃ x ∈ (qOf t eVEC).infl, x.ent = ent ∧ x.id = s.opId ∧ x.done = true ∧ x.wb = none ∧ x.wr.flatten = ws ∧ x.lanes = xs

/-- An operation in flight, whatever its readings met, with its writings and lanes. -/
theorem finished_acted {s t u : State} {ent : QEntry} (ht : Reads (left s eVEC ent) t) (hvec : u.vec = s.vec) (hbytes : u.mem.bytes = s.mem.bytes)
    (hq : u.q = (putInfl t eVEC ent none false).q) (wr : Writes) (xs : List (Nat × Word)) :
    Acted s (finishWith u eVEC t.opId (if wr = [] then [] else [wr]) xs) ent wr xs := by
  have hid : t.opId = s.opId := ht.opId.trans (left_opId ..)
  refine ⟨hvec, fun a => congrArg (fun m => memByte m a) hbytes, ?_⟩
  obtain ⟨x, hx, hent, hxid, hdone, hwb, hwr, hlanes⟩ := finishWith_infl (s := t) (t := u) hq (if wr = [] then [] else [wr]) xs
  refine ⟨x, hx, hent, hxid.trans hid, hdone, hwb, ?_, hlanes⟩
  rw [hwr]
  split
  next hnil => rw [hnil]; rfl
  next => simp

section
variable {s : State} {ent : QEntry} {fn : Nat} {acc : QEntry → List (Nat × Nat)} {cause : State → QEntry → Nat} {act : State → QEntry → RegAct}
  (h : Head s eVEC fn ent) (hser : vecSerial s ent = true) (hsub : ent.sub.toNat < 32) (hfs : ent.fs.extractLsb' 0 17 = 0)
  (hw : spansWait s (acc ent) = false)
include h hser hsub hfs hw

/-- A register operation that reads in its act. -/
theorem regOp_acts {ws : Writes} {xs : List (Nat × Word)} (hc : cause (left s eVEC ent) ent = 0)
    (hr : Reads (putInfl (left s eVEC ent) eVEC ent none false) (act (putInfl (left s eVEC ent) eVEC ent none false) ent).s)
    (hws : (act (putInfl (left s eVEC ent) eVEC ent none false) ent).wr = ws)
    (hxs : (act (putInfl (left s eVEC ent) eVEC ent none false) ent).lanes = xs) :
    ∃ t, regOp s fn 16 0 acc false cause act (fun _ _ => none) = .next (settled t eVEC) ∧ Acted s t ent ws xs := by
  rw [regOp_goes h hser hsub (reserved_zero (by decide) hfs) hw (t := left s eVEC ent) rfl hc, hws, hxs]
  exact ⟨_, rfl, finished_acted (.refl _) (hr.vec.trans (left_vec ..)) (hr.bytes.trans (by rw [show (putInfl _ _ _ _ _).mem = s.mem from left_mem ..])) hr.q ..⟩

/-- A register operation whose check reads. -/
theorem regOp_seen {ws : Writes} {xs : List (Nat × Word)} {t : State} (ht : t = touchSpans (left s eVEC ent) rqVRD (acc ent)) (hc : cause t ent = 0)
    (hvec : (act (putInfl t eVEC ent none false) ent).s.vec = t.vec) (hbytes : (act (putInfl t eVEC ent none false) ent).s.mem = t.mem)
    (hq : (act (putInfl t eVEC ent none false) ent).s.q = (putInfl t eVEC ent none false).q)
    (hws : (act (putInfl t eVEC ent none false) ent).wr = ws) (hxs : (act (putInfl t eVEC ent none false) ent).lanes = xs) :
    ∃ u, regOp s fn 16 0 acc true cause act (fun _ _ => none) = .next (settled u eVEC) ∧ Acted s u ent ws xs := by
  have hr : Reads (left s eVEC ent) t := by rw [ht]; exact touchSpans_reads ..
  rw [regOp_goes h hser hsub (reserved_zero (by decide) hfs) hw (t := t) (by rw [ht]; rfl) hc, hws, hxs]
  exact ⟨_, rfl, finished_acted hr (hvec.trans (hr.vec.trans (left_vec ..)))
    ((congrArg Mem.bytes hbytes).trans (hr.bytes.trans (by rw [left_mem]))) hq ..⟩

end

theorem spansWait_singleton (s : State) (a n : Nat) : spansWait s [(a, n)] = memWaits s a n := by simp [spansWait]

/-- Lane i of PERM. -/
theorem permLane_eq (s : State) (va vb : Nat) (x : Byte) :
    (if x.getLsbD 7 then 0 else (vReg s va ++ vReg s vb).getD (x.toNat % 128) 0) =
      if x.getLsbD 7 then 0 else if (x.extractLsb' 0 7).toNat < 64 then vLane s va (x.extractLsb' 0 7).toNat else vLane s vb ((x.extractLsb' 0 7).toNat - 64) := by
  have hk : (x.extractLsb' 0 7).toNat = x.toNat % 128 := by simp
  rw [hk]
  have hlt : x.toNat % 128 < 128 := Nat.mod_lt _ (by decide)
  by_cases h : x.toNat % 128 < 64
  · rw [if_pos h, List.getD_append _ _ _ _ (by rw [vReg_length]; exact h), vReg_getD h]
  · rw [if_neg h, List.getD_append_right _ _ _ _ (by rw [vReg_length]; omega), vReg_length, vReg_getD (by omega)]

/-- Registers that follow each other, lane by lane. -/
theorem regLanes_flatMap (v m : Nat) (f : Nat → Word) :
    (List.range m).flatMap (fun i => regLanes (v + i) ((List.range 64).map (fun c => f (64 * i + c)))) =
      (List.range (64 * m)).map (fun k => (64 * v + k, f k)) := by
  induction m with
  | zero => rfl
  | succ m ih =>
    rw [List.range_succ (n := m), List.flatMap_append, ih, Nat.mul_succ, List.range_add, List.map_append, List.map_map]
    simp only [List.flatMap_cons, List.flatMap_nil, List.append_nil, regLanes_range]
    refine congrArg _ (List.map_congr_left fun c _ => ?_)
    exact Prod.ext (by simp only [Function.comp]; omega) rfl

section
variable {s : State} {ent : QEntry} (hser : vecSerial s ent = true) (hsub : ent.sub.toNat < 32) (hfs : ent.fs.extractLsb' 0 17 = 0)
include hser hsub hfs

theorem vecPerm_acts (h : Head s eVEC 2 ent) (hd : dataAt s ent.d.toNat 64 64 = true) (hw : memWaits s ent.d.toNat 64 = false) :
    ∃ t, execVecPerm s = .next (settled t eVEC) ∧ Acted s t ent [] ((List.range 64).map (fun i => (64 * (ent.sub.extractLsb' 0 5).toNat + i,
      if (memByte s.mem.bytes (ent.d.toNat + i)).getLsbD 7 then 0
      else if ((memByte s.mem.bytes (ent.d.toNat + i)).extractLsb' 0 7).toNat < 64 then
        vLane s (ent.a.extractLsb' 0 5).toNat ((memByte s.mem.bytes (ent.d.toNat + i)).extractLsb' 0 7).toNat
      else vLane s (ent.a.extractLsb' 5 5).toNat (((memByte s.mem.bytes (ent.d.toNat + i)).extractLsb' 0 7).toNat - 64)))) := by
  have hcause : (if dataAt (left s eVEC ent) ent.d.toNat 64 64 then 0 else 8) = 0 := by rw [(left_agree s eVEC ent).dataAt, hd]; rfl
  have hvec : (putInfl (left s eVEC ent) eVEC ent none false).vec = s.vec := left_vec ..
  have hmem : (putInfl (left s eVEC ent) eVEC ent none false).mem = s.mem := left_mem ..
  rw [execVecPerm]
  refine regOp_acts h hser hsub hfs (by rw [spansWait_singleton]; exact hw) hcause (touchRead_reads ..) rfl ?_
  dsimp only
  rw [vReg_congr hvec, vReg_congr hvec, hmem, memBytes, List.map_map, regLanes_range, rVd_eq, rVa_eq, rVb_eq]
  exact List.map_congr_left fun i _ => congrArg (Prod.mk _) (permLane_eq ..)

theorem vecVld_acts (h : Head s eVEC 6 ent) (hp : permits s [pDATA, pSTASH] (vldAddr ent) 256 = true) (hw : memWaits s (vldAddr ent) 256 = false) :
    ∃ t, execVecVld s = .next (settled t eVEC) ∧ Acted s t ent [] ((List.range 64).map (fun i =>
      (64 * (ent.sub.extractLsb' 0 5).toNat + i, BitVec.ofNat 32 (memNat s.mem.bytes (vldAddr ent + 4 * i) 4)))) := by
  have hcause : (if permits (left s eVEC ent) [pDATA, pSTASH] (vldAddr ent) 256 then 0 else 8) = 0 := by
    rw [(left_agree s eVEC ent).permits, hp]; rfl
  have hbytes : (touchRead (putInfl (left s eVEC ent) eVEC ent none false) rqVRD (vldAddr ent) 256).mem.bytes = s.mem.bytes :=
    (touchRead_bytes ..).trans (congrArg Mem.bytes (left_mem s eVEC ent))
  rw [execVecVld]
  refine regOp_acts h hser hsub hfs (by rw [spansWait_singleton]; exact hw) hcause (touchRead_reads ..) rfl ?_
  simp only [mWord, mNat, hbytes, regLanes_range, rVd_eq]

theorem vecVst_acts (h : Head s eVEC 7 ent) (hp : permits s [pDATA] (vldAddr ent) 256 = true) (hw : memWaits s (vldAddr ent) 256 = false) :
    ∃ t, execVecVst s = .next (settled t eVEC) ∧
      Acted s t ent [(vldAddr ent, (vReg s (ent.sub.extractLsb' 0 5).toNat).flatMap (fun w => leBytes 4 w))] [] := by
  have hcause : (if permits (left s eVEC ent) [pDATA] (vldAddr ent) 256 then 0 else 8) = 0 := by rw [(left_agree s eVEC ent).permits, hp]; rfl
  have hvec : (putInfl (left s eVEC ent) eVEC ent none false).vec = s.vec := left_vec ..
  rw [execVecVst]
  refine regOp_acts h hser hsub hfs (by rw [spansWait_singleton]; exact hw) hcause (.refl _) ?_ rfl
  dsimp only
  rw [vReg_congr hvec, rVd_eq]

end

section
variable (s : State) (tensor fmt : Nat) (xs : List Seen)

theorem observe_vec : (observe s tensor fmt xs).vec = s.vec := by rw [observe_eq]
theorem observe_mem : (observe s tensor fmt xs).mem = s.mem := by rw [observe_eq]
theorem observe_q : (observe s tensor fmt xs).q = s.q := by rw [observe_eq]

end

/-! PACK and UNPK, whose check reads the layout. -/

/-- The state that the check of PACK and UNPK leaves. -/
def packChecked (s : State) (ent : QEntry) : State := touchSpans (left s eVEC ent) rqVRD (packReads s ent)

section
variable {s : State} {ent : QEntry} {l : Layout} (hlay : readLayout (left s eVEC ent) ent.d.toNat = some l) (hvl : vldescAt s ent.d.toNat = true)
  (hw : memWaits s ent.d.toNat 32 = false) (hmx : l.isMx = false) (hkind : l.kind = 0)

theorem packChecked_agree (s : State) (ent : QEntry) : Agree s (packChecked s ent) :=
  (left_agree ..).trans (touchSpans_reads ..).agree

include hlay in
theorem readLayout_packChecked : readLayout (packChecked s ent) ent.d.toNat = some l := by
  rw [(packChecked_agree s ent).readLayout, ← (left_agree s eVEC ent).readLayout, hlay]

include hlay hvl hmx hkind in
theorem packCause_zero {first : Nat} (hfirst : first + 32 / l.width ≤ 32) : packCause (packChecked s ent) ent first = 0 := by
  rw [packCause, (packChecked_agree s ent).vldescAt, hvl, readLayout_packChecked hlay]
  simp [lowest, packM, hmx, hkind, Nat.not_lt.mpr hfirst]

include hvl hw in
theorem packReads_wait : spansWait s (packReads s ent) = false := by
  rw [packReads, hvl, if_pos rfl, spansWait_singleton, hw]

theorem packChecked_vec (s : State) (ent : QEntry) : (packChecked s ent).vec = s.vec := (touchSpans_reads ..).vec.trans (left_vec ..)

end

section
variable {s : State} {ent : QEntry} {l : Layout} (hser : vecSerial s ent = true) (hsub : ent.sub.toNat < 32) (hfs : ent.fs.extractLsb' 0 17 = 0)
  (hlay : readLayout (left s eVEC ent) ent.d.toNat = some l) (hvl : vldescAt s ent.d.toNat = true)
  (hw : memWaits s ent.d.toNat 32 = false) (hmx : l.isMx = false) (hkind : l.kind = 0)
include hser hsub hfs hlay hvl hw hmx hkind

theorem vecPack_acts (h : Head s eVEC 4 ent) (hfirst : (ent.a.extractLsb' 0 5).toNat + 32 / l.width ≤ 32) :
    ∃ t, execVecPack s = .next (settled t eVEC) ∧ Acted s t ent [] ((List.range 64).map (fun i => (64 * (ent.sub.extractLsb' 0 5).toNat + i,
      BitVec.ofNat 32 (leNat ((((((List.range (32 / l.width)).flatMap (fun i => vReg s ((ent.a.extractLsb' 0 5).toNat + i))).mapIdx (fun j v =>
        narrowCode l.fmt l.s (roundingOf l.sr (rndOf s l (stepField s ent.ctx)) ((l.idxBase + (ent.a.extractLsb' 16 48).toNat + j) % 2 ^ 48)) v)).flatMap
          (fun n => codeBytes l.width n.code)).drop (4 * i)).take 4))))) := by
  have hag : Agree s (putInfl (packChecked s ent) eVEC ent none false) := (packChecked_agree s ent).trans (putInfl_agree ..)
  have hread : readLayout (putInfl (packChecked s ent) eVEC ent none false) ent.d.toNat = some l := by
    rw [(putInfl_agree ..).readLayout, readLayout_packChecked hlay]
  have hvec : (putInfl (packChecked s ent) eVEC ent none false).vec = s.vec := packChecked_vec ..
  rw [execVecPack]
  refine regOp_seen h hser hsub hfs (packReads_wait hvl hw) (t := packChecked s ent) rfl ?_ ?_ ?_ ?_ ?_ ?_
  · exact packCause_zero hlay hvl hmx hkind (by rw [rVa_eq]; exact hfirst)
  · rw [hread]
    exact observe_vec ..
  · rw [hread]
    exact observe_mem ..
  · rw [hread]
    exact observe_q ..
  · rw [hread]
  · rw [hread]
    dsimp only
    simp only [regLanes_range, rVd_eq, rVa_eq, vReg_congr hvec, hag.rndOf, hag.stepField, bitsOf_toNat, packM]

theorem vecUnpk_acts (h : Head s eVEC 5 ent) (hfirst : (ent.sub.extractLsb' 0 5).toNat + 32 / l.width ≤ 32) :
    ∃ t, execVecUnpk s = .next (settled t eVEC) ∧ Acted s t ent [] ((List.range (64 * (32 / l.width))).map (fun k =>
      (64 * (ent.sub.extractLsb' 0 5).toNat + k, widenCode l.fmt l.s (leNat
        ((((vReg s (ent.a.extractLsb' 0 5).toNat).flatMap (fun w => leBytes 4 w)).drop (l.width / 8 * k)).take (l.width / 8)))))) := by
  have hread : readLayout (putInfl (packChecked s ent) eVEC ent none false) ent.d.toNat = some l := by
    rw [(putInfl_agree ..).readLayout, readLayout_packChecked hlay]
  have hvec : (putInfl (packChecked s ent) eVEC ent none false).vec = s.vec := packChecked_vec ..
  rw [execVecUnpk]
  refine regOp_seen h hser hsub hfs (packReads_wait hvl hw) (t := packChecked s ent) rfl ?_ ?_ ?_ ?_ ?_ ?_
  · exact packCause_zero hlay hvl hmx hkind (by rw [rVd_eq]; exact hfirst)
  · rw [hread]; rfl
  · rw [hread]; rfl
  · rw [hread]
  · rw [hread]
  · rw [hread]
    dsimp only
    rw [vReg_congr hvec, rVd_eq, rVa_eq, packM]
    exact regLanes_flatMap _ _ (fun k => widenCode l.fmt l.s (leNat
      ((((vReg s (ent.a.extractLsb' 0 5).toNat).flatMap (fun w => leBytes 4 w)).drop (l.width / 8 * k)).take (l.width / 8))))

end

/-- Settles O35: each operation through its dispatch, its reading and its act. -/
theorem vectorMemory : Obligations.VectorMemory := by
  unfold Obligations.VectorMemory
  intro s ent hser hsub hfs
  have acts {i : Instr} {r : Res} {ws : Writes} {xs : List (Nat × Word)} (hi : exec i s = r)
      (h : ∃ t, r = .next (settled t eVEC) ∧ Acted s t ent ws xs) : ∃ t, exec i s = .next (settled t eVEC) ∧ t.vec = s.vec ∧ SameBytes s t ∧
        ∃ x ∈ (qOf t eVEC).infl, x.ent = ent ∧ x.id = s.opId ∧ x.done = true ∧ x.wb = none ∧ x.wr.flatten = ws ∧ x.lanes = xs := by
    obtain ⟨t, ht, hvec, hbytes, hx⟩ := h
    exact ⟨t, hi.trans ht, hvec, hbytes, hx⟩
  refine ⟨fun h hd hw => ?_, fun h hp hw => ?_, fun h hp hw => ?_, fun l hlay hvl hw hmx hkind => ⟨fun h hfirst => ?_, fun h hfirst => ?_⟩⟩
  · exact acts rfl (vecPerm_acts hser hsub hfs h hd hw)
  · exact acts rfl (vecVld_acts hser hsub hfs h hp hw)
  · exact acts rfl (vecVst_acts hser hsub hfs h hp hw)
  · exact acts rfl (vecPack_acts hser hsub hfs hlay hvl hw hmx hkind h hfirst)
  · exact acts rfl (vecUnpk_acts hser hsub hfs hlay hvl hw hmx hkind h hfirst)

end Sys2Proof.Machine
end
section
/-! PROOFS. The lanes of the partial sum (10 R250). -/

namespace Sys2Proof.Machine

theorem addLanes_succ (s : State) (l : Layout) (b : Nat) (x : FacCtx) :
    addLanes s l (b + 1) x =
      { addLanes s l b x with
        lanes := tabMod 0 (addLanes s l b x).lanes ((addLanes s l b x).q % 8)
          (fun a => fFma (gradOf s l (addLanes s l b x).lat.l b) (gradOf s l (addLanes s l b x).lat.l b) a)
        partNf := (addLanes s l b x).partNf || !f32IsFinite (gradOf s l (addLanes s l b x).lat.l b)
        q := ((addLanes s l b x).q + 1) % 8 } := by
  unfold addLanes
  rw [List.range_succ, List.foldl_append]
  rfl

/-- Settles O37, by induction on the number of parameters. -/
theorem partialSum : Obligations.PartialSum := by
  unfold Obligations.PartialSum
  intro s l b x hq
  induction b with
  | zero => exact ⟨(Nat.mod_eq_of_lt hq).symm, rfl, rfl, by simp [addLanes], fun k _ => rfl⟩
  | succ b ih =>
    obtain ⟨hqb, hlat, hst, hnf, hlanes⟩ := ih
    rw [addLanes_succ]
    refine ⟨?_, hlat, hst, ?_, fun k hk => ?_⟩
    · change ((addLanes s l b x).q + 1) % 8 = _
      rw [hqb]; omega
    · change ((addLanes s l b x).partNf || _) = _
      rw [hnf, hlat, List.range_succ, List.any_append, Bool.or_assoc]
      simp
    · change tabGet 0 (tabMod 0 _ _ _) k = _
      rw [tabGet_mod, hqb, Nat.mod_mod, hlat, List.range_succ, List.filter_append, List.foldl_append]
      by_cases hkb : k = (x.q + b) % 8
      · rw [if_pos hkb, ← hkb, hlanes k hk]
        simp [hkb]
      · rw [if_neg hkb, hlanes k hk]
        simp [Ne.symm hkb]

end Sys2Proof.Machine
end
section
/-! PROOFS. The Factor up to the norm token (10 R245 to R254, R261). -/

namespace Sys2Proof.Machine

/-! Readings that meet no uncorrectable codeword. -/

theorem serves_clean (req : Nat) (sp : List (Nat × Nat)) (s : State) : CleanReadFrame s (sp.foldl (fun u p => serve u req p.1 p.2) s) := by
  induction sp generalizing s with
  | nil => rfl
  | cons p sp ih =>
    refine CleanReadFrame.trans (t := serve s req p.1 p.2) ?_ (ih _)
    unfold CleanReadFrame
    rw [serve_frame]

theorem touchSpans_clean {s : State} (h : NoDouble s) (req : Nat) (sp : List (Nat × Nat)) : CleanReadFrame s (touchSpans s req sp) := by
  have he : CleanReadFrame s ((eccSpans s sp).foldl (eccRdOne req) s) :=
    eccFold_cleanFrame req _ s fun p hp => h p (List.mem_filter.mp hp).1
  exact (he.trans (u := spend _ 4 _) rfl).trans (serves_clean ..)

theorem touchSpans_noDouble {s : State} (h : NoDouble s) (req : Nat) (sp : List (Nat × Nat)) : NoDouble (touchSpans s req sp) := by
  unfold touchSpans
  dsimp only
  exact h.of_ecc ((serves_ecc ..).trans (eccFold_ecc ..))

/-! Contexts of the Factor. -/

theorem facOf_modFacCtx (s : State) (c d : BitVec 2) (f : FacCtx → FacCtx) :
    facOf (modFacCtx s c f) d = if d = c then f (facOf s c) else facOf s d := by
  refine (tabGet_mod ({} : FacCtx) s.fac.ctxs c.toNat d.toNat f).trans ?_
  by_cases h : d = c
  · rw [if_pos h, if_pos (congrArg BitVec.toNat h)]; rfl
  · rw [if_neg h, if_neg fun he => h (BitVec.eq_of_toNat_eq he)]; rfl

theorem facOf_congr {s t : State} (h : t.fac = s.fac) (c : BitVec 2) : facOf t c = facOf s c := by rw [facOf, h]; rfl

/-! What the checks of a span depend on. -/

section Congr
variable {s t : State} (h : Agree s t)
include h

theorem Agree.ldescAt (a : Nat) : ldescAt t a = Machine.ldescAt s a := h.dataAt ..
theorem Agree.spanLd (a : Nat) : spanLd t a = Machine.spanLd s a := by rw [Machine.spanLd, h.readLayout]; rfl
theorem Agree.readSpan (a : Nat) : readSpan t a = Machine.readSpan s a := by
  unfold Machine.readSpan
  simp only [h.mWord]
theorem Agree.gradOf (l : Layout) : gradOf t l = Machine.gradOf s l := by
  funext e j
  rw [Machine.gradOf, h.bytes]; rfl
theorem Agree.addLanes (l : Layout) (b : Nat) (x : FacCtx) : addLanes t l b x = Machine.addLanes s l b x := by
  unfold Machine.addLanes
  rw [h.gradOf]
theorem Agree.inParts (ps : List Nat) : inParts t ps = Machine.inParts s ps := by
  funext l
  unfold Machine.inParts permitsAll
  simp only [h.permits]
theorem Agree.spanContents (ent : QEntry) (sp : Span) (g : Option Layout) : spanContents t ent sp g = Machine.spanContents s ent sp g := by
  unfold Machine.spanContents
  rw [h.inParts]

theorem Agree.p1Fails (ent : QEntry) (hf : t.fac = s.fac) : p1Fails t ent = Machine.p1Fails s ent := by
  unfold Machine.p1Fails spanOperands
  simp only [h.readSpan, h.dataAt, h.ldescAt, h.readLayout, h.spanContents, facOf_congr hf]

end Congr

/-! FAC.STEP. -/

theorem regionEnt_congr {s t : State} (h : t.man = s.man) (c : BitVec 2) (g : BitVec 6) : regionEnt t c g = regionEnt s c g := by
  unfold regionEnt
  simp only [cfg_congr h]

theorem regionCheck_congr {s t : State} (h : t.man = s.man) (c : BitVec 2) (g : BitVec 6) (k : StrKind) (blk n : Nat) :
    regionCheck t c g k blk n = regionCheck s c g k blk n := by
  unfold regionCheck
  rw [regionEnt_congr h]

theorem stepLatch_congr {s t : State} (hm : t.man = s.man) (hw : t.wgh = s.wgh) (n : Word) (wr : Bool) : stepLatch t n wr = stepLatch s n wr := by
  unfold stepLatch
  simp only [cfg_congr hm, cfgBits_congr hm, hw]

/-- The transfer that newJob adds. -/
def jobOf (s : State) (id : Nat) (u : StrUser) (k : StrKind) (c : BitVec 2) (g : BitVec 6) (blk addr n : Nat)
    (data : Option (List Byte)) (att : Option (BitVec 6)) : StrJob :=
  { id := id, user := u, kind := k, ctx := c, region := g, base := BitVec.ofNat 64 (regionEnt s c g).base,
    stepBound := (regionEnt s c g).stepBound, blk := blk, addr := addr, n := n, data := data, att := att }

theorem newJob_jobs (s : State) (id : Nat) (u : StrUser) (k : StrKind) (c : BitVec 2) (g : BitVec 6) (blk addr n : Nat)
    (data : Option (List Byte)) (att : Option (BitVec 6)) :
    newJob s id u k c g blk addr n data att = { s with str := { s.str with jobs := s.str.jobs ++ [jobOf s id u k c g blk addr n data att] } } := rfl

/-- What a step's opening leaves in its context. -/
def FacCtx.opened (y : FacCtx) (n : Word) (wr : Bool) (lat : StepLatch) : FacCtx :=
  { y with step := n, wrapped := wr, st := 0, lanes := [], partNf := false, q := 0, tok := {}, lat := lat }

/-- The state in which the Factor and the journal know the step. -/
def stepNoted (t : State) (c : BitVec 2) (n : Word) (wr : Bool) (lat : StepLatch) : State :=
  ((modFacCtx t c (fun y => y.opened n wr lat)).modFac (fun f => { f with sched := [] })).modJrnl
    (fun j => { j with step := t.core.stage, wstep := false })

/-- The state in which FAC.STEP has opened its step. -/
def stepOpened (t : State) (c : BitVec 2) (n : Word) (wr : Bool) (lat : StepLatch) : State :=
  if c = 0 then stepEpoch (stepNoted t c n wr lat) else stepNoted t c n wr lat

theorem stepEpoch_frame (s : State) : stepEpoch s = { s with sec := (stepEpoch s).sec } := rfl

theorem stepOpened_noted (t : State) (c : BitVec 2) (n : Word) (wr : Bool) (lat : StepLatch) :
    stepOpened t c n wr lat = { stepNoted t c n wr lat with sec := (stepOpened t c n wr lat).sec } := by
  unfold stepOpened
  split
  · exact stepEpoch_frame _
  · rfl

theorem facOf_stepOpened (t : State) (c : BitVec 2) (n : Word) (wr : Bool) (lat : StepLatch) :
    facOf (stepOpened t c n wr lat) c = (facOf t c).opened n wr lat := by
  have hfac : (stepOpened t c n wr lat).fac = (stepNoted t c n wr lat).fac := by rw [stepOpened_noted]
  rw [facOf_congr hfac]
  exact (facOf_modFacCtx t c c (fun y => y.opened n wr lat)).trans (if_pos rfl)

theorem facResv_off {ent : QEntry} (hsub : ent.sub = 0) (hfs : ent.fs = 0) : facResv ent = false := by simp [facResv, hsub, hfs]

/-- The schedule blocks of a step. -/
def schedBlocks (lat : StepLatch) : Nat := ceilDiv (lat.schedOff % 512 + 1024 * (lat.groupsM1 + 1)) 512

/-- FAC.STEP opens its step and asks for the schedule. -/
theorem facStep_goes {s : State} {ent : QEntry} (h : Head s eFAC 0 ent) (hfree : facFree s = true) (hsub : ent.sub = 0) (hfs : ent.fs = 0)
    (ha : ent.a.extractLsb' 34 30 = 0) {n : Word} {wr : Bool} {lat : StepLatch}
    (hn : n = if ent.a.getLsbD 32 then ent.a.extractLsb' 0 32 else (facOf s ent.ctx).step)
    (hwr : wr = if ent.a.getLsbD 32 then ent.a.getLsbD 33 else (facOf s ent.ctx).wrapped) (hlat : lat = stepLatch s n wr)
    (hcheck : regionCheck s ent.ctx (BitVec.ofNat 6 lat.schedReg) .get (lat.schedOff / 512) (schedBlocks lat) = 0) :
    execFacStep s = .next (settled (newJob (putInfl (stepOpened (left s eFAC ent) ent.ctx n wr lat) eFAC ent none false) s.opId .fac .get ent.ctx
      (BitVec.ofNat 6 lat.schedReg) (lat.schedOff / 512) 0 (schedBlocks lat) none none) eFAC) := by
  have hresv : (facResv ent || decide (bitsOf ent.a.toNat 63 34 ≠ 0)) = false := by
    rw [facResv_off hsub hfs, bitsOf_toNat, ha]; rfl
  have hx : facOf (left s eFAC ent) ent.ctx = facOf s ent.ctx := facOf_congr (left_fac ..) _
  have hl : stepLatch (left s eFAC ent) n wr = lat := by rw [stepLatch_congr (left_man ..) (left_wgh ..), hlat]
  have hop : (stepOpened (left s eFAC ent) ent.ctx n wr lat).opId = s.opId := by rw [stepOpened_noted]; exact left_opId ..
  have hman : (stepOpened (left s eFAC ent) ent.ctx n wr lat).man = s.man := by rw [stepOpened_noted]; exact left_man ..
  have hc := (regionCheck_congr hman ent.ctx (BitVec.ofNat 6 lat.schedReg) .get (lat.schedOff / 512) (schedBlocks lat)).trans hcheck
  have hlow : ent.a.setWidth 32 = ent.a.extractLsb' 0 32 := rfl
  rw [execFacStep, dispatch_goes h hfree]
  simp only [hresv, Bool.false_eq_true, if_false, hx, hlow, ← hn, ← hwr, hl]
  rw [← hop]
  refine congrArg (fun t => Host.Outcome.next (settled t eFAC)) ?_
  exact if_neg (fun hne => hne hc)

/-! SCHEDULE_GROUP_EVAL. -/

theorem mem_modInfl {s : State} {e id : Nat} {f : Infl → Infl} {y : Infl} (hy : y ∈ (qOf (modInfl s e id f) e).infl) :
    ∃ x ∈ (qOf s e).infl, y = if x.id = id then f x else x := by
  have hinfl : (qOf (modInfl s e id f) e).infl = (qOf s e).infl.map (fun x => if x.id = id then f x else x) :=
    congrArg EngQ.infl ((qOf_modQ ..).trans (if_pos rfl))
  rw [hinfl] at hy
  obtain ⟨x, hx, rfl⟩ := List.mem_map.mp hy
  exact ⟨x, hx, rfl⟩

theorem markDone_done {s : State} {e id : Nat} {f : Infl → Infl} (hdone : ∀ x, (f x).done = true) {y : Infl}
    (hy : y ∈ (qOf (modInfl s e id f) e).infl) (h : y.id = id) : y.done = true := by
  obtain ⟨x, -, rfl⟩ := mem_modInfl hy
  by_cases hx : x.id = id
  · rw [if_pos hx]; exact hdone x
  · rw [if_neg hx] at h; exact absurd h hx

/-- The state in which a group's values and errors are noted. -/
def groupNoted (s : State) (c : BitVec 2) (e : GroupVal × Bool) : State :=
  (modFacCtx s c (fun y => { y with lat := { y.lat with groups := y.lat.groups ++ [e.1] } })).modFac
    (fun f => { f with schederr := f.schederr || e.2 })

theorem scheduleGroupEval_goes {s : State} {i : Infl} {bs : List Byte}
    (hi : (qOf s eFAC).infl.find? (fun x => decide (x.ent.fn = 0) && !x.done) = some i) (hon : unitsOn s = true)
    (hbs : schedBytes s (facOf s i.ent.ctx).lat.schedOff (facOf s i.ent.ctx).lat.groups.length = some bs) :
    execScheduleGroupEval s = .next (
      let t := groupNoted s i.ent.ctx (groupEval bs (facOf s i.ent.ctx).lat.n (facOf s i.ent.ctx).lat.wrapped)
      if (facOf s i.ent.ctx).lat.groups.length = (facOf s i.ent.ctx).lat.groupsM1 then markDone t eFAC i.id else t) := by
  rw [execScheduleGroupEval, hi]
  dsimp only
  rw [hbs]
  dsimp only
  rw [whenOn, hon]
  rfl

/-! FAC.P1. -/

/-- The state in which FAC.P1 has read what it checks. -/
def p1Checked (s : State) (ent : QEntry) : State := touchSpans (left s eFAC ent) rqFAC (p1Heads (left s eFAC ent) ent)

/-- The state in which FAC.P1 has read the gradients. -/
def p1Read (s : State) (ent : QEntry) : State := touchSpans (p1Checked s ent) rqFAC (p1Body (p1Checked s ent) ent)

section P1
variable {s : State} {ent : QEntry} (hd : NoDouble s)
include hd

theorem left_noDouble : NoDouble (left s eFAC ent) := hd.of_ecc (by rw [left_mem])

theorem p1Checked_clean : CleanReadFrame (left s eFAC ent) (p1Checked s ent) := touchSpans_clean (left_noDouble hd) ..

theorem p1Read_clean : CleanReadFrame (left s eFAC ent) (p1Read s ent) :=
  (p1Checked_clean hd).trans (touchSpans_clean (touchSpans_noDouble (left_noDouble hd) _ _) ..)

theorem p1Checked_fac : (p1Checked s ent).fac = s.fac := by rw [p1Checked_clean hd]; exact left_fac ..
theorem p1Read_fac : (p1Read s ent).fac = s.fac := by rw [p1Read_clean hd]; exact left_fac ..

end P1

theorem p1Checked_agree (s : State) (ent : QEntry) : Agree (left s eFAC ent) (p1Checked s ent) := (touchSpans_reads ..).agree
theorem p1Read_reads (s : State) (ent : QEntry) : Reads (left s eFAC ent) (p1Read s ent) := (touchSpans_reads ..).trans (touchSpans_reads ..)

theorem facP1_goes {s : State} {ent : QEntry} (h : Head s eFAC 1 ent) (hfree : facFree s = true) (hd : NoDouble s)
    (hw : spansWait s (thenSpans s (p1Heads s ent) (p1Body s ent)) = false) (hc : p1Fails (left s eFAC ent) ent = 0) :
    execFacP1 s = .next (settled (putInfl (modFacCtx (p1Read s ent) ent.ctx (fun x =>
      { addLanes s (spanLd s (readSpan s (spanAddr ent)).gradLd) ent.b.toNat x with st := 2 })) eFAC ent none true) eFAC) := by
  have hchecked : Agree s (p1Checked s ent) := (left_agree ..).trans (p1Checked_agree ..)
  have hread : Agree s (p1Read s ent) := (left_agree ..).trans (p1Read_reads ..).agree
  have hcause : p1Fails (p1Checked s ent) ent = 0 := by
    rw [(p1Checked_agree s ent).p1Fails ent ((p1Checked_fac hd).trans (left_fac ..).symm), hc]
  have hlanes : ∀ l x, addLanes (p1Read s ent) l ent.b.toNat x = addLanes s l ent.b.toNat x := fun l x => hread.addLanes l _ x
  rw [execFacP1, dispatchMem_goes h hfree hw]
  refine congrArg (fun t => Host.Outcome.next (settled t eFAC)) ?_
  refine (if_neg (fun hne => hne hcause)).trans ?_
  rw [← hchecked.spanLd, ← hchecked.readSpan]
  simp only [← hlanes]
  rfl

/-! FAC.TOKEN and FAC.CNT. -/

theorem facToken_goes {s : State} {ent : QEntry} (h : Head s eFAC 2 ent) (hfree : facFree s = true) (hsub : ent.sub = 0) (hfs : ent.fs = 0)
    (hst : (facOf s ent.ctx).st.toNat ∈ [3, 4, 5]) : execFacToken s = .next (settled (putInfl (left s eFAC ent) eFAC ent
      (some ((facOf s ent.ctx).tok.c ++ (facOf s ent.ctx).tok.norm)) true) eFAC) := by
  have hx : facOf (left s eFAC ent) ent.ctx = facOf s ent.ctx := facOf_congr (left_fac ..) _
  have hcause : lowest [(facResv ent, 1), (!([3, 4, 5].contains (facOf s ent.ctx).st.toNat), 2)] = 0 := by
    rw [facResv_off hsub hfs, List.contains_iff_mem.mpr hst]; rfl
  rw [execFacToken, dispatch_goes h hfree]
  refine congrArg (fun t => Host.Outcome.next (settled t eFAC)) ?_
  simp only [hx, hcause, ne_eq, not_true_eq_false, if_false]

/-- The word of FAC.CNT. -/
def cntWord (x : FacCtx) : Nat :=
  x.step.toNat + (if x.wrapped then 2 ^ 32 else 0) + (if x.rollok then 2 ^ 33 else 0) + 2 ^ 34 * x.st.toNat +
    (if x.tok.nf then 2 ^ 37 else 0) + (if x.tok.min ≠ x.tok.max then 2 ^ 38 else 0)

theorem facCnt_goes {s : State} {ent : QEntry} (h : Head s eFAC 5 ent) (hfree : facFree s = true) (hsub : ent.sub = 0) (hfs : ent.fs = 0) :
    execFacCnt s = .next (settled (putInfl (left s eFAC ent) eFAC ent (some (BitVec.ofNat 64 (cntWord (facOf s ent.ctx)))) true) eFAC) := by
  have hx : facOf (left s eFAC ent) ent.ctx = facOf s ent.ctx := facOf_congr (left_fac ..) _
  rw [execFacCnt, dispatch_goes h hfree]
  refine congrArg (fun t => Host.Outcome.next (settled t eFAC)) ?_
  simp only [facResv_off hsub hfs, Bool.false_eq_true, if_false, hx]
  rfl

theorem cntWord_fields (x : FacCtx) : let v := BitVec.ofNat 64 (cntWord x)
    v.extractLsb' 0 32 = x.step ∧ v.getLsbD 32 = x.wrapped ∧ v.getLsbD 33 = x.rollok ∧ v.extractLsb' 34 3 = x.st ∧
      v.getLsbD 37 = x.tok.nf ∧ v.getLsbD 38 = (x.tok.min != x.tok.max) ∧ v.extractLsb' 39 25 = 0 := by
  have hne : (if x.tok.min ≠ x.tok.max then 2 ^ 38 else 0) = 2 ^ 38 * (x.tok.min != x.tok.max).toNat := by
    rw [← flag_eq]; simp
  have := x.step.isLt; have := x.st.isLt
  have := x.wrapped.toNat_le; have := x.rollok.toNat_le; have := x.tok.nf.toNat_le; have := (x.tok.min != x.tok.max).toNat_le
  simp only [cntWord, hne, flag_eq]
  exact ⟨extract_ofNat (by omega) (by omega), getLsbD_ofNat_of (by omega) (by omega), getLsbD_ofNat_of (by omega) (by omega),
    extract_ofNat (by omega) (by omega), getLsbD_ofNat_of (by omega) (by omega), getLsbD_ofNat_of (by omega) (by omega),
    extract_ofNat (by omega) (by simp; omega)⟩

/-- What a transfer of its own leaves of the state in which an operation asks for it. -/
theorem asked_kept (u : State) (ent : QEntry) (id : Nat) (k : StrKind) (c d : BitVec 2) (g : BitVec 6) (blk addr n : Nat)
    (data : Option (List Byte)) (att : Option (BitVec 6)) :
    let t := newJob (putInfl u eFAC ent none false) id .fac k c g blk addr n data att
    facOf t d = facOf u d ∧ t.jrnl = u.jrnl ∧ t.mem = u.mem ∧
      t.str.jobs = u.str.jobs ++ [jobOf (putInfl u eFAC ent none false) id .fac k c g blk addr n data att] := ⟨rfl, rfl, rfl, rfl⟩

theorem facStep_opens {s : State} {ent : QEntry} (h : Head s eFAC 0 ent) (hfree : facFree s = true) (hsub : ent.sub = 0) (hfs : ent.fs = 0)
    (ha : ent.a.extractLsb' 34 30 = 0) {n : Word} {wr : Bool} {lat : StepLatch}
    (hn : n = if ent.a.getLsbD 32 then ent.a.extractLsb' 0 32 else (facOf s ent.ctx).step)
    (hwr : wr = if ent.a.getLsbD 32 then ent.a.getLsbD 33 else (facOf s ent.ctx).wrapped) (hlat : lat = stepLatch s n wr)
    (hcheck : regionCheck s ent.ctx (BitVec.ofNat 6 lat.schedReg) .get (lat.schedOff / 512) (schedBlocks lat) = 0) :
    ∃ t j, execFacStep s = .next (settled t eFAC) ∧ facOf t ent.ctx = (facOf s ent.ctx).opened n wr lat ∧
      t.jrnl.step = s.core.stage ∧ t.str.jobs = s.str.jobs ++ [j] ∧ j.id = s.opId ∧ j.user = .fac ∧ j.kind = .get ∧ j.ctx = ent.ctx ∧
      j.region = BitVec.ofNat 6 lat.schedReg ∧ j.blk = lat.schedOff / 512 ∧ j.n = schedBlocks lat ∧ SameBytes s t := by
  obtain ⟨hctx, hj, hmem, hjobs⟩ := asked_kept (stepOpened (left s eFAC ent) ent.ctx n wr lat) ent s.opId .get ent.ctx ent.ctx
    (BitVec.ofNat 6 lat.schedReg) (lat.schedOff / 512) 0 (schedBlocks lat) none none
  refine ⟨_, jobOf (putInfl (stepOpened (left s eFAC ent) ent.ctx n wr lat) eFAC ent none false) s.opId .fac .get ent.ctx
    (BitVec.ofNat 6 lat.schedReg) (lat.schedOff / 512) 0 (schedBlocks lat) none none, facStep_goes h hfree hsub hfs ha hn hwr hlat hcheck, ?_, ?_, hjobs.trans ?_, rfl, rfl, rfl, rfl, rfl, rfl, rfl, fun a => ?_⟩
  · rw [hctx, facOf_stepOpened, facOf_congr (left_fac ..)]
  · rw [hj, stepOpened_noted]
    exact congrArg Core.stage (left_core s eFAC ent)
  · rw [stepOpened_noted]
    exact congrArg (fun x : Str => x.jobs ++ [_]) (left_str s eFAC ent)
  · rw [hmem, stepOpened_noted]
    exact congrArg (fun m : Mem => memByte m.bytes a) (left_mem s eFAC ent)

theorem scheduleGroupEval_notes {s : State} {i : Infl} {bs : List Byte}
    (hi : (qOf s eFAC).infl.find? (fun x => decide (x.ent.fn = 0) && !x.done) = some i) (hon : unitsOn s = true)
    (hbs : schedBytes s (facOf s i.ent.ctx).lat.schedOff (facOf s i.ent.ctx).lat.groups.length = some bs) :
    ∃ t, execScheduleGroupEval s = .next t ∧ (facOf t i.ent.ctx).lat.groups =
        (facOf s i.ent.ctx).lat.groups ++ [(groupEval bs (facOf s i.ent.ctx).lat.n (facOf s i.ent.ctx).lat.wrapped).1] ∧
      t.fac.schederr = (s.fac.schederr || (groupEval bs (facOf s i.ent.ctx).lat.n (facOf s i.ent.ctx).lat.wrapped).2) ∧
      ((facOf s i.ent.ctx).lat.groups.length = (facOf s i.ent.ctx).lat.groupsM1 → ∀ y ∈ (qOf t eFAC).infl, y.id = i.id → y.done = true) ∧
      t.mem = s.mem := by
  have hexec := scheduleGroupEval_goes hi hon hbs
  generalize groupEval bs (facOf s i.ent.ctx).lat.n (facOf s i.ent.ctx).lat.wrapped = e at hexec
  have hctx : (facOf (groupNoted s i.ent.ctx e) i.ent.ctx).lat.groups = (facOf s i.ent.ctx).lat.groups ++ [e.1] :=
    congrArg (fun y : FacCtx => y.lat.groups) ((facOf_modFacCtx s i.ent.ctx i.ent.ctx
      (fun y => { y with lat := { y.lat with groups := y.lat.groups ++ [e.1] } })).trans (if_pos rfl))
  by_cases hlast : (facOf s i.ent.ctx).lat.groups.length = (facOf s i.ent.ctx).lat.groupsM1
  · exact ⟨_, hexec.trans (congrArg _ (if_pos hlast)), hctx, rfl, fun _ y hy hid => markDone_done (fun _ => rfl) hy hid, rfl⟩
  · exact ⟨_, hexec.trans (congrArg _ (if_neg hlast)), hctx, rfl, fun hl => absurd hl hlast, rfl⟩

theorem facP1_adds {s : State} {ent : QEntry} (h : Head s eFAC 1 ent) (hfree : facFree s = true) (hd : NoDouble s)
    (hw : spansWait s (thenSpans s (p1Heads s ent) (p1Body s ent)) = false) (hc : p1Fails (left s eFAC ent) ent = 0) :
    ∃ t, execFacP1 s = .next (settled t eFAC) ∧
      facOf t ent.ctx = { addLanes s (spanLd s (readSpan s (spanAddr ent)).gradLd) ent.b.toNat (facOf s ent.ctx) with st := 2 } ∧
      (∀ c, c ≠ ent.ctx → facOf t c = facOf s c) ∧ (∃ x ∈ (qOf t eFAC).infl, x.ent = ent ∧ x.id = s.opId ∧ x.done = true) ∧ SameBytes s t := by
  refine ⟨_, facP1_goes h hfree hd hw hc, ?_, fun c hne => ?_, ?_, fun a => ?_⟩
  · refine (facOf_modFacCtx (p1Read s ent) ent.ctx ent.ctx _).trans ((if_pos rfl).trans ?_)
    rw [facOf_congr (p1Read_fac hd)]
  · exact (facOf_modFacCtx (p1Read s ent) ent.ctx c _).trans ((if_neg hne).trans (facOf_congr (p1Read_fac hd) _))
  · have hid : (p1Read s ent).opId = s.opId := (p1Read_reads ..).opId.trans (left_opId ..)
    rw [qOf_putInfl, if_pos rfl]
    exact ⟨_, List.mem_append_right _ (List.mem_singleton_self _), rfl, hid, rfl⟩
  · exact congrArg (fun m => memByte m a) ((p1Read_reads s ent).bytes.trans (by rw [left_mem]))

/-- Settles O36: each function through its dispatch or command, then the context that it leaves. -/
theorem factorPass1 : Obligations.FactorPass1 := by
  unfold Obligations.FactorPass1
  refine ⟨?_, ?_, ?_, ?_⟩
  · intro s ent h hfree hsub hfs ha c set n wr lat g blocks hcheck
    obtain ⟨t, j, ht, hctx, hrest⟩ := facStep_opens h hfree hsub hfs ha (n := n) (wr := wr) (lat := lat) rfl rfl rfl hcheck
    refine ⟨t, j, ht, ?_⟩
    rw [show facOf t c = _ from hctx]
    exact ⟨rfl, rfl, rfl, rfl, rfl, rfl, rfl, hrest⟩
  · intro s i bs hi hon x hbs
    exact scheduleGroupEval_notes hi hon hbs
  · intro s ent h hfree hd hw hc l
    exact facP1_adds h hfree hd hw hc
  · intro s ent hfree hsub hfs x gives
    exact ⟨fun h hst => facToken_goes h hfree hsub hfs hst, fun h => ⟨_, facCnt_goes h hfree hsub hfs, cntWord_fields _⟩⟩

end Sys2Proof.Machine
end
section
/-! PROOFS. Pass 2, what it writes, and the commit of the Factor (10 R255 to R257, R261; 11 R274; 15 R379). -/

namespace Sys2Proof.Machine

/-! What contained faults leave of the Factor (16 R389). -/

/-- A context that a contained fault makes IDLE. -/
def FacCtx.idled (x : FacCtx) : FacCtx := { x with st := 0, lanes := [], partNf := false, q := 0, tok := {} }

/-- g is f with some contexts made IDLE. -/
structure Idled (f g : Fac) : Prop where
  frame : g = { f with ctxs := g.ctxs }
  ctx : ∀ k, tabGet ({} : FacCtx) g.ctxs k = tabGet {} f.ctxs k ∨ tabGet ({} : FacCtx) g.ctxs k = (tabGet ({} : FacCtx) f.ctxs k).idled

theorem Idled.refl (f : Fac) : Idled f f := ⟨rfl, fun _ => .inl rfl⟩

theorem Idled.trans {f g h : Fac} (hfg : Idled f g) (hgh : Idled g h) : Idled f h := by
  refine ⟨by rw [hgh.frame, hfg.frame], fun k => ?_⟩
  rcases hgh.ctx k with hk | hk <;> rcases hfg.ctx k with hj | hj <;> rw [hk, hj]
  · exact .inl rfl
  · exact .inr rfl
  · exact .inr rfl
  · exact .inr rfl

theorem facIdle_idled (s : State) (c : BitVec 2) : Idled s.fac (facIdle s c).fac := by
  refine ⟨rfl, fun k => ?_⟩
  rw [show tabGet ({} : FacCtx) (facIdle s c).fac.ctxs k = _ from tabGet_mod ({} : FacCtx) s.fac.ctxs c.toNat k FacCtx.idled]
  by_cases hk : k = c.toNat
  · rw [if_pos hk, hk]; exact .inr rfl
  · rw [if_neg hk]; exact .inl rfl

theorem raise_idled (s : State) (code unit : Nat) (addr : Addr) (d : Nat) : Idled s.fac (raise s code unit addr d).fac := by
  unfold raise
  dsimp only
  split
  · rw [abandonStep_frame]
    exact facIdle_idled ((noteContained s code unit addr d).modFlt _) s.core.cur
  · exact .refl _

theorem signalAmt_idled (s : State) (src : BitVec 4) (o : Byte) (a cnt : Nat) : Idled s.fac (signalAmt s src o a cnt).fac := by
  cases ho : ((objOf s o).apply a).overflows with
  | false => rw [signalAmt_quiet s src o a cnt ho]; exact .refl _
  | true =>
    rw [signalAmt_overflow s src o a cnt ho]
    have hf : (noteOverflow (reached s src o a cnt) src o).fac = s.fac := by rw [(noteOverflow_frame ..).1]; rfl
    rw [← hf]
    exact raise_idled ..

theorem signalMany_idled (s : State) (src : BitVec 4) (os : List Byte) : Idled s.fac (signalMany s src os).fac := by
  unfold signalMany
  generalize os.eraseDups = l
  induction l generalizing s with
  | nil => exact .refl _
  | cons o l ih => exact (signalAmt_idled s src o _ _).trans (ih _)

/-! A step that is skipped. -/

theorem p2Decide_skips {x : FacCtx} (h : x.st = 5 ∨ (x.st = 3 ∧ (x.tok.nf = true ∨ (x.tok.min ≠ x.tok.max ∧ x.lat.skewOk = false)))) :
    (p2Decide x).1 = 5 ∧ (x.st = 3 → x.tok.nf = true → (p2Decide x).2 = 1) ∧ (x.st = 3 → x.tok.nf = false → (p2Decide x).2 = 2) := by
  rcases h with h5 | ⟨h3, hnf | ⟨hne, hskew⟩⟩
  · have h3 : x.st ≠ 3 := by rw [h5]; decide
    refine ⟨?_, fun h => absurd h h3, fun h => absurd h h3⟩
    rw [p2Decide, decide_eq_true h3]
    exact h5
  · simp [p2Decide, h3, hnf]
  · cases hnf : x.tok.nf <;> simp [p2Decide, h3, hnf, hne, hskew]

/-- The state in which a P2 of a skipped step is in flight. -/
def p2Skipped (s : State) (ent : QEntry) : State :=
  putInfl (modFacCtx (left s eFAC ent) ent.ctx (fun y => { y with st := 5, skip := (p2Decide (facOf s ent.ctx)).2 })) eFAC ent none true

theorem facOf_p2Skipped (s : State) (ent : QEntry) : facOf (p2Skipped s ent) ent.ctx =
    { facOf s ent.ctx with st := 5, skip := (p2Decide (facOf s ent.ctx)).2 } := by
  refine (facOf_modFacCtx (left s eFAC ent) ent.ctx ent.ctx _).trans ((if_pos rfl).trans ?_)
  rw [facOf_congr (left_fac ..)]

theorem facP2_skips {s : State} {ent : QEntry} (h : Head s eFAC 3 ent) (hfree : facFree s = true) (hc : lowest (spanOperands s ent [3, 4, 5]) = 0)
    (hskip : (p2Decide (facOf s ent.ctx)).1 = 5) : execFacP2 s = .next (settled
      (if (decide ((facOf s ent.ctx).st = 3) && decide ((p2Decide (facOf s ent.ctx)).2 = 2)) = true
        then raise (p2Skipped s ent) fcSTEPSKEW 3 0 0 else p2Skipped s ent) eFAC) := by
  have hx : facOf (left s eFAC ent) ent.ctx = facOf s ent.ctx := facOf_congr (left_fac ..) _
  have hs : p2Skips s ent = true := decide_eq_true hskip
  have hl : p2Skips (left s eFAC ent) ent = true := by rw [p2Skips, hx]; exact hs
  have hops : lowest (spanOperands (left s eFAC ent) ent [3, 4, 5]) = 0 := by
    rw [spanOperands, hx]; exact hc
  have hspans : spansWait s (p2Spans s ent) = false := by rw [p2Spans, if_pos hs]; rfl
  rw [execFacP2, dispatchMem_goes h hfree hspans]
  refine congrArg (fun t => Host.Outcome.next (settled t eFAC)) ?_
  refine (if_pos hl).trans ((if_neg fun hne => hne hops).trans ?_)
  rw [hx]
  rfl

theorem facP2_skip {s : State} {ent : QEntry} (h : Head s eFAC 3 ent) (hfree : facFree s = true) (hc : lowest (spanOperands s ent [3, 4, 5]) = 0)
    (hskip : (facOf s ent.ctx).st = 5 ∨ ((facOf s ent.ctx).st = 3 ∧ ((facOf s ent.ctx).tok.nf = true ∨
      ((facOf s ent.ctx).tok.min ≠ (facOf s ent.ctx).tok.max ∧ (facOf s ent.ctx).lat.skewOk = false)))) :
    ∃ t, execFacP2 s = .next (settled t eFAC) ∧ SameBytes s t ∧ t.fac.params = s.fac.params ∧
      (∃ y ∈ (qOf t eFAC).infl, y.ent = ent ∧ y.id = s.opId ∧ y.done = true ∧ y.wr = [] ∧ y.units = []) ∧
      ((facOf s ent.ctx).st = 5 ∨ (facOf s ent.ctx).tok.nf = true → (facOf t ent.ctx).st = 5) ∧
      ((facOf s ent.ctx).st = 3 → (facOf s ent.ctx).tok.nf = true → (facOf t ent.ctx).skip = 1) ∧
      ((facOf s ent.ctx).st = 3 → (facOf s ent.ctx).tok.nf = false → t.flt.cont = true) := by
  obtain ⟨hdec, hone, htwo⟩ := p2Decide_skips hskip
  have hexec := facP2_skips h hfree hc hdec
  have hinfl : ∃ y ∈ (qOf (p2Skipped s ent) eFAC).infl, y.ent = ent ∧ y.id = s.opId ∧ y.done = true ∧ y.wr = [] ∧ y.units = [] := by
    rw [p2Skipped, qOf_putInfl, if_pos rfl]
    exact ⟨_, List.mem_append_right _ (List.mem_singleton_self _), rfl, left_opId .., rfl, rfl, rfl⟩
  have hbytes : SameBytes s (p2Skipped s ent) := fun a => congrArg (fun m : Mem => memByte m.bytes a) (left_mem s eFAC ent)
  have hparams : (p2Skipped s ent).fac.params = s.fac.params := by
    rw [show (p2Skipped s ent).fac.params = (left s eFAC ent).fac.params from rfl, left_fac]
  by_cases hskew : (facOf s ent.ctx).st = 3 ∧ (facOf s ent.ctx).tok.nf = false
  · obtain ⟨h3, hnf⟩ := hskew
    rw [if_pos (by rw [htwo h3 hnf, h3]; decide)] at hexec
    refine ⟨_, hexec, fun a => ?_, ?_, ?_, fun hor => ?_, fun _ hn => ?_, fun _ _ => (raise_recorded ..).1⟩
    · rw [raise_frame]; exact hbytes a
    · rw [(raise_idled ..).frame]; exact hparams
    · rw [qOf, raise_frame]; exact hinfl
    · rw [h3, hnf] at hor
      exact absurd hor (by decide)
    · rw [hnf] at hn; cases hn
  · have hno : ¬ (decide ((facOf s ent.ctx).st = 3) && decide ((p2Decide (facOf s ent.ctx)).2 = 2)) = true := by
      intro hb
      obtain ⟨h3, h2⟩ := Bool.and_eq_true_iff.mp hb
      cases hnf : (facOf s ent.ctx).tok.nf with
      | false => exact hskew ⟨of_decide_eq_true h3, hnf⟩
      | true => rw [hone (of_decide_eq_true h3) hnf] at h2; cases h2
    rw [if_neg hno] at hexec
    have hctx := facOf_p2Skipped s ent
    exact ⟨_, hexec, hbytes, hparams, hinfl, fun _ => congrArg FacCtx.st hctx, fun h3 hn => (congrArg FacCtx.skip hctx).trans (hone h3 hn),
      fun h3 hn => absurd ⟨h3, hn⟩ hskew⟩

/-! A span that is updated. -/

section Congr
variable {s t : State} (h : Agree s t)
include h

theorem Agree.p2Contents (ent : QEntry) (sp : Span) (x : FacCtx) (wl : Option Layout) : p2Contents t ent sp x wl = Machine.p2Contents s ent sp x wl := by
  unfold Machine.p2Contents
  simp only [h.mWord, h.inParts, h.permits]

theorem Agree.p2Fails (ent : QEntry) (hf : t.fac = s.fac) : p2Fails t ent = Machine.p2Fails s ent := by
  unfold Machine.p2Fails spanOperands
  simp only [h.readSpan, h.dataAt, h.ldescAt, h.readLayout, h.spanContents, h.p2Contents, facOf_congr hf]

theorem Agree.p2Param (ent : QEntry) (x : FacCtx) (sp : Span) (gl : Layout) : p2Param t ent x sp gl = Machine.p2Param s ent x sp gl := by
  funext j
  unfold Machine.p2Param mNat
  rw [h.gradOf, h.bytes]

end Congr

/-- Elements narrowed one after another: their writings, the latest first, and observations alone. -/
theorem putElems_writes (wl : Layout) (step : BitVec 48) (ps : List (Nat × Word)) (e : Emit) :
    let f := ps.foldl (fun e p => putElem e wl step (p.1 / wl.cols) (p.1 % wl.cols) p.2) e
    f.s = { e.s with wgh := f.s.wgh } ∧ f.wr = (ps.map (fun p => (wl.elemAddr (p.1 / wl.cols) (p.1 % wl.cols),
      (wl.store (rndOf e.s wl step) (p.1 / wl.cols) (p.1 % wl.cols) p.2).1))).reverse ++ e.wr := by
  induction ps generalizing e with
  | nil => exact ⟨rfl, rfl⟩
  | cons p ps ih =>
    have hs : (putElem e wl step (p.1 / wl.cols) (p.1 % wl.cols) p.2).s =
        { e.s with wgh := (putElem e wl step (p.1 / wl.cols) (p.1 % wl.cols) p.2).s.wgh } := by
      unfold putElem Emit.put
      dsimp only
      rw [observe_eq]
    have hrnd : rndOf (putElem e wl step (p.1 / wl.cols) (p.1 % wl.cols) p.2).s wl step = rndOf e.s wl step := by
      funext i
      rw [hs]
      rfl
    obtain ⟨hfs, hfw⟩ := ih (putElem e wl step (p.1 / wl.cols) (p.1 % wl.cols) p.2)
    refine ⟨?_, ?_⟩
    · rw [List.foldl_cons, hfs, hs]
    · rw [List.foldl_cons, hfw, hrnd, List.map_cons, List.reverse_cons, List.append_assoc]
      rfl

theorem p2Weights_writes (s : State) (ent : QEntry) (x : FacCtx) (wl : Layout) (ys : List Updated) :
    (p2Weights s ent x wl ys).s = { s with wgh := (p2Weights s ent x wl ys).s.wgh } ∧
      (p2Weights s ent x wl ys).writes = ys.mapIdx (fun j z => (wl.elemAddr (j / wl.cols) (j % wl.cols),
        codeBytes wl.width (narrowCode wl.fmt wl.s (roundingOf wl.sr (rndOf s wl (p2Step ent x)) (wl.index (j / wl.cols) (j % wl.cols))) z.w).code)) := by
  obtain ⟨hs, hw⟩ := putElems_writes wl (p2Step ent x) (ys.mapIdx (fun j y => (j, y.w))) { s := s }
  refine ⟨hs, ?_⟩
  rw [Emit.writes, p2Weights, hw, List.append_nil, List.reverse_reverse]
  exact List.ext_getElem (by simp) fun i _ _ => by simp [Layout.store]

/-- The state in which FAC.P2 has read what it checks, and then what it updates. -/
def p2Checked (s : State) (ent : QEntry) : State := touchSpans (left s eFAC ent) rqFAC (p2Heads (left s eFAC ent) ent)
def p2Read (s : State) (ent : QEntry) : State := touchSpans (p2Checked s ent) rqFAC (p2Body (p2Checked s ent) ent)

theorem p2Checked_reads (s : State) (ent : QEntry) : Reads (left s eFAC ent) (p2Checked s ent) := touchSpans_reads ..
theorem p2Read_reads (s : State) (ent : QEntry) : Reads (left s eFAC ent) (p2Read s ent) := (touchSpans_reads ..).trans (touchSpans_reads ..)

section P2
variable {s : State} {ent : QEntry} (hd : NoDouble s)
include hd

theorem p2Checked_fac : (p2Checked s ent).fac = s.fac := by
  rw [show CleanReadFrame (left s eFAC ent) (p2Checked s ent) from touchSpans_clean (left_noDouble hd) ..]
  exact left_fac ..

theorem p2Read_fac : (p2Read s ent).fac = s.fac := by
  rw [show CleanReadFrame (p2Checked s ent) (p2Read s ent) from touchSpans_clean (touchSpans_noDouble (left_noDouble hd) _ _) ..]
  exact p2Checked_fac hd

end P2

theorem p2Decide_updates {x : FacCtx} (h : (x.st = 3 ∧ x.tok.nf = false ∧ (x.tok.min = x.tok.max ∨ x.lat.skewOk = true)) ∨ x.st = 4) :
    (p2Decide x).1 = 4 := by
  rcases h with ⟨h3, hnf, hor⟩ | h4
  · have hskew : (decide (x.tok.min ≠ x.tok.max) && !x.lat.skewOk) = false := by
      rcases hor with he | hk
      · simp [he]
      · simp [hk]
    rw [p2Decide, h3, hnf, hskew]; rfl
  · rw [p2Decide, h4]; rfl

/-- The new values of a span's parameters. -/
def spanUpdates (s : State) (ent : QEntry) : List Updated :=
  (List.range ent.b.toNat).map (p2Param s ent (facOf s ent.ctx) (readSpan s (spanAddr ent)) (spanLd s (readSpan s (spanAddr ent)).gradLd))

/-- The layout of the working weights that P2 writes. -/
def spanOut (s : State) (ent : QEntry) : Layout := spanLd s (woutAddr (readSpan s (spanAddr ent)) (facOf s ent.ctx))

/-- What FAC.P2 has to write at its retirement. -/
def spanWrites (s : State) (ent : QEntry) : List Writes :=
  p2Writes (facOf s ent.ctx) (readSpan s (spanAddr ent)) (spanUpdates s ent) ++
    [(p2Weights (p2Read s ent) ent (facOf s ent.ctx) (spanOut s ent) (spanUpdates s ent)).writes]

/-- The state in which FAC.P2 has noted what it updated. -/
def p2Noted (s : State) (ent : QEntry) : State :=
  (modFacCtx (p2Weights (p2Read s ent) ent (facOf s ent.ctx) (spanOut s ent) (spanUpdates s ent)).s ent.ctx
    (fun y => { y with st := 4, skip := (p2Decide (facOf s ent.ctx)).2 })).modFac (fun f => { f with
      params := f.params + BitVec.ofNat 64 ent.b.toNat
      p2nonfin := f.p2nonfin || (spanUpdates s ent).any (Updated.bad (facOf s ent.ctx).lat.rule) })

/-- The FOUT units of a span. -/
def spanUnits (s : State) (ent : QEntry) : List (Nat × List Byte) :=
  (List.range (ceilDiv ent.b.toNat 8)).map (foutUnit (memWith (p2Read s ent).mem.bytes (spanWrites s ent)) (spanAddr ent) ent.b.toNat
    (1 - slotOf (facOf s ent.ctx).ver) (readSpan s (spanAddr ent)) (spanOut s ent))

theorem p2Update_eq {s : State} {ent : QEntry} (hd : NoDouble s) : p2Update (p2Checked s ent) ent =
    modInfl (putInfl (p2Noted s ent) eFAC ent none true) eFAC (p2Noted s ent).opId (fun i => { i with wr := spanWrites s ent, units := spanUnits s ent }) := by
  have hc : Agree s (p2Checked s ent) := (left_agree ..).trans (p2Checked_reads ..).agree
  have hr : Agree s (p2Read s ent) := (left_agree ..).trans (p2Read_reads ..).agree
  have hx : facOf (p2Checked s ent) ent.ctx = facOf s ent.ctx := facOf_congr (p2Checked_fac hd) _
  have hsp := hc.readSpan (spanAddr ent)
  rw [p2Update, hx, hsp, show touchSpans (p2Checked s ent) rqFAC (p2Body (p2Checked s ent) ent) = p2Read s ent from rfl, hr.spanLd, hr.spanLd, hr.p2Param]
  rfl

theorem facP2_goes {s : State} {ent : QEntry} (h : Head s eFAC 3 ent) (hfree : facFree s = true) (hd : NoDouble s)
    (hw : spansWait s (p2Spans s ent) = false) (hdec : (p2Decide (facOf s ent.ctx)).1 = 4) (hc : p2Fails (left s eFAC ent) ent = 0) :
    execFacP2 s = .next (settled (modInfl (putInfl (p2Noted s ent) eFAC ent none true) eFAC (p2Noted s ent).opId
      (fun i => { i with wr := spanWrites s ent, units := spanUnits s ent })) eFAC) := by
  have hx : facOf (left s eFAC ent) ent.ctx = facOf s ent.ctx := facOf_congr (left_fac ..) _
  have hl : ¬ p2Skips (left s eFAC ent) ent = true := by
    rw [p2Skips, hx, hdec]; decide
  have hcause : p2Fails (p2Checked s ent) ent = 0 := by
    rw [(p2Checked_reads s ent).agree.p2Fails ent ((p2Checked_fac hd).trans (left_fac ..).symm), hc]
  rw [execFacP2, dispatchMem_goes h hfree hw]
  refine congrArg (fun t => Host.Outcome.next (settled t eFAC)) ?_
  rw [← p2Update_eq hd]
  exact (if_neg hl).trans (if_neg fun hne => hne hcause)

/-- What the writing of the working weights keeps. -/
theorem p2Noted_kept (s : State) (ent : QEntry) : (p2Noted s ent).mem = (p2Read s ent).mem ∧ (p2Noted s ent).opId = (p2Read s ent).opId ∧
    (p2Noted s ent).q = (p2Read s ent).q := by
  have hs := (p2Weights_writes (p2Read s ent) ent (facOf s ent.ctx) (spanOut s ent) (spanUpdates s ent)).1
  refine ⟨?_, ?_, ?_⟩
  · exact (congrArg State.mem hs :)
  · exact (congrArg State.opId hs :)
  · exact (congrArg State.q hs :)

theorem p2Noted_fac {s : State} {ent : QEntry} (hd : NoDouble s) : (p2Noted s ent).fac =
    { (modFacCtx s ent.ctx (fun y => { y with st := 4, skip := (p2Decide (facOf s ent.ctx)).2 })).fac with
      params := s.fac.params + BitVec.ofNat 64 ent.b.toNat
      p2nonfin := s.fac.p2nonfin || (spanUpdates s ent).any (Updated.bad (facOf s ent.ctx).lat.rule) } := by
  have hs := (p2Weights_writes (p2Read s ent) ent (facOf s ent.ctx) (spanOut s ent) (spanUpdates s ent)).1
  have hf : (p2Weights (p2Read s ent) ent (facOf s ent.ctx) (spanOut s ent) (spanUpdates s ent)).s.fac = s.fac :=
    (congrArg State.fac hs :).trans (p2Read_fac hd)
  unfold p2Noted modFacCtx State.modFac
  rw [hf]

theorem spanWrites_flatten (s : State) (ent : QEntry) : (spanWrites s ent).flatten =
    ((readSpan s (spanAddr ent)).vrec + 4 * (1 - slotOf (facOf s ent.ctx).ver), leBytes 2 ((facOf s ent.ctx).ver + 1)) ::
      (spanUpdates s ent).mapIdx (fun j z => ((readSpan s (spanAddr ent)).master.getD (1 - slotOf (facOf s ent.ctx).ver) 0 + 4 * j, leBytes 4 z.w)) ++
      (spanUpdates s ent).mapIdx (fun j z => ((readSpan s (spanAddr ent)).mom.getD (1 - slotOf (facOf s ent.ctx).ver) 0 + 4 * j,
        momBytes (facOf s ent.ctx).lat.rule z)) ++
      (spanUpdates s ent).mapIdx (fun j z => ((spanOut s ent).elemAddr (j / (spanOut s ent).cols) (j % (spanOut s ent).cols),
        codeBytes (spanOut s ent).width (narrowCode (spanOut s ent).fmt (spanOut s ent).s (roundingOf (spanOut s ent).sr
          (rndOf s (spanOut s ent) (p2Step ent (facOf s ent.ctx))) ((spanOut s ent).index (j / (spanOut s ent).cols) (j % (spanOut s ent).cols))) z.w).code)) := by
  have hr : Agree s (p2Read s ent) := (left_agree ..).trans (p2Read_reads ..).agree
  rw [spanWrites, (p2Weights_writes ..).2, hr.rndOf, p2Writes]
  simp only [List.flatten_cons, List.flatten_nil, List.append_nil, List.cons_append, List.nil_append, List.append_assoc]

theorem p2Noted_ctx {s : State} {ent : QEntry} (hd : NoDouble s) :
    facOf (p2Noted s ent) ent.ctx = { facOf s ent.ctx with st := 4, skip := (p2Decide (facOf s ent.ctx)).2 } := by
  rw [← (facOf_modFacCtx s ent.ctx ent.ctx (fun y => { y with st := 4, skip := (p2Decide (facOf s ent.ctx)).2 })).trans (if_pos rfl), facOf, facOf,
    p2Noted_fac hd]

/-- What an operation of the Factor that enters its flight finished leaves. -/
theorem finished_kept (u : State) (ent : QEntry) (f : Infl → Infl) :
    let t := modInfl (putInfl u eFAC ent none true) eFAC u.opId f
    t.fac = u.fac ∧ t.mem = u.mem ∧ f { ent := ent, id := u.opId, wb := none, done := true } ∈ (qOf t eFAC).infl := by
  refine ⟨rfl, rfl, ?_⟩
  have hinfl := congrArg EngQ.infl ((qOf_modQ (putInfl u eFAC ent none true) eFAC eFAC (fun q => { q with
    infl := q.infl.map (fun x => if x.id = u.opId then f x else x) })).trans (if_pos rfl))
  rw [modInfl, hinfl, qOf_putInfl, if_pos rfl]
  refine List.mem_map.mpr ⟨_, List.mem_append_right _ (List.mem_singleton_self _), ?_⟩
  rw [if_pos rfl]

theorem facP2_updates {s : State} {ent : QEntry} (h : Head s eFAC 3 ent) (hfree : facFree s = true) (hd : NoDouble s)
    (hw : spansWait s (p2Spans s ent) = false) (hdec : (p2Decide (facOf s ent.ctx)).1 = 4) (hc : p2Fails (left s eFAC ent) ent = 0) :
    ∃ t y, execFacP2 s = .next (settled t eFAC) ∧ (facOf t ent.ctx).st = 4 ∧ (facOf t ent.ctx).ver = (facOf s ent.ctx).ver ∧
      t.fac.params = s.fac.params + BitVec.ofNat 64 ent.b.toNat ∧
      t.fac.p2nonfin = (s.fac.p2nonfin || (spanUpdates s ent).any (Updated.bad (facOf s ent.ctx).lat.rule)) ∧ SameBytes s t ∧
      y ∈ (qOf t eFAC).infl ∧ y.ent = ent ∧ y.id = s.opId ∧ y.done = true ∧ y.units.length = (ent.b.toNat + 7) / 8 ∧
      y.wr = spanWrites s ent := by
  obtain ⟨hmem, hid, -⟩ := p2Noted_kept s ent
  have hop : (p2Noted s ent).opId = s.opId := hid.trans ((p2Read_reads ..).opId.trans (left_opId ..))
  obtain ⟨hfac, hm, hinfl⟩ := finished_kept (p2Noted s ent) ent (fun i => { i with wr := spanWrites s ent, units := spanUnits s ent })
  have hexec := facP2_goes h hfree hd hw hdec hc
  generalize modInfl (putInfl (p2Noted s ent) eFAC ent none true) eFAC (p2Noted s ent).opId
    (fun i => { i with wr := spanWrites s ent, units := spanUnits s ent }) = t at *
  have hctx : facOf t ent.ctx = _ := (facOf_congr hfac _).trans (p2Noted_ctx hd)
  refine ⟨t, _, hexec, (congrArg FacCtx.st hctx :), (congrArg FacCtx.ver hctx :), ?_, ?_, fun a => ?_, hinfl, rfl, hop, rfl, ?_, rfl⟩
  · rw [hfac, p2Noted_fac hd]
  · rw [hfac, p2Noted_fac hd]
  · rw [hm, hmem, (p2Read_reads s ent).bytes, left_mem]
  · simp [spanUnits, ceilDiv]

/-! FAC.COMMIT, and its retirement. -/

theorem facCommit_goes {s : State} {ent : QEntry} (h : Head s eFAC 4 ent) (hfree : facFree s = true) (hsub : ent.sub = 0) (hfs : ent.fs = 0)
    (ha : ent.a.extractLsb' 32 32 = 0)
    (hst : ((facOf s ent.ctx).st = 4 ∧ ent.a.extractLsb' 0 32 = (facOf s ent.ctx).ver + 1) ∨ (facOf s ent.ctx).st = 5) :
    execFacCommit s = .next (settled (putInfl { left s eFAC ent with
      fac := { s.fac with committing := some (ent.ctx, decide ((facOf s ent.ctx).st = 5)) } } eFAC ent none true) eFAC) := by
  have hx : facOf (left s eFAC ent) ent.ctx = facOf s ent.ctx := facOf_congr (left_fac ..) _
  have hlow : ent.a.setWidth 32 = ent.a.extractLsb' 0 32 := rfl
  have hstate : (!([4, 5].contains (facOf s ent.ctx).st.toNat)) = false := by
    rcases hst with ⟨h4, -⟩ | h5
    · rw [h4]; rfl
    · rw [h5]; rfl
  have hver : (decide ((facOf s ent.ctx).st = 4) && decide (ent.a.extractLsb' 0 32 ≠ (facOf s ent.ctx).ver + 1)) = false := by
    rcases hst with ⟨-, hv⟩ | h5
    · simp [hv]
    · rw [h5]; rfl
  have hcause : lowest [(facResv ent || decide (bitsOf ent.a.toNat 63 32 ≠ 0), 1), (!([4, 5].contains (facOf s ent.ctx).st.toNat), 2),
      (decide ((facOf s ent.ctx).st = 4) && decide (ent.a.extractLsb' 0 32 ≠ (facOf s ent.ctx).ver + 1), 6)] = 0 := by
    rw [facResv_off hsub hfs, bitsOf_toNat, ha, hstate, hver]; rfl
  rw [execFacCommit, dispatch_goes h hfree]
  refine congrArg (fun t => Host.Outcome.next (settled t eFAC)) ?_
  rw [hx, hlow]
  refine (if_neg fun hne => hne hcause).trans ?_
  rw [State.modFac, left_fac]

/-- A retirement without writings, units aside: only lanes and units. -/
theorem landLast_none {s : State} {e : Nat} {x : Infl} (he : e ≠ eVEC) (hwr : x.wr = []) :
    landLast s e x = { s with
      jrnl := { s.jrnl with toArr := s.jrnl.toArr ++ x.units.map (fun u => unitOfData 3 u.1 u.2) }, vec := { s.vec with v := (landLast s e x).vec.v } } := by
  rw [landLast_eq (fun h => absurd h he), hwr]
  rw [putLanes_frame, creditArrs_frame]
  rfl

/-- What a commit leaves of its context. -/
def FacCtx.committed (y : FacCtx) : FacCtx :=
  { y with ver := y.ver + 1, step := y.step + 1, wrapped := y.wrapped || decide (y.step + 1 = 0), rollok := true, st := 0 }

theorem facRetire_skip {u : State} {x : Infl} {c : BitVec 2} (hfn : x.ent.fn = 4) (hcom : u.fac.committing = some (c, true)) :
    (facRetire u x).fac.committing = none ∧ facOf (facRetire u x) c = { facOf u c with st := 0 } ∧
      (facRetire u x).fac.skips = u.fac.skips + 1 := by
  have hctx := (facOf_modFacCtx (u.modFac (fun f => { f with committing := none })) c c (fun y => { y with st := 0 })).trans (if_pos rfl)
  unfold facRetire
  rw [hfn, if_neg (by decide), hcom]
  exact ⟨rfl, hctx, rfl⟩

/-- The state in which a commit has advanced its context. -/
def commitNoted (u : State) (c : BitVec 2) : State :=
  ((modFacCtx (u.modFac (fun f => { f with committing := none })) c FacCtx.committed).modFac (fun f => { f with commits := f.commits + 1 })).modJrnl
    (fun j => { j with commit := u.core.stage })

theorem facRetire_commit {u : State} {x : Infl} {c : BitVec 2} (hfn : x.ent.fn = 4) (hcom : u.fac.committing = some (c, false)) :
    facRetire u x = if c = 0 then commitEpoch (commitNoted u c) else commitNoted u c := by
  unfold facRetire
  rw [hfn, if_neg (by decide), hcom]
  rfl

theorem commitNoted_spec (u : State) (c : BitVec 2) :
    (commitNoted u c).fac.committing = none ∧ facOf (commitNoted u c) c = (facOf u c).committed ∧
      (commitNoted u c).fac.commits = u.fac.commits + 1 ∧ (commitNoted u c).jrnl.commit = u.core.stage ∧ (commitNoted u c).sec = u.sec :=
  ⟨rfl, (facOf_modFacCtx (u.modFac (fun f => { f with committing := none })) c c FacCtx.committed).trans (if_pos rfl), rfl, rfl, rfl⟩

/-- What signals leave of a context that is IDLE. -/
theorem Idled.ctx_idle {f g : Fac} (h : Idled f g) {k : Nat} (hst : (tabGet ({} : FacCtx) f.ctxs k).st = 0) :
    (tabGet ({} : FacCtx) g.ctxs k).st = 0 ∧ (tabGet ({} : FacCtx) g.ctxs k).ver = (tabGet ({} : FacCtx) f.ctxs k).ver ∧
      (tabGet ({} : FacCtx) g.ctxs k).step = (tabGet ({} : FacCtx) f.ctxs k).step ∧
      (tabGet ({} : FacCtx) g.ctxs k).rollok = (tabGet ({} : FacCtx) f.ctxs k).rollok ∧
      (tabGet ({} : FacCtx) g.ctxs k).wrapped = (tabGet ({} : FacCtx) f.ctxs k).wrapped := by
  rcases h.ctx k with hk | hk <;> rw [hk]
  · exact ⟨hst, rfl, rfl, rfl, rfl⟩
  · exact ⟨rfl, rfl, rfl, rfl, rfl⟩

/-- The retirement of FAC.COMMIT, up to what its signals do to the Factor. -/
theorem retire_commit {s : State} {n : Nat} {x : Infl} (hfn : x.ent.fn = 4) (hwb : x.wb = none) (hwr : x.wr = []) :
    ∃ u, u.fac = s.fac ∧ u.core = s.core ∧ u.sec = s.sec ∧ Idled (facRetire u x).fac (retire s eFAC n x).fac ∧
      (retire s eFAC n x).jrnl = (facRetire u x).jrnl ∧ (retire s eFAC n x).sec = (facRetire u x).sec := by
  have hu : writeback (landLast (withoutInfl s eFAC n) eFAC x) x = landLast (withoutInfl s eFAC n) eFAC x := by rw [writeback, hwb]
  have hland := landLast_none (s := withoutInfl s eFAC n) (e := eFAC) (by decide) hwr
  have heff : retireEffect (landLast (withoutInfl s eFAC n) eFAC x) eFAC x = facRetire (landLast (withoutInfl s eFAC n) eFAC x) x := by
    rw [retireEffect, if_neg (fun h => absurd h.1 (by decide)), if_pos ⟨rfl, .inr hfn⟩]
  refine ⟨landLast (withoutInfl s eFAC n) eFAC x, by rw [hland]; rfl, by rw [hland]; rfl, by rw [hland]; rfl, ?_, ?_, ?_⟩
  · rw [retire_eq, hu, heff, retireProgress_frame]
    exact signalMany_idled ..
  · rw [retire_eq, hu, heff, retireProgress_frame, (signalMany_frame ..).jrnl]
  · rw [retire_eq, hu, heff, retireProgress_frame, signalMany_frame]

theorem succ_eq_zero_iff (w : Word) : (w + 1 = 0) = (w = 0xFFFFFFFF) := by
  refine propext ⟨fun h => ?_, fun h => by rw [h]; rfl⟩
  have := congrArg BitVec.toNat h
  have := w.isLt
  refine BitVec.eq_of_toNat_eq ?_
  simp at *
  omega

/-- Settles O38: P2 that skips and P2 that updates by what they note, COMMIT by its dispatch, and its retirement by what signals leave. -/
theorem factorPass2 : Obligations.FactorPass2 := by
  unfold Obligations.FactorPass2
  refine ⟨?_, ?_, ?_, ?_⟩
  · intro s ent h hfree x skip hc hskip
    exact facP2_skip h hfree hc hskip
  · intro s ent h hfree hd x sp rs ws gl wl hw hst hc ys
    obtain ⟨t, y, ht, h4, hver, hpar, hnf, hbytes, hy, hent, hid, hdone, hunits, hwr⟩ := facP2_updates h hfree hd hw (p2Decide_updates hst) hc
    exact ⟨t, y, ht, h4, hver, hpar, hnf, hbytes, hy, hent, hid, hdone, hunits, (congrArg List.flatten hwr).trans (spanWrites_flatten s ent)⟩
  · intro s ent h hfree hsub hfs ha x hst
    exact facCommit_goes h hfree hsub hfs ha hst
  · intro s n x c skip hon hx hdone hfn hwb hwr hcom y
    have hspans : x.spans = [] := by rw [Infl.spans, hwr]; rfl
    have hexec := exec_engineRetire (q := 2) (n := n) hon hx hdone rfl (by rw [hspans]; rfl) (fun h => absurd h (by decide)) (fun h => absurd h (by decide))
    obtain ⟨u, hfac, hcore, hsec, hidl, hj, hs⟩ := retire_commit (s := s) (n := n) hfn hwb hwr
    have hy : facOf u c = y := facOf_congr hfac c
    have hcom' : u.fac.committing = some (c, skip) := by rw [hfac, hcom]
    have hframe := hidl.frame
    refine ⟨_, hexec, ?_⟩
    rw [show (2 : BitVec 3).toNat = eFAC from rfl]
    cases skip with
    | true =>
      obtain ⟨hnone, hctx, hskips⟩ := facRetire_skip hfn hcom'
      obtain ⟨hst, hver, hstep, -, -⟩ := hidl.ctx_idle (k := c.toNat) (congrArg FacCtx.st hctx)
      refine ⟨by rw [hframe]; exact hnone, hst, fun _ => ⟨hver.trans ?_, hstep.trans ?_, ?_⟩, fun h => Bool.noConfusion h⟩
      · rw [← hy]; exact (congrArg FacCtx.ver hctx :)
      · rw [← hy]; exact (congrArg FacCtx.step hctx :)
      · rw [hframe, ← hfac]; exact hskips
    | false =>
      obtain ⟨hnone, hctx, hcommits, hcommit, hsecn⟩ := commitNoted_spec u c
      have hret := facRetire_commit hfn hcom'
      have hf : (facRetire u x).fac = (commitNoted u c).fac := by
        rw [hret]
        split <;> rfl
      have hjr : (facRetire u x).jrnl = (commitNoted u c).jrnl := by
        rw [hret]
        split <;> rfl
      rw [hf] at hidl hframe
      obtain ⟨hst, hver, hstep, hroll, hwrap⟩ := hidl.ctx_idle (k := c.toNat) (congrArg FacCtx.st hctx)
      have hcom'' : tabGet ({} : FacCtx) (commitNoted u c).fac.ctxs c.toNat = y.committed := by rw [← hy]; exact hctx
      rw [hcom''] at hver hstep hroll hwrap
      refine ⟨by rw [hframe]; exact hnone, hst, fun h => Bool.noConfusion h, fun _ => ⟨hver, hstep, hroll, hwrap.trans ?_, ?_, ?_, fun hc0 => ?_⟩⟩
      · simp only [FacCtx.committed, succ_eq_zero_iff]
      · rw [hframe, ← hfac]; exact hcommits
      · rw [hj, hjr, hcommit, hcore]
      · rw [hs, hret, if_pos hc0, ← hsec, ← hsecn]
        exact ⟨rfl, rfl⟩

end Sys2Proof.Machine
end
section
/-! PROOFS. Accepted array operations (05 R131 to R133; 06 R152, R153, R166). -/

namespace Sys2Proof.Machine

section Congr
variable {s t : State} (h : t.man = s.man)
include h

theorem strings_congr : strings t = strings s := by rw [strings, cfgBits_congr h]; rfl
theorem strGrp_congr (i : Nat) : strGrp t i = strGrp s i := by rw [strGrp, foldWord, cfg_congr h]; rfl
theorem strLeff_congr (i : Nat) : strLeff t i = strLeff s i := by rw [strLeff, strLen, foldWord, cfg_congr h]; rfl
theorem caravanEn_congr : caravanEn t = caravanEn s := by
  unfold caravanEn
  rw [cfgBits_congr h]

end Congr

/-! Departures touch the array alone. -/

theorem departStr_frame (s : State) (i : Nat) (why : DepCause) : departStr s i why = { s with arr := (departStr s i why).arr } := by
  unfold departStr
  split <;> rfl

theorem length_departId (a : Arr) (id : Nat) (why : DepCause) : (departId a id why).ops.length = a.ops.length := by
  unfold departId
  split
  · rfl
  · simp

theorem length_departAll (a : Arr) : (departAll a).ops.length = a.ops.length := by
  unfold departAll
  generalize a.ops.filter (·.open_) = l
  induction l generalizing a with
  | nil => rfl
  | cons o l ih => rw [List.foldl_cons, ih, length_departId]

/-! ARR.MM and ARR.CONV. -/

/-- The operation that ARR.MM and ARR.CONV name. -/
def opSrc (conv : Bool) (ent : QEntry) : ArrSrc := ⟨ent.d.toNat, ent.a, ent.sub.toNat, conv⟩

/-- An accepted operation of a string. -/
def acceptedOp (id : Nat) (ent : QEntry) (d : ArrDesc) (pos : Nat) : ArrOp :=
  { id := id, string := ent.sub.toNat, descAddr := ent.d.toNat, tag := ent.fs.extractLsb' 0 8, nosteal := ent.fs.getLsbD 8
    desc := d, lo := 0, hi := d.items, items := d.items, pos := pos, ctx := ent.ctx }

/-- The state in which an operation is accepted. -/
def accepted (u : State) (ent : QEntry) (d : ArrDesc) : State :=
  (putInfl u eARR ent none false).modArr (fun a => { a with
    ops := a.ops ++ [acceptedOp u.opId ent d a.nextPos], nextPos := if d.out = 2 then a.nextPos else a.nextPos + d.items })

/-- The state in which the drain port has read what an operation's checks need. -/
def descRead (s : State) (ent : QEntry) (src : ArrSrc) : State :=
  touchSpans (left s eARR ent) rqDRAIN (descSpans (left s eARR ent) src)

theorem descRead_reads (s : State) (ent : QEntry) (src : ArrSrc) : Reads (left s eARR ent) (descRead s ent src) := touchSpans_reads ..

theorem ofNat_low_byte (f : BitVec 18) : BitVec.ofNat 8 (bitsOf f.toNat 7 0) = f.extractLsb' 0 8 := by
  rw [bitsOf_toNat]
  exact (BitVec.ofNat_toNat 8 (f.extractLsb' 0 8)).trans (BitVec.setWidth_eq _)

theorem arrOp_accepts {s : State} {ent : QEntry} {d : ArrDesc} {conv : Bool} {fn : Nat} (h : Head s eARR fn ent) (hroom : arrRoom s ent = true)
    (hw : spansWait s (descSpans s (opSrc conv ent)) = false)
    (hok : arrEval (descRead s ent (opSrc conv ent)) (opSrc conv ent) (arrPre (descRead s ent (opSrc conv ent)) ent) (fun _ => [])
      (stepField s ent.ctx) = .ok d) :
    arrOp s conv fn = .next (settled (accepted (departStr (descRead s ent (opSrc conv ent)) ent.sub.toNat .force) ent d) eARR) := by
  have hstep : stepField (descRead s ent (opSrc conv ent)) ent.ctx = stepField s ent.ctx :=
    ((left_agree ..).trans (descRead_reads ..).agree).stepField _
  rw [arrOp, dispatchMem_goes h hroom hw]
  refine congrArg (fun t => Host.Outcome.next (settled t eARR)) ?_
  change (match arrEval (descRead s ent (opSrc conv ent)) (opSrc conv ent) (arrPre (descRead s ent (opSrc conv ent)) ent) (fun _ => [])
    (stepField (descRead s ent (opSrc conv ent)) ent.ctx) with | .error c => _ | .ok d => _) = _
  rw [hstep, hok]
  simp only [ofNat_low_byte]
  rfl

theorem accepted_bytes {s : State} {ent : QEntry} {src : ArrSrc} {i : Nat} {why : DepCause} :
    (departStr (descRead s ent src) i why).mem.bytes = s.mem.bytes ∧ (departStr (descRead s ent src) i why).opId = s.opId := by
  rw [departStr_frame]
  exact ⟨(descRead_reads ..).bytes.trans (by rw [left_mem]), (descRead_reads ..).opId.trans (left_opId ..)⟩

/-! ARR.LIST and ARR.FLUSH. -/

/-- An accepted work list. -/
def acceptedList (s : State) (ent : QEntry) : ArrOp :=
  { id := s.opId, string := 64, isList := true, group := (ent.sub.extractLsb' 0 4).toNat, lo := 0, hi := ent.b.toNat, items := ent.b.toNat
    pos := s.arr.nextPos, a := ent.a, addr := ent.d.toNat, ctx := ent.ctx, desc := { stepField := stepField s ent.ctx }, scales := scalesOf s }

theorem scalesOf_congr {s t : State} (h : t.wgh = s.wgh) : scalesOf t = scalesOf s := by rw [scalesOf, h]; rfl

theorem arrList_accepts {s : State} {ent : QEntry} (h : Head s eARR 3 ent) (hlist : groupList s (ent.sub.extractLsb' 0 4).toNat = none)
    (hfs : ent.fs = 0) (hsub : ent.sub.toNat < 16) (hused : groupUsed (left s eARR ent) (ent.sub.extractLsb' 0 4).toNat = true)
    (hpos : 0 < ent.b.toNat) (hmax : ent.b.toNat ≤ 4096) (hdata : dataAt (left s eARR ent) ent.d.toNat 8 (8 * ent.b.toNat) = true) :
    execArrList s = .next (settled ((putInfl (left s eARR ent) eARR ent none false).modArr (fun a => { a with
      ops := a.ops ++ [acceptedList s ent], nextPos := a.nextPos + ent.b.toNat })) eARR) := by
  have hg : ent.sub.toNat % 16 = (ent.sub.extractLsb' 0 4).toNat := by simp
  have hcan : (groupList s (ent.sub.toNat % 16)).isNone = true := by rw [hg, hlist]; rfl
  have hcause : (if !dataAt (left s eARR ent) ent.d.toNat 8 (8 * min ent.b.toNat 4096) then 7
      else lowest [(decide (ent.fs ≠ 0), 1), (!groupUsed (left s eARR ent) (ent.sub.toNat % 16) || decide (16 ≤ ent.sub.toNat), 8),
        (decide (ent.b.toNat = 0) || decide (4096 < ent.b.toNat), 9)]) = 0 := by
    rw [hg, hused, Nat.min_eq_left hmax, hdata]
    simp [lowest, hfs, Nat.not_le.mpr hsub, Nat.pos_iff_ne_zero.mp hpos, Nat.not_lt.mpr hmax]
  have hop : (acceptedList (left s eARR ent) ent) = acceptedList s ent := by
    unfold acceptedList
    rw [left_opId, left_arr, (left_agree ..).stepField, scalesOf_congr (left_wgh ..)]
  rw [execArrList, dispatch_goes h hcan]
  refine congrArg (fun t => Host.Outcome.next (settled t eARR)) ((if_neg fun hne => hne hcause).trans ?_)
  rw [← hop, hg]
  rfl

theorem arrFlush_goes {s : State} {ent : QEntry} (h : Head s eARR 4 ent) :
    execArrFlush s = .next (settled (putInfl ((left s eARR ent).modArr departAll) eARR ent none true) eARR) := by
  rw [execArrFlush, dispatch_goes h rfl]

/-- Settles O27: each operation through its dispatch; a departure touches the array alone. -/
theorem arrayAccepts : Obligations.ArrayAccepts := by
  unfold Obligations.ArrayAccepts
  refine ⟨?_, ?_, ?_⟩
  · intro s ent d i conv fn hi src h hroom hw u w hok v
    obtain ⟨hbytes, hid⟩ := accepted_bytes (s := s) (ent := ent) (src := opSrc conv ent) (i := ent.sub.toNat) (why := .force)
    have hexec : exec i s = arrOp s conv fn := by
      simp only [List.mem_cons, Prod.mk.injEq, List.not_mem_nil, or_false] at hi
      rcases hi with ⟨rfl, rfl, rfl⟩ | ⟨rfl, rfl, rfl⟩ <;> rfl
    refine ⟨_, hexec.trans (arrOp_accepts h hroom hw hok), ?_, rfl, congrArg (· + 1) hid, rfl, fun a => congrArg (fun m => memByte m a) hbytes⟩
    rw [← hid]
    rfl
  · intro s ent h g n u hlist hfs hsub hused hpos hmax hdata
    refine ⟨_, arrList_accepts h hlist hfs hsub hused hpos hmax hdata, ?_, ?_, ?_⟩
    · change (left s eARR ent).arr.ops ++ [acceptedList s ent] = _
      rw [left_arr]; rfl
    · change (left s eARR ent).arr.nextPos + _ = _
      rw [left_arr]
    · rw [← left_opId s eARR ent]; rfl
  · intro s ent h
    refine ⟨_, arrFlush_goes h, fun o ho => ?_, ?_, ?_⟩
    · exact departAll_closes _ o ho
    · rw [← left_arr s eARR ent]
      exact length_departAll _
    · rw [← left_opId s eARR ent]; rfl

end Sys2Proof.Machine
end
section
/-! PROOFS. Caravans (06 R161 to R164, R170). -/

namespace Sys2Proof.Machine

/-! What a departure before a CAR keeps. -/

theorem carDepart_frame (s : State) : carDepart s = { s with arr := (carDepart s).arr } := by
  unfold carDepart
  split
  · rfl
  · split
    · rfl
    · split
      · rfl
      · exact departStr_frame ..

/-! Adding a contributor. -/

theorem fill_append (o : ArrOp) (j : CarJoin) : ({ o with joins := o.joins ++ [j] } : ArrOp).fill = o.fill + j.rows := by
  simp [ArrOp.fill]

/-- A contributor joins the caravan with a number. -/
def joinCar (k : Nat) (j : CarJoin) (o : ArrOp) : ArrOp := if o.id = k then { o with joins := o.joins ++ [j] } else o

theorem joinCar_open (k : Nat) (j : CarJoin) (i : Nat) :
    (fun o : ArrOp => o.open_ && decide (o.string = i)) ∘ joinCar k j = (fun o : ArrOp => o.open_ && decide (o.string = i)) := by
  funext o
  simp only [Function.comp, joinCar]
  split <;> rfl

/-- The caravan that a string has open, in a list of operations. -/
def openIn (ops : List ArrOp) (i : Nat) : Option ArrOp := ops.find? (fun o => o.open_ && decide (o.string = i))

theorem openIn_join {ops : List ArrOp} {i : Nat} {o : ArrOp} (h : openIn ops i = some o) (j : CarJoin) :
    openIn (ops.map (joinCar o.id j)) i = some { o with joins := o.joins ++ [j] } := by
  unfold openIn at *
  rw [List.find?_map, joinCar_open, h, Option.map_some, joinCar, if_pos rfl]

theorem openIn_new {ops : List ArrOp} {i : Nat} (h : openIn ops i = none) {o : ArrOp} (ho : o.open_ = true) (hs : o.string = i) :
    openIn (ops ++ [o]) i = some o := by
  unfold openIn at *
  rw [List.find?_append, h]
  simp [ho, hs]

/-- A new caravan that a CAR opens. -/
def newCar (ent : QEntry) (d : ArrDesc) (id : Nat) (j : CarJoin) : ArrOp :=
  { id := id, string := ent.sub.toNat, joins := [j], open_ := true, descAddr := ent.d.toNat, offW := (ent.a.extractLsb' 21 21).toNat
    capRows := d.m, tag := ent.fs.extractLsb' 0 8, desc := d, ctx := ent.ctx }

/-- The array when a CAR has joined a caravan, or opened one. -/
def withCar (a : Arr) (ent : QEntry) (d : ArrDesc) (id : Nat) : Arr :=
  match openIn a.ops ent.sub.toNat with
  | some o => { a with ops := a.ops.map (joinCar o.id { id := id, rows := ent.b.toNat, x := d.x }) }
  | none => { a with ops := a.ops ++ [newCar ent d id { id := id, rows := ent.b.toNat, x := d.x }] }

/-- The number of that caravan, and the rows that it has gathered. -/
def carId (a : Arr) (ent : QEntry) (id : Nat) : Nat := match openIn a.ops ent.sub.toNat with | some o => o.id | none => id
def carFill (a : Arr) (ent : QEntry) : Nat := match openIn a.ops ent.sub.toNat with | some o => o.fill + ent.b.toNat | none => ent.b.toNat

theorem withCar_fill (a : Arr) (ent : QEntry) (d : ArrDesc) (id : Nat) :
    ((openIn (withCar a ent d id).ops ent.sub.toNat).map (·.fill)).getD 0 = carFill a ent := by
  unfold withCar carFill
  cases h : openIn a.ops ent.sub.toNat with
  | some o =>
    dsimp only
    rw [openIn_join h, Option.map_some, Option.getD_some, fill_append]
  | none =>
    dsimp only
    rw [openIn_new h rfl rfl, Option.map_some, Option.getD_some]
    simp [newCar, ArrOp.fill]

/-- The departure of a caravan that is full, forced, or for which caravans are off. -/
def carEnd (b : Arr) (car fill m : Nat) (force on : Bool) : Arr :=
  if fill = m then departId b car .full else if force then departId b car .force else if on then b else departId b car .off

theorem carEnd_eq (v : State) (car fill m : Nat) (force : Bool) :
    (if fill = m then v.modArr (fun a => departId a car .full)
      else if force then v.modArr (fun a => departId a car .force)
      else if !caravanEn v then v.modArr (fun a => departId a car .off) else v) =
      { v with arr := carEnd v.arr car fill m force (caravanEn v) } := by
  unfold carEnd
  by_cases hf : fill = m
  · rw [if_pos hf, if_pos hf]; rfl
  · rw [if_neg hf, if_neg hf]
    cases force
    · cases caravanEn v <;> rfl
    · rfl

/-- The state in which the drain port has read what a CAR's checks need. -/
def carRead (s : State) (ent : QEntry) : State := descRead s ent (carSrc (left s eARR ent) ent)

/-- A CAR that passes its checks has joined or opened a caravan. -/
theorem arrCar_goes {s : State} {ent : QEntry} {d : ArrDesc} (h : Head (carDepart s) eARR 2 ent)
    (hcan : carJoins (carDepart s) ent = true ∨ arrRoom (carDepart s) ent = true)
    (hw : spansWait (carDepart s) (descSpans (carDepart s) (carSrc (carDepart s) ent)) = false)
    (hok : carEval (carRead (carDepart s) ent) ent = .ok d) :
    execArrCar s = .next (settled (let t := carRead (carDepart s) ent
      { putInfl t eARR ent none false with
        arr := carEnd (withCar t.arr ent d t.opId) (carId t.arr ent t.opId) (carFill t.arr ent) d.m (ent.fs.getLsbD 8) (caravanEn t) }) eARR) := by
  have hoff : (ent.a.extractLsb' 21 21).toNat = bitsOf ent.a.toNat 41 21 := (bitsOf_toNat ent.a 41 21).symm
  rw [execArrCar, dispatchMem_goes h (Bool.or_eq_true_iff.mpr hcan) hw]
  refine congrArg (fun t => Host.Outcome.next (settled t eARR)) ?_
  have hread : touchSpans (left (carDepart s) eARR ent) rqDRAIN (descSpans (left (carDepart s) eARR ent) (carSrc (left (carDepart s) eARR ent) ent)) =
    carRead (carDepart s) ent := rfl
  simp only [hread, hok]
  generalize carRead (carDepart s) ent = t
  have hfill := withCar_fill t.arr ent d t.opId
  have hopen : openCar (putInfl t eARR ent none false) ent.sub.toNat = openIn t.arr.ops ent.sub.toNat := rfl
  rw [hopen]
  unfold withCar at hfill ⊢
  unfold carId
  cases ho : openIn t.arr.ops ent.sub.toNat with
  | some o =>
    rw [ho] at hfill
    dsimp only [Option.map_some, Option.getD_some] at hfill ⊢
    refine (carEnd_eq _ _ _ _ _).trans ?_
    rw [← hfill]
    rfl
  | none =>
    rw [ho] at hfill
    dsimp only [Option.map_none, Option.getD_none] at hfill ⊢
    refine (carEnd_eq _ _ _ _ _).trans ?_
    rw [← hfill]
    simp only [newCar, hoff, ← ofNat_low_byte]
    rfl

theorem carRead_reads (s : State) (ent : QEntry) : Reads (left s eARR ent) (carRead s ent) := descRead_reads ..

theorem carRead_kept (s : State) (ent : QEntry) : (carRead s ent).arr = s.arr ∧ (carRead s ent).opId = s.opId ∧ (carRead s ent).man = s.man ∧
    (carRead s ent).mem.bytes = s.mem.bytes := by
  have h := carRead_reads s ent
  exact ⟨h.arr.trans (left_arr ..), h.opId.trans (left_opId ..), h.man.trans (left_man ..), h.bytes.trans (by rw [left_mem])⟩

/-- ARR.CAR that passes its checks, in the state behind the departure that it may cause. -/
theorem arrCar_joins {s : State} {ent : QEntry} {d : ArrDesc} (h : Head (carDepart s) eARR 2 ent)
    (hcan : carJoins (carDepart s) ent = true ∨ arrRoom (carDepart s) ent = true)
    (hw : spansWait (carDepart s) (descSpans (carDepart s) (carSrc (carDepart s) ent)) = false)
    (hok : carEval (carRead (carDepart s) ent) ent = .ok d) :
    ∃ t, execArrCar s = .next (settled t eARR) ∧
      t.arr = carEnd (withCar (carDepart s).arr ent d s.opId) (carId (carDepart s).arr ent s.opId) (carFill (carDepart s).arr ent) d.m
        (ent.fs.getLsbD 8) (caravanEn s) ∧ t.opId = s.opId + 1 ∧ SameBytes s t ∧
      ∃ x ∈ (qOf t eARR).infl, x.ent = ent ∧ x.id = s.opId ∧ x.done = false := by
  obtain ⟨harr, hid, hman, hbytes⟩ := carRead_kept (carDepart s) ent
  have hop : (carDepart s).opId = s.opId := by rw [carDepart_frame]
  have hen : caravanEn (carRead (carDepart s) ent) = caravanEn s := caravanEn_congr (hman.trans (by rw [carDepart_frame]))
  refine ⟨_, arrCar_goes h hcan hw hok, ?_, congrArg (· + 1) (hid.trans hop), fun a => ?_, ?_⟩
  · dsimp only
    rw [harr, hid, hop, hen]
  · exact congrArg (fun m => memByte m a) (hbytes.trans (by rw [carDepart_frame]))
  · refine ⟨{ ent := ent, id := (carRead (carDepart s) ent).opId, wb := none, done := false }, ?_, rfl, hid.trans hop, rfl⟩
    have hq := qOf_putInfl (carRead (carDepart s) ent) eARR eARR ent none false
    rw [if_pos rfl] at hq
    exact hq ▸ List.mem_append_right _ (List.mem_singleton_self _)

/-! A CAR that cannot join. -/

theorem carJoins_not {s : State} {ent : QEntry} {o : ArrOp} (ho : openCar s ent.sub.toNat = some o)
    (h : o.descAddr ≠ ent.d.toNat ∨ o.offW ≠ (ent.a.extractLsb' 21 21).toNat ∨ o.capRows < o.fill + ent.b.toNat) : carJoins s ent = false := by
  have hoff : bitsOf ent.a.toNat 41 21 = (ent.a.extractLsb' 21 21).toNat := bitsOf_toNat ent.a 41 21
  simp only [carJoins, ho, hoff]
  rcases h with h | h | h
  · rw [decide_eq_false h]; rfl
  · rw [decide_eq_false h, Bool.and_false]; rfl
  · rw [decide_eq_false (show ¬ o.fill + carRows ent ≤ o.capRows from Nat.not_le.mpr h), Bool.and_false]

theorem carDepart_cannot {s : State} {ent : QEntry} (hh : headFn s eARR 2 = some ent) (hj : carJoins s ent = false) (hwv : ent.wv = none)
    (hw : spansWait s (descSpans s (carSrc s ent)) = false) :
    carDepart s = match carEval s ent with | .error _ => s | .ok _ => departStr s ent.sub.toNat .force := by
  have hdisc : faultDiscards s eARR ent = false := by
    unfold faultDiscards
    split <;> rfl
  have hmet : wvMet s ent = true := by rw [wvMet, hwv]
  rw [carDepart, hh]
  simp only [hj, hdisc, hmet, hw, Bool.not_true, Bool.or_self, Bool.false_eq_true, if_false] <;> rfl

/-! A deadline. -/

theorem openCar_mem {s : State} {i : Nat} {o : ArrOp} (h : openCar s i = some o) : o ∈ s.arr.ops ∧ o.open_ = true := by
  refine ⟨List.mem_of_find?_eq_some h, ?_⟩
  have hp := List.find?_some h
  exact (Bool.and_eq_true_iff.mp hp).1

/-- An open caravan whose number no other operation has is the one that departs. -/
theorem departId_found {a : Arr} {o : ArrOp} (ho : o ∈ a.ops) (hopen : o.open_ = true) (huniq : ∀ x ∈ a.ops, x.id = o.id → x = o) :
    a.ops.find? (fun x => decide (x.id = o.id) && x.open_) = some o := by
  cases hf : a.ops.find? (fun x => decide (x.id = o.id) && x.open_) with
  | none =>
    have hno := List.find?_eq_none.mp hf o ho
    simp [hopen] at hno
  | some x =>
    have hx : x.id = o.id ∧ x.open_ = true := by simpa using List.find?_some hf
    rw [huniq x (List.mem_of_find?_eq_some hf) hx.1]

/-- What the departure of the operation found leaves. -/
theorem departId_of_find {a : Arr} {o : ArrOp} {id : Nat} (why : DepCause) (hf : a.ops.find? (fun x => decide (x.id = id) && x.open_) = some o) :
    departId a id why =
      (let n := ceilDiv o.fill 16 * (o.desc.n / 16)
       { a with
          ops := a.ops.map (fun x => if x.id = id then { o with open_ := false, lo := 0, hi := n, items := n, pos := a.nextPos } else x)
          nextPos := a.nextPos + n
          cardepFull := a.cardepFull + if why = .full then 1 else 0
          cardepForce := a.cardepForce + if why = .force then 1 else 0
          cardepDl := a.cardepDl + if why = .deadline then 1 else 0
          carRows := a.carRows + BitVec.ofNat 32 o.fill }) := by
  unfold departId
  rw [hf]

/-- Settles O28: a CAR by what its body adds to the open caravan of its string, a CAR that cannot join and a deadline by the departure. -/
theorem caravans : Obligations.Caravans := by
  unfold Obligations.Caravans
  refine ⟨?_, ?_, ?_⟩
  · intro s ent d hon s' str rows h hcan hw l u hok j fill car a
    obtain ⟨t, ht, harr, hrest⟩ := arrCar_joins h hcan hw hok
    refine ⟨t, ht, harr.trans ?_, hrest⟩
    rfl
  · intro s ent o hh ho hne hw hwv
    have hdep := carDepart_cannot hh (carJoins_not ho hne) hwv hw
    refine ⟨fun d hd => ?_, fun c hc => ?_⟩
    · rw [hdep, hd, departStr, ho]; rfl
    · rw [hdep, hc]
  · intro s i o hon ho huniq n
    obtain ⟨hm, hopen⟩ := openCar_mem ho
    have hdep : departStr s i.toNat .deadline = s.modArr (fun a => departId a o.id .deadline) := by rw [departStr, ho]
    refine ⟨departStr s i.toNat .deadline, ?_, departStr_frame .., ?_⟩
    · rw [show exec (.caravanDeadline i) s = execCaravanDeadline i s from rfl, execCaravanDeadline, whenOn, if_pos hon]
    · have hd := departId_of_find .deadline (departId_found hm hopen huniq)
      rw [hdep, State.modArr, hd]
      exact ⟨rfl, rfl, rfl, rfl⟩

end Sys2Proof.Machine
end
section
/-! PROOFS. Claims of items, own and stolen (05 R136, R143 to R145; 06 R146 to R151). -/

namespace Sys2Proof.Machine

/-! The feed paths' reading. -/

theorem eccFoldBy_reads (req : Nat × EccErr → Nat) (l : List (Nat × EccErr)) (s : State) :
    Reads s (l.foldl (fun u p => eccRdOne (req p) u p) s) := by
  induction l generalizing s with
  | nil => exact .refl s
  | cons p l ih => exact (eccFold_reads (req p) [p] s).trans (ih _)

theorem servesBy_reads (req : Nat × Nat → Nat) (sp : List (Nat × Nat)) (s : State) :
    Reads s (sp.foldl (fun u p => serve u (req p) p.1 p.2) s) := by
  induction sp generalizing s with
  | nil => exact .refl s
  | cons p sp ih => exact (serve_reads ..).trans (ih _)

theorem touchFeeds_reads (s : State) (sp : List (Nat × Nat)) : Reads s (touchFeeds s sp) := by
  unfold touchFeeds
  exact (((eccFoldBy_reads ..).trans (spend_reads ..)).trans (servesBy_reads ..)).trans (.of_kept rfl rfl rfl rfl)

/-! The bale of an item. -/

/-- The bale that string i computes of an item. -/
def newBale (s : State) (i : Nat) (o : ArrOp) (d : ArrDesc) (item pos : Nat) (tag : Byte) (last : Bool) (lead : Nat) : Bale :=
  { opId := o.id, string := i, item := item, tag := tag, last := last, pos := pos, desc := d
    vals := itemVals o.joins d s.mem.bytes item, lead := lead, left := itemTime d (strLeff s i) }

/-- What a string that begins an item leaves: a bale more, the products counted, and progress. -/
structure Began (s : State) (b : Bale) (t : State) : Prop where
  bufs : t.arr.bufs = s.arr.bufs ++ [b]
  ops : t.arr.ops = s.arr.ops
  nextPos : t.arr.nextPos = s.arr.nextPos
  listEnt : t.arr.listEnt = s.arr.listEnt
  steals : t.arr.steals = s.arr.steals
  mac : t.arr.mac = s.arr.mac + BitVec.ofNat 64 (itemProducts b.desc)
  wm : t.syn.wmCount = 0
  sameBytes : SameBytes s t

/-- The begin of an item once its operands are read. -/
def beginItem (t : State) (i : Nat) (o : ArrOp) (d : ArrDesc) (addr item pos : Nat) (tag : Byte) (last : Bool) (lead : Nat) : State :=
  let u := (loadFeeds (loadCells t i d item)).modArr (fun a => { a with
    bufs := a.bufs ++ [newBale (loadFeeds (loadCells t i d item)) i o d item pos tag last lead], lastDesc := tabSet none a.lastDesc i (some addr) })
  progress (spend (countMac { u with free := u.free + 1 } (itemProducts d)) (prodCoef d) (itemProducts d))

theorem runItem_eq (s : State) (i : Nat) (o : ArrOp) (d : ArrDesc) (addr item pos : Nat) (tag : Byte) (last : Bool) (lead : Nat) :
    runItem s i o d addr item pos tag last lead = beginItem (touchFeeds s (itemSpans o.joins d item)) i o d addr item pos tag last lead := rfl

/-- A bale depends on the bytes and the configuration alone. -/
theorem newBale_congr {s t : State} (hm : t.man = s.man) (hb : t.mem.bytes = s.mem.bytes) (i : Nat) (o : ArrOp) (d : ArrDesc) (item pos : Nat)
    (tag : Byte) (last : Bool) (lead : Nat) : newBale t i o d item pos tag last lead = newBale s i o d item pos tag last lead := by
  unfold newBale
  rw [hb, strLeff_congr hm i]

theorem beginItem_began (s : State) (i : Nat) (o : ArrOp) (d : ArrDesc) (addr item pos : Nat) (tag : Byte) (last : Bool) (lead : Nat) :
    Began s (newBale s i o d item pos tag last lead) (beginItem s i o d addr item pos tag last lead) := by
  have hb : newBale (loadFeeds (loadCells s i d item)) i o d item pos tag last lead = newBale s i o d item pos tag last lead :=
    newBale_congr rfl rfl ..
  unfold beginItem
  rw [hb]
  constructor
  case sameBytes => intro a; rfl
  all_goals rfl

theorem runItem_began (s : State) (i : Nat) (o : ArrOp) (d : ArrDesc) (addr item pos : Nat) (tag : Byte) (last : Bool) (lead : Nat) :
    Began s (newBale s i o d item pos tag last lead) (runItem s i o d addr item pos tag last lead) := by
  have hr := touchFeeds_reads s (itemSpans o.joins d item)
  have hbegan := beginItem_began (touchFeeds s (itemSpans o.joins d item)) i o d addr item pos tag last lead
  rw [newBale_congr hr.man hr.bytes] at hbegan
  obtain ⟨hbufs, hops, hnext, hent, hsteals, hmac, hwm, hsame⟩ := hbegan
  rw [runItem_eq]
  rw [hr.arr] at hbufs hops hnext hent hsteals hmac
  exact ⟨hbufs, hops, hnext, hent, hsteals, hmac, hwm, fun a => (hsame a).trans (hr.sameBytes a)⟩

/-! The victim with the most. -/

theorem bestVictim_mem {l : List ArrOp} {o : ArrOp} (h : bestVictim l = some o) : o ∈ l := by
  induction l generalizing o with
  | nil => cases h
  | cons p l ih =>
    rw [bestVictim] at h
    split at h
    next => exact Option.some.inj h ▸ List.mem_cons_self
    next q hq =>
      split at h
      · exact List.mem_cons_of_mem _ (ih (hq.trans h))
      · exact Option.some.inj h ▸ List.mem_cons_self

theorem bestVictim_none {l : List ArrOp} (h : bestVictim l = none) : l = [] := by
  cases l with
  | nil => rfl
  | cons p l =>
    rw [bestVictim] at h
    split at h
    next => cases h
    next => split at h <;> cases h

theorem bestVictim_most {l : List ArrOp} {o : ArrOp} (h : bestVictim l = some o) : ∀ p ∈ l, p.hi - p.lo ≤ o.hi - o.lo := by
  induction l generalizing o with
  | nil => cases h
  | cons q l ih =>
    rw [bestVictim] at h
    split at h
    next hnone =>
      obtain rfl := Option.some.inj h
      rw [bestVictim_none hnone]
      intro p hp
      rw [List.mem_singleton.mp hp]
    next r hr =>
      have hmost := ih hr
      split at h
      next hlt =>
        obtain rfl := Option.some.inj h
        exact List.forall_mem_cons.mpr ⟨hlt.le, hmost⟩
      next hge =>
        obtain rfl := Option.some.inj h
        exact List.forall_mem_cons.mpr ⟨le_rfl, fun p hp => (hmost p hp).trans (Nat.le_of_not_lt hge)⟩

/-- What makes an operation a victim. -/
theorem victims_spec {s : State} {i : Nat} {o : ArrOp} (h : o ∈ victims s i) : o.nosteal = false ∧ o.lo + 2 ≤ o.hi := by
  obtain ⟨v, -, hv⟩ := List.mem_filterMap.mp h
  split at hv
  · cases hv
  · have hp := List.find?_some hv
    simp only [Bool.and_eq_true, Bool.not_eq_true', decide_eq_true_eq] at hp
    exact ⟨hp.1.1.2, hp.1.2⟩

/-! The claims. -/

theorem whenMem_goes {c : Bool} {req : Nat} {sp : List (Nat × Nat)} {s : State} (hc : c = true) (hw : spansWait s sp = false) (t : State) :
    whenMem c req sp s t = .next t := by
  rw [whenMem, hc, hw]; rfl

theorem itemClaim_goes {s : State} {i : BitVec 6} {o : ArrOp} (hn : strNext s i.toNat = some o) (hc : strCan s i.toNat = true)
    (hw : spansWait s (itemSpans o.joins o.desc o.lo) = false) :
    execItemClaim i s = .next (runOwn (setOp s o.id (fun x => { x with lo := x.lo + 1 })) i.toNat o o.lo 0) := by
  rw [execItemClaim, hn]
  exact whenMem_goes hc hw _

theorem itemSteal_goes {s : State} {i : BitVec 6} {o : ArrOp} (hn : bestVictim (victims s i.toNat) = some o) (hi : strIdle s i.toNat = true)
    (hg : groupList s (strGrp s i.toNat) = none) (hf : servedFirst s i.toNat (fun j => (bestVictim (victims s j)).isSome) = false)
    (hw : spansWait s (itemSpans o.joins o.desc (o.hi - 1)) = false) :
    execItemSteal i s = .next
      ((runOwn (setOp s o.id (fun x => { x with hi := x.hi - 1 })) i.toNat o (o.hi - 1) (2 + strLeff s i.toNat)).modArr
        (fun a => { a with steals := a.steals + 1 })) := by
  rw [execItemSteal, hn]
  exact whenMem_goes (by rw [hi, hg, hf]; rfl) hw _

/-- An item of an operation that changes as it is claimed. -/
theorem runOwn_began (s : State) (f : ArrOp → ArrOp) (i : Nat) (o : ArrOp) (q lead : Nat) :
    Began (setOp s o.id f) (newBale s i o o.desc q (o.pos + q) o.tag (decide (q + 1 = o.items)) lead) (runOwn (setOp s o.id f) i o q lead) := by
  rw [← newBale_congr (s := s) (t := setOp s o.id f) rfl rfl]
  exact runItem_began ..

/-- Settles O29: both claims run an item, of the own operation or of the best victim. -/
theorem itemClaims : Obligations.ItemClaims := by
  unfold Obligations.ItemClaims
  constructor
  · intro s i o hn hc hw
    obtain ⟨hbufs, hops, -, -, hsteals, hmac, hwm, hsame⟩ := runOwn_began s (fun x => { x with lo := x.lo + 1 }) i.toNat o o.lo 0
    refine ⟨_, _, itemClaim_goes hn hc hw, hbufs, ?_⟩
    exact ⟨rfl, rfl, rfl, rfl, rfl, rfl, rfl, rfl, hops, rfl, rfl, hsteals, hmac, hwm, hsame⟩
  · intro s i o hn hi hg hf hw
    obtain ⟨hbufs, hops, -, -, hsteals, hmac, -, hsame⟩ :=
      runOwn_began s (fun x => { x with hi := x.hi - 1 }) i.toNat o (o.hi - 1) (2 + strLeff s i.toNat)
    obtain ⟨hnosteal, htwo⟩ := victims_spec (bestVictim_mem hn)
    refine ⟨_, _, itemSteal_goes hn hi hg hf hw, hbufs, ?_⟩
    exact ⟨rfl, rfl, rfl, rfl, rfl, rfl, hops, rfl, rfl, congrArg (· + 1) hsteals, hnosteal, htwo,
      hmac, bestVictim_most hn, hsame⟩

end Sys2Proof.Machine
end
section
/-! PROOFS. A claim of a work-list entry (06 R149, R152 to R154; 16 R433). -/

namespace Sys2Proof.Machine

/-! A contained fault stays recorded. -/

theorem raise_cont (s : State) (code unit : Nat) (addr : Addr) (d : Nat) : (raise s code unit addr d).flt.cont = true := by
  unfold raise
  dsimp only
  split
  · rw [abandonStep_frame]; rfl
  · rfl

theorem signalAmt_cont {s : State} (h : s.flt.cont = true) (src : BitVec 4) (o : Byte) (a cnt : Nat) :
    (signalAmt s src o a cnt).flt.cont = true := by
  cases ho : ((objOf s o).apply a).overflows with
  | false => rw [signalAmt_quiet s src o a cnt ho]; exact h
  | true => rw [signalAmt_overflow s src o a cnt ho]; exact raise_cont ..

theorem signalMany_cont {s : State} (h : s.flt.cont = true) (src : BitVec 4) (os : List Byte) : (signalMany s src os).flt.cont = true := by
  unfold signalMany
  generalize os.eraseDups = l
  induction l generalizing s with
  | nil => exact h
  | cons o l ih => exact ih (signalAmt_cont h ..)

/-- The queue that failed is empty and discards. -/
theorem qOf_failQueue (s : State) (e : Nat) (own : Option Byte) : qOf (failQueue s e own) e = { qOf s e with wait := [], failed := true } := by
  unfold failQueue
  rw [(signalMany_frame ..).qOf]
  exact (qOf_setQ s e e _).trans (if_pos rfl)

/-! An operation that has nothing left. -/

/-- What the end of an operation may change: the operations held and the ARR queue's operations in flight, which become done. -/
structure SettledOp (s t : State) : Prop where
  frame : t = { s with arr := { s.arr with ops := t.arr.ops }, q := t.q }
  ops : ∀ x ∈ t.arr.ops, x ∈ s.arr.ops
  wait : (qOf t eARR).wait = (qOf s eARR).wait
  failed : (qOf t eARR).failed = (qOf s eARR).failed

theorem SettledOp.trans {s t u : State} (h : SettledOp s t) (k : SettledOp t u) : SettledOp s u :=
  ⟨by rw [k.frame, h.frame], fun x hx => h.ops x (k.ops x hx), k.wait.trans h.wait, k.failed.trans h.failed⟩

theorem modInfl_settledOp (s : State) (id : Nat) (f : Infl → Infl) : SettledOp s (modInfl s eARR id f) := by
  have hq := (qOf_modQ s eARR eARR (fun q => { q with infl := q.infl.map (fun x => if x.id = id then f x else x) })).trans (if_pos rfl)
  exact ⟨rfl, fun _ hx => hx, (congrArg EngQ.wait hq :), (congrArg EngQ.failed hq :)⟩

theorem settleOp_settledOp (s : State) (id : Nat) : SettledOp s (settleOp s id) := by
  have hself : SettledOp s s := ⟨rfl, fun _ hx => hx, rfl, rfl⟩
  unfold settleOp
  split
  · exact hself
  next o _ =>
    split
    · exact hself
    · dsimp only
      have hout : SettledOp s (s.modArr (fun a => { a with ops := a.ops.filter (fun x => decide (x.id ≠ id)) })) :=
        ⟨rfl, fun x hx => List.mem_of_mem_filter hx, rfl, rfl⟩
      split
      · exact hout.trans (modInfl_settledOp ..)
      · generalize o.joins = l
        generalize s.modArr _ = t at hout ⊢
        induction l generalizing t with
        | nil => exact hout
        | cons j l ih => exact ih _ (hout.trans (modInfl_settledOp ..))

/-! An entry that fails a check ends its list and its queue. -/

theorem arrDerr_frame (s : State) (addr : Addr) (cause fn : Nat) (string : BitVec 6) :
    arrDerr s addr cause fn string = { s with arr := (arrDerr s addr cause fn string).arr } := rfl

theorem arrDerr_arr (s : State) (addr : Addr) (cause fn : Nat) (string : BitVec 6) :
    (arrDerr s addr cause fn string).arr.derr = true ∧ (arrDerr s addr cause fn string).arr.ops = s.arr.ops := by
  show (if s.arr.derr then s.arr else _).derr = true ∧ (if s.arr.derr then s.arr else _).ops = s.arr.ops
  split
  next h => exact ⟨h, rfl⟩
  next => exact ⟨rfl, rfl⟩

/-- The state in which a list has ended and its queue has failed, before its operation is settled. -/
def listEnded (s : State) (o : ArrOp) (addr cause : Nat) : State :=
  let t := setOp s o.id (fun x => { x with lo := x.hi, items := x.lo, ended := true })
  let u := t.modArr (fun a => dropPositions a o.pos (o.hi - o.lo))
  failQueue (raise (arrDerr u (BitVec.ofNat 21 addr) cause 3 (BitVec.ofNat 6 o.group)) (arrFault cause) 1 (BitVec.ofNat 21 addr) cause) eARR none

theorem listFail_eq (s : State) (o : ArrOp) (addr cause : Nat) : listFail s o addr cause = settleOp (listEnded s o addr cause) o.id := rfl

theorem failQueue_cont {s : State} (h : s.flt.cont = true) (e : Nat) (own : Option Byte) : (failQueue s e own).flt.cont = true := by
  unfold failQueue
  exact signalMany_cont (s := dropWatch (setQ s e { qOf s e with wait := [], failed := true }) e) h _ _

/-- Every operation of the ended list's number has nothing left to claim. -/
theorem endedOps (s : State) (o : ArrOp) (x : ArrOp)
    (hx : x ∈ ((setOp s o.id (fun x => { x with lo := x.hi, items := x.lo, ended := true })).modArr
      (fun a => dropPositions a o.pos (o.hi - o.lo))).arr.ops) (hid : x.id = o.id) : x.lo = x.hi := by
  obtain ⟨y, hy, rfl⟩ := List.mem_map.mp hx
  obtain ⟨z, -, rfl⟩ := List.mem_map.mp hy
  by_cases hz : z.id = o.id
  · rw [if_pos hz]
  · rw [if_neg hz] at hid
    exact absurd hid hz

theorem listEnded_spec (s : State) (o : ArrOp) (addr cause : Nat) :
    (listEnded s o addr cause).arr.derr = true ∧ (∀ x ∈ (listEnded s o addr cause).arr.ops, x.id = o.id → x.lo = x.hi) ∧
      (listEnded s o addr cause).core = s.core ∧ (listEnded s o addr cause).mem = s.mem := by
  unfold listEnded
  dsimp only
  generalize hu : (setOp s o.id _).modArr _ = u
  have hcore : u.core = s.core ∧ u.mem = s.mem := by subst hu; exact ⟨rfl, rfl⟩
  rw [failQueue_frame, raise_frame, arrDerr_frame]
  obtain ⟨hderr, hops⟩ := arrDerr_arr u (BitVec.ofNat 21 addr) cause 3 (BitVec.ofNat 6 o.group)
  refine ⟨hderr, fun x hx hid => ?_, hcore.1, hcore.2⟩
  rw [hops, ← hu] at hx
  exact endedOps s o x hx hid

/-- What a list entry that fails a check leaves. -/
theorem listFail_spec (s : State) (o : ArrOp) (addr cause : Nat) :
    (qOf (listFail s o addr cause) eARR).wait = [] ∧ (qOf (listFail s o addr cause) eARR).failed = true ∧
      (listFail s o addr cause).flt.cont = true ∧ (listFail s o addr cause).arr.derr = true ∧
      (∀ x ∈ (listFail s o addr cause).arr.ops, x.id = o.id → x.lo = x.hi) ∧
      (listFail s o addr cause).core = s.core ∧ (listFail s o addr cause).mem = s.mem := by
  obtain ⟨hframe, hops, hwait, hfailed⟩ := settleOp_settledOp (listEnded s o addr cause) o.id
  obtain ⟨hderr, hend, hcore, hmem⟩ := listEnded_spec s o addr cause
  have hq : qOf (listEnded s o addr cause) eARR = _ := qOf_failQueue ..
  rw [hq] at hwait hfailed
  rw [listFail_eq]
  refine ⟨hwait, hfailed, ?_, ?_, fun x hx => hend x (hops x hx), ?_, ?_⟩
  · rw [hframe]
    exact failQueue_cont (raise_cont ..) ..
  · rw [hframe]; exact hderr
  · rw [hframe]; exact hcore
  · rw [hframe]; exact hmem

/-! The claim. -/

/-- The state in which a list entry has been read. -/
def entryRead (s : State) (o : ArrOp) (i : Nat) : State :=
  (touchSpans s rqDRAIN ((o.addr + 8 * o.lo, 8) :: descSpans s (entrySrc s o i))).modArr (fun a => { a with listEnt := a.listEnt + 1 })

theorem entryRead_reads (s : State) (o : ArrOp) (i : Nat) :
    Agree s (entryRead s o i) ∧ (entryRead s o i).core = s.core ∧ (entryRead s o i).arr = { s.arr with listEnt := s.arr.listEnt + 1 } := by
  unfold entryRead
  have hr := touchSpans_reads s rqDRAIN ((o.addr + 8 * o.lo, 8) :: descSpans s (entrySrc s o i))
  generalize touchSpans s rqDRAIN _ = t at hr ⊢
  refine ⟨hr.agree.trans (.of_kept rfl rfl rfl rfl), hr.core, ?_⟩
  rw [← hr.arr]; rfl

/-- The state in which a list entry is claimed, before its item begins. -/
def entryClaimed (t : State) (o : ArrOp) (skip : Bool) : State :=
  let u := setOp t o.id (fun x => { x with lo := x.lo + 1, pos := if skip then x.pos else x.pos + 1 })
  if skip then u.modArr (fun a => dropPositions a o.pos 1) else u

/-- The array that an entry's claim leaves: an entry whose bale is added into Y takes no position. -/
def claimedArr (a : Arr) (o : ArrOp) (skip : Bool) : Arr :=
  let c := { a with ops := a.ops.map (fun x => if x.id = o.id then { x with lo := x.lo + 1, pos := if skip then x.pos else x.pos + 1 } else x) }
  if skip then dropPositions c o.pos 1 else c

theorem entryClaimed_eq (t : State) (o : ArrOp) (skip : Bool) :
    entryClaimed t o skip = { t with arr := claimedArr t.arr o skip } := by cases skip <;> rfl

/-- The state that a claimed entry's item leaves. -/
def entryRun (s : State) (o : ArrOp) (d : ArrDesc) (i : Nat) : State :=
  runItem (entryClaimed (entryRead s o i) o (decide (d.out = 2))) i o d (bitsOf (listEntry s o) 20 0) (bitsOf (listEntry s o) 43 32) o.pos
    (BitVec.ofNat 8 (bitsOf (listEntry s o) 51 44)) (decide (o.lo + 1 = o.hi)) (listLead s i (bitsOf (listEntry s o) 20 0))

theorem entryRun_began (s : State) (o : ArrOp) (d : ArrDesc) (i : Nat) :
    let a := claimedArr { s.arr with listEnt := s.arr.listEnt + 1 } o (decide (d.out = 2))
    Began { s with arr := a }
      (newBale s i o d (bitsOf (listEntry s o) 43 32) o.pos (BitVec.ofNat 8 (bitsOf (listEntry s o) 51 44)) (decide (o.lo + 1 = o.hi))
        (listLead s i (bitsOf (listEntry s o) 20 0))) (entryRun s o d i) := by
  obtain ⟨hagree, -, harr⟩ := entryRead_reads s o i
  unfold entryRun
  rw [entryClaimed_eq, harr, ← newBale_congr hagree.man hagree.bytes]
  generalize entryRead s o i = t at hagree
  obtain ⟨hbufs, hops, hnext, hent, hsteals, hmac, hwm, hsame⟩ := runItem_began
    { t with arr := claimedArr { s.arr with listEnt := s.arr.listEnt + 1 } o (decide (d.out = 2)) } i o d (bitsOf (listEntry s o) 20 0)
    (bitsOf (listEntry s o) 43 32) o.pos (BitVec.ofNat 8 (bitsOf (listEntry s o) 51 44)) (decide (o.lo + 1 = o.hi))
    (listLead s i (bitsOf (listEntry s o) 20 0))
  exact ⟨hbufs, hops, hnext, hent, hsteals, hmac, hwm, fun x => (hsame x).trans (by rw [hagree.bytes])⟩

/-- A list entry's claim by its checks. -/
def entryOutcome (s : State) (o : ArrOp) (i : Nat) : State :=
  match entryEval (entryRead s o i) o i with
  | .error c => unstall (listFail (entryRead s o i) o (bitsOf (listEntry s o) 20 0) c)
  | .ok d => entryRun s o d i

theorem listEntryClaim_goes {s : State} {i : BitVec 6} {o : ArrOp} (hg : groupList s (strGrp s i.toNat) = some o) (hi : strIdle s i.toNat = true)
    (hf : servedFirst s i.toNat (fun _ => true) = false) (hw : spansWait s (entrySpans s o i.toNat) = false) :
    execListEntryClaim i s = .next (entryOutcome s o i.toNat) := by
  unfold execListEntryClaim
  rw [hg]
  dsimp only
  rw [whenMem_goes (by rw [hi, hf]; rfl) hw]
  refine congrArg Host.Outcome.next ?_
  unfold entryOutcome entryRun entryClaimed entryRead
  generalize (touchSpans s rqDRAIN ((o.addr + 8 * o.lo, 8) :: descSpans s (entrySrc s o i.toNat))).modArr _ = t
  cases entryEval t o i.toNat <;> rfl

theorem claimedArr_listEnt (a : Arr) (o : ArrOp) (skip : Bool) : (claimedArr a o skip).listEnt = a.listEnt := by cases skip <;> rfl

theorem entryOutcome_ok {s : State} {o : ArrOp} {i : Nat} {d : ArrDesc} (h : entryEval (entryRead s o i) o i = .ok d) :
    entryOutcome s o i = entryRun s o d i := by
  unfold entryOutcome
  rw [h]

theorem entryOutcome_error {s : State} {o : ArrOp} {i c : Nat} (h : entryEval (entryRead s o i) o i = .error c)
    (hkeep : ∀ k, s.core.mode ≠ .full k) : entryOutcome s o i = listFail (entryRead s o i) o (bitsOf (listEntry s o) 20 0) c := by
  obtain ⟨-, hcore, -⟩ := entryRead_reads s o i
  obtain ⟨-, -, -, -, -, hc, -⟩ := listFail_spec (entryRead s o i) o (bitsOf (listEntry s o) 20 0) c
  unfold entryOutcome
  rw [h]
  exact unstall_of_notFull (by rw [hc, hcore]; exact hkeep)

/-- Settles O30: an entry that passes its checks is an item of its list, one that fails ends the list and the queue. -/
theorem listClaims : Obligations.ListClaims := by
  unfold Obligations.ListClaims
  intro s i o hg hi hf hw e u
  have hgoes := listEntryClaim_goes hg hi hf hw
  have hu : u = entryRead s o i.toNat := by unfold u entryRead; rfl
  clear_value u
  subst hu
  refine ⟨?_, ?_⟩
  · intro d hd skip claimed a
    obtain ⟨hbufs, hops, hnext, hent, -, -, -, hsame⟩ := entryRun_began s o d i.toNat
    refine ⟨_, _, hgoes.trans (congrArg Host.Outcome.next (entryOutcome_ok hd)), hbufs, hops, hnext, hent.trans (claimedArr_listEnt ..), ?_⟩
    exact ⟨rfl, rfl, rfl, rfl, rfl, rfl, rfl, rfl, hsame⟩
  · intro c hc hkeep
    obtain ⟨hagree, -, -⟩ := entryRead_reads s o i.toNat
    obtain ⟨hwait, hfailed, hcont, hderr, hops, -, hm⟩ := listFail_spec (entryRead s o i.toNat) o (bitsOf (listEntry s o) 20 0) c
    exact ⟨_, hgoes.trans (congrArg Host.Outcome.next (entryOutcome_error hc hkeep)), hwait, hfailed, hcont, hderr, hops,
      fun x => by rw [hm, hagree.bytes]⟩

end Sys2Proof.Machine
end
section
/-! PROOFS. The drain of a finished bale (05 R137 to R141; 06 R156, R159; 11 R268). -/

namespace Sys2Proof.Machine

/-! The bale that finished earliest. -/

/-- Bale a finished before bale b, or with it on a lower string. -/
theorem Bale.before_iff (a b : Bale) : a.before b = true ↔ a.fin < b.fin ∨ (a.fin = b.fin ∧ a.string ≤ b.string) := by simp [Bale.before]

theorem firstBale_mem {l : List Bale} {b : Bale} (h : firstBale l = some b) : b ∈ l := by
  induction l generalizing b with
  | nil => cases h
  | cons c l ih =>
    rw [firstBale] at h
    split at h
    next => exact Option.some.inj h ▸ List.mem_cons_self
    next d hd =>
      split at h
      · exact Option.some.inj h ▸ List.mem_cons_self
      · exact List.mem_cons_of_mem _ (ih (hd.trans h))

theorem firstBale_none {l : List Bale} (h : firstBale l = none) : l = [] := by
  cases l with
  | nil => rfl
  | cons c l =>
    rw [firstBale] at h
    split at h
    next => cases h
    next => split at h <;> cases h

theorem firstBale_before {l : List Bale} {b : Bale} (h : firstBale l = some b) : ∀ c ∈ l, b.before c = true := by
  induction l generalizing b with
  | nil => cases h
  | cons d l ih =>
    rw [firstBale] at h
    have hself : ∀ x : Bale, x.before x = true := fun x => (Bale.before_iff x x).mpr (.inr ⟨rfl, le_rfl⟩)
    split at h
    next hnone =>
      obtain rfl := Option.some.inj h
      rw [firstBale_none hnone]
      intro c hc
      rw [List.mem_singleton.mp hc]
      exact hself d
    next e he =>
      have hfirst := ih he
      split at h
      next hbefore =>
        obtain rfl := Option.some.inj h
        refine List.forall_mem_cons.mpr ⟨hself d, fun c hc => ?_⟩
        have hec := (Bale.before_iff e c).mp (hfirst c hc)
        have hde := (Bale.before_iff d e).mp hbefore
        exact (Bale.before_iff d c).mpr (by omega)
      next hafter =>
        obtain rfl := Option.some.inj h
        refine List.forall_mem_cons.mpr ⟨(Bale.before_iff e d).mpr ?_, hfirst⟩
        have hde := mt (Bale.before_iff d e).mpr hafter
        omega

theorem nextBale_spec {s : State} {b : Bale} (h : nextBale s = some b) :
    b ∈ s.arr.bufs.filter (fun b => decide (b.left = 0) && drainable s b) ∧ (b.desc.out ≠ 2 → s.arr.bq.length < 8) ∧
      ∀ c ∈ s.arr.bufs.filter (fun b => decide (b.left = 0) && drainable s b), b.before c = true := by
  obtain ⟨hw, hroom⟩ := Option.filter_eq_some_iff.mp h
  refine ⟨firstBale_mem hw, fun hne => ?_, firstBale_before hw⟩
  simpa [hne] using hroom

/-! Privileged columns. -/

theorem columns_spec (f : Nat → Bool) (n : Nat) :
    let m := (List.range n).foldl (fun m c => if f c then m + 2 ^ c else m) 0
    m < 2 ^ n ∧ ∀ c, m.testBit c = (decide (c < n) && f c) := by
  induction n with
  | zero => simp
  | succ n ih =>
    obtain ⟨hlt, hbits⟩ := ih
    rw [List.range_succ, List.foldl_append]
    dsimp only [List.foldl_cons, List.foldl_nil]
    generalize (List.range n).foldl (fun m c => if f c then m + 2 ^ c else m) 0 = m at hlt hbits
    have hpow : 2 ^ (n + 1) = 2 ^ n + 2 ^ n := by omega
    cases hn : f n with
    | false =>
      refine ⟨by simp; omega, fun c => ?_⟩
      rw [if_neg Bool.false_ne_true, hbits]
      by_cases hc : c = n
      · simp [hc, hn]
      · simp [show c < n + 1 ↔ c < n by omega]
    | true =>
      refine ⟨by simp; omega, fun c => ?_⟩
      rw [if_pos rfl, Nat.add_comm]
      rcases Nat.lt_trichotomy c n with hc | rfl | hc
      · rw [Nat.testBit_two_pow_add_gt hc, hbits]
        simp [hc, show c < n + 1 by omega]
      · rw [Nat.testBit_two_pow_add_eq, hbits]
        simp [hn]
      · have hsmall : 2 ^ n + m < 2 ^ c := (show 2 ^ n + m < 2 ^ (n + 1) by omega).trans_le (Nat.pow_le_pow_right (by decide) hc)
        rw [Nat.testBit_lt_two_pow hsmall]
        simp [show ¬ c < n + 1 by omega]

theorem baleCols_spec (b : Bale) :
    baleCols b < 65536 ∧ ∀ c, c < 16 → (baleCols b).testBit c = (b.desc.deriv && b.desc.pmask.getLsbD (outCol b.desc b.item c)) := by
  unfold baleCols
  cases hd : b.desc.deriv with
  | false => exact ⟨by simp, fun c _ => by simp⟩
  | true =>
    obtain ⟨hlt, hbits⟩ := columns_spec (fun c => b.desc.pmask.getLsbD (outCol b.desc b.item c)) 16
    refine ⟨hlt, fun c hc => ?_⟩
    rw [if_pos rfl, hbits]
    simp [hc]

/-- The values after derivative Table 1 by the mask itself. -/
theorem baleVals_eq (s : State) (b : Bale) :
    baleVals s b = b.vals.mapIdx (fun p v =>
      if b.desc.deriv = true ∧ b.desc.pmask.getLsbD (outCol b.desc b.item (p % 16)) = false then
        let q := outPlace b.desc b.desc.c b.item (p / 16) (p % 16)
        fMul v (dt1 s (b.desc.c.rawCode s.mem.bytes q.1 q.2))
      else v) := by
  unfold baleVals
  cases hd : b.desc.deriv with
  | false => exact List.ext_getElem (by simp) fun i _ _ => by simp
  | true =>
    rw [if_pos rfl]
    refine List.ext_getElem (by simp) fun i _ _ => ?_
    have hbit := (baleCols_spec b).2 (i % 16) (Nat.mod_lt _ (by decide))
    rw [hd, Bool.true_and] at hbit
    rw [List.getElem_mapIdx, List.getElem_mapIdx, hbit]
    cases b.desc.pmask.getLsbD (outCol b.desc b.item (i % 16)) <;> rfl

/-! The record (05 Table 7). -/

theorem baleRecord_tag (b : Bale) (string fmt cols : Nat) : (baleRecord b string fmt cols).extractLsb' 0 8 = b.tag := by
  have htag := b.tag.isLt
  refine extract_ofNat (by decide) ?_
  rw [flag_eq]
  split <;> omega

theorem baleRecord_fields (b : Bale) {string fmt cols : Nat} (hitem : b.item < 4096) (hstr : string < 64) (hfmt : fmt < 16) (hcols : cols < 65536) :
    ((baleRecord b string fmt cols).extractLsb' 8 12).toNat = b.item ∧ ((baleRecord b string fmt cols).extractLsb' 20 6).toNat = string ∧
      ((baleRecord b string fmt cols).extractLsb' 26 4).toNat = fmt ∧ (baleRecord b string fmt cols).getLsbD 30 = decide (cols ≠ 0) ∧
      (baleRecord b string fmt cols).getLsbD 31 = b.last ∧ ((baleRecord b string fmt cols).extractLsb' 32 16).toNat = cols := by
  have htag := b.tag.isLt
  have hlast := b.last.toNat_lt
  have hpriv : (if cols = 0 then 0 else 2 ^ 30) = 2 ^ 30 * (decide (cols ≠ 0)).toNat := by by_cases h : cols = 0 <;> simp [h]
  have hp := (decide (cols ≠ 0)).toNat_lt
  have hfield : ∀ {lo len v : Nat}, lo + len ≤ 64 → v < 2 ^ len →
      (b.tag.toNat + 2 ^ 8 * b.item + 2 ^ 20 * string + 2 ^ 26 * fmt + 2 ^ 30 * (decide (cols ≠ 0)).toNat + 2 ^ 31 * b.last.toNat + 2 ^ 32 * cols) /
        2 ^ lo % 2 ^ len = v → ((baleRecord b string fmt cols).extractLsb' lo len).toNat = v := by
    intro lo len v hn hv hx
    rw [baleRecord, hpriv, flag_eq, extract_ofNat (y := BitVec.ofNat len v) hn (by rw [hx, BitVec.toNat_ofNat, Nat.mod_eq_of_lt hv]),
      BitVec.toNat_ofNat, Nat.mod_eq_of_lt hv]
  refine ⟨hfield (by decide) (by omega) (by omega), hfield (by decide) (by omega) (by omega), hfield (by decide) (by omega) (by omega), ?_, ?_,
    hfield (by decide) (by omega) (by omega)⟩
  · rw [baleRecord, hpriv, flag_eq]
    exact getLsbD_ofNat_of (by decide) (by omega)
  · rw [baleRecord, hpriv, flag_eq]
    exact getLsbD_ofNat_of (by decide) (by omega)

/-! The addition into Y. -/

/-- Elements narrowed to their places one after another: their writings, the latest first, and observations alone. -/
theorem putPlaces_writes {α : Type} (l : Layout) (step : BitVec 48) (at_ : α → Nat × Nat) (v : α → Word) (qs : List α) (e : Emit) :
    let f := qs.foldl (fun e q => putElem e l step (at_ q).1 (at_ q).2 (v q)) e
    f.s = { e.s with wgh := f.s.wgh } ∧
      f.wr = (qs.map (fun q => (l.elemAddr (at_ q).1 (at_ q).2, (l.store (rndOf e.s l step) (at_ q).1 (at_ q).2 (v q)).1))).reverse ++ e.wr := by
  induction qs generalizing e with
  | nil => exact ⟨rfl, rfl⟩
  | cons q qs ih =>
    have hs : (putElem e l step (at_ q).1 (at_ q).2 (v q)).s =
        { e.s with wgh := (putElem e l step (at_ q).1 (at_ q).2 (v q)).s.wgh } := by
      unfold putElem Emit.put
      dsimp only
      rw [observe_eq]
    have hrnd : rndOf (putElem e l step (at_ q).1 (at_ q).2 (v q)).s l step = rndOf e.s l step := by
      funext i
      rw [hs]
      rfl
    obtain ⟨hfs, hfw⟩ := ih (putElem e l step (at_ q).1 (at_ q).2 (v q))
    refine ⟨?_, ?_⟩
    · rw [List.foldl_cons, hfs, hs]
    · rw [List.foldl_cons, hfw, hrnd, List.map_cons, List.reverse_cons, List.append_assoc]
      rfl

/-- What the addition of a bale into Y writes. -/
def accWrites (s : State) (b : Bale) (vals : List Word) : Writes :=
  vals.mapIdx (fun p v =>
    let y := b.desc.y
    let r := (b.place p).1
    let c := (b.place p).2
    (y.elemAddr r c, codeBytes y.width (narrowCode y.fmt y.s (roundingOf y.sr (rndOf s y b.desc.stepField) (y.index r c))
      (fAdd (y.widen s.mem.bytes r c) v)).code))

theorem accWrites_congr {s t : State} (h : Agree s t) (b : Bale) (vals : List Word) : accWrites t b vals = accWrites s b vals := by
  unfold accWrites
  dsimp only
  rw [h.rndOf, h.bytes]

/-- The elements of Y with the values of a bale added, as they are written. -/
def accEmit (t : State) (b : Bale) (vals : List Word) : Emit :=
  (vals.mapIdx (fun p v => (b.place p, v))).foldl (fun (e : Emit) qv =>
    putElem e b.desc.y b.desc.stepField qv.1.1 qv.1.2 (fAdd (b.desc.y.widen t.mem.bytes qv.1.1 qv.1.2) qv.2)) { s := t }

theorem accEmit_writes (t : State) (b : Bale) (vals : List Word) :
    (accEmit t b vals).s = { t with wgh := (accEmit t b vals).s.wgh } ∧ (accEmit t b vals).writes = accWrites t b vals := by
  obtain ⟨hs, hw⟩ := putPlaces_writes b.desc.y b.desc.stepField (fun q : (Nat × Nat) × Word => q.1)
    (fun q => fAdd (b.desc.y.widen t.mem.bytes q.1.1 q.1.2) q.2) (vals.mapIdx (fun p v => (b.place p, v))) { s := t }
  refine ⟨hs, ?_⟩
  rw [Emit.writes, accEmit, hw, List.append_nil, List.reverse_reverse]
  exact List.ext_getElem (by simp [accWrites]) fun i _ _ => by simp [accWrites, Layout.store]

theorem accumulate_eq (s : State) (b : Bale) (vals : List Word) :
    accumulate s b vals = memWrJoined (accEmit (touchSpans s rqDRAIN (accSpans b)) b vals).s rqDRAIN
      (accEmit (touchSpans s rqDRAIN (accSpans b)) b vals).writes := rfl

theorem accumulate_spec (s : State) (b : Bale) (vals : List Word) :
    (accumulate s b vals).arr = s.arr ∧ (accumulate s b vals).jrnl = s.jrnl ∧
      (NoDouble s → InMemory (accWrites s b vals) → Landed s (accumulate s b vals) (accWrites s b vals)) := by
  have hr := touchSpans_reads s rqDRAIN (accSpans b)
  have hd := fun h : NoDouble s => touchSpans_noDouble h rqDRAIN (accSpans b)
  rw [accumulate_eq]
  generalize touchSpans s rqDRAIN (accSpans b) = t at hr hd
  obtain ⟨hs, hw⟩ := accEmit_writes t b vals
  rw [hw, accWrites_congr hr.agree]
  have hacc := memWrJoined_access (accEmit t b vals).s rqDRAIN (accWrites s b vals)
  refine ⟨?_, ?_, fun hnd hin => ?_⟩
  · rw [hacc, hs]; exact hr.arr
  · rw [hacc, hs]; exact hr.jrnl
  · have hmem : (accEmit t b vals).s.mem = t.mem := by rw [hs]
    have hnd' : NoDouble (accEmit t b vals).s := (hd hnd).of_ecc (congrArg (·.ecc) hmem)
    exact (memWrJoined_landed hnd' rqDRAIN hin).of_mem (by rw [hmem, hr.bytes]) rfl

/-! The drain. -/

/-- The end of a drain: its operation has one bale less to come. -/
def drained (u : State) (id : Nat) : State := progress (settleOp (setOp u id (fun o => { o with drained := o.drained + 1 })) id)

theorem drained_frame (u : State) (id : Nat) :
    drained u id = { u with arr := { u.arr with ops := (drained u id).arr.ops }, q := (drained u id).q, syn := (drained u id).syn } := by
  unfold drained
  rw [(settleOp_settledOp ..).frame]
  rfl

/-- The state in which the drain has taken a bale. -/
def baleTaken (s : State) (b : Bale) : State := (touchSpans s rqDRAIN (codeSpans b)).modArr (fun a => takeBuf a b)

theorem baleTaken_spec (s : State) (b : Bale) :
    Agree s (baleTaken s b) ∧ (baleTaken s b).arr = takeBuf s.arr b ∧ (baleTaken s b).jrnl = s.jrnl ∧ (NoDouble s → NoDouble (baleTaken s b)) := by
  unfold baleTaken
  have hr := touchSpans_reads s rqDRAIN (codeSpans b)
  have hd := fun h : NoDouble s => touchSpans_noDouble h rqDRAIN (codeSpans b)
  generalize touchSpans s rqDRAIN (codeSpans b) = t at hr hd
  refine ⟨hr.agree.trans (.of_kept rfl rfl rfl rfl), ?_, hr.jrnl, fun h => (hd h).of_ecc rfl⟩
  rw [← hr.arr]; rfl

theorem baleDrain_goes {s : State} {b : Bale} (hn : nextBale s = some b) (hon : unitsOn s = true)
    (hw : spansWait s (codeSpans b ++ accSpans b) = false) :
    execBaleDrain s = .next (drained (if b.desc.out = 2 then drainAcc (baleTaken s b) b (baleVals s b)
      else drainQueue (baleTaken s b) b (baleVals s b)) b.opId) := by
  unfold execBaleDrain
  rw [hn]
  dsimp only
  rw [whenMem_goes hon hw]
  rfl

/-- The converted elements of a bale. -/
def convCodes (s : State) (b : Bale) (vals : List Word) : List Narrowed :=
  vals.mapIdx (fun p v => narrowCode b.desc.y.fmt b.desc.y.s
    (roundingOf b.desc.y.sr (rndOf s b.desc.y b.desc.stepField) (b.desc.y.index (b.place p).1 (b.place p).2)) v)

/-- A bale of OUT 1 is converted where its format and its columns let it. -/
def baleConv (b : Bale) : Bool := decide (b.desc.out = 1) && !fmtIsMx b.desc.y.fmt && decide (baleCols b = 0)

/-- The format of a bale's codes. -/
def baleFmt (b : Bale) : Nat := if baleConv b then b.desc.y.fmt else 0

/-- What the drain puts into the bale queue. -/
def queuedBale (s : State) (b : Bale) (vals : List Word) : QBale :=
  { pos := b.pos, rcd := baleRecord b b.string (baleFmt b) (baleCols b)
    codes := if baleConv b then (convCodes s b vals).map (·.code) else vals.map (·.toNat) }

theorem queuedBale_congr {s t : State} (h : Agree s t) (b : Bale) (vals : List Word) : queuedBale t b vals = queuedBale s b vals := by
  unfold queuedBale convCodes
  rw [h.rndOf]

theorem drainQueue_spec (s : State) (b : Bale) (vals : List Word) :
    (drainQueue s b vals).arr = { s.arr with bq := s.arr.bq ++ [queuedBale s b vals] } ∧
      (drainQueue s b vals).jrnl.toArr = s.jrnl.toArr ++
        [unitOfData 2 (baleRecord b 0 (baleFmt b) (baleCols b)).toNat (packCodes (fmtWidth (baleFmt b)) (queuedBale s b vals).codes)] ∧
      (drainQueue s b vals).mem = s.mem := by
  have hseen : ∀ xs, ∃ w, (if baleConv b then observe s b.desc.y.tensor b.desc.y.fmt xs else s) = { s with wgh := w } := by
    intro xs
    split
    · exact ⟨_, observe_eq ..⟩
    · exact ⟨s.wgh, rfl⟩
  unfold drainQueue
  dsimp only
  obtain ⟨w, hw⟩ := hseen (List.zipWith (fun v (z : Narrowed) => ⟨v, z.sat, z.toInf⟩) vals (convCodes s b vals))
  unfold baleConv convCodes at hw
  rw [hw]
  exact ⟨rfl, rfl, rfl⟩

theorem drainAcc_spec (s : State) (b : Bale) (vals : List Word) :
    (drainAcc s b vals).arr = s.arr ∧ (drainAcc s b vals).jrnl.toArr.length = s.jrnl.toArr.length + 1 ∧
      (NoDouble s → InMemory (accWrites s b vals) → Landed s (drainAcc s b vals) (accWrites s b vals)) := by
  obtain ⟨harr, hjrnl, hland⟩ := accumulate_spec s b vals
  refine ⟨harr, ?_, hland⟩
  have hunit : ∀ (t : State) (f : BitVec 2) (i : Nat) (l : List Byte), (creditArr t f i l).jrnl.toArr.length = t.jrnl.toArr.length + 1 :=
    fun t f i l => List.length_append
  rw [drainAcc, hunit, hjrnl]

/-- A drain into the bale queue. -/
theorem baleDrain_queues {s : State} {b : Bale} (hn : nextBale s = some b) (hon : unitsOn s = true)
    (hw : spansWait s (codeSpans b ++ accSpans b) = false) (hout : b.desc.out ≠ 2) :
    ∃ t, execBaleDrain s = .next t ∧ t.arr.bq = s.arr.bq ++ [queuedBale s b (baleVals s b)] ∧ t.arr.bufs = s.arr.bufs.erase b ∧
      t.arr.bales = s.arr.bales + 1 ∧ t.jrnl.toArr = s.jrnl.toArr ++
        [unitOfData 2 (baleRecord b 0 (baleFmt b) (baleCols b)).toNat (packCodes (fmtWidth (baleFmt b)) (queuedBale s b (baleVals s b)).codes)] ∧
      SameBytes s t := by
  have hgoes := baleDrain_goes hn hon hw
  rw [if_neg hout] at hgoes
  obtain ⟨hagree, harr, hjrnl, -⟩ := baleTaken_spec s b
  obtain ⟨hqarr, hqjrnl, hqmem⟩ := drainQueue_spec (baleTaken s b) b (baleVals s b)
  rw [queuedBale_congr hagree] at hqarr hqjrnl
  rw [harr] at hqarr
  rw [hjrnl] at hqjrnl
  refine ⟨_, hgoes, ?_⟩
  rw [drained_frame]
  generalize drainQueue (baleTaken s b) b (baleVals s b) = u at hqarr hqjrnl hqmem
  exact ⟨congrArg (·.bq) hqarr, congrArg (·.bufs) hqarr, congrArg (·.bales) hqarr, hqjrnl, fun a => by
    show memByte u.mem.bytes a = _
    rw [hqmem, hagree.bytes]⟩

/-- A drain into Y. -/
theorem baleDrain_adds {s : State} {b : Bale} (hn : nextBale s = some b) (hon : unitsOn s = true)
    (hw : spansWait s (codeSpans b ++ accSpans b) = false) (hout : b.desc.out = 2) :
    ∃ t, execBaleDrain s = .next t ∧ t.arr.bq = s.arr.bq ∧ t.arr.bufs = s.arr.bufs.erase b ∧ t.arr.bales = s.arr.bales + 1 ∧
      t.jrnl.toArr.length = s.jrnl.toArr.length + 1 ∧
      (NoDouble s → InMemory (accWrites s b (baleVals s b)) → Landed s t (accWrites s b (baleVals s b))) := by
  have hgoes := baleDrain_goes hn hon hw
  rw [if_pos hout] at hgoes
  obtain ⟨hagree, harr, hjrnl, hnd⟩ := baleTaken_spec s b
  obtain ⟨hyarr, hyjrnl, hyland⟩ := drainAcc_spec (baleTaken s b) b (baleVals s b)
  rw [accWrites_congr hagree] at hyland
  rw [harr] at hyarr
  rw [hjrnl] at hyjrnl
  refine ⟨_, hgoes, ?_⟩
  rw [drained_frame]
  generalize drainAcc (baleTaken s b) b (baleVals s b) = u at hyarr hyjrnl hyland
  exact ⟨congrArg (·.bq) hyarr, congrArg (·.bufs) hyarr, congrArg (·.bales) hyarr, hyjrnl,
    fun hd hin => (hyland (hnd hd) hin).of_mem hagree.bytes.symm rfl⟩

/-- Settles O31: the drain takes the first of the finished bales, and queues it or adds it into Y. -/
theorem baleDrain : Obligations.BaleDrain := by
  unfold Obligations.BaleDrain
  refine ⟨fun s b hn => ?_, ?_⟩
  · obtain ⟨hmem, hroom, hfirst⟩ := nextBale_spec hn
    obtain ⟨hbuf, hp⟩ := List.mem_filter.mp hmem
    obtain ⟨hleft, hdrain⟩ := Bool.and_eq_true_iff.mp hp
    refine ⟨hbuf, of_decide_eq_true hleft, hroom, fun hstrict hout => ?_, fun c hc hcleft hmay => ?_⟩
    · simpa [drainable, hstrict, hout] using hdrain
    · refine (Bale.before_iff b c).mp (hfirst c (List.mem_filter.mpr ⟨hc, ?_⟩))
      rcases hmay with h | h | ⟨h, h'⟩ <;> simp [drainable, *]
  · intro s b hn hon hw d cols vals
    have hvals : vals = baleVals s b := (baleVals_eq s b).symm
    clear_value vals
    subst hvals
    refine ⟨?_, ?_⟩
    · intro hout conv fmt narrowed
      obtain ⟨t, hexec, hbq, hbufs, hbales, hjrnl, hsame⟩ := baleDrain_queues hn hon hw hout
      obtain ⟨hcols, hbits⟩ := baleCols_spec b
      refine ⟨t, _, hexec, hbq, rfl, rfl, baleRecord_tag .., fun hi hs hf => baleRecord_fields b hi hs hf hcols, hbits, hbufs, hbales, hjrnl, hsame⟩
    · intro hout y ws
      exact baleDrain_adds hn hon hw hout

end Sys2Proof.Machine
end
section
/-! PROOFS. Counter mode undoes itself (15 R371). -/

namespace Sys2Proof.Machine

theorem gctr_nil (rk : List (List Nat)) (n cb : Nat) : gctr rk n cb [] = [] := by cases n <;> rfl

/-- One block of counter mode. -/
def ctrBlock (rk : List (List Nat)) (cb : Nat) (bs : List Byte) : List Byte :=
  List.zipWith (fun (a : Byte) k => a ^^^ BitVec.ofNat 8 k) (bs.take 16) (beBytes 16 (aesBlock rk cb))

theorem beBytes_length (n x : Nat) : (beBytes n x).length = n := by simp [beBytes]

theorem gctr_succ (rk : List (List Nat)) (n cb : Nat) {bs : List Byte} (h : bs ≠ []) :
    gctr rk (n + 1) cb bs = ctrBlock rk cb bs ++ gctr rk n (cb / 2 ^ 32 * 2 ^ 32 + (cb + 1) % 2 ^ 32) (bs.drop 16) := by
  cases bs with
  | nil => exact absurd rfl h
  | cons b bs => rfl

theorem ctrBlock_length (rk : List (List Nat)) (cb : Nat) (bs : List Byte) : (ctrBlock rk cb bs).length = min 16 bs.length := by
  rw [ctrBlock, List.length_zipWith, List.length_take, beBytes_length]
  omega

/-- A block of which only the first 16 bytes count, encrypted twice, is itself. -/
theorem ctrBlock_ctrBlock (rk : List (List Nat)) (cb : Nat) (bs cs : List Byte) (h : cs.take 16 = ctrBlock rk cb bs) :
    ctrBlock rk cb cs = bs.take 16 := by
  have hlen : (ctrBlock rk cb bs).length = (bs.take 16).length := by rw [ctrBlock_length, List.length_take]
  rw [ctrBlock, h]
  refine List.ext_getElem ?_ fun i hi _ => ?_
  · rw [List.length_zipWith, hlen, beBytes_length, List.length_take]
    omega
  · rw [List.getElem_zipWith]
    simp only [ctrBlock, List.getElem_zipWith, BitVec.xor_assoc, BitVec.xor_self, BitVec.xor_zero]

theorem gctr_length (rk : List (List Nat)) (n cb : Nat) {bs : List Byte} (h : bs.length ≤ n) : (gctr rk n cb bs).length = bs.length := by
  induction n generalizing cb bs with
  | zero => rw [List.eq_nil_of_length_eq_zero (Nat.le_zero.mp h), gctr_nil]
  | succ n ih =>
    by_cases hb : bs = []
    · rw [hb, gctr_nil]
    · have hpos := List.length_pos_iff.mpr hb
      rw [gctr_succ rk n cb hb, List.length_append, ctrBlock_length, ih _ (by rw [List.length_drop]; omega), List.length_drop]
      omega

/-- Counter mode undoes itself. -/
theorem gctr_gctr (rk : List (List Nat)) (n cb : Nat) {bs : List Byte} (h : bs.length ≤ n) : gctr rk n cb (gctr rk n cb bs) = bs := by
  induction n generalizing cb bs with
  | zero => rw [List.eq_nil_of_length_eq_zero (Nat.le_zero.mp h), gctr_nil, gctr_nil]
  | succ n ih =>
    by_cases hb : bs = []
    · rw [hb, gctr_nil, gctr_nil]
    · have hpos := List.length_pos_iff.mpr hb
      have hrest : (bs.drop 16).length ≤ n := by rw [List.length_drop]; omega
      have hne : gctr rk (n + 1) cb bs ≠ [] := List.length_pos_iff.mp (by rw [gctr_length _ _ _ h]; exact hpos)
      have hlen := ctrBlock_length rk cb bs
      rw [gctr_succ _ _ _ hne]
      generalize hcb : cb / 2 ^ 32 * 2 ^ 32 + (cb + 1) % 2 ^ 32 = cb'
      have hcut : (gctr rk (n + 1) cb bs).take 16 = ctrBlock rk cb bs ∧ (gctr rk (n + 1) cb bs).drop 16 = gctr rk n cb' (bs.drop 16) := by
        rw [gctr_succ _ _ _ hb, hcb]
        by_cases hlong : 16 ≤ bs.length
        · rw [Nat.min_eq_left hlong] at hlen
          exact ⟨List.take_left' hlen, List.drop_left' hlen⟩
        · rw [List.drop_eq_nil_of_le (by omega), gctr_nil, List.append_nil]
          exact ⟨List.take_of_length_le (by omega), List.drop_eq_nil_of_le (by omega)⟩
      rw [hcut.2, ctrBlock_ctrBlock rk cb bs _ hcut.1, ih cb' hrest, List.take_append_drop]

/-- Settles O43: the tag is that of the ciphertext, and counter mode undoes itself. -/
theorem sealedBlocksOpen : Obligations.SealedBlocksOpen := by
  unfold Obligations.SealedBlocksOpen
  intro key iv aad plain
  rw [gcmOpen, if_pos rfl, gcmCrypt, gcmCrypt, gctr_length _ _ _ le_rfl, gctr_gctr _ _ _ le_rfl]

end Sys2Proof.Machine
end
section
/-! PROOFS. A STR operation becomes a transfer (13 R322, R324; 12 R299). -/

namespace Sys2Proof.Machine

/-- No check fails when the lowest failing cause is 0. -/
theorem lowest_eq_zero {l : List (Bool × Nat)} (hne : ∀ p ∈ l, p.1 = true → p.2 ≠ 0) (h : lowest l = 0) : ∀ p ∈ l, p.1 = false := by
  have hfold : ∀ (cs : List Nat) (m : Nat), (∀ c ∈ cs, c ≠ 0) → cs.foldl (fun m c => if m = 0 ∨ c < m then c else m) m = 0 → m = 0 ∧ cs = [] := by
    intro cs
    induction cs with
    | nil => exact fun m _ hm => ⟨hm, rfl⟩
    | cons c cs ih =>
      intro m hcs hm
      obtain ⟨hc, hcs⟩ := List.forall_mem_cons.mp hcs
      obtain ⟨hzero, -⟩ := ih _ hcs hm
      dsimp only at hzero
      split at hzero <;> omega
  have hcauses : ∀ c ∈ (l.filter (·.1)).map (·.2), c ≠ 0 := by
    intro c hc
    obtain ⟨p, hp, rfl⟩ := List.mem_map.mp hc
    exact hne p (List.mem_filter.mp hp).1 (List.mem_filter.mp hp).2
  obtain ⟨-, hnil⟩ := hfold _ 0 hcauses h
  intro p hp
  exact Bool.eq_false_iff.mpr (List.filter_eq_nil_iff.mp (List.map_eq_nil_iff.mp hnil) p hp)

/-- What a STR operation without a failing check satisfies. -/
theorem strCause_zero {s : State} {ent : QEntry} {k : StrKind} (h : strCause s ent k = 0) : ent.a.toNat % 512 = 0 ∧ ent.fs.toNat ≠ 0 := by
  have hall := lowest_eq_zero (l := _) ?_ h
  · have hfirst := hall _ List.mem_cons_self
    simp only [Bool.or_eq_false_iff, decide_eq_false_iff_not] at hfirst
    obtain ⟨⟨⟨⟨⟨hblk, -⟩, -⟩, -⟩, hn⟩, -⟩ := hfirst
    exact ⟨not_not.mp hblk, hn⟩
  · simp only [List.forall_mem_cons, decide_eq_true_eq, Bool.and_eq_true, Bool.not_eq_true']
    exact ⟨fun _ => by decide, id, fun _ => by decide, fun hp => hp.2, fun p hp => by cases hp⟩

theorem cfg_lt (s : State) (o n : Nat) : cfg s o n < 256 ^ n := by
  have h := leNat_lt ((List.range n).map (fun i => liveByte s (o + i)))
  rw [List.length_map, List.length_range] at h
  exact h

theorem attachedOn_congr {s t : State} (hm : t.man = s.man) (hs : t.sec = s.sec) (c : Nat) : attachedOn t c = attachedOn s c := by
  unfold attachedOn ctxAttached
  rw [cfg_congr hm, cfgBits_congr hm, hs]

/-- The state in which a STR operation is in flight. -/
def strInFlight (t : State) (ent : QEntry) (att : Bool) : State :=
  let u := putInfl t eSTR ent none false
  if att then modInfl u eSTR t.opId (fun x => { x with mute := true }) else u

theorem strInFlight_frame (t : State) (ent : QEntry) (att : Bool) :
    strInFlight t ent att = { t with q := (strInFlight t ent att).q, opId := t.opId + 1 } := by cases att <;> rfl

theorem strInFlight_infl (t : State) (ent : QEntry) (att : Bool) :
    ∃ x ∈ (qOf (strInFlight t ent att) eSTR).infl, x.ent = ent ∧ x.id = t.opId ∧ x.done = false := by
  have hput := (qOf_putInfl t eSTR eSTR ent none false).trans (if_pos rfl)
  have hinfl : ({ ent := ent, id := t.opId, wb := none, done := false } : Infl) ∈ (qOf (putInfl t eSTR ent none false) eSTR).infl := by
    rw [hput]
    exact List.mem_append_right _ (List.mem_singleton_self _)
  cases att with
  | false => exact ⟨_, hinfl, rfl, rfl, rfl⟩
  | true =>
    have hmod : (qOf (strInFlight t ent true) eSTR).infl = (qOf (putInfl t eSTR ent none false) eSTR).infl.map
        (fun x => if x.id = t.opId then { x with mute := true } else x) :=
      congrArg EngQ.infl ((qOf_modQ (putInfl t eSTR ent none false) eSTR eSTR (fun q => { q with
        infl := q.infl.map (fun x => if x.id = t.opId then { x with mute := true } else x) })).trans (if_pos rfl))
    rw [hmod]
    exact ⟨_, List.mem_map_of_mem hinfl, by rw [if_pos rfl], by rw [if_pos rfl], by rw [if_pos rfl]⟩

/-- The state that a STR operation without a failing check leaves. -/
def strAccepted (t : State) (ent : QEntry) (k : StrKind) : State :=
  let att := decide (k = .rput) && ent.sv.isSome && attachedOn t ent.ctx.toNat
  newJob (strInFlight t ent att) t.opId .str k ent.ctx ent.sub (ent.a.toNat / 512) ent.b.toNat ent.fs.toNat none (if att then some ent.sid else none)

theorem strOp_goes {s : State} {ent : QEntry} {k : StrKind} {fn : Nat} (h : Head s eSTR fn ent) (hs : s.sec.stop = false)
    (hc : strCause (left s eSTR ent) ent k = 0) : strOp s k fn = .next (settled (strAccepted (left s eSTR ent) ent k) eSTR) := by
  rw [strOp, dispatch_goes h (by rw [hs]; rfl)]
  refine congrArg (fun t => Host.Outcome.next (settled t eSTR)) ?_
  rw [hc]
  rfl

/-- Settles O42: the operation is in flight, and its transfer behind the others. -/
theorem streamAccepts : Obligations.StreamAccepts := by
  unfold Obligations.StreamAccepts
  intro s ent i k fn hi h hs hc
  have hexec : exec i s = strOp s k fn := by
    simp only [List.mem_cons, Prod.mk.injEq, List.not_mem_nil, or_false] at hi
    rcases hi with ⟨rfl, rfl, rfl⟩ | ⟨rfl, rfl, rfl⟩ | ⟨rfl, rfl, rfl⟩ <;> rfl
  rw [hexec, strOp_goes h hs hc]
  obtain ⟨hblk, hn⟩ := strCause_zero hc
  have hsec : (left s eSTR ent).sec = s.sec := left_sec ..
  have hstr : (left s eSTR ent).str = s.str := left_str ..
  have hop : (left s eSTR ent).opId = s.opId := left_opId ..
  have hman : (left s eSTR ent).man = s.man := left_man ..
  rw [strAccepted, attachedOn_congr hman hsec, hop, newJob_jobs, strInFlight_frame, hstr, hop]
  obtain ⟨x, hx, hent, hid, hdone⟩ := strInFlight_infl (left s eSTR ent) ent (decide (k = .rput) && ent.sv.isSome && attachedOn s ent.ctx.toNat)
  refine ⟨_, _, rfl, rfl, rfl, rfl, rfl, rfl, rfl, ?_, rfl, ?_, rfl, Nat.pos_of_ne_zero hn, rfl, rfl, ?_, ⟨x, hx, hent, hid.trans hop, hdone⟩, rfl⟩
  · have hent : regionEnt (left s eSTR ent) ent.ctx ent.sub = regionEnt s ent.ctx ent.sub := regionEnt_congr hman ..
    show (BitVec.ofNat 64 (regionEnt (left s eSTR ent) ent.ctx ent.sub).base).toNat = _
    rw [hent, BitVec.toNat_ofNat]
    exact Nat.mod_eq_of_lt (cfg_lt ..)
  · show 512 * (ent.a.toNat / 512) = _
    omega
  · show (if (decide (k = .rput) && ent.sv.isSome && attachedOn s ent.ctx.toNat) = true then some ent.sid else none) = _
    simp only [Bool.and_eq_true, decide_eq_true_eq, and_assoc]

end Sys2Proof.Machine
end
section
/-! PROOFS. Operating points, the alert, droop stretches and SUSPEND (01 R25 to R31; 14 R337, R350). -/

namespace Sys2Proof.Machine

/-! What the clock's parts leave. -/

theorem reasons_frame (s : State) : reasons s = { s with gov := (reasons s).gov } := rfl
theorem updateReq_frame (s : State) : updateReq s = { s with gov := (updateReq s).gov } := rfl

theorem followOp_frame (s : State) : followOp s = { s with gov := (followOp s).gov } := by
  unfold followOp
  split <;> rfl

theorem endStretch_spec (s : State) (rearm : Nat) :
    endStretch s rearm = { s with clk := (endStretch s rearm).clk, gov := (endStretch s rearm).gov } ∧ (endStretch s rearm).clk.stretch = false ∧
      (endStretch s rearm).clk.op = s.clk.op ∧ (endStretch s rearm).clk.target = s.clk.target ∧ (endStretch s rearm).clk.alert = s.clk.alert ∧
      (endStretch s rearm).clk.alertHold = s.clk.alertHold := by
  unfold endStretch
  split
  · exact ⟨rfl, rfl, rfl, rfl, rfl, rfl⟩
  next h => exact ⟨rfl, Bool.eq_false_iff.mpr h, rfl, rfl, rfl, rfl⟩

theorem opChangeReason_spec (s : State) :
    opChangeReason s = { s with clk := (opChangeReason s).clk, gov := (opChangeReason s).gov, free := (opChangeReason s).free } ∧
      (opChangeReason s).clk.op = s.clk.op ∧ (opChangeReason s).clk.target = s.clk.target ∧ (opChangeReason s).clk.alert = s.clk.alert := by
  unfold opChangeReason
  dsimp only
  split <;> exact ⟨rfl, rfl, rfl, rfl⟩

theorem nominalCode_isSome : ∀ {op : BitVec 3}, op.toNat < 5 → (nominalCode op).isSome = true := by decide

/-! The commands. -/

theorem stageOpChange_goes {s : State} {op : BitVec 3} (hon : unitsOn s = true) (hsync : s.core.syncArr = true) (hop : op.toNat < 5) :
    ∃ t, exec (.stageOpChange op) s = .next t ∧ t.clk.target = op ∧ t.clk.op = (if s.clk.alert then s.clk.op else op) ∧
      t.clk.alert = s.clk.alert ∧ (s.clk.alert = false → t.clk.stretch = false) ∧ t = { s with clk := t.clk, gov := t.gov, free := t.free } := by
  have hexec : exec (.stageOpChange op) s = .next
      (if (opChangeReason (s.modClk (fun c => { c with target := op }))).clk.alert then opChangeReason (s.modClk (fun c => { c with target := op }))
        else endStretch (setOp_ (opChangeReason (s.modClk (fun c => { c with target := op }))) op) 16) :=
    whenOn_of (by rw [hon, hsync, nominalCode_isSome hop]; rfl) s _
  obtain ⟨hframe, hcur, htarget, halert⟩ := opChangeReason_spec (s.modClk (fun c => { c with target := op }))
  rw [hexec]
  generalize opChangeReason (s.modClk (fun c => { c with target := op })) = u at hframe hcur htarget halert
  have halert' : u.clk.alert = s.clk.alert := halert
  cases ha : s.clk.alert with
  | true =>
    rw [halert', ha, if_pos rfl]
    exact ⟨u, rfl, htarget, hcur, halert'.trans ha, (nomatch ·), hframe⟩
  | false =>
    rw [halert', ha, if_neg Bool.false_ne_true]
    obtain ⟨heframe, hstretch, heop, hetarget, healert, -⟩ := endStretch_spec (setOp_ u op) 16
    refine ⟨_, rfl, hetarget.trans htarget, heop, healert.trans (halert'.trans ha), fun _ => hstretch, ?_⟩
    rw [heframe, show setOp_ u op = { u with clk := (setOp_ u op).clk, gov := (setOp_ u op).gov } from rfl, hframe]
    rfl

theorem alertFall_goes (s : State) :
    ∃ t, exec .alertFall s = .next t ∧ t.clk.op = 4 ∧ t.clk.alert = true ∧ t.clk.alertHold = false ∧ t.clk.stretch = false ∧
      t.clk.target = s.clk.target ∧ t = { s with clk := t.clk, gov := t.gov } := by
  obtain ⟨hframe, hstretch, hop, htarget, halert, hhold⟩ := endStretch_spec (s.modClk (fun c => { c with op := 4, alert := true, alertHold := false })) 16
  refine ⟨_, rfl, ?_⟩
  rw [followOp_frame]
  exact ⟨hop, halert, hhold, hstretch, htarget, by rw [hframe]; rfl⟩

theorem alertReturn_goes {s : State} (ha : s.clk.alert = true) (hh : s.clk.alertHold = true) :
    ∃ t, exec .alertReturn s = .next t ∧ t.clk.op = s.clk.target ∧ t.clk.alert = false ∧ t.clk.alertHold = false ∧
      t = { s with clk := t.clk, gov := t.gov } := by
  obtain ⟨hframe, -, hop, -, halert, hhold⟩ := endStretch_spec (s.modClk (fun c => { c with op := c.target, alert := false, alertHold := false })) 16
  refine ⟨_, whenOn_of (by rw [ha, hh]; rfl) s _, ?_⟩
  rw [followOp_frame]
  exact ⟨hop, halert, hhold, by rw [hframe]; rfl⟩

theorem droopRearm_goes {s : State} (hon : unitsOn s = true) (low : Bool) (ha : s.clk.armed = false) (hs : s.clk.stretch = false) :
    ∃ t, exec (.droopRearm low) s = .next t ∧ t.clk.rearm = 0 ∧ t.clk.armed = !(low && s.gov.droopEn) ∧ t.clk.stretch = (low && s.gov.droopEn) ∧
      t = { s with clk := t.clk, gov := t.gov } := by
  refine ⟨_, whenOn_of (by rw [hon, ha, hs]; rfl) s _, ?_⟩
  dsimp only
  cases low && s.gov.droopEn with
  | true => exact ⟨rfl, rfl, rfl, rfl⟩
  | false => exact ⟨rfl, rfl, hs, rfl⟩

theorem buses_noneWaits {x : Buses} (hm : x.mgmt.waiting = []) (hd : x.dbg.waiting = []) :
    { x with mgmt := { x.mgmt with waiting := [] }, dbg := { x.dbg with waiting := [] } } = x := by
  obtain ⟨⟨_, _⟩, ⟨_, _⟩, _, _⟩ := x
  cases hm
  cases hd
  rfl

/-- Where no access waits, the buses have nothing to serve. -/
theorem drainBuses_empty {s : State} (hm : s.bus.mgmt.waiting = []) (hd : s.bus.dbg.waiting = []) : drainBuses s = s := by
  unfold drainBuses
  rw [hm, hd]
  exact congrArg (fun b => { s with bus := b }) (buses_noneWaits hm hd)

/-- Settles O50: command by command, by what each part of the clock leaves. -/
theorem clockEvents : Obligations.ClockEvents := by
  unfold Obligations.ClockEvents
  refine ⟨fun s op => stageOpChange_goes, alertFall_goes, fun s ha => ⟨whenOn_of ha s _, alertReturn_goes ha⟩, fun s hon => ⟨?_, ?_, ?_⟩, fun s hr => ⟨?_, ?_⟩⟩
  · intro hen harmed hs
    exact ⟨_, whenOn_of (by rw [hon, hen, harmed, hs]; rfl) s _, rfl, rfl⟩
  · intro limit hs
    refine ⟨_, whenOn_of (by rw [hon, hs]; rfl) s _, ?_⟩
    rw [endStretch, if_pos hs]
    exact ⟨rfl, rfl⟩
  · exact fun low => droopRearm_goes hon low
  · exact fun hs => whenOn_of (by rw [hr, hs]; rfl) s _
  · intro hs hm hd
    refine (whenOn_of (by rw [hr, hs]; rfl) s _ : exec .suspendExit s = _).trans ?_
    rw [drainBuses_empty (s := s.modClk _) hm hd]
    rfl

end Sys2Proof.Machine
end
section
/-! PROOFS. Hand sets and full/empty operations of the register window, and the watchman (12 R301 to R307). -/

namespace Sys2Proof.Machine

/-! Hand sets. -/

theorem handSet_allowed {s : State} (h : s.sec.level = 2) (f : Syn → SObj → SObj) :
    handSet s f = setObj s s.syn.osel { f s.syn (objOf s s.syn.osel) with lastSrc := 12, lastCtx := s.core.cur } := by
  rw [handSet, if_pos (show invasive s = true from decide_eq_true h)]

theorem handSet_refused {s : State} (h : s.sec.level ≠ 2) (f : Syn → SObj → SObj) :
    handSet s f = { s with syn := { s.syn with hsrej := true } } := by
  rw [handSet, if_neg (by simpa [invasive] using h)]
  rfl

/-- The selected object takes a value, and no other changes. -/
theorem setObj_only (s : State) (o : Byte) (x : SObj) :
    setObj s o x = { s with syn := (setObj s o x).syn } ∧ objOf (setObj s o x) o = x ∧ ∀ p, p ≠ o → objOf (setObj s o x) p = objOf s p :=
  ⟨rfl, (objOf_setObj ..).trans (if_pos rfl), fun _ hp => (objOf_setObj ..).trans (if_neg hp)⟩

/-! Full/empty operations. -/

theorem feReq_refused {s : State} {op : FeOp} (h : s.syn.fePend.isSome = true ∨ s.sec.level ≠ 2 ∨ feOk s s.syn.feAddr.toNat = false) :
    feReq s op = { s with syn := { s.syn with feDone := false, feRefused := true } } := by
  have hc : (s.syn.fePend.isSome || !feAllowed s s.syn.feAddr.toNat) = true := by
    simp only [Bool.or_eq_true, Bool.not_eq_true', feAllowed, Bool.and_eq_false_iff, invasive, decide_eq_false_iff_not]
    exact h
  rw [feReq, if_pos hc]
  rfl

theorem feReq_waits {s : State} {op : FeOp} (hp : s.syn.fePend = none) (hl : s.sec.level = 2) (hok : feOk s s.syn.feAddr.toNat = true)
    (hz : s.mem.zeroing = true) :
    feReq s op = { s with syn := { s.syn with
      feDone := false, feRefused := false, fePend := some ⟨op, s.syn.feAddr, s.syn.feDhi ++ s.syn.feDlo⟩ } } := by
  rw [feReq, if_neg (by simp [feAllowed, invasive, hp, hl, hok]), if_pos (show dbgWaits s = true from hz)]
  rfl

theorem feReq_does {s : State} {op : FeOp} (hp : s.syn.fePend = none) (hl : s.sec.level = 2) (hok : feOk s s.syn.feAddr.toNat = true)
    (hz : s.mem.zeroing = false) : feReq s op = feDo s ⟨op, s.syn.feAddr, s.syn.feDhi ++ s.syn.feDlo⟩ := by
  rw [feReq, if_neg (by simp [feAllowed, invasive, hp, hl, hok]), if_neg (by rw [dbgWaits, hz]; decide)]

/-- The word of a full/empty operation, read into the operand registers. -/
def feWordRead (u : State) (a : Nat) : State :=
  let v := touchRead u rqDBG a 8
  v.modSyn (fun y => { y with feDlo := BitVec.ofNat 32 (mNat v a 4), feDhi := BitVec.ofNat 32 (mNat v (a + 4) 4) })

theorem leNat_append (l r : List Byte) : leNat (l ++ r) = leNat l + 256 ^ l.length * leNat r := by
  induction l with
  | nil => simp [leNat]
  | cons b l ih => rw [List.cons_append, leNat, leNat, ih, List.length_cons, pow_succ]; ring

/-- Two halves of a little-endian word are the word. -/
theorem memNat_halves (m : List Host.Cell) (a : Nat) :
    BitVec.ofNat 32 (memNat m (a + 4) 4) ++ BitVec.ofNat 32 (memNat m a 4) = BitVec.ofNat 64 (memNat m a 8) := by
  have hlt : ∀ b, memNat m b 4 < 2 ^ 32 := fun b => (leNat_lt (memBytes m b 4)).trans_eq (by simp [memBytes])
  have hbytes : memBytes m a 8 = memBytes m a 4 ++ memBytes m (a + 4) 4 := rfl
  have hsum : memNat m a 8 = memNat m a 4 + 2 ^ 32 * memNat m (a + 4) 4 := by
    rw [memNat, hbytes, leNat_append, show (memBytes m a 4).length = 4 from by simp [memBytes]]
    norm_num
    rfl
  have hor := Nat.shiftLeft_add_eq_or_of_lt (hlt a) (memNat m (a + 4) 4)
  rw [Nat.shiftLeft_eq] at hor
  apply BitVec.eq_of_toNat_eq
  rw [BitVec.toNat_append, BitVec.toNat_ofNat, BitVec.toNat_ofNat, BitVec.toNat_ofNat, Nat.mod_eq_of_lt (hlt a), Nat.mod_eq_of_lt (hlt (a + 4)),
    Nat.shiftLeft_eq, ← hor]
  have h0 := hlt a
  have h4 := hlt (a + 4)
  omega

section FeDo
variable {s : State} {a : Addr} {v : Dword} (hok : feOk s a.toNat = true) (hd : hasDouble s a.toNat 8 = false)

theorem feWordRead_spec (u : State) (b : Nat) :
    (feWordRead u b).mem.bytes = u.mem.bytes ∧ (feWordRead u b).man = u.man ∧ (feWordRead u b).mem.full = u.mem.full ∧
      (feWordRead u b).syn.feDhi ++ (feWordRead u b).syn.feDlo = BitVec.ofNat 64 (memNat u.mem.bytes b 8) := by
  refine ⟨touchRead_bytes .., (touchRead_reads ..).man, touchRead_full .., ?_⟩
  rw [← touchRead_bytes u rqDBG b 8]
  exact memNat_halves ..

include hok hd in
theorem feDo_put : (feFull s a.toNat = false → Stored s (feDo s ⟨.put, a, v⟩) a.toNat (leBytes 8 v) ∧ feFull (feDo s ⟨.put, a, v⟩) a.toNat = true ∧
      (feDo s ⟨.put, a, v⟩).syn.feDone = true ∧ (feDo s ⟨.put, a, v⟩).syn.feFull = true) ∧
    (feFull s a.toNat = true → SameBytes s (feDo s ⟨.put, a, v⟩) ∧ feFull (feDo s ⟨.put, a, v⟩) a.toNat = true ∧
      (feDo s ⟨.put, a, v⟩).syn.feDone = false ∧ (feDo s ⟨.put, a, v⟩).syn.feRefused = true) := by
  have hsame := readFull_sameBytes s rqDBG a.toNat
  have hfull := feFull_readFull s rqDBG a.toNat a.toNat
  have hlen : (leBytes 8 v).length = 8 := leBytes_length ..
  have hst : Stored (readFull s rqDBG a.toNat) (memWr (readFull s rqDBG a.toNat) rqDBG a.toNat (leBytes 8 v)) a.toNat (leBytes 8 v) :=
    memWr_stored rqDBG (by rw [hlen]; exact feOk_le hok) (by rw [hlen, hasDouble_readFull]; exact hd)
  refine ⟨fun h => ?_, fun h => ?_⟩
  · have hdo : feDo s ⟨.put, a, v⟩ =
        feStat (setFull (memWr (readFull s rqDBG a.toNat) rqDBG a.toNat (leBytes 8 v)) a.toNat true) true true := by
      rw [feDo]
      exact if_neg (by rw [hfull, h]; decide)
    rw [hdo]
    exact ⟨fun x => by rw [← hsame x]; exact hst x, feFull_setFull .., rfl, rfl⟩
  · have hdo : feDo s ⟨.put, a, v⟩ = feStat (readFull s rqDBG a.toNat) false true := by
      rw [feDo]
      exact if_pos (by rw [hfull, h])
    rw [hdo]
    exact ⟨hsame, hfull.trans h, rfl, rfl⟩

theorem feDo_take : SameBytes s (feDo s ⟨.take, a, v⟩) ∧ feFull (feDo s ⟨.take, a, v⟩) a.toNat = false ∧
    (feFull s a.toNat = true → (feDo s ⟨.take, a, v⟩).syn.feDhi ++ (feDo s ⟨.take, a, v⟩).syn.feDlo = BitVec.ofNat 64 (memNat s.mem.bytes a.toNat 8) ∧
      (feDo s ⟨.take, a, v⟩).syn.feDone = true) ∧
    (feFull s a.toNat = false → (feDo s ⟨.take, a, v⟩).syn.feDone = false ∧ (feDo s ⟨.take, a, v⟩).syn.feRefused = true) := by
  have hbytes := (readFull_kept s rqDBG a.toNat).1
  have hfull := feFull_readFull s rqDBG a.toNat a.toNat
  cases h : feFull s a.toNat with
  | true =>
    have hdo : feDo s ⟨.take, a, v⟩ = feStat (setFull (feWordRead (readFull s rqDBG a.toNat) a.toNat) a.toNat false) true false := by
      rw [feDo]
      exact if_pos (by rw [hfull, h])
    obtain ⟨hread, -, -, hword⟩ := feWordRead_spec (readFull s rqDBG a.toNat) a.toNat
    rw [hbytes] at hread hword
    rw [hdo]
    exact ⟨fun x => congrArg (memByte · x) hread, feFull_setFull .., fun _ => ⟨hword, rfl⟩, (nomatch ·)⟩
  | false =>
    have hdo : feDo s ⟨.take, a, v⟩ = feStat (readFull s rqDBG a.toNat) false false := by
      rw [feDo]
      exact if_neg (by rw [hfull, h]; decide)
    rw [hdo]
    exact ⟨fun x => readFull_sameBytes s rqDBG a.toNat x, hfull.trans h, (nomatch ·), fun _ => ⟨rfl, rfl⟩⟩

theorem feDo_peek : SameBytes s (feDo s ⟨.peek, a, v⟩) ∧ feFull (feDo s ⟨.peek, a, v⟩) a.toNat = feFull s a.toNat ∧
    (feDo s ⟨.peek, a, v⟩).syn.feDhi ++ (feDo s ⟨.peek, a, v⟩).syn.feDlo = BitVec.ofNat 64 (memNat s.mem.bytes a.toNat 8) ∧
    (feDo s ⟨.peek, a, v⟩).syn.feDone = true ∧ (feDo s ⟨.peek, a, v⟩).syn.feFull = feFull s a.toNat := by
  have hbytes := (readFull_kept s rqDBG a.toNat).1
  have hfull := feFull_readFull s rqDBG a.toNat a.toNat
  have hdo : feDo s ⟨.peek, a, v⟩ = feStat (feWordRead (readFull s rqDBG a.toNat) a.toNat) true (feFull (readFull s rqDBG a.toNat) a.toNat) := by
    rw [feDo]; rfl
  obtain ⟨hread, hman, hbits, hword⟩ := feWordRead_spec (readFull s rqDBG a.toNat) a.toNat
  rw [hbytes] at hread hword
  rw [hdo, hfull]
  exact ⟨fun x => congrArg (memByte · x) hread, (feFull_congr hman hbits _).trans hfull, hword, rfl, rfl⟩

theorem feDo_force (bit : Bool) : SameBytes s (feDo s ⟨.force bit, a, v⟩) ∧ feFull (feDo s ⟨.force bit, a, v⟩) a.toNat = bit ∧
    (feDo s ⟨.force bit, a, v⟩).syn.feDone = true := by
  have hdo : feDo s ⟨.force bit, a, v⟩ = feStat (setFull s a.toNat bit) true bit := by rw [feDo]
  rw [hdo]
  exact ⟨fun _ => rfl, feFull_setFull .., rfl⟩

end FeDo

/-! The watchman. -/

theorem sthSettle_frame (s : State) : sthSettle s = { s with sth := (sthSettle s).sth, sec := (sthSettle s).sec } := by
  unfold sthSettle sthClear restartRegion
  dsimp only
  split
  · split
    · split <;> rfl
    · rfl
  · rfl

/-- What abandons all waiting work. -/
structure Abandoned (s t : State) : Prop where
  q : t.q = []
  watch : ∀ k, k < 8 → (tabGet ({} : Watch) t.syn.watch k).active = false
  ops : t.arr.ops = []
  runs : t.vec.runs = []
  msgs : t.pst.msgs = []
  core : t.core = s.core
  flt : t.flt = s.flt
  bytes : t.mem.bytes = s.mem.bytes
  objs : t.syn.objs = s.syn.objs
  dlock : t.syn.dlock = s.syn.dlock
  fires : t.syn.wmFires = s.syn.wmFires

/-- A state without watches. -/
theorem watchOf_dropAll (s : State) : ∀ k, k < 8 → (watchOf ((List.range 8).foldl dropWatch s) k).active = false := by
  have hfold : ∀ (l : List Nat) (u : State) (k : Nat), (k ∈ l ∨ (watchOf u k).active = false) → (watchOf (l.foldl dropWatch u) k).active = false := by
    intro l
    induction l with
    | nil => exact fun u k h => h.resolve_left (List.not_mem_nil)
    | cons j l ih =>
      intro u k h
      refine ih (dropWatch u j) k ?_
      have hget : watchOf (dropWatch u j) k = if k = j then {} else watchOf u k := watchOf_setWatch ..
      by_cases hkj : k = j
      · exact .inr (by rw [hget, if_pos hkj])
      · exact h.imp (fun hm => (List.mem_cons.mp hm).resolve_left hkj) (fun ha => by rw [hget, if_neg hkj]; exact ha)
  exact fun k hk => hfold _ s k (.inl (List.mem_range.mpr hk))

theorem dropWatches_syn (l : List Nat) (s : State) : l.foldl dropWatch s = { s with syn := { s.syn with watch := (l.foldl dropWatch s).syn.watch } } := by
  induction l generalizing s with
  | nil => rfl
  | cons j l ih => rw [List.foldl_cons, ih]; rfl

theorem wmAbandon_abandoned (s : State) : Abandoned s (wmAbandon s) := by
  have hw : ∀ k, k < 8 → (tabGet ({} : Watch) ((List.range 8).foldl dropWatch { s with q := [] }).syn.watch k).active = false :=
    watchOf_dropAll { s with q := [] }
  unfold wmAbandon
  dsimp only
  rw [sthSettle_frame, abandonStep_frame]
  rw [dropWatches_syn] at hw ⊢
  exact ⟨rfl, hw, rfl, rfl, rfl, rfl, rfl, rfl, rfl, rfl, rfl⟩

theorem stopCore_frame (s : State) :
    stopCore s = { s with core := (stopCore s).core, syn := (stopCore s).syn, dbg := (stopCore s).dbg, arr := (stopCore s).arr } := rfl

theorem wmStop_frame (s : State) :
    wmStop s = { s with core := (wmStop s).core, syn := (wmStop s).syn, dbg := (wmStop s).dbg, arr := (wmStop s).arr } := by
  unfold wmStop
  split
  · rfl
  · rw [stopCore_frame]
    rfl
  · exact stopCore_frame s

theorem departAll_none {a : Arr} (h : a.ops = []) : departAll a = a := by
  unfold departAll
  rw [h]
  rfl

theorem wmStop_spec (s : State) (h : s.arr.ops = []) :
    (wmStop s).arr.ops = [] ∧ (wmStop s).syn = { s.syn with watch := (wmStop s).syn.watch } ∧
      (s.core.mode ≠ .idle → (wmStop s).core.mode = .stopped) ∧
      ((wmStop s).syn.watch = s.syn.watch ∨ (wmStop s).syn.watch = tabSet {} s.syn.watch 7 {}) := by
  have hdepart : (departAll s.arr).ops = [] := by rw [departAll_none h, h]
  unfold wmStop
  split
  next hm => exact ⟨h, rfl, fun hne => absurd hm hne, .inl rfl⟩
  next => exact ⟨hdepart, rfl, fun _ => rfl, .inr rfl⟩
  next => exact ⟨hdepart, rfl, fun _ => rfl, .inr rfl⟩

theorem wmStop_watch {s : State} (h : s.arr.ops = []) {k : Nat} (hk : (tabGet ({} : Watch) s.syn.watch k).active = false) :
    (tabGet ({} : Watch) (wmStop s).syn.watch k).active = false := by
  obtain ⟨-, -, -, hw | hw⟩ := wmStop_spec s h
  · rw [hw]; exact hk
  · rw [hw, tabGet_set]
    split
    · rfl
    · exact hk

/-- What a firing of the watchman leaves. -/
theorem watchmanFire_goes {s : State} (hon : unitsOn s = true) (hheld : wmHeld s = false) (hcount : max s.syn.wmThresh.toNat 0x1000 ≤ s.syn.wmCount.toNat) :
    ∃ t, exec .watchmanFire s = .next t ∧ t.syn.dlock = true ∧ t.syn.wmFires = s.syn.wmFires + 1 ∧ t.syn.wmCount = 0 ∧
      (∀ e, (qOf t e).wait = [] ∧ (qOf t e).infl = []) ∧ (∀ k, k < 8 → (watchOf t k).active = false) ∧ t.arr.ops = [] ∧
      t.vec.runs = [] ∧ t.pst.msgs = [] ∧ (s.core.mode ≠ .idle → t.core.mode = .stopped) ∧ t.flt.cont = true ∧
      (∀ o, objOf t o = objOf s o) ∧ SameBytes s t := by
  refine ⟨_, whenOn_of (by rw [hon, hheld, show wmLimit s = max s.syn.wmThresh.toNat 0x1000 from rfl, decide_eq_true hcount]; rfl) s _, ?_⟩
  have hcont := raise_cont (wmSnap s) fcDEADLOCK 9 0 0
  have hframe := raise_frame (wmSnap s) fcDEADLOCK 9 0 0
  generalize raise (wmSnap s) fcDEADLOCK 9 0 0 = u at hcont hframe
  have ha := wmAbandon_abandoned u
  generalize wmAbandon u = v at ha
  obtain ⟨hops, hsyn, hmode, -⟩ := wmStop_spec v ha.ops
  have hwatch := fun k hk => wmStop_watch ha.ops (ha.watch k hk)
  have hstop := wmStop_frame v
  have hucore : u.core = s.core := by rw [hframe]; rfl
  have hubytes : u.mem.bytes = s.mem.bytes := by rw [hframe]; rfl
  have husyn : u.syn = (wmSnap s).syn := by rw [hframe]
  generalize wmStop v = w at hops hwatch hmode hsyn hstop
  have hdlock : w.syn.dlock = true := by rw [hsyn]; exact ha.dlock.trans (by rw [husyn]; rfl)
  have hfires : w.syn.wmFires = s.syn.wmFires + 1 := by rw [hsyn]; exact ha.fires.trans (by rw [husyn]; rfl)
  have hobjs : w.syn.objs = s.syn.objs := by rw [hsyn]; exact ha.objs.trans (by rw [husyn]; rfl)
  have hq : w.q = [] := by rw [hstop]; exact ha.q
  refine ⟨hdlock, hfires, rfl, fun e => ?_, hwatch, hops, ?_, ?_, fun hne => ?_, ?_, fun o => ?_, fun x => ?_⟩
  · show (tabGet ({} : EngQ) w.q e).wait = [] ∧ (tabGet ({} : EngQ) w.q e).infl = []
    rw [hq]; exact ⟨rfl, rfl⟩
  · show w.vec.runs = []
    rw [hstop]; exact ha.runs
  · show w.pst.msgs = []
    rw [hstop]; exact ha.msgs
  · exact hmode (by rw [ha.core, hucore]; exact hne)
  · show w.flt.cont = true
    rw [hstop]; exact (congrArg Flt.cont ha.flt).trans hcont
  · show tabGet _ w.syn.objs o.toNat = _
    rw [hobjs]; rfl
  · show memByte w.mem.bytes x = _
    rw [hstop]; exact congrArg (memByte · x) (ha.bytes.trans hubytes)

/-- Settles O51: hand sets by their object, full/empty operations by what each does to its word, the watchman by its steps. -/
theorem syncRegisters : Obligations.SyncRegisters := by
  unfold Obligations.SyncRegisters
  refine ⟨?_, ?_, ?_, fun s => watchmanFire_goes⟩
  · intro s hs o x
    refine ⟨fun hl => ⟨⟨_, regCmd_served hs _ _, ?_⟩, ⟨_, regCmd_served hs _ _, ?_⟩⟩, fun hl => ⟨?_, ?_⟩⟩
    · rw [handVal, handSet_allowed hl]
      exact setObj_only ..
    · rw [handState, handSet_allowed hl]
      obtain ⟨hframe, hat, hother⟩ := setObj_only s s.syn.osel { x with
        mode := s.syn.osetMode, n := s.syn.osetN, arr := (if s.syn.osetMode && decide (s.syn.osetN = 0) then 0 else s.syn.osetArr), lastSrc := 12, lastCtx := s.core.cur }
      exact ⟨hframe, hat.trans (by simp only [Bool.and_eq_true, decide_eq_true_eq]), hother⟩
    · exact (regCmd_served hs _ _ : exec .handSetVal s = _).trans (congrArg _ (handSet_refused hl _))
    · exact (regCmd_served hs _ _ : exec .handSetState s = _).trans (congrArg _ (handSet_refused hl _))
  · intro s hs hl hp a hok hz hd
    have hdo := fun op => feReq_does (op := op) hp hl hok hz
    refine ⟨⟨_, regCmd_served hs _ _, ?_⟩, ⟨_, regCmd_served hs _ _, ?_⟩, ⟨_, regCmd_served hs _ _, ?_⟩, fun bit => ⟨_, regCmd_served hs _ _, ?_⟩⟩
    · rw [hdo]; exact feDo_put hok hd
    · rw [hdo]; exact feDo_take
    · rw [hdo]; exact feDo_peek
    · rw [hdo]; exact feDo_force bit
  · intro s i op hs hi
    have hexec : exec i s = .next (feReq s op) := by
      simp only [List.mem_cons, Prod.mk.injEq, List.not_mem_nil, or_false] at hi
      rcases hi with ⟨rfl, rfl⟩ | ⟨rfl, rfl⟩ | ⟨rfl, rfl⟩ | ⟨rfl, rfl⟩ | ⟨rfl, rfl⟩ <;> exact regCmd_served hs _ _
    exact ⟨fun h => hexec.trans (congrArg _ (feReq_refused h)), fun hp hl hok hz => hexec.trans (congrArg _ (feReq_waits hp hl hok hz))⟩

end Sys2Proof.Machine
end
section
/-! PROOFS. Manifest commands: loads, arming, shadow and live writes (02 R42 to R61). -/

namespace Sys2Proof.Machine

/-! What parts of a load leave. -/

theorem unstall_frame (s : State) :
    unstall s = { s with core := (unstall s).core, syn := (unstall s).syn, q := (unstall s).q, dbg := (unstall s).dbg } := by
  unfold unstall
  split
  · split
    · rfl
    · split
      · rfl
      · split
        · rfl
        next r _ _ ent _ =>
          rw [advance_coreFrame, enqueue, armHead_frame]
          rfl
  · rfl

theorem lowerLevel_frame (s : State) : lowerLevel s = { s with sec := (lowerLevel s).sec, dbg := (lowerLevel s).dbg } := by
  unfold lowerLevel
  split
  · rfl
  · dsimp only
    split <;> rfl

theorem startItin_frame (s : State) (c : BitVec 2) (img : BitVec 3) (bad : Bool) :
    startItin s c img bad = { s with xch := (startItin s c img bad).xch } := rfl

theorem putStatuses_access (l : List Nat) (s : State) : AccessFrame s (l.foldl (fun t q => putStatus t q 0) s) := by
  induction l generalizing s with
  | nil => exact .refl s
  | cons q l ih => exact (memWr_access s rqPST (statusAddr s q) _).trans (ih _)

theorem clearStatus_access (s : State) : AccessFrame s (clearStatus s) := putStatuses_access _ s

theorem freshStatus_man (s : State) : (freshStatus s).man = s.man := by
  unfold freshStatus
  split
  · split
    · rw [State.modPst_man, clearStatus_access]
    · rfl
  · rfl

theorem freshStatus_stale {s : State} (h : s.pst.fresh = false) : freshStatus s = s := by
  rw [freshStatus, h, if_neg Bool.false_ne_true]

theorem regionsChange_frame (s : State) (live : Tab Byte) (chg : Nat → Nat → Bool) :
    regionsChange s live chg = { s with sec := (regionsChange s live chg).sec } := rfl

/-- What a load that makes the manifest live leaves of the manifest, and of memory. -/
theorem makeLive_spec (s : State) :
    (makeLive s).man = { s.man with live := s.man.shadow, epochCur := s.man.epochShadow, isLive := true, lwin := true, everLive := true
                                    agree := agreeOf s.man.shadow } ∧
      (makeLive s).mem = s.mem ∧ (makeLive s).pst = s.pst := by
  unfold makeLive
  dsimp only
  rw [lowerLevel_frame, regionsChange_frame]
  split <;> exact ⟨rfl, rfl, rfl⟩

/-- The verdict of a load depends on the bytes, the manifest and the keys. -/
theorem loadEval_congr {s t : State} (hm : t.man = s.man) (hb : t.mem.bytes = s.mem.bytes) (hs : t.sec = s.sec) (a n : Nat) :
    loadEval t a n = loadEval s a n := by
  unfold loadEval sourceOk
  rw [hm, hb, hs, permits_congr hm]

/-- The state in which a load has been read. -/
def loadRead (s : State) (a n : Nat) : State := touchRead s rqOBT a (if sourceOk s a n then n else 0)

/-- The state in which a load that passed is in the shadow. -/
def loadPassed (s : State) (a n : Nat) (sh : Tab Byte) (ep : Word) : State :=
  (loadRead s a n).modMan (fun m => { m with load := none, loadSt := 2, shadow := sh, epochShadow := ep })

theorem finishLoad_pass {s : State} {a n : Nat} {sh : Tab Byte} {ep : Word} (h : loadEval s a n = .pass sh ep) :
    finishLoad s a n = if s.man.isLive then loadPassed s a n sh ep else makeLive (loadPassed s a n sh ep) := by
  have hr := touchRead_reads s rqOBT a (if sourceOk s a n then n else 0)
  have heval : loadEval (touchRead s rqOBT a (if sourceOk s a n then n else 0)) a n = .pass sh ep :=
    (loadEval_congr hr.man hr.bytes (by rw [hr.access]) a n).trans h
  have hlive : (loadPassed s a n sh ep).man.isLive = s.man.isLive := (congrArg Man.isLive hr.man :)
  unfold finishLoad
  dsimp only
  rw [heval, ← hlive]
  rfl

/-- What the end of a load that passes leaves. -/
theorem manifestLoadDone_goes {s : State} {a n : Nat} {sh : Tab Byte} {ep : Word} (hon : unitsOn s = true) (hl : s.man.load = some (a, n))
    (hw : memWaits s a n = false) (hp : loadEval s a n = .pass sh ep) :
    exec .manifestLoadDone s = .next (unstall (if s.man.isLive then loadPassed s a n sh ep
      else resumeLoad (freshStatus (makeLive (loadPassed s a n sh ep))))) := by
  have hsp : spansWait s (spanIf (sourceOk s a n) a n) = false := by
    unfold spanIf
    split
    · rw [spansWait_singleton, hw]
    · rfl
  have hgo : exec .manifestLoadDone s = .next (unstall (if (finishLoad s a n).man.isLive && !s.man.isLive
      then resumeLoad (freshStatus (finishLoad s a n)) else finishLoad s a n)) := by
    rw [show exec .manifestLoadDone s = execManifestLoadDone s from rfl, execManifestLoadDone, hl]
    exact whenMem_goes hon hsp _
  rw [hgo, finishLoad_pass hp]
  cases hlive : s.man.isLive with
  | true => rw [if_pos rfl, if_pos rfl, Bool.not_true, Bool.and_false, if_neg Bool.false_ne_true]
  | false =>
    rw [if_neg Bool.false_ne_true, if_neg Bool.false_ne_true, (makeLive_spec _).1]
    rfl

theorem manErr_eq (s : State) (code type off : Nat) :
    (s.man.err = false → manErr s code type off = { s with man := { s.man with
      err := true, errCode := BitVec.ofNat 8 code, errType := BitVec.ofNat 8 type, errOff := BitVec.ofNat 16 off } }) ∧
    (s.man.err = true → manErr s code type off = s) :=
  ⟨fun h => by rw [manErr, if_neg (by rw [h]; decide)]; rfl, fun h => by rw [manErr, if_pos h]⟩

/-- A manifest command is busy behind an armed manifest, and behind a load. -/
theorem manBusy {s : State} (h : s.man.armed ≠ none ∨ s.man.load ≠ none ∨ s.man.loadWait ≠ none) :
    (s.man.armed.isSome || s.man.load.isSome || s.man.loadWait.isSome) = true := by
  simp only [Bool.or_eq_true, Option.isSome_iff_ne_none, or_assoc]
  exact h

theorem manFree {s : State} (ha : s.man.armed = none) (hl : s.man.load = none) (hw : s.man.loadWait = none) :
    (s.man.armed.isSome || s.man.load.isSome || s.man.loadWait.isSome) = false := by
  rw [ha, hl, hw]; rfl

/-- A shadow write that lands. -/
theorem shadowWr_lands {s : State} (ho : s.sec.state = 0) (hsync : s.man.syncing = false) (w : ShadowWr) :
    shadowWr s w = { s with man := match w with
      | .store o mask v => { s.man with shadow := tWord s.man.shadow o mask v }
      | .epoch v => { s.man with epochShadow := v } } := by
  rw [shadowWr, if_pos (decide_eq_true ho), putShadow]
  exact congrArg (fun m => { s with man := m }) (if_neg (Bool.eq_false_iff.mp hsync))

/-- A shadow write that waits for the copy. -/
theorem shadowWr_waits {s : State} (ho : s.sec.state = 0) (hsync : s.man.syncing = true) (w : ShadowWr) :
    shadowWr s w = { s with man := { s.man with waiting := s.man.waiting ++ [w] } } := by
  rw [shadowWr, if_pos (decide_eq_true ho), putShadow, State.modMan, if_pos hsync]

theorem liveWrite_done {s : State} (ho : s.sec.state = 0) (hl : s.sec.level = 2) (hoff : s.man.cfgAddr.toNat / 4 * 4 < cfgSize) (val : Word) :
    liveWrite s val = { s with man := { s.man with
      live := tWord s.man.live (s.man.cfgAddr.toNat / 4 * 4) (storeMask (s.man.cfgAddr.toNat / 4 * 4)) val
      shadow := tWord s.man.shadow (s.man.cfgAddr.toNat / 4 * 4) (storeMask (s.man.cfgAddr.toNat / 4 * 4)) val } } := by
  have hc : (decide (s.sec.state = 0) && invasive s && decide (s.man.cfgAddr.toNat / 4 * 4 < cfgSize)) = true := by
    rw [invasive, decide_eq_true ho, decide_eq_true hl, decide_eq_true hoff]; rfl
  rw [liveWrite, if_pos hc]
  rfl

theorem liveWrite_refused {s : State} (h : s.sec.state ≠ 0 ∨ s.sec.level ≠ 2) (val : Word) : liveWrite s val = s := by
  have hc : (decide (s.sec.state = 0) && invasive s && decide (s.man.cfgAddr.toNat / 4 * 4 < cfgSize)) = false := by
    rw [invasive]
    rcases h with h | h <;> simp only [decide_eq_false h, Bool.false_and, Bool.and_false]
  rw [liveWrite, hc, if_neg Bool.false_ne_true]

/-- Settles O52: commands of the bus by their branches, the end of a load by what it makes live. -/
theorem manifestCommands : Obligations.ManifestCommands := by
  unfold Obligations.ManifestCommands
  refine ⟨?_, ?_, ?_⟩
  · intro s hs
    refine ⟨fun ha hl hw hsync => ?_, fun ha hl hw hsync => ?_, fun ha hl hw => ?_, fun hb => ?_, fun hl hw he hc => ?_,
      regCmd_served hs _ _, regCmd_served hs _ _⟩
    · refine (regCmd_served hs _ _ : exec .manCtrlLoad s = _).trans (congrArg _ ?_)
      rw [startLoad, manFree ha hl hw, if_neg Bool.false_ne_true]
      simp [State.modMan, hsync]
    · refine (regCmd_served hs _ _ : exec .manCtrlLoad s = _).trans (congrArg _ ?_)
      rw [startLoad, manFree ha hl hw, if_neg Bool.false_ne_true]
      simp [State.modMan, hsync]
    · refine (regCmd_served hs _ _ : exec .manCtrlDiscard s = _).trans (congrArg _ ?_)
      rw [discardShadow, manFree ha hl hw, if_neg Bool.false_ne_true]
      rfl
    · have hexec : ∀ i ∈ [Instr.manCtrlLoad, .manCtrlDiscard], exec i s = .next (manErr s 9 0 0) := by
        simp only [List.forall_mem_cons, List.not_mem_nil, false_implies, implies_true, and_true]
        refine ⟨(regCmd_served hs _ _ : exec .manCtrlLoad s = _).trans (congrArg _ ?_),
          (regCmd_served hs _ _ : exec .manCtrlDiscard s = _).trans (congrArg _ ?_)⟩
        · rw [startLoad, if_pos (manBusy hb)]
        · rw [discardShadow, if_pos (manBusy hb)]
      exact fun i hi => ⟨fun h => (hexec i hi).trans (congrArg _ ((manErr_eq ..).1 h)), fun h => (hexec i hi).trans (congrArg _ ((manErr_eq ..).2 h))⟩
    · refine (regCmd_served hs _ _ : exec .manCtrlArm s = _).trans (congrArg _ ?_)
      rw [armWith, hl, hw, if_neg (by decide), if_neg (by simp [he, he ▸ hc])]
      rfl
  · intro s a n sh ep hon hl _ hw hp
    have hr := touchRead_reads s rqOBT a (if sourceOk s a n then n else 0)
    have hman : (loadPassed s a n sh ep).man = { s.man with load := none, loadSt := 2, shadow := sh, epochShadow := ep } := by
      rw [← hr.man]; rfl
    have hbytes : (loadPassed s a n sh ep).mem.bytes = s.mem.bytes := hr.bytes
    have hpst : (loadPassed s a n sh ep).pst = s.pst := by
      show (touchRead s rqOBT a _).pst = _
      rw [hr.access]
    refine ⟨_, manifestLoadDone_goes hon hl hw hp, ?_⟩
    rw [unstall_frame]
    cases hlive : s.man.isLive with
    | true =>
      rw [if_pos rfl]
      generalize unstall _ = z
      generalize loadPassed s a n sh ep = u at hman hbytes
      refine ⟨congrArg Man.load hman, congrArg Man.loadSt hman, congrArg Man.shadow hman, congrArg Man.epochShadow hman,
        (congrArg Man.isLive hman).trans hlive, (nomatch ·), fun _ => ⟨(congrArg Man.live hman :), (congrArg Man.epochCur hman :), (congrArg Man.lwin hman :)⟩,
        fun _ x => congrArg (memByte · x) hbytes⟩
    | false =>
      rw [if_neg Bool.false_ne_true]
      generalize unstall _ = z
      rw [resumeLoad, startItin_frame]
      generalize startItin _ _ _ _ = y
      obtain ⟨hlman, hlmem, hlpst⟩ := makeLive_spec (loadPassed s a n sh ep)
      rw [hman] at hlman
      generalize makeLive (loadPassed s a n sh ep) = u at hlman hlmem hlpst
      have hfresh := (freshStatus_man u).trans hlman
      refine ⟨congrArg Man.load hfresh, congrArg Man.loadSt hfresh, congrArg Man.shadow hfresh, congrArg Man.epochShadow hfresh,
        congrArg Man.isLive hfresh, fun _ => ⟨congrArg Man.live hfresh, congrArg Man.epochCur hfresh, congrArg Man.lwin hfresh⟩, (nomatch ·),
        fun hstale x => ?_⟩
      show memByte (freshStatus u).mem.bytes x = _
      rw [freshStatus_stale (by rw [hlpst, hpst]; exact hstale.resolve_left (by decide)), hlmem, hbytes]
  · intro s b val hbus hwait cfgOff
    have hacc : ∀ (i : Instr) (t : State), (Host.Outcome.next (regAcc b false i s t) : Res) = .next t :=
      fun i t => congrArg _ (regAcc_served hbus hwait false i t)
    refine ⟨fun ho hsync => ⟨?_, fun hlive hoff => ?_⟩, fun ho hsync => ?_, fun ho => ?_, fun hb hlive ho hlev hoff => ?_, fun hb h => ?_⟩
    · refine (hacc _ _ : exec (.shadowWrite b 0x418 val) s = _).trans (congrArg _ (shadowWr_lands ho hsync _))
    · refine (hacc _ _ : exec (.shadowWrite b 0x434 val) s = _).trans (congrArg _ ?_)
      refine Eq.trans ?_ (shadowWr_lands ho hsync (.store cfgOff (storeMask cfgOff) val))
      show writeCfgData b s val = _
      rw [writeCfgData, if_neg (show ¬ cfgSize ≤ cfgOff from Nat.not_le.mpr hoff), hlive, if_neg Bool.false_ne_true]
    · refine (hacc _ _ : exec (.shadowWrite b 0x418 val) s = _).trans (congrArg _ (shadowWr_waits ho hsync _))
    · refine (hacc _ _ : exec (.shadowWrite b 0x418 val) s = _).trans (congrArg _ ?_)
      show shadowWr s (.epoch val) = _
      rw [shadowWr, if_neg (by simpa using ho)]
      rfl
    · subst hb
      refine (hacc _ _ : exec (.debugLiveWrite val) s = _).trans (congrArg _ ?_)
      rw [if_pos hlive, liveWrite_done ho hlev hoff]
    · subst hb
      refine (hacc _ _ : exec (.debugLiveWrite val) s = _).trans (congrArg _ ?_)
      rcases h with h | h
      · rw [h, if_neg Bool.false_ne_true]
      · rw [liveWrite_refused h, ite_self]

end Sys2Proof.Machine
end
section
/-! PROOFS. Contexts and reload, rollback, replay and the stash's CLEAR (03 R68, R70; 10 R258; 11 R275 to R277; 09 R228). -/

namespace Sys2Proof.Machine

/-- What an index brings about for the view that the others keep, and every index then keeps, holds in the end. -/
theorem foldl_reaches {σ α : Type} (V : σ → α) (P : σ → Prop) {f : σ → Nat → σ} {k : Nat} {x : α} (hkeep : ∀ w j, P w → P (f w j))
    (hother : ∀ w j, j ≠ k → V (f w j) = V w) (hat : ∀ w, V w = x → P (f w k)) {l : List Nat} (hk : k ∈ l) {w : σ} (hw : V w = x) :
    P (l.foldl f w) := by
  have hall : ∀ (l : List Nat) (w : σ), P w → P (l.foldl f w) := by
    intro l
    induction l with
    | nil => exact fun _ h => h
    | cons j l ih => exact fun w h => ih _ (hkeep w j h)
  induction l generalizing w with
  | nil => cases hk
  | cons j l ih =>
    rw [List.foldl_cons]
    by_cases hj : j = k
    · subst hj
      exact hall l _ (hat w hw)
    · exact ih ((List.mem_cons.mp hk).resolve_left (Ne.symm hj)) ((hother w j hj).trans hw)

/-! A reload's request. -/

theorem dropWaiting_qOf (es : List Nat) (s : State) (e : Nat) :
    (qOf (dropWaiting s es) e).wait = (if e ∈ es then [] else (qOf s e).wait) ∧ (qOf (dropWaiting s es) e).infl = (qOf s e).infl := by
  unfold dropWaiting
  induction es generalizing s with
  | nil => exact ⟨by simp, rfl⟩
  | cons j es ih =>
    have hq : qOf (dropWatch (modQ s j (fun q => { q with wait := [] })) j) e = if e = j then { qOf s j with wait := [] } else qOf s e :=
      qOf_modQ s j e (fun q => { q with wait := [] })
    obtain ⟨hwait, hinfl⟩ := ih (dropWatch (modQ s j (fun q => { q with wait := [] })) j)
    rw [List.foldl_cons, hwait, hinfl, hq]
    by_cases hj : e = j
    · subst hj
      simp
    · simp [hj]

theorem dropWaiting_frame (es : List Nat) (s : State) : dropWaiting s es = { s with q := (dropWaiting s es).q, syn := (dropWaiting s es).syn } := by
  unfold dropWaiting
  induction es generalizing s with
  | nil => rfl
  | cons j es ih => rw [List.foldl_cons, ih]; rfl

theorem coreCtxReload_goes {s : State} {m : BitVec 4} (hs : Served s) (hm : m ≠ 0) (hb : s.core.rldBusy = false) :
    ∃ t, exec (.coreCtxReload m) s = .next t ∧ t.core = { s.core with mode := .idle, rldBusy := true, rldMask := s.core.rldMask ||| m } ∧
      (∀ e, e < 7 → (qOf t e).wait = [] ∧ (qOf t e).infl = (qOf s e).infl) ∧ (∀ o ∈ t.arr.ops, o.open_ = false) ∧ SameBytes s t := by
  have hexec : exec (.coreCtxReload m) s = .next (startReload s m) := by
    refine (regCmd_served hs _ _ : exec (.coreCtxReload m) s = _).trans (congrArg _ ?_)
    rw [reloadReq, if_neg (not_or.mpr ⟨hm, Bool.eq_false_iff.mp hb⟩)]
  have hq := dropWaiting_qOf [0, 1, 2, 3, 4, 5, 6] (s.modArr departAll)
  have hframe := dropWaiting_frame [0, 1, 2, 3, 4, 5, 6] (s.modArr departAll)
  refine ⟨_, hexec, ?_⟩
  unfold startReload
  generalize dropWaiting (s.modArr departAll) [0, 1, 2, 3, 4, 5, 6] = u at hq hframe
  have hcore : u.core = s.core := by rw [hframe]; rfl
  have harr : u.arr = departAll s.arr := by rw [hframe]; rfl
  have hmem : u.mem = s.mem := by rw [hframe]; rfl
  refine ⟨by rw [← hcore]; rfl, fun e he => ⟨?_, (hq e).2⟩, fun o ho => departAll_closes s.arr o (harr ▸ ho), fun a => congrArg (fun x => memByte x.bytes a) hmem⟩
  refine (hq e).1.trans (if_pos ?_)
  simp only [List.mem_cons, List.not_mem_nil, or_false]
  omega

/-! The end of a reload. -/

/-- The contexts of a mask, reloaded. -/
def reloadCtxs (s : State) (m : BitVec 4) : State :=
  (List.range 4).foldl (fun u i => if m.getLsbD i then reloadCtx u (BitVec.ofNat 2 i) else u) s

theorem reloadCtxs_frame (s : State) (m : BitVec 4) :
    reloadCtxs s m = { s with
      core := { s.core with ctxs := (reloadCtxs s m).core.ctxs }, fac := { s.fac with ctxs := (reloadCtxs s m).fac.ctxs }
      xch := { s.xch with resume := (reloadCtxs s m).xch.resume } } := by
  unfold reloadCtxs
  generalize List.range 4 = l
  induction l generalizing s with
  | nil => rfl
  | cons i l ih =>
    rw [List.foldl_cons, ih]
    split <;> rfl

/-- What the reload of the contexts of a mask leaves of one context. -/
def reloadView (m : BitVec 4) (c : BitVec 2) (v : Tab Addr × Ctx × FacCtx) : Tab Addr × Ctx × FacCtx :=
  if m.getLsbD c.toNat then (v.1, { pc := tabGet 0 v.1 c.toNat }, v.2.2.idled) else v

/-- Contexts have numbers below 4. -/
theorem ofNat_ctx_ne {m : BitVec 4} {j : Nat} {c : BitVec 2} (hm : m.getLsbD j = true) (hj : j ≠ c.toNat) : c ≠ BitVec.ofNat 2 j := by
  have hlt := BitVec.lt_of_getLsbD hm
  intro hc
  rw [hc, BitVec.toNat_ofNat, Nat.mod_eq_of_lt hlt] at hj
  exact hj rfl

theorem reloadCtx_view (s : State) (d c : BitVec 2) :
    (reloadCtx s d).core.entry = s.core.entry ∧
      ctxOf (reloadCtx s d) c = (if c = d then { pc := tabGet 0 s.core.entry d.toNat } else ctxOf s c) ∧
      facOf (reloadCtx s d) c = if c = d then (facOf s c).idled else facOf s c := by
  refine ⟨rfl, ctxOf_setCtx .., ?_⟩
  refine (facOf_modFacCtx (setCtx s d _) d c FacCtx.idled).trans ?_
  by_cases hc : c = d
  · rw [if_pos hc, if_pos hc, ← hc]; rfl
  · rw [if_neg hc, if_neg hc]; rfl

theorem reloadCtxs_view (s : State) (m : BitVec 4) (c : BitVec 2) :
    (m.getLsbD c.toNat = true → ctxOf (reloadCtxs s m) c = { pc := tabGet 0 s.core.entry c.toNat } ∧ facOf (reloadCtxs s m) c = (facOf s c).idled) ∧
      (m.getLsbD c.toNat = false → ctxOf (reloadCtxs s m) c = ctxOf s c ∧ facOf (reloadCtxs s m) c = facOf s c) := by
  have hview : ((reloadCtxs s m).core.entry, ctxOf (reloadCtxs s m) c, facOf (reloadCtxs s m) c) =
      reloadView m c (s.core.entry, ctxOf s c, facOf s c) := by
    refine foldl_view_at (fun u : State => (u.core.entry, ctxOf u c, facOf u c)) (reloadView m c)
      (f := fun u i => if m.getLsbD i then reloadCtx u (BitVec.ofNat 2 i) else u) (k := c.toNat) (fun u j hj => ?_) (fun u => ?_)
      (List.mem_range.mpr c.isLt) List.nodup_range s
    · split
      next hm =>
        obtain ⟨hentry, hctx, hfac⟩ := reloadCtx_view u (BitVec.ofNat 2 j) c
        rw [hentry, hctx, hfac, if_neg (ofNat_ctx_ne hm hj), if_neg (ofNat_ctx_ne hm hj)]
      next => rfl
    · unfold reloadView
      split
      · obtain ⟨hentry, hctx, hfac⟩ := reloadCtx_view u (BitVec.ofNat 2 c.toNat) c
        rw [BitVec.ofNat_toNat, BitVec.setWidth_eq] at *
        rw [hentry, hctx, hfac, if_pos rfl, if_pos rfl]
      · rfl
  refine ⟨fun hm => ?_, fun hm => ?_⟩
  · rw [reloadView, if_pos hm, Prod.mk.injEq, Prod.mk.injEq] at hview
    exact hview.2
  · rw [reloadView, if_neg (Bool.eq_false_iff.mp hm), Prod.mk.injEq, Prod.mk.injEq] at hview
    exact hview.2

/-- The state in which a reload has ended. -/
theorem settleAll_none {s : State} (h : s.xch.due = []) : settleAll s = s := by rw [settleAll, if_pos h]

/-- What the end of a reload leaves. -/
theorem finishReload_spec {s : State} (h : s.xch.due = []) :
    finishReload s = { s with
      core := { s.core with
        cur := s.core.next, switch := false, rldBusy := false, rldMask := 0, mode := .idle, phase := if 2 ≤ s.core.phase.toNat then 0 else s.core.phase
        syncZone := if s.core.syncArr then 3 else s.core.syncZone, ctxs := (reloadCtxs s s.core.rldMask).core.ctxs }
      fac := { s.fac with ctxs := (reloadCtxs s s.core.rldMask).fac.ctxs, nrmV := s.fac.nrmV && !s.core.syncArr }
      man := { s.man with live := [], isLive := false, armed := none, hold := false, resume := false }
      jrnl := { s.jrnl with cred := [], toArr := [], toClose := [], skip := false }
      mem := Mem.settled { s.mem with xph := false }
      xch := { s.xch with run := .off, failed := false, load := none, loadSel := none, resume := (reloadCtxs s s.core.rldMask).xch.resume }
      flt := (finishReload s).flt, sec := (finishReload s).sec, dbg := (finishReload s).dbg } := by
  unfold finishReload
  dsimp only
  rw [settleAll_none h, lowerLevel_frame, show (List.range 4).foldl (fun u i => if s.core.rldMask.getLsbD i then reloadCtx u (BitVec.ofNat 2 i) else u) s =
    reloadCtxs s s.core.rldMask from rfl, reloadCtxs_frame]
  rfl

/-! What proceeds when nothing waits. -/

theorem str_noneWaits {x : Str} (h : x.waiting = []) : { x with waiting := [] } = x := by rw [← h]

theorem strResume_none {s : State} (h : s.str.waiting = []) : strResume s = s := by
  rw [strResume, h]
  exact congrArg (fun x => { s with str := x }) (str_noneWaits h)

theorem pstResume_none {s : State} (h : s.pst.waiting = []) : pstResume s = s := by rw [pstResume, h]

/-- A wait that nothing but a stalled issue stood behind. -/
theorem resumeAll_unstalls {s : State} (hfe : s.syn.fePend = none) (hstr : s.str.waiting = []) (hpst : s.pst.waiting = [])
    (hmgmt : s.bus.mgmt.waiting = []) (hdbg : s.bus.dbg.waiting = []) : resumeAll s = unstall s := by
  rw [resumeAll, feResume, hfe, strResume_none hstr, pstResume_none hpst, drainBuses_empty]
  · rw [unstall_frame]; exact hmgmt
  · rw [unstall_frame]; exact hdbg

theorem resumeAll_none {s : State} (h : NothingWaits s) (hm : ∀ i, s.core.mode ≠ .full i) : resumeAll s = s := by
  obtain ⟨hfe, hstr, hpst, hmgmt, hdbg⟩ := h
  rw [resumeAll_unstalls hfe hstr hpst hmgmt hdbg, unstall_of_notFull hm]

theorem reloadDone_goes {s : State} (hon : unitsOn s = true) (hb : s.core.rldBusy = true) (he : enginesDone s = true) (hd : streamDrained s = true)
    (hw : NothingWaits s) (hx : s.xch.due = []) : exec .reloadDone s = .next (finishReload s) := by
  refine (whenOn_of (by rw [hon, hb, he, hd]; rfl) s _ : exec .reloadDone s = _).trans (congrArg _ (resumeAll_none ?_ ?_))
  · rw [finishReload_spec hx]; exact hw
  · rw [finishReload_spec hx]; exact fun _ h => by cases h

/-! Rollback. -/

/-- What a rollback of the contexts of a mask leaves of one context. -/
def rollView (m : BitVec 4) (c : BitVec 2) (x : FacCtx) : FacCtx :=
  if m.getLsbD c.toNat ∧ x.st = 0 ∧ x.rollok = true then { x with ver := x.ver - 1, step := x.step - 1, rollok := false } else x

/-- The rollback of one context. -/
def rollCtx (s : State) (i : Nat) : State :=
  let c := BitVec.ofNat 2 i
  if decide ((facOf s c).st = 0) && (facOf s c).rollok then
    let u := modFacCtx s c (fun y => { y with ver := y.ver - 1, step := y.step - 1, rollok := false })
    if i = 0 then rollbackEpoch u else u
  else s.modFac (fun f => { f with rbrej := true })

theorem rollback_eq (s : State) (m : BitVec 4) :
    rollback s m = (List.range 4).foldl (fun t i => if m.getLsbD i then rollCtx t i else t) s := rfl

theorem rollCtx_frame (s : State) (i : Nat) : rollCtx s i = { s with fac := (rollCtx s i).fac, sec := (rollCtx s i).sec } := by
  unfold rollCtx
  dsimp only
  split
  · split <;> rfl
  · rfl

theorem rollCtx_facOf (s : State) (i : Nat) (c : BitVec 2) :
    facOf (rollCtx s i) c = if c = BitVec.ofNat 2 i ∧ (facOf s c).st = 0 ∧ (facOf s c).rollok = true
      then { facOf s c with ver := (facOf s c).ver - 1, step := (facOf s c).step - 1, rollok := false } else facOf s c := by
  have hmod := facOf_modFacCtx s (BitVec.ofNat 2 i) c (fun y => { y with ver := y.ver - 1, step := y.step - 1, rollok := false })
  unfold rollCtx
  dsimp only
  split
  next hok =>
    have hst : (facOf s (BitVec.ofNat 2 i)).st = 0 ∧ (facOf s (BitVec.ofNat 2 i)).rollok = true := by simpa using hok
    have hfac : ∀ u : State, facOf (if i = 0 then rollbackEpoch u else u) c = facOf u c := fun u => by split <;> rfl
    rw [hfac, hmod]
    by_cases hc : c = BitVec.ofNat 2 i
    · subst hc
      rw [if_pos rfl, if_pos ⟨rfl, hst⟩]
    · rw [if_neg hc, if_neg (fun h => hc h.1)]
  next hno =>
    have hst : ¬ ((facOf s (BitVec.ofNat 2 i)).st = 0 ∧ (facOf s (BitVec.ofNat 2 i)).rollok = true) := by simpa using hno
    rw [if_neg (by rintro ⟨rfl, h⟩; exact hst h)]
    rfl

theorem rollCtx_rejects {s : State} {i : Nat} (h : (facOf s (BitVec.ofNat 2 i)).st ≠ 0 ∨ (facOf s (BitVec.ofNat 2 i)).rollok = false) :
    (rollCtx s i).fac.rbrej = true := by
  unfold rollCtx
  dsimp only
  rw [if_neg]
  · rfl
  · rw [Bool.and_eq_true, decide_eq_true_eq]
    rintro ⟨hst, hok⟩
    rcases h with h | h
    · exact h hst
    · rw [h] at hok; cases hok

theorem rollCtx_keepsRbrej {s : State} (h : s.fac.rbrej = true) (i : Nat) : (rollCtx s i).fac.rbrej = true := by
  unfold rollCtx
  dsimp only
  split
  · split <;> exact h
  · rfl

theorem rollback_frame (s : State) (m : BitVec 4) : rollback s m = { s with fac := (rollback s m).fac, sec := (rollback s m).sec } := by
  rw [rollback_eq]
  generalize List.range 4 = l
  induction l generalizing s with
  | nil => rfl
  | cons i l ih =>
    rw [List.foldl_cons, ih]
    split
    · rw [rollCtx_frame]
    · rfl

/-- A context is changed by its own turn alone. -/
theorem rollTurn_other {m : BitVec 4} {c : BitVec 2} {j : Nat} (hj : j ≠ c.toNat) (u : State) :
    facOf (if m.getLsbD j then rollCtx u j else u) c = facOf u c := by
  split
  next hm => rw [rollCtx_facOf, if_neg (fun h => ofNat_ctx_ne hm hj h.1)]
  next => rfl

theorem rollback_facOf (s : State) (m : BitVec 4) (c : BitVec 2) : facOf (rollback s m) c = rollView m c (facOf s c) := by
  rw [rollback_eq]
  refine foldl_view_at (fun u : State => facOf u c) (rollView m c) (f := fun t i => if m.getLsbD i then rollCtx t i else t) (k := c.toNat)
    (fun u j hj => rollTurn_other hj u) (fun u => ?_) (List.mem_range.mpr c.isLt) List.nodup_range s
  have hown : BitVec.ofNat 2 c.toNat = c := BitVec.ofNat_toNat ..
  unfold rollView
  cases hm : m.getLsbD c.toNat with
  | true =>
    rw [if_pos rfl, rollCtx_facOf, hown]
    simp only [true_and]
  | false => simp

theorem rollback_rejects {s : State} {m : BitVec 4} {c : BitVec 2} (hm : m.getLsbD c.toNat = true)
    (h : (facOf s c).st ≠ 0 ∨ (facOf s c).rollok = false) : (rollback s m).fac.rbrej = true := by
  rw [rollback_eq]
  refine foldl_reaches (fun u : State => facOf u c) (fun u => u.fac.rbrej = true) (f := fun t i => if m.getLsbD i then rollCtx t i else t)
    (k := c.toNat) (x := facOf s c) (fun u j hu => ?_) (fun u j hj => rollTurn_other hj u) (fun u hu => ?_) (List.mem_range.mpr c.isLt) rfl
  · split
    · exact rollCtx_keepsRbrej hu j
    · exact hu
  · rw [if_pos hm]
    refine rollCtx_rejects ?_
    rw [BitVec.ofNat_toNat, BitVec.setWidth_eq, show facOf u c = facOf s c from hu]
    exact h

/-! Replay. -/

theorem armReplay_armed {s : State} (hw : s.man.lwin = true) (hc : s.jrnl.count ≠ 0) :
    armReplay s = { s with
      core := { s.core with stage := s.jrnl.step - 1 }
      wgh := if s.jrnl.wstep then (wghRestore s).wgh else s.wgh
      jrnl := { s.jrnl with wstep := false, rpEnd := s.jrnl.last, rparm := true, rpact := false, skip := false } } := by
  have hgo : (!s.man.lwin || decide (s.jrnl.count = 0)) = false := by rw [hw, decide_eq_false hc]; rfl
  rw [armReplay, hgo, if_neg Bool.false_ne_true]
  dsimp only
  split
  · rw [show wghRestore (s.modCore (fun k => { k with stage := s.jrnl.step - 1 })) =
      { s with core := { s.core with stage := s.jrnl.step - 1 }, wgh := (wghRestore s).wgh } from rfl]
    rfl
  · rfl

theorem armReplay_refused {s : State} (h : s.man.lwin = false ∨ s.jrnl.count = 0) :
    armReplay s = { s with jrnl := { s.jrnl with rprej := true } } := by
  rw [armReplay, if_pos (by rcases h with h | h <;> simp [h])]
  rfl

theorem jrnlCtrlReplay_goes {s : State} (hs : Served s) (hw : s.man.lwin = true) (hc : s.jrnl.count ≠ 0) :
    ∃ t, exec .jrnlCtrlReplay s = .next t ∧ t.jrnl.rparm = true ∧ t.jrnl.rpact = false ∧ t.jrnl.skip = false ∧ t.jrnl.rpEnd = s.jrnl.last ∧
      t.core = { s.core with stage := s.jrnl.step - 1 } ∧ (s.jrnl.wstep = true → t.wgh = (wghRestore s).wgh) ∧
      (s.jrnl.wstep = false → t.wgh = s.wgh) ∧ t = { s with core := t.core, wgh := t.wgh, jrnl := t.jrnl } := by
  refine ⟨_, regCmd_served hs _ _, ?_⟩
  rw [armReplay_armed hw hc]
  exact ⟨rfl, rfl, rfl, rfl, rfl, fun h => if_pos h, fun h => if_neg (Bool.eq_false_iff.mp h), rfl⟩

theorem cancelReplay_running {s : State} (h : s.jrnl.rparm = true ∨ s.jrnl.rpact = true) :
    cancelReplay s = { s with jrnl := { s.jrnl with rparm := false, rpact := false, rpdone := true, skip := true } } := by
  have hr : (s.jrnl.rparm || s.jrnl.rpact) = true := Bool.or_eq_true_iff.mpr h
  rw [cancelReplay, if_pos hr, replayEnd]
  exact congrArg (fun j : Jrnl => { s with jrnl := { j with skip := true } }) (if_pos hr)

theorem cancelReplay_none {s : State} (ha : s.jrnl.rparm = false) (hr : s.jrnl.rpact = false) : cancelReplay s = s := by
  rw [cancelReplay, ha, hr]; rfl

/-! The stash's CLEAR. -/

theorem clearReq_clears {s : State} (h : depotBusy s = false) : clearReq s = sthClear (s.modSth (fun h => { h with clearPend := true })) := by
  rw [clearReq, sthSettle, if_pos]
  show (true && !depotBusy s) = true
  rw [h]; rfl

theorem sthClear_spec (s : State) : (∀ k, entOf (sthClear s) k = {}) ∧ (sthClear s).sth.order = [] ∧ (sthClear s).sth.dptr = 0 ∧
    (sthClear s).sth.clearPend = false ∧ SameBytes s (sthClear s) := by
  unfold sthClear restartRegion
  dsimp only
  split
  · split <;> exact ⟨fun _ => rfl, rfl, rfl, rfl, fun _ => rfl⟩
  · exact ⟨fun _ => rfl, rfl, rfl, rfl, fun _ => rfl⟩

/-- Settles O53: each command by what it leaves of its unit. -/
theorem contextsAndReplay : Obligations.ContextsAndReplay := by
  unfold Obligations.ContextsAndReplay
  refine ⟨fun s v hs => ⟨_, regCmd_served hs _ _, ?_⟩, fun s m => coreCtxReload_goes, ?_, fun s m hs => ⟨_, regCmd_served hs _ _, rollback_frame s m, fun c => ⟨?_, ?_, ?_⟩⟩,
    fun s hs => ⟨jrnlCtrlReplay_goes hs, ?_, ?_, ?_, ?_⟩⟩
  · rw [writeCtx, bitsOf_toNat v 5 4, BitVec.ofNat_toNat, BitVec.setWidth_eq]
    rfl
  · intro s hon hb he hd hw hx
    refine ⟨_, reloadDone_goes hon hb he hd hw hx, ?_⟩
    have hview := reloadCtxs_view s s.core.rldMask
    rw [finishReload_spec hx]
    refine ⟨rfl, rfl, rfl, rfl, rfl, rfl, rfl, rfl, rfl, rfl, rfl, rfl, rfl, rfl, rfl, fun c hc => ?_, fun c hc => ?_, fun _ => rfl⟩
    · obtain ⟨hctx, hfac⟩ := (hview c).1 hc
      exact ⟨hctx, congrArg FacCtx.st hfac⟩
    · exact (hview c).2 hc
  · intro hm hst hok
    rw [rollback_facOf, rollView, if_pos ⟨hm, hst, hok⟩]
  · intro hm h
    refine ⟨?_, rollback_rejects hm h⟩
    rw [rollback_facOf, rollView, if_neg (fun hh => h.elim (fun h => h hh.2.1) (fun h => by rw [h] at hh; exact absurd hh.2.2 (by decide)))]
  · intro hm
    rw [rollback_facOf, rollView, if_neg (fun hh => by rw [hm] at hh; exact absurd hh.1 (by decide))]
  · exact fun h => (regCmd_served hs _ _ : exec .jrnlCtrlReplay s = _).trans (congrArg _ (armReplay_refused h))
  · exact fun h => (regCmd_served hs _ _ : exec .jrnlCtrlCancel s = _).trans (congrArg _ (cancelReplay_running h))
  · exact fun ha hr => (regCmd_served hs _ _ : exec .jrnlCtrlCancel s = _).trans (congrArg _ (cancelReplay_none ha hr))
  · intro hb
    refine ⟨_, (regCmd_served hs _ _ : exec .memSthCtrlClear s = _).trans (congrArg _ (clearReq_clears hb)), ?_⟩
    exact sthClear_spec (s.modSth (fun h => { h with clearPend := true }))

end Sys2Proof.Machine
end
section
/-! PROOFS. Zeroisation, its end, and scrubbing (07 R183, R185, R193). -/

namespace Sys2Proof.Machine

/-! A zeroisation starts. -/

theorem abandonLoad_frame (s : State) : abandonLoad s = { s with man := (abandonLoad s).man } := by
  unfold abandonLoad
  split
  · rfl
  · rw [manErr]
    split <;> rfl

theorem abandonCode_frame (s : State) : abandonCode s = { s with sec := (abandonCode s).sec } ∧ (abandonCode s).sec.codeOk = s.sec.codeOk := by
  unfold abandonCode
  split <;> exact ⟨rfl, rfl⟩

theorem abandon_spec (s : State) : ∃ m x, abandonCode (abandonLoad s) = { s with man := m, sec := x } ∧ x.codeOk = s.sec.codeOk := by
  obtain ⟨hframe, hcode⟩ := abandonCode_frame (abandonLoad s)
  have hload := abandonLoad_frame s
  generalize abandonLoad s = t at hframe hcode hload
  exact ⟨t.man, (abandonCode t).sec, by rw [hframe, hload], hcode.trans (by rw [hload])⟩

theorem startZero_spec (s : State) :
    (∀ a, memByte (startZero s).mem.bytes a = 0) ∧ (startZero s).mem.full = [] ∧ (startZero s).mem.ecc = [] ∧ (startZero s).mem.zeroing = true ∧
      (startZero s).mem.zeroCount = s.mem.zeroCount + 1 ∧ (startZero s).sec.codeOk = false ∧ (startZero s).sth.ents = [] ∧
      (startZero s).sth.order = [] ∧ (startZero s).jrnl.count = 0 ∧ (startZero s).core = s.core ∧ (startZero s).syn = s.syn ∧
      (startZero s).q = s.q ∧ (startZero s).vec.v = [] ∧ (startZero s).mem.fullErr = [] := by
  obtain ⟨m, x, hzero, hcode⟩ := abandon_spec (((((s.modMem (fun m => { m with
      bytes := [], full := [], fullErr := [], ecc := [], wbq := [], zeroing := true, zeroCount := m.zeroCount + 1, scrubRow := 0 })).modSec
    (fun x => { x with codeOk := false })).modVec (fun v => { v with v := [], runm := [], runs := v.runs.map (fun r => { r with red := [] }) })).modSth
    (fun h => { h with ents := [], order := [] })).modJrnl (fun j => { j with count := 0, sinceCopy := [] }))
  unfold startZero
  rw [hzero]
  exact ⟨fun _ => rfl, rfl, rfl, rfl, rfl, hcode, rfl, rfl, rfl, rfl, rfl, rfl, rfl, rfl⟩

/-! Its end. -/

theorem resolveSel_none {s : State} (h : s.xch.loadSel = none) : resolveSel s = s := by
  unfold resolveSel
  rw [h]
  split
  next hsel => cases hsel
  next => rfl

theorem putRecords_none {s : State} (h : s.jrnl.recs = []) : putRecords s = s := by
  have hj : { s.jrnl with recs := [] } = s.jrnl := by rw [← h]
  unfold putRecords
  dsimp only
  rw [h, List.foldl_nil, ite_self]
  exact congrArg (fun j => { s with jrnl := j }) hj

/-- The end of a zeroisation where nothing else waits for it. -/
theorem zeroEnds_spec {s : State} (hl : s.xch.loadSel = none) (hr : s.jrnl.recs = []) :
    zeroEnds s = { s with
      mem := Mem.settled { s.mem with zeroing := false, scrubRow := 0 }
      gov := (spend s 4 (32 * 1536)).gov
      sec := { (if s.sec.endJob then clearRegions (zeroKeys s) else s).sec with
        stop := false, endJob := false
        busy := (if s.sec.endJob then clearRegions (zeroKeys s) else s).sec.busy && (if s.sec.endJob then clearRegions (zeroKeys s) else s).sec.rekey.isSome }
      pst := { s.pst with fresh := false } } := by
  have ht : ∃ x, (if s.sec.endJob then clearRegions (zeroKeys s) else s) = { s with sec := x } := by
    split
    · exact ⟨_, rfl⟩
    · exact ⟨s.sec, rfl⟩
  obtain ⟨x, hx⟩ := ht
  unfold zeroEnds
  dsimp only
  rw [hx, resolveSel_none (by exact hl), putRecords_none (by exact hr)]
  rfl

theorem mem_settled_wants {m : Mem} (hz : m.zeroing = false) (w : Want) :
    w ∈ m.settled.wants ↔ m.xph = true ∧ w.banks ≠ 0 ∧ ∃ v ∈ m.wants, w = { v with banks := v.banks &&& m.xres.toNat } := by
  unfold Mem.settled
  dsimp only
  rw [hz]
  simp only [Bool.false_eq_true, if_false, List.mem_map, List.mem_filter, decide_eq_true_eq]
  cases hx : m.xph with
  | false => simp
  | true =>
    simp only [if_true, true_and]
    constructor
    · rintro ⟨v, ⟨hv, hne⟩, rfl⟩
      exact ⟨hne, v, hv, rfl⟩
    · rintro ⟨hne, v, hv, rfl⟩
      exact ⟨v, ⟨hv, hne⟩, rfl⟩

/-! Scrubbing. -/

theorem eccFold_scrubPass (req : Nat) (l : List (Nat × EccErr)) (s : State) : (l.foldl (eccRdOne req) s).mem.scrubPass = s.mem.scrubPass := by
  induction l generalizing s with
  | nil => rfl
  | cons p l ih =>
    rw [List.foldl_cons, ih]
    unfold eccRdOne
    split
    · rfl
    · rfl
    · unfold memUe
      rw [raise_frame]
      split <;> rfl

theorem serve_scrubPass (s : State) (req a n : Nat) : (serve s req a n).mem.scrubPass = s.mem.scrubPass := by
  have hfold (l : List Nat) (t : State) : (l.foldl (serveBank req) t).mem.scrubPass = t.mem.scrubPass := by
    induction l generalizing t with
    | nil => rfl
    | cons b l ih => rw [List.foldl_cons, ih]; rfl
  exact hfold ..

theorem touchRead_scrubPass (s : State) (req a n : Nat) : (touchRead s req a n).mem.scrubPass = s.mem.scrubPass := by
  rw [touchRead, serve_scrubPass]
  exact eccFold_scrubPass ..

/-- The words that the scrubber reads of a row. -/
def scrubWords (s : State) (r : Nat) (l : List Nat) (u : State) : State :=
  l.foldl (fun u b => if s.mem.xph && s.mem.xres.getLsbD b then u else touchRead u rqSCRUB (rowAddr r b) 32) u

theorem scrubWords_kept (s : State) (r : Nat) (l : List Nat) (u : State) :
    (scrubWords s r l u).mem.bytes = u.mem.bytes ∧ (scrubWords s r l u).mem.scrubPass = u.mem.scrubPass := by
  unfold scrubWords
  induction l generalizing u with
  | nil => exact ⟨rfl, rfl⟩
  | cons b l ih =>
    rw [List.foldl_cons]
    obtain ⟨hb, hp⟩ := ih (if s.mem.xph && s.mem.xres.getLsbD b then u else touchRead u rqSCRUB (rowAddr r b) 32)
    rw [hb, hp]
    split
    · exact ⟨rfl, rfl⟩
    · exact ⟨touchRead_bytes .., touchRead_scrubPass ..⟩

theorem scrub_spec (s : State) : SameBytes s (scrub s) ∧ (scrub s).mem.scrubRow = (s.mem.scrubRow + 1) % 1536 ∧
    (scrub s).mem.scrubPass = s.mem.scrubPass + if s.mem.scrubRow + 1 = 1536 then 1 else 0 := by
  obtain ⟨hb, hp⟩ := scrubWords_kept s s.mem.scrubRow (List.range 32) s
  have hs : scrub s = (scrubWords s s.mem.scrubRow (List.range 32) s).modMem (fun m =>
    { m with scrubRow := (s.mem.scrubRow + 1) % 1536, scrubPass := m.scrubPass + if s.mem.scrubRow + 1 = 1536 then 1 else 0 }) := rfl
  rw [hs]
  generalize scrubWords s s.mem.scrubRow (List.range 32) s = u at hb hp
  exact ⟨fun a => congrArg (memByte · a) hb, rfl, congrArg (· + _) hp⟩

theorem scrubWriteback_goes {s : State} {cw : Nat} {rest : List Nat} (hon : unitsOn s = true) (hq : s.mem.wbq = cw :: rest)
    (hw : memWaits s (8 * cw) 8 = false) :
    ∃ t, exec .scrubWriteback s = .next t ∧ SameBytes s t ∧ t.mem.wbq = rest ∧
      (tabGet .clean s.mem.ecc cw = .single → tabGet .clean t.mem.ecc cw = .clean) ∧
      (∀ k, k ≠ cw → tabGet .clean t.mem.ecc k = tabGet .clean s.mem.ecc k) := by
  have hecc := serve_ecc (spend s 4 1) rqSCRUB (8 * cw) 8
  have hbytes := serve_bytes (spend s 4 1) rqSCRUB (8 * cw) 8
  have hexec : exec .scrubWriteback s = .next ((serve (spend s 4 1) rqSCRUB (8 * cw) 8).modMem (fun m => { m with
        wbq := rest, ecc := if tabGet .clean m.ecc cw = .single then tabSet .clean m.ecc cw .clean else m.ecc })) := by
    rw [show exec .scrubWriteback s = execScrubWriteback s from rfl, execScrubWriteback, hq]
    exact whenMem_goes hon (by rw [spansWait_singleton, hw]) _
  refine ⟨_, hexec, ?_⟩
  generalize serve (spend s 4 1) rqSCRUB (8 * cw) 8 = u at hecc hbytes
  have hecc' : u.mem.ecc = s.mem.ecc := hecc
  refine ⟨fun a => congrArg (memByte · a) hbytes, rfl, fun hsingle => ?_, fun k hk => ?_⟩
  · show tabGet EccErr.clean (if tabGet .clean u.mem.ecc cw = .single then tabSet .clean u.mem.ecc cw .clean else u.mem.ecc) cw = .clean
    rw [hecc', if_pos hsingle, tabGet_set_same]
  · show tabGet EccErr.clean (if tabGet .clean u.mem.ecc cw = .single then tabSet .clean u.mem.ecc cw .clean else u.mem.ecc) k = _
    rw [hecc']
    split
    · rw [tabGet_set_ne _ _ _ hk]
    · rfl

/-- The end of a zeroisation, with nothing that waits for it but a stalled issue. -/
theorem zeroisationDone_goes {s : State} (hb : busOn s = true) (hz : s.mem.zeroing = true) (hf : s.flt.fatal = false) (hw : NothingWaits s)
    (hl : s.xch.loadSel = none) (hr : s.jrnl.recs = []) : exec .zeroisationDone s = .next (unstall (zeroEnds s)) := by
  obtain ⟨hfe, hstr, hpst, hmgmt, hdbg⟩ := hw
  have hspec := zeroEnds_spec hl hr
  refine (whenOn_of (by rw [hb, hz]; rfl) s _ : exec .zeroisationDone s = _).trans (congrArg _ ?_)
  have hnf : (zeroEnds s).flt.fatal = false := by rw [hspec]; exact hf
  dsimp only
  rw [hnf, if_neg Bool.false_ne_true]
  exact resumeAll_unstalls (by rw [hspec]; exact hfe) (by rw [hspec]; exact hstr) (by rw [hspec]; exact hpst) (by rw [hspec]; exact hmgmt)
    (by rw [hspec]; exact hdbg)

/-- Settles O54: each command by its parts; the end of a zeroisation by what it leaves to the banks that the exchange phase reserves. -/
theorem memoryUpkeep : Obligations.MemoryUpkeep := by
  unfold Obligations.MemoryUpkeep
  refine ⟨fun s hs => ⟨_, regCmd_served hs _ _, startZero_spec s⟩, ?_, fun s hon hz => ⟨?_, fun cw rest => scrubWriteback_goes hon⟩⟩
  · intro s hb hz hf hw hl hr
    have hwants := mem_settled_wants (m := { s.mem with zeroing := false, scrubRow := 0 }) rfl
    refine ⟨_, zeroisationDone_goes hb hz hf hw hl hr, ?_⟩
    rw [unstall_frame, zeroEnds_spec hl hr]
    refine ⟨rfl, rfl, fun hx => ?_, hwants, rfl, rfl, fun hend => ?_, fun hend => ?_⟩
    · refine List.eq_nil_iff_forall_not_mem.mpr fun w hm => ?_
      exact absurd ((hwants w).mp hm).1 (Bool.eq_false_iff.mp hx)
    · rw [hend, if_pos rfl]
      exact ⟨rfl, rfl, rfl⟩
    · rw [hend, if_neg Bool.false_ne_true]
      exact ⟨rfl, rfl⟩
  · obtain ⟨hsame, hrow, hpass⟩ := scrub_spec s
    refine ⟨_, whenOn_of (by rw [hon, hz]; rfl) s _, hsame, hrow, fun h => ?_, fun h => ?_⟩
    · rw [hpass, if_pos (by omega)]
    · rw [hpass, if_neg (by omega)]
      exact BitVec.add_zero _

end Sys2Proof.Machine
end
section
/-! PROOFS. The fault unit's commands, injections and fatal faults (16 R388 to R399). -/

namespace Sys2Proof.Machine

/-! The weigher copy. -/

/-- A weigher whose copy is restored. -/
def restored (c : WCopy) (x : Weigher) : Weigher := { x with hist := c.hist, fill := c.fill, s := c.s }

theorem wghRestore_w (s : State) : (wghRestore s).wgh.w =
    (List.range 16).foldl (fun t k => tabMod {} t k (fun x => restored (tabGet ({} : WCopy) s.wgh.copy k) x)) s.wgh.w := by
  simp only [wghRestore, State.modWgh, restored]

theorem wghRestore_spec (s : State) : wghRestore s = { s with wgh := (wghRestore s).wgh } ∧ (wghRestore s).wgh.l = s.wgh.copyL ∧
    (wghRestore s).wgh.good = s.wgh.copyGood ∧ ∀ k, k < 16 →
      (tabGet ({} : Weigher) (wghRestore s).wgh.w k).s = (tabGet ({} : WCopy) s.wgh.copy k).s ∧
      (tabGet ({} : Weigher) (wghRestore s).wgh.w k).hist = (tabGet ({} : WCopy) s.wgh.copy k).hist ∧
      (tabGet ({} : Weigher) (wghRestore s).wgh.w k).acc = (tabGet ({} : Weigher) s.wgh.w k).acc := by
  refine ⟨rfl, rfl, rfl, fun k hk => ?_⟩
  have hrow : tabGet ({} : Weigher) (wghRestore s).wgh.w k = restored (tabGet ({} : WCopy) s.wgh.copy k) (tabGet ({} : Weigher) s.wgh.w k) := by
    rw [wghRestore_w]
    refine foldl_view_at (fun t => tabGet ({} : Weigher) t k) (restored (tabGet ({} : WCopy) s.wgh.copy k)) (fun t j hj => ?_) (fun t => ?_)
      (List.mem_range.mpr hk) List.nodup_range _
    · exact (tabGet_mod ..).trans (if_neg (Ne.symm hj))
    · exact (tabGet_mod ..).trans (if_pos rfl)
  rw [hrow]
  exact ⟨rfl, rfl, rfl⟩

/-! Fault records. -/

/-- A record names its unit, where its class is one of R387 (16 R393). -/
theorem faultRec_unit (s : State) {code cls unit : Nat} (hcode : code < 2 ^ 8) (hcls : cls < 4) (addr : Addr) (detail : Nat) :
    (faultRec s code cls unit addr detail).w0.extractLsb' 12 4 = BitVec.ofNat 4 unit := by
  apply BitVec.eq_of_toNat_eq
  have hcur : s.core.cur.toNat < 4 := s.core.cur.isLt
  simp only [faultRec, BitVec.extractLsb'_toNat, BitVec.toNat_ofNat, Nat.shiftRight_eq_div_pow]
  omega

/-! A tile that is put in hold by an injected mismatch. -/

/-- The exchange port and the controller of a tile that holds from now on. -/
theorem stopToHold_spec {s : State} (hd : s.xch.due = []) (hstr : s.str.waiting = []) (hpst : s.pst.waiting = []) :
    (stopToHold s).flt = s.flt ∧ (stopToHold s).mem.bytes = s.mem.bytes ∧ (stopToHold s).man.hold = true ∧
      (stopToHold s).core.phase = 1 ∧ (stopToHold s).core.mode = s.core.mode ∧ (stopToHold s).xch.run = .off ∧
      (stopToHold s).xch.out = none ∧ (stopToHold s).mem.xph = false ∧
      (s.core.syncArr = true → (stopToHold s).core.syncZone = 3 ∧ (stopToHold s).fac.nrmV = false) := by
  unfold stopToHold
  rw [settleAll_none hd]
  dsimp only
  rw [strResume_none (by exact hstr), pstResume_none (by exact hpst)]
  exact ⟨rfl, rfl, rfl, rfl, rfl, rfl, rfl, rfl, fun h => ⟨if_pos h, by simp [standStill, noRecord, replayEnd, h]⟩⟩

/-! Injections. -/

theorem raiseMismatch_spec (s : State) (code unit : Nat) :
    raiseMismatch s code unit = { s with flt := (raiseMismatch s code unit).flt } ∧
      (raiseMismatch s code unit).flt.cont = true ∧ (raiseMismatch s code unit).flt.cntCont = s.flt.cntCont + 1 ∧
      (raiseMismatch s code unit).flt.log.head? = some (faultRec s code 1 unit 0 0) ∧
      (raiseMismatch s code unit).flt.haltCtx = s.flt.haltCtx ∧
      (raiseMismatch s code unit).flt.pend = (s.flt.pend || ctxRuns s) := by
  unfold raiseMismatch
  cases hc : ctxRuns s
  · exact ⟨rfl, rfl, rfl, rfl, rfl, (Bool.or_false _).symm⟩
  · exact ⟨rfl, rfl, rfl, rfl, rfl, (Bool.or_true _).symm⟩

/-! Fatal faults. -/

theorem answered_frame (s : State) (h : Dword) (code : Nat) : ∃ p g, freeMsg (answer s h code) = { s with pst := p, gov := g } ∧
    p.waiting = s.pst.waiting := ⟨_, _, rfl, rfl⟩

theorem takeMsg_fatal {s : State} (hf : s.flt.fatal = true) (h : Dword) (payload : BitVec 512) :
    ∃ p g, takeMsg s h payload = { s with pst := p, gov := g } ∧ p.waiting = s.pst.waiting := by
  rw [takeMsg, hf, Bool.true_or, if_pos rfl]
  exact answered_frame s h 2

/-- What waits for memory when a fatal fault is in force is answered at once. -/
theorem foldl_takeMsg_fatal (l : List (Dword × BitVec 512)) {s : State} (hf : s.flt.fatal = true) :
    ∃ p g, l.foldl (fun u m => takeMsg u m.1 m.2) s = { s with pst := p, gov := g } ∧ p.waiting = s.pst.waiting := by
  induction l generalizing s with
  | nil => exact ⟨s.pst, s.gov, rfl, rfl⟩
  | cons m l ih =>
    obtain ⟨p, g, hmsg, hp⟩ := takeMsg_fatal hf m.1 m.2
    obtain ⟨q, e, heq, hq⟩ := ih (s := { s with pst := p, gov := g }) hf
    rw [List.foldl_cons, hmsg, heq]
    exact ⟨q, e, rfl, hq.trans hp⟩

theorem answerHeld_frame {s : State} (hf : s.flt.fatal = true) :
    ∃ p g, answerHeld s = { s with str := s.str.refuse s.str.waiting, pst := p, gov := g } ∧ p.waiting = [] := by
  unfold answerHeld
  obtain ⟨p, g, heq, hp⟩ := foldl_takeMsg_fatal s.pst.waiting
    (s := (s.modStr (fun x => x.refuse x.waiting)).modPst (fun x => { x with waiting := [] })) hf
  exact ⟨p, g, heq, hp⟩

theorem stopQueues_frame (l : List Nat) (s : State) : ∃ q y,
    l.foldl (fun t e => dropWatch (setQ t e { qOf t e with wait := [], infl := [] }) e) s = { s with q := q, syn := y } := by
  induction l generalizing s with
  | nil => exact ⟨s.q, s.syn, rfl⟩
  | cons e l ih =>
    obtain ⟨q, y, heq⟩ := ih (dropWatch (setQ s e { qOf s e with wait := [], infl := [] }) e)
    rw [List.foldl_cons, heq]
    exact ⟨q, y, rfl⟩

/-- A stream stop leaves the outputs and what is not in operation (15 R385). -/
theorem streamStop_spec (s : State) : (streamStop s).flt = s.flt ∧ (streamStop s).core = s.core ∧ (streamStop s).xch = s.xch ∧
    (streamStop s).pst = s.pst ∧ (streamStop s).str.out = s.str.out ∧ (streamStop s).str.waiting = [] ∧
    (streamStop s).sec = { s.sec with stop := true } ∧ (streamStop s).mem.bytes = s.mem.bytes := by
  obtain ⟨q, y, hq⟩ := stopQueues_frame [2, 4, 6] s
  rw [streamStop, hq]
  exact ⟨rfl, rfl, rfl, rfl, rfl, rfl, rfl, rfl⟩

theorem abandonCode_sec (s : State) : ∃ l c e, (abandonCode s).sec = { s.sec with codeLoad := l, codeState := c, codeErr := e } := by
  unfold abandonCode
  split
  · exact ⟨_, _, _, rfl⟩
  · exact ⟨_, _, _, rfl⟩

/-- What a zeroisation leaves as it is. -/
theorem startZero_frame (s : State) : (startZero s).flt = s.flt ∧ (startZero s).core = s.core ∧ (startZero s).xch = s.xch ∧
    (startZero s).pst = s.pst ∧ (startZero s).str = s.str ∧
    ∃ l c e, (startZero s).sec = { s.sec with codeOk := false, codeLoad := l, codeState := c, codeErr := e } := by
  unfold startZero
  generalize hb : State.modJrnl _ _ = b
  have hkept : b.flt = s.flt ∧ b.core = s.core ∧ b.xch = s.xch ∧ b.pst = s.pst ∧ b.str = s.str ∧ b.sec = { s.sec with codeOk := false } := by
    rw [← hb]
    exact ⟨rfl, rfl, rfl, rfl, rfl, rfl⟩
  obtain ⟨hflt, hcore, hxch, hpst, hstr, hsec⟩ := hkept
  obtain ⟨l, c, e, hcode⟩ := abandonCode_sec (abandonLoad b)
  rw [abandonLoad_frame b] at hcode
  have hload : (abandonCode (abandonLoad b)).sec = { s.sec with codeOk := false, codeLoad := l, codeState := c, codeErr := e } := by
    rw [abandonLoad_frame b, hcode, hsec]
  refine ⟨?_, ?_, ?_, ?_, ?_, l, c, e, hload⟩ <;> rw [(abandonCode_frame (abandonLoad b)).1, abandonLoad_frame b] <;> assumption

/-- A fatal fault is in force: what is recorded of it, and what no output drives any more. -/
def Stopped (r : FltRec) (t : State) : Prop :=
  t.flt.fatal = true ∧ t.flt.fatalRec = some r ∧ t.core.syncArr = false ∧ t.xch.out = none ∧ t.str.out = none ∧
    t.pst.waiting = [] ∧ t.str.waiting = []

theorem firstFatal_spec (s : State) (code unit : Nat) : Stopped (faultRec s code 2 unit 0 0) (firstFatal s code unit) ∧
    (firstFatal s code unit).mem = s.mem ∧ (firstFatal s code unit).sec = s.sec := by
  unfold firstFatal
  dsimp only
  generalize hb : State.modStr _ _ = b
  have hkept : b.flt.fatal = true ∧ b.flt.fatalRec = some (faultRec s code 2 unit 0 0) ∧ b.core.syncArr = false ∧ b.xch.out = none ∧
      b.str.out = none ∧ b.mem = s.mem ∧ b.sec = s.sec := by
    rw [← hb]
    exact ⟨rfl, rfl, rfl, rfl, rfl, rfl, rfl⟩
  obtain ⟨hfatal, hrec, harr, hxch, hout, hmem, hsec⟩ := hkept
  obtain ⟨p, g, hheld, hp⟩ := answerHeld_frame hfatal
  rw [hheld]
  exact ⟨⟨hfatal, hrec, harr, hxch, hout, hp, rfl⟩, hmem, hsec⟩

/-- A stream stop and a zeroisation behind it keep what a fatal fault has stopped. -/
theorem Stopped.erase {r : FltRec} {s : State} (h : Stopped r s) (f : Sec → Sec) : Stopped r (startZero ((streamStop s).modSec f)) := by
  obtain ⟨hfatal, hrec, harr, hxch, hout, hpst, -⟩ := h
  obtain ⟨sflt, score, sxch, spst, sout, swait, -⟩ := streamStop_spec s
  obtain ⟨zflt, zcore, zxch, zpst, zstr, -⟩ := startZero_frame ((streamStop s).modSec f)
  unfold Stopped
  rw [zflt, zcore, zxch, zpst, zstr]
  simp only [State.modSec_flt, State.modSec_core, State.modSec_xch, State.modSec_pst, State.modSec_str]
  rw [sflt, score, sxch, spst, sout, swait]
  exact ⟨hfatal, hrec, harr, hxch, hout, hpst, rfl⟩

/-- The first fatal fault since the core reset (16 R391, R394). -/
theorem fatal_first {s : State} (hf : s.flt.fatal = false) (code unit : Nat) :
    Stopped (faultRec s code 2 unit 0 0) (fatal s code unit) ∧
      (s.sec.state = 0 → (fatal s code unit).mem = s.mem ∧ (fatal s code unit).sec = s.sec) ∧
      (s.sec.state ≠ 0 → (∀ a, memByte (fatal s code unit).mem.bytes a = 0) ∧ (fatal s code unit).mem.zeroing = true ∧
        (fatal s code unit).sec.stop = true ∧ (fatal s code unit).sec.key = s.sec.key) := by
  obtain ⟨hstopped, hmem, hsec⟩ := firstFatal_spec s code unit
  rw [fatal, hf, if_neg Bool.false_ne_true, hsec]
  by_cases hst : s.sec.state = 0
  · rw [if_pos (decide_eq_true hst)]
    exact ⟨hstopped, fun _ => ⟨hmem, hsec⟩, fun h => absurd hst h⟩
  · rw [if_neg (fun h => hst (of_decide_eq_true h))]
    refine ⟨hstopped.erase _, fun h => absurd h hst, fun _ => ?_⟩
    obtain ⟨-, -, -, -, -, -, ssec, -⟩ := streamStop_spec (firstFatal s code unit)
    obtain ⟨-, -, -, -, -, l, c, e, zsec⟩ := startZero_frame ((streamStop (firstFatal s code unit)).modSec (fun x => { x with endJob := x.endJob || decide (code = fcAOUE) }))
    obtain ⟨hbytes, -, -, hzero, -⟩ := startZero_spec ((streamStop (firstFatal s code unit)).modSec (fun x => { x with endJob := x.endJob || decide (code = fcAOUE) }))
    refine ⟨hbytes, hzero, ?_, ?_⟩
    · rw [zsec, State.modSec_sec, ssec]
    · rw [zsec, State.modSec_sec, ssec, hsec]

theorem inject_contained {s : State} (hlo : 0x10 ≤ s.flt.injCode.toNat) (hhi : s.flt.injCode.toNat ≤ 0x29)
    (hm : s.flt.injCode = 0x13 ∨ s.flt.injCode = 0x14 → s.xch.due = [] ∧ s.str.waiting = [] ∧ s.pst.waiting = []) :
    ∃ t r, inject s = t ∧ t.flt.log.head? = some r ∧ r.w0.extractLsb' 0 8 = s.flt.injCode ∧ r.w0.extractLsb' 8 2 = 1 ∧
        r.w0.extractLsb' 12 4 = 15 ∧ t.flt.cont = true ∧ t.flt.cntCont = s.flt.cntCont + 1 ∧
        (ctxRuns s = true → s.flt.injCode ≠ 0x13 → s.flt.injCode ≠ 0x14 → t.flt.pend = true ∧ t.flt.haltCtx = some s.core.cur) ∧
        (ctxRuns s = true → s.flt.injCode = 0x13 ∨ s.flt.injCode = 0x14 → t.flt.pend = true ∧ t.man.hold = true ∧
          t.flt.haltCtx = s.flt.haltCtx ∧ t.core.phase = 1 ∧ t.core.mode = s.core.mode ∧ t.xch.run = .off ∧ t.xch.out = none ∧
          t.mem.xph = false ∧ (s.core.syncArr = true → t.core.syncZone = 3 ∧ t.fac.nrmV = false)) ∧
        (ctxRuns s = false → t.flt.pend = s.flt.pend ∧ t.flt.haltCtx = s.flt.haltCtx ∧ t.man = s.man) ∧
        SameBytes s t := by
  have hcode : BitVec.ofNat 8 s.flt.injCode.toNat = s.flt.injCode := by rw [BitVec.ofNat_toNat, BitVec.setWidth_eq]
  have hlt : s.flt.injCode.toNat < 2 ^ 8 := s.flt.injCode.isLt
  have hrec (addr : Addr) (detail : Nat) := faultRec_code_class s hlt 1 15 addr detail
  have hunit (addr : Addr) (detail : Nat) := faultRec_unit s hlt (cls := 1) (unit := 15) (by decide) addr detail
  by_cases hmis : s.flt.injCode = 0x13 ∨ s.flt.injCode = 0x14
  · obtain ⟨hd, hstr, hpst⟩ := hm hmis
    have hinj : inject s = injectHold s s.flt.injCode.toNat := by
      unfold inject
      rcases hmis with h | h <;> rw [h] <;> rfl
    obtain ⟨hframe, hcont, hcnt, hlog, hctx, hpend⟩ := raiseMismatch_spec s s.flt.injCode.toNat 15
    rw [hinj]
    unfold injectHold
    generalize raiseMismatch s s.flt.injCode.toNat 15 = u at hframe hcont hcnt hlog hctx hpend
    cases hrun : ctxRuns s
    · rw [if_neg Bool.false_ne_true]
      rw [hrun, Bool.or_false] at hpend
      refine ⟨_, _, rfl, hlog, (hrec 0 0).1.trans hcode, (hrec 0 0).2, hunit 0 0, hcont, hcnt, (nomatch ·), (nomatch ·), fun _ => ⟨hpend, hctx, ?_⟩, fun a => ?_⟩
      · rw [hframe]
      · rw [hframe]
    · rw [if_pos rfl]
      rw [hrun, Bool.or_true] at hpend
      obtain ⟨hflt, hbytes, hhold, hphase, hmode, hxrun, hxout, hxph, hzone⟩ := stopToHold_spec (s := u) (by rw [hframe]; exact hd) (by rw [hframe]; exact hstr) (by rw [hframe]; exact hpst)
      refine ⟨_, _, rfl, by rw [hflt]; exact hlog, (hrec 0 0).1.trans hcode, (hrec 0 0).2, hunit 0 0, by rw [hflt]; exact hcont, by rw [hflt]; exact hcnt,
        fun _ h1 h2 => absurd hmis (not_or.mpr ⟨h1, h2⟩), fun _ _ => ?_, (nomatch ·), fun a => ?_⟩
      · rw [hflt]
        exact ⟨hpend, hhold, hctx, hphase, hmode.trans (by rw [hframe]), hxrun, hxout, hxph, fun h => hzone (by rw [hframe]; exact h)⟩
      · rw [hbytes, hframe]
  · have hinj : inject s = raise s s.flt.injCode.toNat 15 0 0 := by
      unfold inject
      have h13 : s.flt.injCode.toNat ≠ fcZONE := fun h => hmis (Or.inl (BitVec.eq_of_toNat_eq h))
      have h14 : s.flt.injCode.toNat ≠ fcEPOCH := fun h => hmis (Or.inr (BitVec.eq_of_toNat_eq h))
      dsimp only
      rw [if_neg (by omega), if_neg (not_or.mpr ⟨h13, h14⟩), if_pos ⟨hlo, hhi⟩]
    obtain ⟨hcont, hcnt, hlog⟩ := raise_recorded s s.flt.injCode.toNat 15 0 0
    have hflt := raise_flt s s.flt.injCode.toNat 15 0 0
    have hframe := raise_frame s s.flt.injCode.toNat 15 0 0
    rw [hinj]
    refine ⟨_, _, rfl, hlog, (hrec 0 0).1.trans hcode, (hrec 0 0).2, hunit 0 0, hcont, hcnt, fun hrun _ _ => ?_, fun _ h => absurd h hmis, fun hrun => ?_, fun a => ?_⟩
    · rw [hflt, if_pos hrun]
      exact ⟨rfl, rfl⟩
    · rw [hflt, hrun, if_neg Bool.false_ne_true]
      exact ⟨rfl, rfl, by rw [hframe]⟩
    · rw [hframe]

theorem inject_fatal {s : State} (hf : s.flt.fatal = false) (hlo : 0x30 ≤ s.flt.injCode.toNat) (hhi : s.flt.injCode.toNat ≤ 0x34) :
    ∃ t r, inject s = t ∧ t.flt.fatal = true ∧ t.flt.fatalRec = some r ∧ r.w0.extractLsb' 0 8 = s.flt.injCode ∧
      r.w0.extractLsb' 8 2 = 2 ∧ r.w0.extractLsb' 12 4 = 15 ∧ t.core.syncArr = false ∧ t.xch.out = none ∧ t.str.out = none := by
  have hlt : s.flt.injCode.toNat < 2 ^ 8 := s.flt.injCode.isLt
  have hcode : BitVec.ofNat 8 s.flt.injCode.toNat = s.flt.injCode := by rw [BitVec.ofNat_toNat, BitVec.setWidth_eq]
  have hmem : fatalCodes.contains s.flt.injCode.toNat = true := by
    rw [List.contains_iff_mem]
    simp only [fatalCodes, List.mem_cons, List.not_mem_nil, or_false]
    omega
  have hinj : inject s = fatal s s.flt.injCode.toNat 15 := by
    unfold inject
    dsimp only
    rw [if_neg (by omega), if_neg (by unfold fcZONE fcEPOCH; omega), if_neg (by omega), if_pos hmem]
  obtain ⟨⟨hfatal, hrec, harr, hxch, hout, -, -⟩, -, -⟩ := fatal_first hf s.flt.injCode.toNat 15
  obtain ⟨hc, hcls⟩ := faultRec_code_class s hlt 2 15 0 0
  exact ⟨_, _, hinj, hfatal, hrec, hc.trans hcode, hcls, faultRec_unit s hlt (by decide) 0 0, harr, hxch, hout⟩

theorem inject_corrected {s : State} (h : s.flt.injCode = 1 ∨ s.flt.injCode = 2) : inject s = stateCe s := by
  unfold inject
  rcases h with h | h <;> rw [h] <;> rfl

/-- A code of no class does nothing (16 R395). -/
theorem inject_none {s : State} (h : s.flt.injCode = 0 ∨ (3 ≤ s.flt.injCode.toNat ∧ s.flt.injCode.toNat < 0x10) ∨
    (0x29 < s.flt.injCode.toNat ∧ s.flt.injCode.toNat < 0x30) ∨ 0x34 < s.flt.injCode.toNat) : inject s = s := by
  replace h := h.imp_left fun hz => (congrArg BitVec.toNat hz : s.flt.injCode.toNat = 0)
  have hmem : fatalCodes.contains s.flt.injCode.toNat ≠ true := by
    rw [Ne, List.contains_iff_mem]
    simp only [fatalCodes, List.mem_cons, List.not_mem_nil, or_false]
    omega
  unfold inject
  dsimp only
  rw [if_neg (by omega), if_neg (by unfold fcZONE fcEPOCH; omega), if_neg (by omega), if_neg hmem]

theorem injectReq_eq (s : State) : injectReq s = if s.sec.level = 2 then inject s else s := by
  simp only [injectReq, invasive, decide_eq_true_eq]

theorem fatalFault_goes {s : State} (hrst : s.pin.coreRst = true) (hf : s.flt.fatal = false) :
    ∃ t r, exec .fatalFault s = .next t ∧ t.flt.fatal = true ∧ t.flt.fatalRec = some r ∧
      r.w0.extractLsb' 0 8 ∈ [0x30#8, 0x31#8, 0x32#8, 0x33#8, 0x34#8] ∧ r.w0.extractLsb' 8 2 = 2 ∧
      t.core.syncArr = false ∧ t.xch.out = none ∧ t.str.out = none ∧ t.pst.waiting = [] ∧ t.str.waiting = [] ∧
      (s.sec.state = 0 → SameBytes s t ∧ t.sec = s.sec) ∧
      (s.sec.state ≠ 0 → (∀ a, memByte t.mem.bytes a = 0) ∧ t.mem.zeroing = true ∧ t.sec.stop = true ∧ t.sec.key = s.sec.key) := by
  have hcode : ∀ k, k < 5 → fatalCodes.getD k 0x34 < 2 ^ 8 ∧
      BitVec.ofNat 8 (fatalCodes.getD k 0x34) ∈ [0x30#8, 0x31#8, 0x32#8, 0x33#8, 0x34#8] := by decide
  obtain ⟨hlt, hmem⟩ := hcode (Config.fatalKind s.free % 5) (Nat.mod_lt _ (by decide))
  refine ⟨_, faultRec { s with free := s.free + 1 } (fatalCodes.getD (Config.fatalKind s.free % 5) 0x34) 2 14 0 0,
    (whenOn_of hrst s _ : exec .fatalFault s = _), ?_⟩
  generalize fatalCodes.getD (Config.fatalKind s.free % 5) 0x34 = c at hlt hmem
  obtain ⟨⟨hfatal, hrec, harr, hxch, hout, hpst, hstr⟩, hopen, hsealed⟩ := fatal_first (s := { s with free := s.free + 1 }) hf c 14
  obtain ⟨hc, hcls⟩ := faultRec_code_class { s with free := s.free + 1 } hlt 2 14 0 0
  refine ⟨hfatal, hrec, by rw [hc]; exact hmem, hcls, harr, hxch, hout, hpst, hstr, fun h => ?_, hsealed⟩
  obtain ⟨hm, hsec⟩ := hopen h
  exact ⟨fun a => by rw [hm], hsec⟩

/-- Settles O55: the copy's weighers one by one; an injected code by its class; a fatal fault by what it stops and, in a sealed state, erases. -/
theorem faultCommands : Obligations.FaultCommands := by
  unfold Obligations.FaultCommands
  refine ⟨fun s hs => ?_, fun s => fatalFault_goes⟩
  have hinject (hl : s.sec.level = 2) : exec .fltCtrlInj s = .next (inject s) := by
    refine (regCmd_served hs _ _ : exec .fltCtrlInj s = _).trans (congrArg _ ?_)
    rw [injectReq_eq, if_pos hl]
  refine ⟨regCmd_served hs _ _, fun hw => ?_, fun hw => ?_, fun hf => ?_, fun hf => ?_, fun hl hlo hhi hm => ?_, fun hl hf hlo hhi => ?_,
    fun hl h => ?_, fun h => ?_, fun hl => ?_⟩
  · refine ⟨wghRestore s, (regCmd_served hs _ _ : exec .fltCtrlWrest s = _).trans (congrArg _ ?_), wghRestore_spec s⟩
    rw [restoreCopy, hw, if_pos rfl]
  · refine (regCmd_served hs _ _ : exec .fltCtrlWrest s = _).trans (congrArg _ ?_)
    rw [restoreCopy, hw, if_neg Bool.false_ne_true]
  · refine (regCmd_served hs _ _ : exec .fltCtrlFclr s = _).trans (congrArg _ ?_)
    rw [clearFatal, hf, if_neg Bool.false_ne_true]
    rfl
  · refine (regCmd_served hs _ _ : exec .fltCtrlFclr s = _).trans (congrArg _ ?_)
    rw [clearFatal, hf, if_pos rfl]
  · obtain ⟨t, r, ht, hrest⟩ := inject_contained hlo hhi hm
    exact ⟨t, r, (hinject hl).trans (congrArg _ ht), hrest⟩
  · obtain ⟨t, r, ht, hrest⟩ := inject_fatal hf hlo hhi
    exact ⟨t, r, (hinject hl).trans (congrArg _ ht), hrest⟩
  · exact (hinject hl).trans (congrArg _ (inject_corrected h))
  · refine (regCmd_served hs _ _ : exec .fltCtrlInj s = _).trans (congrArg _ ?_)
    rw [injectReq_eq, inject_none h, ite_self]
  · refine (regCmd_served hs _ _ : exec .fltCtrlInj s = _).trans (congrArg _ ?_)
    rw [injectReq_eq, if_neg hl]

end Sys2Proof.Machine
end
section
/-! PROOFS. The governor (14 R353). -/

namespace Sys2Proof.Machine

/-- OP-E, whose nominal code is the lowest request, 10; its trim is -2, and two low readings were taken in a row. -/
def lowestPoint : State :=
  { clk := { op := 4 }, gov := { mmInt := 1, mmLow := 0, runOp := 4, runLow := 2 }, ldg := { trim := tabSet 0 [] 4 (-2) } }

/-- The third low reading asks for the trim -1, whose request 9 lies below 10: the trim stays (14 R353). -/
theorem marginReading_lowestPoint : ∃ t, exec (.marginReading 0xFF) lowestPoint = .next t ∧ trimOf t 4 = -2 :=
  ⟨_, rfl, by decide +kernel⟩

/-- Refutes O56: a third low reading does not raise the trim where the raised one still asks for less than the lowest request. At OP-E, with the trim -2,
the request would be 9, below 10, and the trim stays. -/
theorem not_governor : ¬ Obligations.Governor := by
  intro h
  obtain ⟨-, hunits⟩ := h
  obtain ⟨-, -, -, -, -, -, hmargin, -⟩ := hunits lowestPoint (by decide +kernel)
  obtain ⟨t, ht, -, -, -, hraise, -⟩ := hmargin 0xFF rfl (by decide +kernel)
  obtain ⟨u, hu, htrim⟩ := marginReading_lowestPoint
  obtain rfl : t = u := Host.Outcome.next.inj (ht.symm.trans hu)
  have hup : trimOf t 4 = trimOf lowestPoint 4 + 1 := hraise (by decide +kernel) rfl rfl (by decide +kernel) (by decide +kernel)
  rw [htrim] at hup
  exact absurd hup (by decide +kernel)

end Sys2Proof.Machine
end
section
/-! PROOFS. The life ledger (14 R354 to R357; 17 R429, R430). -/

namespace Sys2Proof.Machine

/-! A tick. -/

/-- The reasons in the tick that begins; reason 4 lasts on while a change of the point holds the root clock. -/
def tickedReasons (s : State) : Tab Reason :=
  let r := (List.range 8).foldl (fun y i => tabMod {} y i Reason.tick) s.gov.rsn
  if s.clk.opWait = 0 then r else tabMod {} r 4 (fun x => { x with seen := true })

theorem tickedReasons_dur (s : State) {i : Nat} (hi : i < 8) :
    (tabGet ({} : Reason) (tickedReasons s) i).dur =
      (tabGet ({} : Reason) s.gov.rsn i).dur +
        (if (tabGet ({} : Reason) s.gov.rsn i).on || (tabGet ({} : Reason) s.gov.rsn i).seen then 1 else 0) := by
  have hrow : (tabGet ({} : Reason) ((List.range 8).foldl (fun y i => tabMod {} y i Reason.tick) s.gov.rsn) i) = (tabGet ({} : Reason) s.gov.rsn i).tick := by
    refine foldl_view_at (fun t => tabGet ({} : Reason) t i) Reason.tick (fun t j hj => ?_) (fun t => ?_) (List.mem_range.mpr hi) List.nodup_range _
    · exact (tabGet_mod ..).trans (if_neg (Ne.symm hj))
    · exact (tabGet_mod ..).trans (if_pos rfl)
  have hdur : (tabGet ({} : Reason) (tickedReasons s) i).dur =
      (tabGet ({} : Reason) ((List.range 8).foldl (fun y i => tabMod {} y i Reason.tick) s.gov.rsn) i).dur := by
    unfold tickedReasons
    dsimp only
    split
    · rfl
    · rw [tabGet_mod]
      split
      next h => rw [h]
      next => rfl
  rw [hdur, hrow, Bool.or_comm]
  rfl

theorem ledgerTick_goes (s : State) :
    ∃ t, exec .ledgerTick s = .next t ∧ t.ldg = { s.ldg with time := s.ldg.time + 1, pticks := s.ldg.pticks + 1, svV := false } ∧
      t.clk = { s.clk with ticks := s.clk.ticks + 1, opWait := s.clk.opWait - 1 } ∧ t = { s with ldg := t.ldg, clk := t.clk, gov := t.gov } ∧
      (govUp s = false → t.gov = s.gov) ∧ (govUp s = true → t.gov.rsn = tickedReasons s) := by
  refine ⟨_, rfl, ?_⟩
  cases hup : govUp s with
  | false =>
    exact ⟨rfl, rfl, rfl, fun _ => rfl, (nomatch ·)⟩
  | true =>
    exact ⟨rfl, rfl, rfl, (nomatch ·), fun _ => rfl⟩

/-! The record. -/

theorem tabGet_mapIdx {α : Type} [DecidableEq α] (d : α) (l : List α) {k : Nat} {w : α} (h : l[k]? = some w) :
    tabGet d ((l.mapIdx (fun i v => (i, v))).foldl (fun t p => tabSet d t p.1 p.2) []) k = w := by
  induction l using List.reverseRecOn with
  | nil => cases h
  | append_singleton l v ih =>
    rw [List.mapIdx_concat, List.foldl_concat, tabGet_set]
    by_cases hk : k = l.length
    · subst hk
      rw [if_pos rfl]
      simpa using h
    · rw [if_neg hk]
      refine ih ?_
      rwa [List.getElem?_append_left] at h
      have := (List.getElem?_eq_some_iff.mp h).1
      simp at this
      omega

theorem halves_get (ws : List Dword) (i : Nat) : (halves ws)[2 * i]? = ws[i]?.map (fun (w : Dword) => w.setWidth 32) ∧
    (halves ws)[2 * i + 1]? = ws[i]?.map (fun (w : Dword) => (w >>> 32).setWidth 32) := by
  induction ws generalizing i with
  | nil => exact ⟨rfl, rfl⟩
  | cons w ws ih =>
    cases i with
    | zero => exact ⟨rfl, rfl⟩
    | succ i => exact ih i

theorem append_halves (w : Dword) : ((w >>> 32).setWidth 32 : Word) ++ (w.setWidth 32 : Word) = w := by
  refine BitVec.eq_of_getLsbD_eq fun i hi => ?_
  rw [BitVec.getLsbD_append]
  split
  next hlow => simp [hlow]
  next hhigh =>
    have hsum : 32 + (i - 32) = i := by omega
    simp only [BitVec.getLsbD_setWidth, BitVec.getLsbD_ushiftRight, hsum, show i - 32 < 32 by omega, decide_true, Bool.true_and]

/-- The 64-bit words of the record that a capture offers. -/
def recordWords (s : State) : List Dword := snapWords s (s.ldg.seq + 1) ++ [recordCrc (snapWords s (s.ldg.seq + 1))]

theorem capture_snap (s : State) :
    (capture s).ldg.snap = ((halves (recordWords s)).mapIdx (fun i v => (i, v))).foldl (fun t p => tabSet 0 t p.1 p.2) [] := by
  simp only [capture, State.modLdg, recordWords]

theorem capture_word {s : State} {i : Nat} {w : Dword} (h : (recordWords s)[i]? = some w) :
    tabGet (0 : Word) (capture s).ldg.snap (2 * i + 1) ++ tabGet (0 : Word) (capture s).ldg.snap (2 * i) = w := by
  obtain ⟨hlow, hhigh⟩ := halves_get (recordWords s) i
  rw [h] at hlow hhigh
  rw [capture_snap, tabGet_mapIdx 0 _ hlow, tabGet_mapIdx 0 _ hhigh, append_halves]

/-- What a capture leaves of the ledger. -/
theorem capture_spec (s : State) : (capture s).ldg.seq = s.ldg.seq + 1 ∧ (capture s).ldg.snaprdy = true ∧ (capture s).ldg.snapReq = false ∧
    (capture s).ldg.svReq = true ∧ (capture s).ldg.svIdx = 0 ∧
    tabGet (0 : Word) (capture s).ldg.snap 5 ++ tabGet (0 : Word) (capture s).ldg.snap 4 = s.ldg.time ∧
    tabGet (0 : Word) (capture s).ldg.snap 9 ++ tabGet (0 : Word) (capture s).ldg.snap 8 = s.ldg.pticks ∧
    capture s = { s with ldg := (capture s).ldg } :=
  ⟨rfl, rfl, rfl, rfl, rfl, capture_word (i := 2) rfl, capture_word (i := 4) rfl, rfl⟩

/-- A record captured from a valid ledger passes the checks of a restore on its own part. -/
theorem restoreCause_captured {s u : State} (hv : s.ldg.valid = true) (htile : u.core.tileId = s.core.tileId)
    (hbuf : u.ldg.rbuf = (capture s).ldg.snap) : restoreCause u = 0 := by
  have hword {i : Nat} {w : Dword} (h : (recordWords s)[i]? = some w) : rbufWord u i = w := by
    rw [rbufWord, hbuf]
    exact capture_word h
  have h0 : rbufWord u 0 = BitVec.ofNat 64 (0x4C440301 + 2 ^ 32 * coreIdCode + 2 ^ 48 * coreIdMajor + 2 ^ 56) := by
    refine (hword (i := 0) rfl).trans ?_
    rw [hv]
    rfl
  have h1 : rbufWord u 1 = BitVec.ofNat 64 (s.core.tileId.toNat + 2 ^ 32 * (s.ldg.seq + 1).toNat) := hword (i := 1) rfl
  have hcrc : rbufWord u 16 = recordCrc (snapWords s (s.ldg.seq + 1)) := hword (i := 16) rfl
  have hall : (List.range 16).map (rbufWord u) = snapWords s (s.ldg.seq + 1) := by
    refine List.ext_getElem rfl fun i hi hj => ?_
    rw [List.getElem_map, List.getElem_range]
    refine hword ?_
    rw [recordWords, List.getElem?_append_left hj, List.getElem?_eq_getElem hj]
  have htid : bitsOf (rbufWord u 1).toNat 19 0 = u.core.tileId.toNat := by
    have hlt : s.core.tileId.toNat < 2 ^ 20 := s.core.tileId.isLt
    rw [h1, htile, bitsOf, BitVec.toNat_ofNat, Nat.shiftRight_zero]
    omega
  simp only [restoreCause, htid, hall, hcrc, h0, ne_eq, not_true, decide_false]
  decide +kernel

/-! Restoring. -/

/-- The ledger once its record is restored. -/
theorem restore_ldg (s : State) : (restore s).ldg = { s.ldg with
    time := s.ldg.time + rbufWord s 2, wallofs := rbufWord s 3, pticks := s.ldg.pticks + rbufWord s 4
    acyc := (List.range 5).foldl (fun t k => tabMod 0 t k (fun x => x + rbufWord s (5 + k))) s.ldg.acyc
    mac := s.ldg.mac + rbufWord s 10, ce := s.ldg.ce + rbufWord s 11, thex := s.ldg.thex + rbufWord s 12
    mmrd := s.ldg.mmrd + rbufWord s 13, mmlow := s.ldg.mmlow + rbufWord s 14
    trim := (List.range 5).foldl (fun t k => tabSet 0 t k (BitVec.ofNat 5 (bitsOf (rbufWord s 15).toNat (5 * k + 4) (5 * k)))) s.ldg.trim
    valid := true } := by
  simp only [restore, updateReq, State.modLdg, State.modGov]

theorem restore_frame (s : State) : restore s = { s with ldg := (restore s).ldg, gov := (restore s).gov } := by
  simp only [restore, updateReq, State.modLdg, State.modGov]

theorem restore_acyc (s : State) {k : Nat} (hk : k < 5) : tabGet 0 (restore s).ldg.acyc k = tabGet 0 s.ldg.acyc k + rbufWord s (5 + k) := by
  have hacyc : (restore s).ldg.acyc = (List.range 5).foldl (fun t k => tabMod 0 t k (fun x => x + rbufWord s (5 + k))) s.ldg.acyc := by rw [restore_ldg]
  rw [hacyc]
  refine foldl_view_at (fun t => tabGet (0 : Dword) t k) (fun x => x + rbufWord s (5 + k)) (fun t j hj => ?_) (fun t => ?_)
    (List.mem_range.mpr hk) List.nodup_range s.ldg.acyc
  · exact (tabGet_mod ..).trans (if_neg (Ne.symm hj))
  · exact (tabGet_mod ..).trans (if_pos rfl)

theorem restore_trim (s : State) {k : Nat} (hk : k < 5) : tabGet 0 (restore s).ldg.trim k = (rbufWord s 15).extractLsb' (5 * k) 5 := by
  have htrim : (restore s).ldg.trim =
      (List.range 5).foldl (fun t k => tabSet 0 t k (BitVec.ofNat 5 (bitsOf (rbufWord s 15).toNat (5 * k + 4) (5 * k)))) s.ldg.trim := by rw [restore_ldg]
  rw [htrim]
  refine foldl_view_at (fun t => tabGet (0 : BitVec 5) t k) (fun _ => (rbufWord s 15).extractLsb' (5 * k) 5) (fun t j hj => ?_) (fun t => ?_)
    (List.mem_range.mpr hk) List.nodup_range s.ldg.trim
  · exact (tabGet_set ..).trans (if_neg (Ne.symm hj))
  · refine (tabGet_set ..).trans ((if_pos rfl).trans ?_)
    rw [bitsOf_toNat, show 5 * k + 4 + 1 - 5 * k = 5 by omega, BitVec.ofNat_toNat, BitVec.setWidth_eq]

/-- A restore whose buffer passes its checks. -/
theorem restoreGo_goes {s : State} (hv : s.ldg.valid = false) (hc : restoreCause s = 0) :
    ∃ t, exec .restoreGo s = .next t ∧ t.ldg.valid = true ∧
      t.ldg.time = s.ldg.time + rbufWord s 2 ∧ t.ldg.wallofs = rbufWord s 3 ∧ t.ldg.pticks = s.ldg.pticks + rbufWord s 4 ∧
      (∀ k, k < 5 → tabGet 0 t.ldg.acyc k = tabGet 0 s.ldg.acyc k + rbufWord s (5 + k)) ∧ t.ldg.mac = s.ldg.mac + rbufWord s 10 ∧
      (∀ k, k < 5 → tabGet 0 t.ldg.trim k = (rbufWord s 15).extractLsb' (5 * k) 5) ∧ t = { s with ldg := t.ldg, gov := t.gov } := by
  have hexec : exec .restoreGo s = .next (restore s) := by
    refine (rfl : exec .restoreGo s = .next (tryRestore s)).trans (congrArg Host.Outcome.next ?_)
    rw [tryRestore, hv, if_neg Bool.false_ne_true, hc, if_neg (fun h => h rfl)]
  have hldg := restore_ldg s
  refine ⟨restore s, hexec, ?_, ?_, ?_, ?_, fun k => restore_acyc s, ?_, fun k => restore_trim s, restore_frame s⟩ <;> rw [hldg]

/-- The same command of the LDG block waits behind those that wait, or for the end of a core reset. -/
theorem ldgCmd_waits {s : State} (h : s.pin.coreRst = false ∨ s.bus.mgmt.waiting ≠ []) (i : Instr) (t : State) :
    ldgCmd i s t = .next { s with bus := { s.bus with mgmt := { s.bus.mgmt with waiting := s.bus.mgmt.waiting ++ [i] } } } := by
  have hc : (!s.pin.coreRst || !s.bus.mgmt.waiting.isEmpty) = true := by
    rcases h with h | h
    · rw [h]; rfl
    · rw [List.isEmpty_eq_false_iff.mpr h, Bool.not_false, Bool.or_true]
  exact congrArg Host.Outcome.next (if_pos hc)

/-- Settles O57: the record's words one by one, in a capture and in a restore. -/
theorem ledgerCommands : Obligations.LedgerCommands := by
  unfold Obligations.LedgerCommands
  refine ⟨fun s => ?_, fun s hc hw => ?_, fun s i h hi => ?_, fun s => ?_, fun s u => restoreCause_captured⟩
  · obtain ⟨t, ht, hldg, hclk, hframe, hdown, hup⟩ := ledgerTick_goes s
    refine ⟨t, ht, hldg, hclk, hframe, fun h => hdown ?_, fun hc hf i hi => ?_⟩
    · rcases h with h | h <;> simp [govUp, h]
    · dsimp only
      rw [hup (by rw [govUp, hc, hf]; rfl)]
      exact tickedReasons_dur s hi
  · refine ⟨fun hb => ?_, fun hb => ?_, fun v => ldgCmd_served hc hw _ _, fun hv hst => ?_, fun h => ?_, ldgCmd_served hc hw _ _⟩
    · refine (ldgCmd_served hc hw _ _ : exec .ldgCtrlSnap s = _).trans (congrArg Host.Outcome.next ?_)
      simp only [reqSnap, State.modLdg, hb]
      rfl
    · refine (ldgCmd_served hc hw _ _ : exec .ldgCtrlSnap s = _).trans (congrArg Host.Outcome.next ?_)
      simp only [reqSnap, State.modLdg, hb, if_true]
    · refine (ldgCmd_served hc hw _ _ : exec .ldgCtrlInit s = _).trans (congrArg Host.Outcome.next ?_)
      rw [newPart, hv, hst]
      rfl
    · refine (ldgCmd_served hc hw _ _ : exec .ldgCtrlInit s = _).trans (congrArg Host.Outcome.next ?_)
      rw [newPart, if_pos (by simpa using h)]
      rfl
  · simp only [List.mem_cons, List.not_mem_nil, or_false] at hi
    rcases hi with rfl | rfl | rfl
    · exact ldgCmd_waits h _ _
    · exact ldgCmd_waits h _ _
    · exact ldgCmd_waits h _ _
  · refine ⟨fun hv => ?_, restoreGo_goes, fun w d hw => ?_, fun w d hw => ?_, fun hr hb => ?_, fun ha hb => ?_, fun hr => ?_⟩
    · refine (rfl : exec .restoreGo s = .next (tryRestore s)).trans (congrArg Host.Outcome.next ?_)
      rw [tryRestore, if_pos hv]
      rfl
    · refine (rfl : exec (.restoreWord w d) s = .next (putRbuf s w.toNat d)).trans (congrArg Host.Outcome.next ?_)
      rw [putRbuf, if_neg (by omega)]
    · refine ⟨_, (rfl : exec (.restoreWord w d) s = .next (putRbuf s w.toNat d)), ?_⟩
      rw [putRbuf, if_pos hw]
      exact ⟨tabGet_set_same .., fun k hk => tabGet_set_ne _ _ _ hk, rfl⟩
    · obtain ⟨hseq, hrdy, hreq, hsv, hidx, htime, hticks, hframe⟩ := capture_spec s
      refine ⟨capture s, ?_, hseq, hrdy, hreq, hsv, hidx, htime, hticks, hframe⟩
      refine (rfl : exec .snapshotCapture s = .next (if s.ldg.snapReq && !s.ldg.savebusy then capture s else s)).trans (congrArg Host.Outcome.next (if_pos ?_))
      rw [hr, hb]
      rfl
    · obtain ⟨hseq, -, -, hsv, hidx, -, -, hframe⟩ := capture_spec s
      refine ⟨capture s, ?_, hseq, hsv, hidx, hframe⟩
      refine (rfl : exec .autoSnapshot s = .next (if decide (s.ldg.auto_ = 0) || s.ldg.savebusy then s else capture s)).trans (congrArg Host.Outcome.next (if_neg ?_))
      rw [hb, Bool.or_false, decide_eq_true_eq]
      exact ha
    · refine ⟨_, (rfl : exec .saveWord s = execSaveWord s).trans (congrArg Host.Outcome.next (if_pos hr)), rfl, rfl, ?_, ?_, rfl, rfl⟩
      · exact (decide_not ..).symm.trans (decide_eq_decide.mpr Nat.not_le)
      · exact (decide_not ..).symm.trans (decide_eq_decide.mpr Nat.not_le)

end Sys2Proof.Machine
end
section
/-! PROOFS. Obtur's commands (15 R361 to R385). -/

namespace Sys2Proof.Machine

/-! What a seal and a job end erase. -/

/-- What a reload's request leaves as it is, and what the core does then. -/
theorem startReload_spec (s : State) (m : BitVec 4) : (startReload s m).sec = s.sec ∧ (startReload s m).str = s.str ∧ (startReload s m).man = s.man ∧
    (startReload s m).mem.bytes = s.mem.bytes ∧ (startReload s m).mem.zeroing = s.mem.zeroing ∧
    (startReload s m).core = { s.core with mode := .idle, rldBusy := true, rldMask := s.core.rldMask ||| m } := by
  have hframe := dropWaiting_frame [0, 1, 2, 3, 4, 5, 6] (s.modArr departAll)
  unfold startReload
  generalize dropWaiting (s.modArr departAll) [0, 1, 2, 3, 4, 5, 6] = u at hframe
  rw [hframe]
  exact ⟨rfl, rfl, rfl, rfl, rfl, rfl⟩

theorem isPut_iff (p : StrPacket) : h0Kind p.h0 = 3 ↔ p.h0.extractLsb' 0 4 = 3 := by
  rw [h0Kind, bitsOf_toNat]
  exact (BitVec.toNat_inj (x := p.h0.extractLsb' 0 4) (y := 3))

/-- The puts that wait are refused, the reads and the jobs given up (15 R385). -/
theorem streamStop_str (s : State) : (streamStop s).str.jobs = [] ∧
    (streamStop s).str.acks.length = s.str.acks.length + (s.str.waiting.filter (fun p => decide (p.h0.extractLsb' 0 4 = 3))).length := by
  obtain ⟨q, y, hq⟩ := stopQueues_frame [2, 4, 6] s
  have hacks : (s.str.refuse s.str.waiting).acks.length =
      s.str.acks.length + (s.str.waiting.filter (fun p => decide (p.h0.extractLsb' 0 4 = 3))).length := by
    simp only [Str.refuse, List.length_append, List.length_map, isPut_iff]
  rw [streamStop, hq]
  exact ⟨rfl, hacks⟩

/-- Nothing of the erased job is left in memory, in a job or in a waiting packet; the keys stay until it is over. -/
theorem secureErase_spec (s : State) :
    (∃ l c e, (secureErase s).sec = { s.sec with stop := true, codeOk := false, codeLoad := l, codeState := c, codeErr := e, busy := true, rekey := none }) ∧
      (secureErase s).mem.zeroing = true ∧ (∀ a, memByte (secureErase s).mem.bytes a = 0) ∧
      (secureErase s).core.rldBusy = true ∧ (secureErase s).core.rldMask = 0xF ∧ (secureErase s).core.mode = .idle ∧
      (secureErase s).str.jobs = [] ∧ (secureErase s).str.waiting = [] ∧
      (secureErase s).str.acks.length = s.str.acks.length + (s.str.waiting.filter (fun p => decide (p.h0.extractLsb' 0 4 = 3))).length := by
  obtain ⟨hjobs, hacks⟩ := streamStop_str s
  obtain ⟨-, -, -, -, -, hwait, ssec, -⟩ := streamStop_spec s
  obtain ⟨-, -, -, -, zstr, l, c, e, zsec⟩ := startZero_frame (streamStop s)
  obtain ⟨zbytes, -, -, zzero, -⟩ := startZero_spec (streamStop s)
  obtain ⟨rsec, rstr, -, rbytes, rzero, rcore⟩ := startReload_spec (startZero (streamStop s)) 0xF
  unfold secureErase
  simp only [State.modSec_sec, State.modSec_mem, State.modSec_core, State.modSec_str]
  rw [rsec, rstr, rbytes, rzero, rcore, zsec, zstr, ssec]
  exact ⟨⟨l, c, e, rfl⟩, zzero, zbytes, rfl, BitVec.or_allOnes, rfl, hjobs, hwait, hacks⟩

theorem clearRegions_sec (s : State) : ∃ g, clearRegions s = { s with sec := { s.sec with
    rg := g, seCur := 0, seV := 0, seVKey := 0, seV1 := 0, seV1Key := 2, sexh := false } } := ⟨_, rfl⟩

/-- The level falls to the ceiling, and a halt of the debugger ends below INVASIVE (15 R366). -/
theorem lowerLevel_spec (s : State) : (∃ l r, (lowerLevel s).sec = { s.sec with level := l, dbgReq := r }) ∧
    (lowerLevel s).sec.level.toNat ≤ (ceiling s).toNat ∧ ((lowerLevel s).sec.level.toNat < 2 → s.sec.level = 2 → (lowerLevel s).dbg.halted = false) := by
  unfold lowerLevel
  split
  next hle => exact ⟨⟨_, _, rfl⟩, hle, fun hlt h => absurd hlt (by rw [h]; decide)⟩
  next =>
    dsimp only
    split
    · exact ⟨⟨_, _, rfl⟩, Nat.le_refl _, fun _ _ => rfl⟩
    next hge => exact ⟨⟨_, _, rfl⟩, Nat.le_refl _, fun hlt _ => absurd hlt hge⟩

theorem ceiling_congr {s t : State} (hm : t.man = s.man) (hs : t.sec.state = s.sec.state) : ceiling t = ceiling s := by
  unfold ceiling
  rw [hs, cfgBits_congr hm, cfgBits_congr hm]

/-! Records that waited for the zeroisation. -/

/-- What the records of the journal, and the copies of them, do not touch. -/
structure RecordFrame (s t : State) : Prop where
  sec : ∃ g, t.sec = { s.sec with rg := g }
  waiting : t.str.waiting = s.str.waiting
  pst : t.pst = s.pst
  bus : t.bus = s.bus
  syn : t.syn = s.syn
  core : t.core = s.core
  xch : t.xch = s.xch

theorem RecordFrame.rfl {s : State} : RecordFrame s s := ⟨⟨_, Eq.refl _⟩, Eq.refl _, Eq.refl _, Eq.refl _, Eq.refl _, Eq.refl _, Eq.refl _⟩

theorem RecordFrame.trans {s t u : State} (h : RecordFrame s t) (k : RecordFrame t u) : RecordFrame s u := by
  obtain ⟨g, hg⟩ := h.sec
  obtain ⟨g', hg'⟩ := k.sec
  exact ⟨⟨g', by rw [hg', hg]⟩, k.waiting.trans h.waiting, k.pst.trans h.pst, k.bus.trans h.bus, k.syn.trans h.syn,
    k.core.trans h.core, k.xch.trans h.xch⟩

theorem modJrnl_record (s : State) (f : Jrnl → Jrnl) : RecordFrame s (s.modJrnl f) := ⟨⟨_, Eq.refl _⟩, Eq.refl _, Eq.refl _, Eq.refl _, Eq.refl _, Eq.refl _, Eq.refl _⟩

theorem strDerr_record (s : State) (cause fn : Nat) (g : BitVec 6) (c : BitVec 2) (u : StrUser) : RecordFrame s (strDerr s cause fn g c u) := by
  refine ⟨⟨_, rfl⟩, ?_, rfl, rfl, rfl, rfl, rfl⟩
  simp only [strDerr, State.modStr_str]
  split <;> rfl

theorem settleCopy_record (s : State) : RecordFrame s (settleCopy s) := by
  unfold settleCopy
  exact modJrnl_record ..

theorem modJobs_record (s : State) (l : List StrJob) : RecordFrame s (s.modStr (fun x => { x with jobs := l })) :=
  ⟨⟨_, rfl⟩, rfl, rfl, rfl, rfl, rfl, rfl⟩

theorem dropCopy_record (s : State) (j : StrJob) : RecordFrame s (dropCopy s j) :=
  (modJobs_record ..).trans ((modJrnl_record ..).trans (settleCopy_record _))

theorem endJob_record {s : State} {j : StrJob} (hj : j.user = .jrnl) : RecordFrame s (endJob s j) := by
  unfold endJob
  rw [hj]
  exact (modJobs_record ..).trans ((modJrnl_record ..).trans (settleCopy_record _))

theorem killJob_record {s : State} {j : StrJob} (hj : j.user = .jrnl) : RecordFrame s (killJob s j) := by
  unfold killJob
  dsimp only
  rw [if_pos hj]
  split
  · exact (dropCopy_record s j).trans (endJob_record hj)
  · exact dropCopy_record s j

theorem dropOverrun_record (s : State) (a : Nat) : RecordFrame s (dropOverrun s a) := by
  have hfold : ∀ (l : List StrJob), (∀ j ∈ l, j.user = .jrnl) → ∀ t, RecordFrame t (l.foldl (fun t j => if unread s j a then killJob t j else t) t) := by
    intro l
    induction l with
    | nil => exact fun _ _ => .rfl
    | cons j l ih =>
      intro hl t
      obtain ⟨hj, hl⟩ := List.forall_mem_cons.mp hl
      rw [List.foldl_cons]
      refine RecordFrame.trans ?_ (ih hl _)
      split
      · exact killJob_record hj
      · exact .rfl
  refine hfold _ (fun j hj => ?_) s
  simp only [copyJobs, List.mem_filter, Bool.and_eq_true, decide_eq_true_eq] at hj
  exact hj.2.1

theorem restartRegion_record (s : State) (c : BitVec 2) (g : BitVec 6) : RecordFrame s (restartRegion s c g) := by
  unfold restartRegion
  dsimp only
  split
  · exact .rfl
  · exact ⟨⟨_, rfl⟩, rfl, rfl, rfl, rfl, rfl, rfl⟩

theorem startCopy_record (s : State) (stages : List Dword) (epoch : Word) : RecordFrame s (startCopy s stages epoch) := by
  unfold startCopy
  extract_lets g c n blocks wrap t blk cause hdr
  have hrestart : RecordFrame s t := by
    unfold t
    split
    · exact (modJrnl_record ..).trans (restartRegion_record ..)
    · exact .rfl
  refine hrestart.trans ?_
  split
  · exact modJrnl_record ..
  · split
    · exact (strDerr_record ..).trans (modJrnl_record ..)
    · exact ⟨⟨_, rfl⟩, rfl, rfl, rfl, rfl, rfl, rfl⟩

theorem memWr_record (s : State) (req a : Nat) (bs : List Byte) : RecordFrame s (memWr s req a bs) := by
  rw [memWr_frame]
  exact ⟨⟨_, rfl⟩, rfl, rfl, rfl, rfl, rfl, rfl⟩

theorem putRecord_record (s : State) (r : JRec) : RecordFrame s (putRecord s r) := by
  have hwr := (dropOverrun_record s (recAddr s r.stage)).trans (memWr_record _ rqJRNL (recAddr s r.stage) (recBytes r.digests))
  unfold putRecord
  dsimp only
  generalize memWr _ _ _ _ = t at hwr
  refine hwr.trans ?_
  split
  · exact (modJrnl_record ..).trans (startCopy_record ..)
  · exact modJrnl_record ..

theorem putRecords_record (s : State) : RecordFrame s (putRecords s) := by
  have hfold : ∀ (l : List JRec) (t : State), RecordFrame t (l.foldl putRecord t) := by
    intro l
    induction l with
    | nil => exact fun _ => .rfl
    | cons r l ih => exact fun t => (putRecord_record t r).trans (ih _)
  unfold putRecords
  dsimp only
  split
  · exact (modJrnl_record ..).trans (hfold _ _)
  · exact modJrnl_record ..

/-- The end of the zeroisation of a job: both keys are the zero key, and the state OPEN. -/
theorem zeroEnds_endJob {s : State} (hl : s.xch.loadSel = none) (he : s.sec.endJob = true) : ∃ g, RecordFrame { s with
    mem := Mem.settled { s.mem with zeroing := false, scrubRow := 0 }, gov := (spend s 4 (32 * 1536)).gov
    sec := { s.sec with
      key := 0, keyId := 0, rkey := 0, rkeyId := 0, rkeyHeld := false, state := 0, rg := g, seCur := 0, seV := 0, seVKey := 0, seV1 := 0, seV1Key := 2
      sexh := false, stop := false, endJob := false, busy := s.sec.busy && s.sec.rekey.isSome }
    pst := { s.pst with fresh := false } } (zeroEnds s) := by
  obtain ⟨g, hg⟩ := clearRegions_sec (zeroKeys s)
  refine ⟨g, ?_⟩
  unfold zeroEnds
  rw [he, if_pos rfl, hg]
  dsimp only
  rw [resolveSel_none (by exact hl)]
  exact putRecords_record _

theorem zeroisationDone_endJob {s : State} (hb : busOn s = true) (hz : s.mem.zeroing = true) (he : s.sec.endJob = true) (hw : NothingWaits s)
    (hl : s.xch.loadSel = none) :
    ∃ t, exec .zeroisationDone s = .next t ∧ t.sec.key = 0 ∧ t.sec.keyId = 0 ∧ t.sec.rkey = 0 ∧ t.sec.rkeyHeld = false ∧ t.sec.state = 0 ∧
      t.sec.endJob = false ∧ t.sec.stop = false ∧ t.sec.busy = (s.sec.busy && s.sec.rekey.isSome) := by
  obtain ⟨hfe, hstr, hpst, hmgmt, hdbg⟩ := hw
  obtain ⟨g, hframe⟩ := zeroEnds_endJob hl he
  obtain ⟨g', hsec⟩ := hframe.sec
  have hresume : (if (zeroEnds s).flt.fatal then drainBuses (zeroEnds s) else resumeAll (zeroEnds s)).sec = (zeroEnds s).sec := by
    have hm : (zeroEnds s).bus.mgmt.waiting = [] := by rw [hframe.bus]; exact hmgmt
    have hd : (zeroEnds s).bus.dbg.waiting = [] := by rw [hframe.bus]; exact hdbg
    split
    · rw [drainBuses_empty hm hd]
    · rw [resumeAll_unstalls (by rw [hframe.syn]; exact hfe) (by rw [hframe.waiting]; exact hstr) (by rw [hframe.pst]; exact hpst) hm hd, unstall_frame]
  refine ⟨_, (whenOn_of (by rw [hb, hz]; rfl) s _ : exec .zeroisationDone s = _), ?_⟩
  rw [hresume, hsec]
  exact ⟨rfl, rfl, rfl, rfl, rfl, rfl, rfl, rfl⟩

/-! The key port. -/

theorem keyLd_goes {s : State} (hb : busOn s = true) (hbusy : s.sec.busy = false) (key : BitVec 256) (id : Word) (sealed : Bool) :
    exec (.keyLd key id sealed) s = .next (keyStrobe s key id sealed) := whenOn_of (by rw [hb, hbusy]; rfl) s _

/-- A seal (15 Table 3). -/
theorem keyStrobe_seal {s : State} (hst : s.sec.state = 0) (key : BitVec 256) (id : Word) :
    (keyStrobe s key id true).sec.key = key ∧ (keyStrobe s key id true).sec.keyId = id ∧
      (keyStrobe s key id true).sec.state = (if s.sec.permit then 2 else 1) ∧ (keyStrobe s key id true).sec.busy = true ∧
      (keyStrobe s key id true).sec.stop = true ∧ (keyStrobe s key id true).sec.codeOk = false ∧
      (∀ a, memByte (keyStrobe s key id true).mem.bytes a = 0) ∧ (keyStrobe s key id true).mem.zeroing = true ∧
      (keyStrobe s key id true).core.rldBusy = true ∧ (keyStrobe s key id true).core.rldMask = 0xF ∧ (keyStrobe s key id true).core.mode = .idle := by
  obtain ⟨⟨l, c, e, hsec⟩, hzero, hbytes, hrld, hmask, hmode, -⟩ := secureErase_spec s
  obtain ⟨g, hg⟩ := clearRegions_sec ((secureErase s).modSec (fun x => { x with key := key, keyId := id }))
  rw [keyStrobe, hst, decide_eq_true rfl, if_pos rfl]
  dsimp only
  rw [if_pos rfl, hg]
  obtain ⟨⟨lv, r, lsec⟩, -, -⟩ := lowerLevel_spec (State.modSec { (secureErase s).modSec (fun x => { x with key := key, keyId := id }) with
    sec := { ((secureErase s).modSec (fun x => { x with key := key, keyId := id })).sec with
      rg := g, seCur := 0, seV := 0, seVKey := 0, seV1 := 0, seV1Key := 2, sexh := false } } (fun x => { x with state := sealedState s }))
  rw [lsec, lowerLevel_frame]
  exact ⟨rfl, rfl, rfl, congrArg Sec.busy hsec, congrArg Sec.stop hsec, congrArg Sec.codeOk hsec, hbytes, hzero, hrld, hmask, hmode⟩

theorem endOfJob_spec (s : State) : (endOfJob s).sec.endJob = true ∧ (endOfJob s).sec.key = s.sec.key ∧ (endOfJob s).sec.state = s.sec.state ∧
    (endOfJob s).sec.busy = true ∧ (endOfJob s).sec.stop = true ∧ (endOfJob s).sec.codeOk = false ∧ (endOfJob s).mem.zeroing = true ∧
    (∀ a, memByte (endOfJob s).mem.bytes a = 0) ∧ (endOfJob s).core.rldBusy = true ∧ (endOfJob s).core.rldMask = 0xF ∧
    (endOfJob s).core.mode = .idle ∧ (endOfJob s).str.jobs = [] ∧ (endOfJob s).str.waiting = [] ∧
    (endOfJob s).str.acks.length = s.str.acks.length + (s.str.waiting.filter (fun p => decide (p.h0.extractLsb' 0 4 = 3))).length := by
  obtain ⟨⟨l, c, e, hsec⟩, hrest⟩ := secureErase_spec s
  unfold endOfJob
  generalize secureErase s = u at hsec hrest
  exact ⟨rfl, (congrArg Sec.key hsec :), (congrArg Sec.state hsec :), (congrArg Sec.busy hsec :), (congrArg Sec.stop hsec :),
    (congrArg Sec.codeOk hsec :), hrest⟩

/-! The debug level. -/

/-- A level above the ceiling is an escalation: the tile is erased (15 R364). -/
theorem requestLevel_above {s : State} {l : BitVec 2} (hne : l ≠ 3) (hl : (ceiling s).toNat < l.toNat) :
    (requestLevel s l).sec.level = s.sec.level ∧ (requestLevel s l).sec.escal = s.sec.escal + 1 ∧ (requestLevel s l).sec.stop = true ∧
      (requestLevel s l).mem.zeroing = true ∧ (∀ a, memByte (requestLevel s l).mem.bytes a = 0) ∧ (requestLevel s l).flt.cont = true := by
  have herr : ∀ cause region c user, (secErr (s.modSec (fun x => { x with escal := x.escal + 1 })) cause region c user).sec.level = s.sec.level ∧
      (secErr (s.modSec (fun x => { x with escal := x.escal + 1 })) cause region c user).sec.escal = s.sec.escal + 1 := by
    intro cause region c user
    cases h : s.sec.err <;> simp [secErr, h]
  unfold requestLevel
  rw [if_neg hne, if_neg (Nat.not_le.mpr hl), unstall_frame]
  dsimp only
  obtain ⟨hlevel, hescal⟩ := herr 5 0 s.core.cur 0
  generalize secErr _ _ _ _ _ = u at hlevel hescal
  obtain ⟨hcont, -, -⟩ := raise_recorded u fcSECESC 12 0 0
  have hraise : (raise u fcSECESC 12 0 0).sec = u.sec := by rw [raise_frame]
  generalize raise u fcSECESC 12 0 0 = w at hcont hraise
  obtain ⟨sflt, -, -, -, -, -, ssec, -⟩ := streamStop_spec w
  obtain ⟨zflt, -, -, -, -, lo, c, e, zsec⟩ := startZero_frame (streamStop w)
  obtain ⟨zbytes, -, -, zzero, -⟩ := startZero_spec (streamStop w)
  rw [zsec, ssec, zflt, sflt, hraise]
  exact ⟨hlevel, hescal, rfl, zzero, zbytes, hcont⟩

/-! Code loads. -/

theorem codeEval_congr {s t : State} (hm : t.man = s.man) (hb : t.mem.bytes = s.mem.bytes) (hs : t.sec.key = s.sec.key ∧ t.sec.keyId = s.sec.keyId)
    (a n : Nat) : codeEval t a n = codeEval s a n := by
  obtain ⟨hkey, hid⟩ := hs
  have hdest (d k : Nat) : codeDestOk t d k = codeDestOk s d k := by
    unfold codeDestOk
    rw [hm, permits_congr hm]
  have hmax : codeMax t = codeMax s := by
    unfold codeMax partSize
    rw [hm, cfg_congr hm]
  have hhead (h : List Byte) : codeHeader t h n = codeHeader s h n := by
    unfold codeHeader
    dsimp only
    rw [hid, hdest, hmax]
  unfold codeEval sourceOk
  rw [hm, hb, hkey, permits_congr hm]
  simp only [hhead]

theorem touchRead_noDouble {s : State} (h : NoDouble s) (req a n : Nat) : NoDouble (touchRead s req a n) :=
  h.of_ecc ((serve_ecc ..).trans (eccFold_ecc ..))

/-- A code load that passes its checks. -/
theorem codeLoadDone_goes {s : State} {a n dest : Nat} {p : List Byte} (hon : unitsOn s = true) (hl : s.sec.codeLoad = some (a, n))
    (hd : NoDouble s) (hw : spansWait s (codeLoadSpans s a n) = false) (hp : codeEval s a n = .pass dest p) (hdest : dest + p.length ≤ memTop) :
    ∃ t, exec .codeLoadDone s = .next t ∧ Stored s t dest p ∧ t.sec.codeOk = true ∧ t.sec.codeState = 2 ∧ t.sec.codeErr = 0 ∧
      t.sec.codeLoad = none := by
  have hgo : exec .codeLoadDone s = .next (unstall (finishCode s a n)) := by
    rw [show exec .codeLoadDone s = execCodeLoadDone s from rfl, execCodeLoadDone, hl]
    exact whenMem_goes hon hw _
  have hr := touchRead_reads s rqOBT a (if sourceOk s a n then n else 0)
  have hdr := touchRead_noDouble hd rqOBT a (if sourceOk s a n then n else 0)
  have hsec : (touchRead s rqOBT a (if sourceOk s a n then n else 0)).sec = s.sec := by rw [hr.access]
  have hfinish : finishCode s a n = (memWr ((touchRead s rqOBT a (if sourceOk s a n then n else 0)).modSec (fun x => { x with codeLoad := none }))
      rqOBT dest p).modSec (fun x => { x with codeOk := true, codeState := 2, codeErr := 0 }) := by
    have heval : codeEval ((touchRead s rqOBT a (if sourceOk s a n then n else 0)).modSec (fun x => { x with codeLoad := none })) a n = .pass dest p :=
      (codeEval_congr (s := s) (by exact hr.man) (by exact hr.bytes) (by rw [State.modSec_sec, hsec]; exact ⟨rfl, rfl⟩) a n).trans hp
    unfold finishCode
    dsimp only
    rw [heval]
  refine ⟨_, hgo, ?_⟩
  rw [unstall_frame, hfinish]
  generalize touchRead _ _ _ _ = u at hr hdr hsec
  have hload : (memWr (u.modSec (fun x => { x with codeLoad := none })) rqOBT dest p).sec.codeLoad = none := by
    rw [memWr_frame]
    rfl
  have hstored := memWr_stored rqOBT hdest (NoDouble.hasDouble (s := u.modSec (fun x => { x with codeLoad := none })) hdr dest p.length)
  generalize memWr _ _ _ _ = w at hload hstored
  refine ⟨fun x => (hstored x).trans ?_, rfl, rfl, rfl, hload⟩
  rw [State.modSec_mem, hr.bytes]

/-- Settles O58: what a seal, a job end and an escalation erase; the keys of an ended job behind the records that waited; a code load's spans. -/
theorem securityCommands : Obligations.SecurityCommands := by
  unfold Obligations.SecurityCommands
  refine ⟨fun s key id hb hbusy => ⟨fun hst => ?_, fun hst => ?_, fun hst => ⟨?_, ?_⟩, ?_⟩, fun s hb hz he _ hw hl => zeroisationDone_endJob hb hz he hw hl,
    fun s key id hon hr hreads hwrites => ?_, fun s => ⟨rfl, ?_⟩, fun s hs => ?_, fun s a n dest p hon hl hd hw hp hdest => ?_⟩
  · obtain ⟨g, hg⟩ := clearRegions_sec (s.modSec (fun x => { x with key := key, keyId := id }))
    refine ⟨_, keyLd_goes hb hbusy key id false, ?_⟩
    rw [keyStrobe, hst, decide_eq_true rfl, if_pos rfl]
    dsimp only
    rw [if_neg Bool.false_ne_true, hg]
    exact ⟨rfl, rfl, hst, rfl, rfl⟩
  · exact ⟨_, keyLd_goes hb hbusy key id true, keyStrobe_seal hst key id⟩
  · refine (keyLd_goes hb hbusy key id true).trans (congrArg Host.Outcome.next ?_)
    rw [keyStrobe, decide_eq_false hst, if_neg Bool.false_ne_true, if_pos rfl]
    rfl
  · refine (keyLd_goes hb hbusy key id false).trans (congrArg Host.Outcome.next ?_)
    rw [keyStrobe, decide_eq_false hst, if_neg Bool.false_ne_true, if_neg Bool.false_ne_true]
  · exact ⟨_, whenOn_of (by rw [hb, hbusy]; rfl) s _, endOfJob_spec s⟩
  · refine ⟨_, (?_ : exec .rekey s = .next (doRekey s key id)), rfl, rfl, rfl, rfl, rfl, rfl, rfl, rfl, rfl⟩
    rw [show exec .rekey s = execRekey s from rfl, execRekey, hr]
    exact whenOn_of (by rw [hon, hreads, hwrites]; rfl) s _
  · obtain ⟨⟨lv, r, lsec⟩, hle, hhalt⟩ := lowerLevel_spec (s.modSec (fun x => { x with permit := false, state := if x.state = 2 then 1 else x.state }))
    have hframe := lowerLevel_frame (s.modSec (fun x => { x with permit := false, state := if x.state = 2 then 1 else x.state }))
    refine ⟨_, rfl, by rw [lsec]; rfl, by rw [lsec]; rfl, ?_, hhalt, ?_⟩
    · rw [ceiling_congr (s := s.modSec (fun x => { x with permit := false, state := if x.state = 2 then 1 else x.state })) (by rw [hframe]) (by rw [lsec])]
      exact hle
    · rw [hframe]
      rfl
  · refine ⟨fun hl => ?_, fun hl => ?_, regCmd_served hs _ _, fun l hne hle => ?_, fun l hne hlt => ?_, fun v hw hv => ?_, fun v h => ?_⟩
    · refine (regCmd_served hs _ _ : exec .secCtrlCode s = _).trans (congrArg Host.Outcome.next ?_)
      simp [startCode, State.modSec, hl]
    · refine (regCmd_served hs _ _ : exec .secCtrlCode s = _).trans (congrArg Host.Outcome.next ?_)
      simp [startCode, State.modSec, Option.isSome_iff_ne_none.mpr hl]
    · refine (regCmd_served hs _ _ : exec (.secDbgReqWrite l) s = _).trans (congrArg Host.Outcome.next ?_)
      rw [requestLevel, if_neg hne, if_pos hle]
      rfl
    · exact ⟨_, regCmd_served hs _ _, requestLevel_above hne hlt⟩
    · refine (regCmd_served hs _ _ : exec (.secSeCurWrite v) s = _).trans (congrArg Host.Outcome.next ?_)
      rw [raiseStep, hw, decide_eq_true hv]
      rfl
    · refine (regCmd_served hs _ _ : exec (.secSeCurWrite v) s = _).trans (congrArg Host.Outcome.next (if_neg ?_))
      rw [Bool.and_eq_true, decide_eq_true_eq, not_and]
      intro hw
      exact Nat.not_lt.mpr (h.resolve_left (by rw [hw]; decide))
  · exact codeLoadDone_goes hon hl hd hw hp hdest

end Sys2Proof.Machine
end
section
/-! PROOFS. The debug unit and the register buses (00 R435, R436; 15 R362; 17 R405 to R411). -/

namespace Sys2Proof.Machine

/-! A step of the debugger. -/

theorem coreStep_decodeAlu (w : Word) (s : State) : coreStep (decodeAlu w) s = exec (decodeAlu w) s := by
  unfold decodeAlu
  split <;> rfl

/-- What a word spells is executed by a step as by the running core. -/
theorem coreStep_decodeCore (w ext : Word) (s : State) : coreStep (decodeCore w ext) s = exec (decodeCore w ext) s := by
  unfold decodeCore
  split
  case h_1 => exact coreStep_decodeAlu w s
  case h_43 => split <;> rfl
  case h_44 => split <;> rfl
  all_goals rfl

/-- The context that a step of the debugger executes in. -/
def stepping (s : State) : State := { s with dbg := { s.dbg with stepping := true } }

/-- A step of a halted context executes the instruction at its program counter. -/
theorem dbgCtrlStep_executes {s t : State} (hs : Served s) (hl : s.sec.level = 2) (hh : s.dbg.halted = true)
    (hc : coreOn (stepping s) = true) (ht : exec (instrAt (stepping s)) (stepping s) = .next t) : exec .dbgCtrlStep s = .next t := by
  refine (regCmd_served hs _ _ : exec .dbgCtrlStep s = _).trans (congrArg Host.Outcome.next ?_)
  have hstep : coreStep (instrAt (stepping s)) (stepping s) = .next t := (coreStep_decodeCore ..).trans ht
  have hok : (!invasive s || !s.dbg.halted) = false := by rw [invasive, hl, hh]; rfl
  unfold stepOne
  rw [hok, if_neg Bool.false_ne_true]
  exact (if_pos hc).trans (congrArg (stateOf · (stepping s)) hstep)

/-- A step of an ADD (17 R410). -/
theorem dbgCtrlStep_add {s : State} {f : RForm} (hs : Served s) (hl : s.sec.level = 2) (hh : s.dbg.halted = true) (hr : Runs (stepping s) 4)
    (hi : instrAt (stepping s) = .add f) (hx : f.x = false) (h9 : f.f96 = 0) :
    ∃ t, exec .dbgCtrlStep s = .next t ∧ Wrote (fetched (stepping s) 4) t f.d (rd s f.a + rd s f.b) 4 ∧
      t.dbg = { s.dbg with halted := true, cause := if s.dbg.haltReq then 1 else 3, haltReq := false, stepping := false } ∧
      (curCtx t).pc = (curCtx s).pc + 4 := by
  obtain ⟨t, ht, hw⟩ := aluR_gives hr hx h9 (· + ·) rfl
  refine ⟨t, dbgCtrlStep_executes hs hl hh hr.1 (by rw [hi]; exact ht), hw, ?_, ?_⟩
  · rw [hw.debug, dbgDone, State.modDbg_dbg, hr.fetched_dbg]
    simp [stepping, hh]
  · rw [hw.context, hr.curCtx_fetched]
    rfl

/-! Halts and the program counter. -/

/-- Bits [1:0] of an address do not hold what is written to them. -/
theorem wordAddr_eq (v : Word) : wordAddr v = v.extractLsb' 0 21 &&& ~~~3 := by
  have hthree (i : Nat) (h : 2 ≤ i) : (3 : BitVec 21).getLsbD i = false := by
    rw [show (3 : BitVec 21) = BitVec.ofNat 21 3 from rfl, BitVec.getLsbD_ofNat, Nat.testBit_lt_two_pow (Nat.lt_of_lt_of_le (by decide : 3 < 2 ^ 2) (Nat.pow_le_pow_right (by decide) h)), Bool.and_false]
  unfold wordAddr
  refine BitVec.eq_of_getLsbD_eq fun i hi => ?_
  rw [BitVec.getLsbD_shiftLeft, BitVec.getLsbD_ushiftRight, BitVec.getLsbD_setWidth, BitVec.getLsbD_and, BitVec.getLsbD_not, BitVec.getLsbD_extractLsb',
    Nat.zero_add]
  obtain rfl | rfl | h2 : i = 0 ∨ i = 1 ∨ 2 ≤ i := by omega
  · simp
  · simp
  · rw [hthree i h2, show 2 + (i - 2) = i by omega]
    simp [hi, show ¬ i < 2 by omega]

theorem dbgPcset_goes {s : State} (hs : Served s) (hh : s.dbg.halted = true) (v : Word) :
    ∃ t, exec (.dbgPcset v) s = .next t ∧ (curCtx t).pc = v.extractLsb' 0 21 &&& ~~~3 ∧
      (∀ r, rd t r = rd s r) ∧ t = { s with core := { s.core with ctxs := t.core.ctxs } } := by
  have hctx : curCtx (modCtx s s.core.cur (fun x => { x with pc := wordAddr v })) = { curCtx s with pc := wordAddr v } := curCtx_modCtx ..
  refine ⟨_, regCmd_served hs _ _, ?_⟩
  rw [setPc, if_pos hh]
  exact ⟨by rw [hctx, wordAddr_eq], fun r => by rw [rd, hctx]; rfl, rfl⟩

theorem high_eq_extractLsb' (x : Dword) : ((x >>> 32).setWidth 32 : Word) = x.extractLsb' 32 32 := by
  refine BitVec.eq_of_getLsbD_eq fun i hi => ?_
  simp only [BitVec.getLsbD_setWidth, BitVec.getLsbD_ushiftRight, BitVec.getLsbD_extractLsb']

/-! Accesses of the register window. -/

/-- What an access leaves in the buses only, and its value. -/
theorem putRd_rd (s : State) (b : Bus) (v : Word) : (busOf (putRd s b v) b).rd = v ∧ (putRd s b v).bus.latch = s.bus.latch ∧
    putRd s b v = { s with bus := (putRd s b v).bus } := by
  cases b <;> exact ⟨rfl, rfl, rfl⟩

theorem winAddr_none {addr : BitVec 22} (h : addr.toNat < 0x10000) : winAddr addr = none := if_neg (by omega)

section Access
variable {s : State} {b : Bus} {addr : BitVec 22} (hb : busOn s = true) (hw : (busOf s b).waiting = []) (ha : addr.toNat < 0x10000)
include hb hw ha

theorem access_write (i : Instr) (v : Word) (be : BitVec 4) :
    access i s b true addr v be = if be = 0xF then writeReg b s (addr.toNat / 4 * 4) v else s := by
  rw [access, winAddr_none ha]
  dsimp only
  rw [Bool.not_true, Bool.and_false, Bool.false_and, if_neg Bool.false_ne_true, regAcc_served hb hw, if_pos rfl]
  exact if_congr (by simp [ha]) rfl rfl

theorem access_read (i : Instr) (hlow : addr.toNat < 0xC000) :
    access i s b false addr 0 0xF = putRd (readReg s (addr.toNat / 4 * 4)).1 b (readReg s (addr.toNat / 4 * 4)).2 := by
  rw [access, winAddr_none ha]
  dsimp only
  rw [decide_eq_false (by omega), Bool.and_false, if_neg Bool.false_ne_true, regAcc_served hb hw, if_neg Bool.false_ne_true]
  exact if_pos ⟨rfl, ha⟩

end Access

/-- No 64-bit register lies at or above 0x8070. -/
theorem wideReg_none {s : State} {off : Nat} (h : 0x8070 ≤ off) : wideReg s off = none := by
  have hrun (base step n : Nat) (f : Nat → Dword) (hn : base + step * n ≤ 0x8070) : runWide base step n off f = none := by
    rw [runWide, regIdx, if_neg (by omega)]
    rfl
  simp (disch := omega) only [wideReg, wideCore, wideEng, wideGov, wideLdg, wideRest, hrun, if_neg, Option.or]

theorem wideReg_sdata (s : State) : wideReg s 0x700C = some (if s.dbg.halted then rd s s.dbg.ssel else 0) ∧ wideReg s 0x7010 = none := by
  constructor <;> simp [wideReg, wideCore, wideEng, wideGov, wideLdg, wideRest, runWide, regIdx]

section Read
variable {s : State} {off : Nat} (hal : allowed s (readNeed off) = true)
include hal

/-- A LO register gives its lower half and latches the upper one (00 R435). -/
theorem readReg_lo {x : Dword} (hx : wideReg s off = some x) :
    readReg s off = (s.modBus (fun y => { y with latch := tabSet 0 y.latch off ((x >>> 32).setWidth 32) }), x.setWidth 32) := by
  rw [readReg, hal, hx]
  rfl

/-- A HI register gives the half that its LO latched. -/
theorem readReg_hi {x : Dword} (h4 : 4 ≤ off) (hn : wideReg s off = none) (hx : wideReg s (off - 4) = some x)
    (hh : off = 0x7010 → s.dbg.halted = true) : readReg s off = (s, tabGet 0 s.bus.latch (off - 4)) := by
  rw [readReg, hal, hn, hx, decide_eq_true h4]
  refine (if_neg Bool.false_ne_true).trans ((if_neg ?_).trans (if_pos rfl))
  exact fun ⟨h, hf⟩ => by rw [hh h] at hf; cases hf

end Read

/-- A write of a register of the core's block that needs no level. -/
theorem writeReg_core {s : State} {b : Bus} {off : Nat} {v : Word} (hn : writeNeed off = 0) (hsh : (shAt off).isSome = false) (ho : off < 0x400) :
    writeReg b s off v = wrCore s off v := by
  have hal : allowed s (writeNeed off) = true := by rw [hn, allowed]; exact decide_eq_true (Nat.zero_le _)
  rw [writeReg, hal, hsh]
  exact if_pos ho

section WideRead
variable {s : State} {b : Bus} {addr : BitVec 22} (hb : busOn s = true) (hw : (busOf s b).waiting = []) (ha : addr.toNat < 0x10000)
  (hal : allowed s (readNeed (addr.toNat / 4 * 4)) = true)
include hb hw ha hal

theorem wideRead_lo {x : Dword} (hx : wideReg s (addr.toNat / 4 * 4) = some x) :
    ∃ t, exec (.wideRegisterRead b addr) s = .next t ∧ (busOf t b).rd = x.extractLsb' 0 32 ∧
      tabGet 0 t.bus.latch (addr.toNat / 4 * 4) = x.extractLsb' 32 32 ∧ t = { s with bus := t.bus } := by
  have hlow : addr.toNat < 0xC000 := by
    by_contra hge
    rw [wideReg_none (by omega)] at hx
    cases hx
  refine ⟨_, congrArg Host.Outcome.next (access_read hb hw ha _ hlow), ?_⟩
  rw [readReg_lo hal hx]
  obtain ⟨hrd, hlatch, hframe⟩ := putRd_rd (s.modBus (fun y => { y with latch := tabSet 0 y.latch (addr.toNat / 4 * 4) ((x >>> 32).setWidth 32) })) b
    (x.setWidth 32)
  exact ⟨hrd.trans (low_eq_extractLsb' _), (congrArg (tabGet 0 · _) hlatch).trans ((tabGet_set_same ..).trans (high_eq_extractLsb' _)), hframe⟩

theorem wideRead_hi {x : Dword} (h4 : 4 ≤ addr.toNat / 4 * 4) (hn : wideReg s (addr.toNat / 4 * 4) = none)
    (hx : wideReg s (addr.toNat / 4 * 4 - 4) = some x) (hh : addr.toNat / 4 * 4 = 0x7010 → s.dbg.halted = true) :
    ∃ t, exec (.wideRegisterRead b addr) s = .next t ∧ (busOf t b).rd = tabGet 0 s.bus.latch (addr.toNat / 4 * 4 - 4) ∧ t = { s with bus := t.bus } := by
  have hlow : addr.toNat < 0xC000 := by
    by_contra hge
    rw [wideReg_none (by omega)] at hx
    cases hx
  refine ⟨_, congrArg Host.Outcome.next (access_read hb hw ha _ hlow), ?_⟩
  rw [readReg_hi hal h4 hn hx hh]
  obtain ⟨hrd, -, hframe⟩ := putRd_rd s b (tabGet 0 s.bus.latch (addr.toNat / 4 * 4 - 4))
  exact ⟨hrd, hframe⟩

/-- The upper half of the scalar data reads 0 while the core is not halted. -/
theorem wideRead_sdata (ho : addr.toNat / 4 * 4 = 0x7010) (hh : s.dbg.halted = false) :
    ∃ t, exec (.wideRegisterRead b addr) s = .next t ∧ (busOf t b).rd = 0 ∧ t = { s with bus := t.bus } := by
  have hread : readReg s (addr.toNat / 4 * 4) = (s, 0) := by
    rw [readReg, hal, ho, (wideReg_sdata s).2, hh]
    rfl
  refine ⟨_, congrArg Host.Outcome.next (access_read hb hw ha _ (by omega)), ?_⟩
  rw [hread]
  obtain ⟨hrd, -, hframe⟩ := putRd_rd s b 0
  exact ⟨hrd, hframe⟩

end WideRead

/-! Scalar data (17 R411). -/

theorem joinLo_eq (s : State) (lo : Nat) (old : Dword) (v : Word) :
    joinLo s lo old v = (heldHi s lo).getD (old.extractLsb' 32 32) ++ v := by
  rw [joinLo, high_eq_extractLsb']

theorem heldHi_setHeld (s : State) (lo : Nat) (v : Option Word) : heldHi (setHeld s lo v) lo = v := tabGet_set_same ..

section Sdata
variable {s : State} {b : Bus} (hb : busOn s = true) (hw : (busOf s b).waiting = []) (hh : s.dbg.halted = true) (v : Word)
include hb hw hh

theorem sdata_hi : ∃ t, exec (.dbgSdataAccess b true true v) s = .next t ∧ heldHi t 0x700C = some v ∧ ∀ k, rd t k = rd s k := by
  refine ⟨holdHi s 0x700C v, congrArg Host.Outcome.next ((regAcc_served hb hw _ _ _).trans ?_), heldHi_setHeld .., fun _ => rfl⟩
  rw [if_pos rfl, writeSdata, hh]
  rfl

theorem sdata_lo : ∃ t, exec (.dbgSdataAccess b false true v) s = .next t ∧ (∀ k, k ≠ s.dbg.ssel → rd t k = rd s k) ∧
    rd t s.dbg.ssel = (if s.dbg.ssel = 0 then 0 else (heldHi s 0x700C).getD ((rd s s.dbg.ssel).extractLsb' 32 32) ++ v) ∧
    heldHi t 0x700C = none := by
  have hrd (k : SReg) : rd (wrReg s s.core.cur s.dbg.ssel (joinLo s 0x700C (rd s s.dbg.ssel) v)) k =
      if k = 0 then 0 else if k = s.dbg.ssel then joinLo s 0x700C (rd s s.dbg.ssel) v else rd s k :=
    (congrArg (Ctx.reg · k) (curCtx_wrReg ..)).trans (reg_setReg ..)
  refine ⟨setHeld (wrReg s s.core.cur s.dbg.ssel (joinLo s 0x700C (rd s s.dbg.ssel) v)) 0x700C none,
    congrArg Host.Outcome.next ((regAcc_served hb hw _ _ _).trans ?_), fun k hk => (hrd k).trans ?_, (hrd _).trans ?_, heldHi_setHeld ..⟩
  · rw [if_pos rfl, writeSdata, hh]
    rfl
  · rw [if_neg hk]
    split
    next h => rw [rd, Ctx.reg, if_pos h]
    next => rfl
  · rw [if_pos rfl, joinLo_eq]

theorem sdata_read (hl : s.sec.level = 2) : ∃ t, exec (.dbgSdataAccess b false false v) s = .next t ∧
    (busOf t b).rd = (rd s s.dbg.ssel).extractLsb' 0 32 ∧ tabGet 0 t.bus.latch 0x700C = (rd s s.dbg.ssel).extractLsb' 32 32 := by
  have hread := readReg_lo (by rw [allowed, hl]; decide) (wideReg_sdata s).1
  rw [hh, if_pos rfl] at hread
  refine ⟨_, congrArg Host.Outcome.next ((regAcc_served hb hw _ _ _).trans (if_neg Bool.false_ne_true)), ?_⟩
  dsimp only
  rw [if_neg Bool.false_ne_true, hread]
  obtain ⟨hrd, hlatch, -⟩ := putRd_rd (s.modBus (fun y => { y with latch := tabSet 0 y.latch 0x700C (((rd s s.dbg.ssel) >>> 32).setWidth 32) })) b
    ((rd s s.dbg.ssel).setWidth 32)
  rw [hrd, hlatch]
  exact ⟨low_eq_extractLsb' _, (tabGet_set_same ..).trans (high_eq_extractLsb' _)⟩

end Sdata

/-! The memory window (17 R405). -/

theorem leBytes_getD {w : Nat} (v : BitVec w) {i n : Nat} (hi : i < n) : (leBytes n v).getD i 0 = v.extractLsb' (8 * i) 8 := by
  rw [leBytes, List.getD_eq_getElem?_getD, List.getElem?_map, List.getElem?_range hi]
  rfl

/-- The bytes of a word where their enables are set, else those of another word. -/
theorem byBe_getD (be : BitVec 4) (v old : Word) {i : Nat} (hi : i < 4) :
    (leBytes 4 (byBe be v old)).getD i 0 = if be.getLsbD i then v.extractLsb' (8 * i) 8 else old.extractLsb' (8 * i) 8 := by
  have hlist : leBytes 4 (byBe be v old) =
      (List.range 4).map (fun i => if be.getLsbD i then (leBytes 4 v).getD i 0 else (leBytes 4 old).getD i 0) :=
    leBytes_leNat _ 4 (by simp)
  rw [hlist, List.getD_eq_getElem?_getD, List.getElem?_map, List.getElem?_range hi, Option.map_some, Option.getD_some, leBytes_getD v hi,
    leBytes_getD old hi]

theorem word_byte (s : State) (a : Nat) {i : Nat} (hi : i < 4) :
    (BitVec.ofNat 32 (mNat s a 4)).extractLsb' (8 * i) 8 = memByte s.mem.bytes (a + i) := by
  have hlist : leBytes 4 (BitVec.ofNat 32 (mNat s a 4)) = memBytes s.mem.bytes a 4 := leBytes_leNat _ 4 (by simp [memBytes])
  rw [← leBytes_getD _ hi, hlist, memBytes, List.getD_eq_getElem?_getD, List.getElem?_map, List.getElem?_range hi]
  rfl

section Window
variable {s : State} {b : Bus} {addr : BitVec 22} (hb : busOn s = true) (hw : (busOf s b).waiting = []) (hl : s.sec.level = 2)
  (hlo : 0x100000 ≤ addr.toNat) (hhi : addr.toNat < 0x280000) (hz : s.mem.zeroing = false)
include hb hw hl hlo hhi hz

omit hl in
theorem window_access (i : Instr) (write : Bool) (v : Word) (be : BitVec 4) :
    access i s b write addr v be = winAccess s b write (addr.toNat / 4 * 4 - 0x100000) v be := by
  rw [access, winAddr, if_pos ⟨hlo, hhi⟩]
  dsimp only
  rw [dbgWaits, hz, if_neg Bool.false_ne_true, regAcc_served hb hw]
  rfl

theorem window_write (v : Word) {be : BitVec 4} (hbe : be ≠ 0) (hd : NoDouble s) :
    ∃ t, exec (.memoryWindowAccess b true addr v be) s = .next t ∧ ∀ x, memByte t.mem.bytes x =
      if addr.toNat / 4 * 4 - 0x100000 ≤ x ∧ x < addr.toNat / 4 * 4 - 0x100000 + 4 ∧ be.getLsbD (x - (addr.toNat / 4 * 4 - 0x100000)) = true
      then v.extractLsb' (8 * (x - (addr.toNat / 4 * 4 - 0x100000))) 8 else memByte s.mem.bytes x := by
  have htop : addr.toNat / 4 * 4 - 0x100000 + 4 ≤ memTop := by unfold memTop; omega
  refine ⟨_, congrArg Host.Outcome.next (window_access hb hw hlo hhi hz _ true v be), fun x => ?_⟩
  generalize addr.toNat / 4 * 4 - 0x100000 = a at htop
  have hok : (winWritable s && decide (be ≠ 0)) = true := by rw [winWritable, invasive, hl, decide_eq_true hbe]; rfl
  have hmem : (codeTouched s a).mem = s.mem := by unfold codeTouched; split <;> rfl
  have hstored := memWr_stored (s := codeTouched s a) (a := a) (bs := leBytes 4 (byBe be v (BitVec.ofNat 32 (mNat s a 4)))) rqDBG (by rwa [leBytes_length])
    (NoDouble.hasDouble (by rw [NoDouble, hmem]; exact hd) _ _) x
  rw [winAccess, if_pos rfl, if_pos hok, hstored, leBytes_length, hmem]
  by_cases hin : a ≤ x ∧ x < a + 4
  · have hi : x - a < 4 := by omega
    rw [if_pos hin, byBe_getD be _ _ hi, word_byte s a hi, Nat.add_sub_cancel' hin.1]
    simp only [hin, true_and]
  · rw [if_neg hin, if_neg (fun h => hin ⟨h.1, h.2.1⟩)]

theorem window_read (v : Word) {be : BitVec 4} (hbe : be ≠ 0) :
    ∃ t, exec (.memoryWindowAccess b false addr v be) s = .next t ∧ SameBytes s t ∧ ∀ i, i < 4 → be.getLsbD i = true →
      (busOf t b).rd.extractLsb' (8 * i) 8 = memByte s.mem.bytes (addr.toNat / 4 * 4 - 0x100000 + i) := by
  refine ⟨_, congrArg Host.Outcome.next (window_access hb hw hlo hhi hz _ false v be), ?_⟩
  generalize addr.toNat / 4 * 4 - 0x100000 = a
  have hok : (invasive s && decide (be ≠ 0)) = true := by rw [invasive, hl, decide_eq_true hbe]; rfl
  have hbytes := touchRead_bytes s rqDBG a 4
  rw [winAccess, if_neg Bool.false_ne_true, if_pos hok]
  dsimp only
  generalize touchRead s rqDBG a 4 = u at hbytes
  obtain ⟨hrd, -, hframe⟩ := putRd_rd u b (byBe be (BitVec.ofNat 32 (mNat u a 4)) 0)
  refine ⟨fun x => by rw [hframe, hbytes], fun i hi hbit => ?_⟩
  rw [hrd, ← leBytes_getD _ hi, byBe_getD be _ _ hi, if_pos hbit, word_byte u a hi, hbytes]

end Window

/-! Accesses that wait. -/

/-- A write of the management bus waits behind those that wait, and while the core cannot serve it. -/
theorem regCmd_waits {s : State} (h : busOn s = false ∨ s.bus.mgmt.waiting ≠ []) (i : Instr) (t : State) :
    regCmd i s t = .next { s with bus := { s.bus with mgmt := { s.bus.mgmt with waiting := s.bus.mgmt.waiting ++ [i] } } } := by
  have hc : (!busOn s || !s.bus.mgmt.waiting.isEmpty) = true := by
    rcases h with h | h
    · rw [h]; rfl
    · rw [List.isEmpty_eq_false_iff.mpr h, Bool.not_false, Bool.or_true]
  exact congrArg Host.Outcome.next (if_pos hc)

/-- Settles O59: a step by what its word spells; accesses by the bus, the window and the halves of 64-bit registers. -/
theorem debugAndBuses : Obligations.DebugAndBuses := by
  unfold Obligations.DebugAndBuses
  refine ⟨fun s hs => ⟨fun hl hh hm => ?_, fun hl => ⟨?_, ?_⟩, regCmd_served hs _ _, fun hl hh => ⟨fun hc => ?_, fun hc => ?_, fun f hr hi hx h9 => ?_⟩,
    fun v hh => dbgPcset_goes hs hh v⟩,
    fun s b v hb hw hh => ⟨sdata_hi hb hw hh v, sdata_lo hb hw hh v, sdata_read hb hw hh v⟩,
    fun s b addr v be hb hw hl hlo hhi hbe => ?_, fun s b addr hb hw ha => ?_, fun s i h hi => ?_⟩
  · refine (regCmd_served hs _ _ : exec .dbgCtrlHalt s = _).trans (congrArg Host.Outcome.next ?_)
    rw [halt, invasive, hl, hh, betweenInstrs, hm]
    rfl
  · refine (regCmd_served hs _ _ : exec .dbgCtrlHalt s = _).trans (congrArg Host.Outcome.next (if_pos ?_))
    rw [invasive, decide_eq_false hl]
    rfl
  · refine (regCmd_served hs _ _ : exec .dbgCtrlStep s = _).trans (congrArg Host.Outcome.next (if_pos ?_))
    rw [invasive, decide_eq_false hl]
    rfl
  · refine (regCmd_served hs _ _ : exec .dbgCtrlStep s = _).trans (congrArg Host.Outcome.next ?_)
    have hok : (!invasive s || !s.dbg.halted) = false := by rw [invasive, hl, hh]; rfl
    unfold stepOne
    rw [hok, if_neg Bool.false_ne_true]
    exact if_neg (Bool.eq_false_iff.mp hc)
  · obtain ⟨t, ht, -⟩ := exec_keeps (i := instrAt (stepping s)) (s := stepping s)
    exact ⟨t, dbgCtrlStep_executes hs hl hh hc ht, ht⟩
  · exact dbgCtrlStep_add hs hl hh hr hi hx h9
  · exact fun hz hd => ⟨window_write hb hw hl hlo hhi hz v hbe hd, window_read hb hw hl hlo hhi hz v hbe⟩
  · refine ⟨fun x hx hal => ?_, fun x h4 hn hx hal hh => ?_, fun hoff hh hal => ?_, fun v hlw ha' => ?_, fun v hlw ha' => ?_, fun v => ?_, fun v => ?_, fun v be hbe => ?_⟩
    · exact wideRead_lo hb hw ha hal hx
    · exact wideRead_hi hb hw ha hal h4 hn hx hh
    · exact wideRead_sdata hb hw ha hal hoff hh
    · subst ha'
      have hwr : writeReg b s ((0x10 : BitVec 22).toNat / 4 * 4) v = setHeld (s.modCore (fun k => { k with stage := joinLo s 0x10 k.stage v })) 0x10 none :=
        (writeReg_core (off := 0x10) (by decide) (by decide +kernel) (by decide)).trans (if_pos hlw)
      refine ⟨_, congrArg Host.Outcome.next ((access_write hb hw ha _ v 0xF).trans ((if_pos rfl).trans hwr)), ?_, heldHi_setHeld ..⟩
      rw [← joinLo_eq]
      rfl
    · subst ha'
      have hwr : writeReg b s ((0x14 : BitVec 22).toNat / 4 * 4) v = holdHi s 0x10 v :=
        (writeReg_core (off := 0x14) (by decide) (by decide +kernel) (by decide)).trans (if_pos hlw)
      exact ⟨_, congrArg Host.Outcome.next ((access_write hb hw ha _ v 0xF).trans ((if_pos rfl).trans hwr)), rfl, heldHi_setHeld ..⟩
    · exact congrArg Host.Outcome.next ((access_write hb hw ha _ v 0xF).trans (if_pos rfl))
    · refine congrArg Host.Outcome.next ((access_write (addr := 0x134) hb hw (by decide) _ v 0xF).trans ((if_pos rfl).trans ?_))
      rw [show (0x134 : BitVec 22).toNat / 4 * 4 = 0x134 from rfl, writeReg_core (off := 0x134) (by decide) (by decide +kernel) (by decide)]
      rfl
    · exact congrArg Host.Outcome.next ((access_write hb hw ha _ v be).trans (if_neg hbe))
  · have hall : ∀ j ∈ [Instr.handSetVal, .handSetState, .fePut, .feTake, .fePeek, .manCtrlLoad, .manCtrlArm, .manCtrlDisarm, .manCtrlResume,
        .manCtrlDiscard, .memCtrlZero, .memSthCtrlClear, .jrnlCtrlReplay, .jrnlCtrlCancel, .fltCtrlClear, .fltCtrlWrest, .fltCtrlInj,
        .fltCtrlFclr, .govCtrlMark, .govCtrlTrfclr, .secCtrlCode, .xchTctrlWrite, .dbgCtrlHalt, .dbgCtrlResume, .dbgCtrlStep], ∃ t, exec j s = regCmd j s t := by
      simp only [List.forall_mem_cons, List.not_mem_nil, false_implies, implies_true, and_true]
      exact ⟨⟨_, rfl⟩, ⟨_, rfl⟩, ⟨_, rfl⟩, ⟨_, rfl⟩, ⟨_, rfl⟩, ⟨_, rfl⟩, ⟨_, rfl⟩, ⟨_, rfl⟩, ⟨_, rfl⟩, ⟨_, rfl⟩, ⟨_, rfl⟩, ⟨_, rfl⟩, ⟨_, rfl⟩,
        ⟨_, rfl⟩, ⟨_, rfl⟩, ⟨_, rfl⟩, ⟨_, rfl⟩, ⟨_, rfl⟩, ⟨_, rfl⟩, ⟨_, rfl⟩, ⟨_, rfl⟩, ⟨_, rfl⟩, ⟨_, rfl⟩, ⟨_, rfl⟩, ⟨_, rfl⟩⟩
    obtain ⟨t, ht⟩ := hall i hi
    exact ht.trans (regCmd_waits h i t)

end Sys2Proof.Machine
end
section
/-! PROOFS. Resets (17 R416, R417). -/

namespace Sys2Proof.Machine

/-- In a core reset, with no credit of a put buffer left to pulse. -/
def pulsedReset : State := { pin := { coreRst := false }, str := { inCred := 0 } }

/-- The release of the reset grants no credit of its own. -/
theorem coreReset_pulsedReset : ∃ t, exec (.coreReset 0 true) pulsedReset = .next t ∧ t.str.inCred = 0 := ⟨_, rfl, by decide +kernel⟩

/-- Refutes O60: the release of a core reset leaves the credits of the put buffers as the reset left them, so that a state in reset whose credits
are all pulsed comes out of it with none, not with 4. -/
theorem not_resetsAndTest : ¬ Obligations.ResetsAndTest := by
  intro h
  obtain ⟨-, -, hrelease, -⟩ := h
  obtain ⟨t, ht, -, -, -, -, -, -, -, -, -, -, -, -, hcred, -⟩ := hrelease pulsedReset 0 true rfl rfl rfl
  obtain ⟨u, hu, hnone⟩ := coreReset_pulsedReset
  obtain rfl : t = u := Host.Outcome.next.inj (ht.symm.trans hu)
  rw [hnone] at hcred
  cases hcred

end Sys2Proof.Machine
end
section
/-! PROOFS. Posts out and their responses (13 R331, R333 to R335). -/

namespace Sys2Proof.Machine

theorem listPut_eq_set {α : Type} (l : List α) (i : Nat) (v : α) : listPut l i v = l.set i v := by
  induction l generalizing i with
  | nil => rfl
  | cons x l ih =>
    cases i with
    | zero => rfl
    | succ i => rw [listPut, ih, List.set_cons_succ]

/-! What is stored is read back. -/

theorem Stored.memBytes {s t : State} {a : Nat} {bs : List Byte} (h : Stored s t a bs) : memBytes t.mem.bytes a bs.length = bs := by
  refine List.ext_getElem (by simp [Machine.memBytes]) fun i hi hj => ?_
  simp only [Machine.memBytes, List.getElem_map, List.getElem_range]
  rw [h (a + i), if_pos ⟨Nat.le_add_right .., Nat.add_lt_add_left hj a⟩, Nat.add_sub_cancel_left,
    List.getD_eq_getElem?_getD, List.getElem?_eq_getElem hj, Option.getD_some]

theorem Stored.mNat {s t : State} {a n w : Nat} {v : BitVec w} (h : Stored s t a (leBytes n v)) : mNat t a n = v.toNat % 2 ^ (8 * n) := by
  have hb := h.memBytes
  rw [leBytes_length] at hb
  rw [Machine.mNat, memNat, hb, leNat_leBytes]

/-! Words of a status word (13 R330). -/

theorem mbHead_eq (w : Nat) : mbHead w = w % 256 := rfl
theorem mbTail_eq (w : Nat) : mbTail w = w / 256 % 256 := Nat.shiftRight_eq_div_pow w 8 ▸ rfl
theorem mbOpen_eq (w : Nat) : mbOpen w = decide (w / 65536 % 2 = 1) := Nat.testBit_eq_decide_div_mod_eq ..
theorem dropped_eq (w : Nat) : bitsOf w 63 32 = w / 4294967296 % 4294967296 := Nat.shiftRight_eq_div_pow w 32 ▸ rfl

theorem statusOf_lt (s : State) (q : Nat) : statusOf s q < 2 ^ 64 := by
  have h := leNat_lt (memBytes s.mem.bytes (statusAddr s q) 8)
  rwa [memBytes, List.length_map, List.length_range] at h

theorem mbEmpty_iff (w : Nat) : mbCount w = 0 ↔ mbHead w = mbTail w := by
  rw [mbCount, mbHead_eq, mbTail_eq]
  omega

/-- What ACK, OPEN and CLOSE make of a status word (13 R334). -/
def wordOp (fn w : Nat) : Nat :=
  if fn = 1 then w / 256 * 256 + (mbHead w + 1) % 256 else if fn = 2 then (if mbOpen w then w else w + 65536) else (if mbOpen w then w - 65536 else w)

theorem wordOp_spec {fn w : Nat} (hw : w < 2 ^ 64) : wordOp fn w < 2 ^ 64 ∧ mbTail (wordOp fn w) = mbTail w ∧
    bitsOf (wordOp fn w) 63 32 = bitsOf w 63 32 ∧ mbHead (wordOp fn w) = (if fn = 1 then (mbHead w + 1) % 256 else mbHead w) ∧
    mbOpen (wordOp fn w) = (if fn = 1 then mbOpen w else if fn = 2 then true else false) := by
  unfold wordOp
  simp only [mbHead_eq, mbTail_eq, mbOpen_eq, dropped_eq, decide_eq_true_eq]
  by_cases h1 : fn = 1
  · simp only [if_pos h1]
    refine ⟨by omega, by omega, by omega, by omega, decide_eq_decide.mpr (by omega)⟩
  · by_cases h2 : fn = 2
    · simp only [if_neg h1, if_pos h2]
      split
      next ho => exact ⟨hw, rfl, rfl, rfl, decide_eq_true ho⟩
      next ho => exact ⟨by omega, by omega, by omega, by omega, decide_eq_true (by omega)⟩
    · simp only [if_neg h1, if_neg h2]
      split
      next ho => exact ⟨by omega, by omega, by omega, by omega, decide_eq_false (by omega)⟩
      next ho => exact ⟨hw, rfl, rfl, rfl, decide_eq_false ho⟩

/-! Header beats (17 Table 4). -/

theorem postHeader_fields {kind target sender queue code : Nat} (hk : kind < 16) (ht : target < 2 ^ 20) (hs : sender < 2 ^ 20) (hq : queue < 8) (hc : code < 4)
    (ext : Bool) : ((postHeader kind target sender queue ext code).extractLsb' 0 4).toNat = kind ∧
      ((postHeader kind target sender queue ext code).extractLsb' 4 20).toNat = target ∧
      ((postHeader kind target sender queue ext code).extractLsb' 24 20).toNat = sender ∧
      ((postHeader kind target sender queue ext code).extractLsb' 44 3).toNat = queue ∧
      (postHeader kind target sender queue ext code).getLsbD 47 = ext ∧
      ((postHeader kind target sender queue ext code).extractLsb' 48 2).toNat = code := by
  unfold postHeader
  simp only [BitVec.extractLsb'_toNat, BitVec.toNat_ofNat, Nat.shiftRight_eq_div_pow, BitVec.getLsbD, Nat.testBit_eq_decide_div_mod_eq]
  cases ext
  · simp only [Bool.false_eq_true, if_false]
    exact ⟨by omega, by omega, by omega, by omega, decide_eq_false (by omega), by omega⟩
  · simp only [if_true]
    exact ⟨by omega, by omega, by omega, by omega, decide_eq_true (by omega), by omega⟩

/-! SEND. -/

/-- The message of a SEND that is held. -/
def heldMsg (t : State) (ent : QEntry) : PstMsg :=
  { id := t.opId, target := ent.a.setWidth 20, queue := ent.sub.setWidth 3, payload := BitVec.ofNat 512 (mNat t ent.b.toNat 64), st := .held }

/-- The state in which a SEND is in flight with its message. -/
def sendHeld (t : State) (ent : QEntry) : State :=
  let u := touchRead t rqPST ent.b.toNat 64
  (putInfl u ePST ent none false).modPst (fun x => { x with msgs := x.msgs ++ [heldMsg u ent] })

theorem pstSend_goes {s : State} {ent : QEntry} (h : Head s ePST 0 ent) (hn : s.pst.msgs.length < 4) (hw : memWaits s ent.b.toNat 64 = false)
    (hsub : ent.sub.toNat < 8) (hfs : ent.fs = 0) (ha : ent.a.toNat < 2 ^ 20) (hd : dataAt s ent.b.toNat 64 64 = true) :
    exec .pstSend s = .next (settled (sendHeld (left s ePST ent) ent) ePST) := by
  have hd' : dataAt (left s ePST ent) ent.b.toNat 64 64 = true := by
    rw [dataAt, permits_congr (s := s) (left_man ..)]
    exact hd
  have hresv : pstResv ent = false := by simp [pstResv, hsub, hfs]
  have hspan : spansWait s (spanIf (dataAt s ent.b.toNat 64 64) ent.b.toNat 64) = false := by
    rw [hd]
    exact (spansWait_singleton ..).trans hw
  rw [show exec .pstSend s = execPstSend s from rfl, execPstSend, dispatchMem_goes h (decide_eq_true hn) hspan]
  dsimp only
  rw [hresv, hd', decide_eq_false (Nat.not_le.mpr ha)]
  rfl

/-! Messages that leave. -/

theorem sendMsg_spec (s : State) (n : Nat) (m : PstMsg) : (sendMsg s n m).pst.cred = s.pst.cred - 1 ∧
    (sendMsg s n m).pst.msgs = s.pst.msgs.set n { m with st := .sent } ∧
    (∃ o, (sendMsg s n m).pst.out = some o ∧ o.payload = some m.payload ∧ o.header.extractLsb' 0 4 = 1 ∧ o.header.extractLsb' 4 20 = m.target ∧
      o.header.extractLsb' 24 20 = s.core.tileId ∧ o.header.extractLsb' 44 3 = m.queue ∧ o.header.getLsbD 47 = false) ∧
    SameBytes s (sendMsg s n m) ∧ (sendMsg s n m).pst.resends = s.pst.resends := by
  obtain ⟨hk, ht, hs, hq, hx, -⟩ := postHeader_fields (kind := 1) (code := 0) (by decide) m.target.isLt s.core.tileId.isLt m.queue.isLt (by decide) false
  refine ⟨rfl, listPut_eq_set .., ⟨_, rfl, rfl, BitVec.eq_of_toNat_eq hk, BitVec.eq_of_toNat_eq ht, BitVec.eq_of_toNat_eq hs, BitVec.eq_of_toNat_eq hq, hx⟩,
    fun _ => rfl, rfl⟩

/-! Responses. -/

theorem postDone_infl (s : State) (m : PstMsg) (code : Dword) : ∀ x ∈ (qOf (postDone s m code) ePST).infl, x.id = m.id → x.done = true ∧ x.wb = some code := by
  intro x hx hid
  obtain ⟨y, hy, rfl⟩ := mem_modInfl hx
  obtain ⟨z, -, rfl⟩ := mem_modInfl hy
  by_cases hz : z.id = m.id
  · simp [hz]
  · simp [hz] at hid

theorem markDone_frame (s : State) (e id : Nat) : markDone s e id = { s with q := (markDone s e id).q } := rfl

theorem postDone_frame (s : State) (m : PstMsg) (code : Dword) : postDone s m code = { s with
    q := (postDone s m code).q, pst := { s.pst with msgs := s.pst.msgs.filter (fun y => decide (y.id ≠ m.id)) } } := rfl

/-- A response's state before its code acts. -/
def responded (s : State) : State := spend { s with free := s.free + 1 } 7 1

theorem postResponse_goes {s t : State} {h : Dword} {m : PstMsg} {c : Nat} (hon : unitsOn s = true) (hk : h.extractLsb' 0 4 = 2)
    (hm : answered s h = some m) (hc : phCode h = c)
    (ht : (match c with
       | 0 => (postDone (responded s) m 0).modPst (fun x => { x with sent := x.sent + 1 })
       | 1 => (responded s).modPst (fun x => { x with msgs := x.msgs.map (fun y => if y.id = m.id then { y with st := .retry } else y) })
       | 2 => (postDone (responded s) m 1).modPst (fun x => { x with closed := x.closed + 1 })
       | _ => s) = t) : exec (.postResponse h) s = .next t := by
  have hkind : phKind h = 2 := by
    rw [phKind, bitsOf_toNat]
    exact congrArg BitVec.toNat hk
  rw [show exec (.postResponse h) s = execPostResponse h s from rfl, execPostResponse, hm]
  dsimp only
  rw [hc, hon, hkind, ← ht]
  obtain _ | _ | _ | c := c <;> rfl

theorem postResponse_acts {s : State} {h : Dword} {m : PstMsg} (hon : unitsOn s = true) (hk : h.extractLsb' 0 4 = 2) (hm : answered s h = some m) :
    ∃ t, exec (.postResponse h) s = .next t ∧ SameBytes s t ∧
      (h.extractLsb' 48 2 = 0 → t.pst.msgs = s.pst.msgs.filter (fun y => decide (y.id ≠ m.id)) ∧ t.pst.sent = s.pst.sent + 1 ∧
        (∀ x ∈ (qOf t ePST).infl, x.id = m.id → x.done = true ∧ x.wb = some 0)) ∧
      (h.extractLsb' 48 2 = 2 → t.pst.msgs = s.pst.msgs.filter (fun y => decide (y.id ≠ m.id)) ∧ t.pst.closed = s.pst.closed + 1 ∧
        (∀ x ∈ (qOf t ePST).infl, x.id = m.id → x.done = true ∧ x.wb = some 1)) ∧
      (h.extractLsb' 48 2 = 1 → t.pst.msgs = s.pst.msgs.map (fun y => if y.id = m.id then { y with st := .retry } else y) ∧
        t.pst.sent = s.pst.sent ∧ t.q = s.q) := by
  have hcode : phCode h = (h.extractLsb' 48 2).toNat := bitsOf_toNat ..
  generalize h.extractLsb' 48 2 = c at hcode
  have hcases : ∀ c : BitVec 2, c = 0 ∨ c = 1 ∨ c = 2 ∨ c = 3 := by decide
  rcases hcases c with rfl | rfl | rfl | rfl
  · exact ⟨_, postResponse_goes hon hk hm hcode rfl, fun _ => rfl, fun _ => ⟨rfl, rfl, postDone_infl (responded s) m 0⟩, (nomatch ·), (nomatch ·)⟩
  · exact ⟨_, postResponse_goes hon hk hm hcode rfl, fun _ => rfl, (nomatch ·), (nomatch ·), fun _ => ⟨rfl, rfl, rfl⟩⟩
  · exact ⟨_, postResponse_goes hon hk hm hcode rfl, fun _ => rfl, (nomatch ·), fun _ => ⟨rfl, rfl, postDone_infl (responded s) m 1⟩, (nomatch ·)⟩
  · exact ⟨_, postResponse_goes hon hk hm hcode rfl, fun _ => rfl, (nomatch ·), (nomatch ·), (nomatch ·)⟩

/-! ACK, OPEN and CLOSE. -/

theorem statusAddr_congr {s t : State} (hm : t.man = s.man) (q : Nat) : statusAddr t q = statusAddr s q := by
  rw [statusAddr, partBase, cfg_congr hm]
  rfl

theorem statusOf_congr {s t : State} (hm : t.man = s.man) (hb : t.mem.bytes = s.mem.bytes) (q : Nat) : statusOf t q = statusOf s q := by
  rw [statusOf, statusAddr_congr hm, mNat, hb]
  rfl

theorem mboxOn_congr {s t : State} (hm : t.man = s.man) : mboxOn t = mboxOn s := by
  rw [mboxOn, partSize, cfg_congr hm]
  rfl

/-- The state in which a status word is read for an operation. -/
def wordRead (s : State) (ent : QEntry) : State := touchRead (left s ePST ent) rqPST (statusAddr s ent.sub.toNat) 8

section Word
variable {s : State} {ent : QEntry} {fn : Nat} (h : Head s ePST fn ent) (hinit : s.pst.mbinit = false) (hsub : ent.sub.toNat < 8) (hfs : ent.fs = 0)
  (hzero : ent.d = 0 ∧ ent.a = 0 ∧ ent.b = 0) (hon : partSize s pMBOX ≠ 0) (hw : memWaits s (statusAddr s ent.sub.toNat) 8 = false)

theorem wordRead_kept : (wordRead s ent).man = s.man ∧ (wordRead s ent).mem.bytes = s.mem.bytes := by
  have hr := touchRead_reads (left s ePST ent) rqPST (statusAddr s ent.sub.toNat) 8
  exact ⟨hr.man.trans (left_man ..), hr.bytes.trans (congrArg Mem.bytes (left_mem ..))⟩

include h hinit hsub hfs hzero hon hw in
theorem pstWord_goes (empty : Nat → Bool) (f : Nat → Nat) (he : empty (statusOf s ent.sub.toNat) = false) :
    pstWord s fn empty f = .next (settled (putStatus (putInfl (wordRead s ent) ePST ent none true) ent.sub.toNat (f (statusOf s ent.sub.toNat))) ePST) := by
  have hq : ent.sub.toNat % 8 = ent.sub.toNat := Nat.mod_eq_of_lt hsub
  have hmb : mboxOn s = true := decide_eq_true hon
  have hresv : pstResv ent = false := by simp [pstResv, hsub, hfs]
  obtain ⟨hd, ha, hb⟩ := hzero
  obtain ⟨hman, hbytes⟩ := wordRead_kept (s := s) (ent := ent)
  have hspan : spansWait s (spanIf (mboxOn s) (statusAddr s (ent.sub.toNat % 8)) 8) = false := by
    rw [hmb, hq]
    exact (spansWait_singleton ..).trans hw
  have hread : (if mboxOn (left s ePST ent) then touchRead (left s ePST ent) rqPST (statusAddr (left s ePST ent) (ent.sub.toNat % 8)) 8 else left s ePST ent) =
      wordRead s ent := by
    rw [mboxOn_congr (s := s) (left_man ..), if_pos hmb, statusAddr_congr (s := s) (left_man ..), hq]
    rfl
  rw [pstWord, dispatchMem_goes h (by rw [hinit]; rfl) hspan]
  dsimp only
  rw [hread, hq, mboxOn_congr hman, statusOf_congr hman hbytes, hmb, he, hresv, hd, ha, hb]
  rfl

/-- The status word takes what the operation makes of it, and no other byte of memory changes. -/
theorem putWord_spec (hd : NoDouble s) (htop : statusAddr s ent.sub.toNat + 8 ≤ memTop) {w : Nat} (hlt : w < 2 ^ 64) :
    Stored s (putStatus (putInfl (wordRead s ent) ePST ent none true) ent.sub.toNat w) (statusAddr s ent.sub.toNat) (leBytes 8 (BitVec.ofNat 64 w)) ∧
      statusOf (putStatus (putInfl (wordRead s ent) ePST ent none true) ent.sub.toNat w) ent.sub.toNat = w := by
  obtain ⟨hman, hbytes⟩ := wordRead_kept (s := s) (ent := ent)
  have hdr : NoDouble (wordRead s ent) := fun p => touchRead_noDouble (s := left s ePST ent) (hd.of_ecc (by rw [left_mem])) _ _ _ p
  have haddr : statusAddr (putInfl (wordRead s ent) ePST ent none true) ent.sub.toNat = statusAddr s ent.sub.toNat := statusAddr_congr hman _
  have hst : Stored s (putStatus (putInfl (wordRead s ent) ePST ent none true) ent.sub.toNat w) (statusAddr s ent.sub.toNat)
      (leBytes 8 (BitVec.ofNat 64 w)) := by
    intro x
    rw [putStatus, haddr, memWr_stored rqPST (by rwa [leBytes_length]) (NoDouble.hasDouble (s := putInfl (wordRead s ent) ePST ent none true) hdr _ _) x]
    rw [show (putInfl (wordRead s ent) ePST ent none true).mem = (wordRead s ent).mem from rfl, hbytes]
  refine ⟨hst, ?_⟩
  have hman' : (putStatus (putInfl (wordRead s ent) ePST ent none true) ent.sub.toNat w).man = s.man := by
    rw [putStatus, memWr_frame]
    exact hman
  rw [statusOf, statusAddr_congr hman', hst.mNat, BitVec.toNat_ofNat, Nat.mod_mod]
  exact Nat.mod_eq_of_lt hlt

end Word

/-- The three operations of a status word: what they refuse, and what they make of it. -/
theorem wordInstr (s : State) {i : Instr} {fn w : Nat} (hi : (i, fn) ∈ [(Instr.pstAck, 1), (.pstOpen, 2), (.pstClose, 3)])
    (he : fn = 1 → mbHead w ≠ mbTail w) : ∃ empty f, exec i s = pstWord s fn empty f ∧ empty w = false ∧ f w = wordOp fn w := by
  simp only [List.mem_cons, Prod.mk.injEq, List.not_mem_nil, or_false] at hi
  rcases hi with ⟨rfl, rfl⟩ | ⟨rfl, rfl⟩ | ⟨rfl, rfl⟩
  · exact ⟨fun w => decide (mbCount w = 0), fun w => w / 256 * 256 + (mbHead w + 1) % 256, rfl,
      decide_eq_false (fun hz => he rfl ((mbEmpty_iff _).mp hz)), rfl⟩
  · exact ⟨fun _ => false, fun w => if mbOpen w then w else w + 65536, rfl, rfl, rfl⟩
  · exact ⟨fun _ => false, fun w => if mbOpen w then w - 65536 else w, rfl, rfl, rfl⟩

/-- Settles O46: messages by the state they are in, responses by their codes, ACK, OPEN and CLOSE by what they make of the status word. -/
theorem postOut : Obligations.PostOut := by
  unfold Obligations.PostOut
  refine ⟨fun s ent h hn hw hsub hfs ha hd => ?_, fun s n m hon hc hm => ⟨fun hst hp => ?_, fun hst => ?_⟩, fun s h m => postResponse_acts,
    fun s ent i fn hi h hinit hd hsub hfs hd0 ha0 hb0 => ?_⟩
  · have hr := touchRead_reads (left s ePST ent) rqPST ent.b.toNat 64
    have hbytes : (touchRead (left s ePST ent) rqPST ent.b.toNat 64).mem.bytes = s.mem.bytes := hr.bytes.trans (congrArg Mem.bytes (left_mem ..))
    have hop : (touchRead (left s ePST ent) rqPST ent.b.toNat 64).opId = s.opId := by rw [hr.access]; exact left_opId ..
    have hpst : (touchRead (left s ePST ent) rqPST ent.b.toNat 64).pst = s.pst := by rw [hr.access]; exact left_pst ..
    have hmsgs : (sendHeld (left s ePST ent) ent).pst.msgs = s.pst.msgs ++ [heldMsg (touchRead (left s ePST ent) rqPST ent.b.toNat 64) ent] :=
      congrArg (fun x : Pst => x.msgs ++ [heldMsg (touchRead (left s ePST ent) rqPST ent.b.toNat 64) ent]) hpst
    refine ⟨_, pstSend_goes h hn hw hsub hfs ha hd, hmsgs.trans ?_, fun a => congrArg (memByte · a) hbytes⟩
    rw [heldMsg, hop, mNat, hbytes, BitVec.setWidth_eq_extractLsb' (by decide), BitVec.setWidth_eq_extractLsb' (by decide)]
  · obtain ⟨hcred, hmsgs, hout, hsame, hre⟩ := sendMsg_spec s n.toNat m
    refine ⟨progress (sendMsg s n.toNat m), ?_, ⟨hcred, hmsgs, hout, hsame⟩, hre⟩
    rw [show exec (.postTransmit n) s = execPostTransmit n s from rfl, execPostTransmit, hm]
    exact whenOn_of (by rw [hon, hst, decide_eq_true hc, hp]; rfl) s _
  · obtain ⟨hcred, hmsgs, hout, hsame, hre⟩ := sendMsg_spec s n.toNat m
    refine ⟨(sendMsg s n.toNat m).modPst (fun x => { x with resends := x.resends + 1 }), ?_, ⟨hcred, hmsgs, hout, hsame⟩, congrArg (· + 1) hre⟩
    rw [show exec (.postResend n) s = execPostResend n s from rfl, execPostResend, hm]
    exact whenOn_of (by rw [hon, hst, decide_eq_true hc]; rfl) s _
  · intro q a w hon htop hw he
    obtain ⟨empty, f, hexec, hempty, hf⟩ := wordInstr s hi he
    have hgo := pstWord_goes h hinit hsub hfs ⟨hd0, ha0, hb0⟩ hon hw empty f hempty
    rw [← hexec, hf] at hgo
    obtain ⟨hlt, htail, hdrop, hhead, hopen⟩ := wordOp_spec (fn := fn) (statusOf_lt s ent.sub.toNat)
    obtain ⟨hst, hstatus⟩ := putWord_spec (ent := ent) hd htop hlt
    refine ⟨_, hgo, fun x hx => (hst x).trans (if_neg ?_), ?_⟩
    · have hx' : x < statusAddr s ent.sub.toNat ∨ statusAddr s ent.sub.toNat + 8 ≤ x := hx
      rw [leBytes_length]
      omega
    · dsimp only
      rw [hstatus]
      exact ⟨htail, hdrop, hhead, hopen⟩

end Sys2Proof.Machine
end
section
/-! PROOFS. Posts in (13 R332; 15 R368; 17 R412, R413). -/

namespace Sys2Proof.Machine

/-! Bytes and words of memory that agree. -/

theorem memBytes_congr {m m' : List Host.Cell} {a n : Nat} (h : ∀ x, a ≤ x → x < a + n → memByte m x = memByte m' x) : memBytes m a n = memBytes m' a n := by
  refine List.map_congr_left fun i hi => h _ (Nat.le_add_right ..) ?_
  have := List.mem_range.mp hi
  omega

theorem memWr_noDouble {s : State} (h : NoDouble s) (req a : Nat) (bs : List Byte) : NoDouble (memWr s req a bs) := by
  unfold memWr
  split
  · exact h
  · exact (eccWr_noDouble (s := spend s 4 _) (h.of_ecc rfl) _ _ _).of_ecc (serve_ecc ..)

theorem memWr_man (s : State) (req a : Nat) (bs : List Byte) : (memWr s req a bs).man = s.man := by rw [memWr_frame]

/-! The fields of a header. -/

theorem phQueue_eq (h : Dword) : phQueue h = (h.extractLsb' 44 3).toNat := bitsOf_toNat ..
theorem phSender_eq (h : Dword) : phSender h = (h.extractLsb' 24 20).toNat := bitsOf_toNat ..

theorem extRefused_eq (s : State) (h : Dword) : extRefused s h = (h.getLsbD 47 && decide (s.sec.state ≠ 0) && decide (h.extractLsb' 44 3 ≠ 7)) := by
  have h7 : phQueue h ≠ 7 ↔ h.extractLsb' 44 3 ≠ 7 := by
    rw [phQueue_eq]
    exact not_congr (BitVec.toNat_inj (x := h.extractLsb' 44 3) (y := 7))
  simp only [extRefused, phExt, h7]

/-- The response leaves, and the message its buffer. -/
theorem answered_fields (s : State) (h : Dword) {code : Nat} (hc : code < 4) :
    ∃ o, (freeMsg (answer s h code)).pst.out = some o ∧ o.payload = none ∧ o.header.extractLsb' 0 4 = 2 ∧
      o.header.extractLsb' 4 20 = h.extractLsb' 24 20 ∧ o.header.extractLsb' 44 3 = h.extractLsb' 44 3 ∧
      o.header.extractLsb' 48 2 = BitVec.ofNat 2 code := by
  obtain ⟨hk, ht, -, hq, -, hcode⟩ := postHeader_fields (kind := 2) (by decide) (h.extractLsb' 24 20).isLt (h.extractLsb' 24 20).isLt
    (h.extractLsb' 44 3).isLt hc (phExt h)
  refine ⟨_, rfl, rfl, ?_⟩
  dsimp only
  rw [phQueue_eq, phSender_eq]
  exact ⟨BitVec.eq_of_toNat_eq hk, BitVec.eq_of_toNat_eq ht, BitVec.eq_of_toNat_eq hq,
    BitVec.eq_of_toNat_eq (hcode.trans (by rw [BitVec.toNat_ofNat, Nat.mod_eq_of_lt hc]))⟩

/-! Status words. -/

theorem mbWord_spec {head tail dropped : Nat} (hh : head < 256) (o : Bool) : mbWord head tail o dropped < 2 ^ 64 ∧ mbHead (mbWord head tail o dropped) = head ∧
    mbTail (mbWord head tail o dropped) = tail % 256 ∧ mbOpen (mbWord head tail o dropped) = o ∧
    bitsOf (mbWord head tail o dropped) 63 32 = dropped % 2 ^ 32 := by
  unfold mbWord
  simp only [mbHead_eq, mbTail_eq, mbOpen_eq, dropped_eq]
  cases o
  · simp only [Bool.false_eq_true, if_false]
    exact ⟨by omega, by omega, by omega, decide_eq_false (by omega), by omega⟩
  · simp only [if_true]
    exact ⟨by omega, by omega, by omega, decide_eq_true (by omega), by omega⟩

theorem mbHead_lt (w : Nat) : mbHead w < 256 := Nat.mod_lt _ (by decide)

theorem putStatus_spec {s : State} (hd : NoDouble s) {q w : Nat} (htop : statusAddr s q + 8 ≤ memTop) (hw : w < 2 ^ 64) :
    Stored s (putStatus s q w) (statusAddr s q) (leBytes 8 (BitVec.ofNat 64 w)) ∧ statusOf (putStatus s q w) q = w := by
  have hst : Stored s (putStatus s q w) (statusAddr s q) (leBytes 8 (BitVec.ofNat 64 w)) :=
    memWr_stored rqPST (by rwa [leBytes_length]) (hd.hasDouble ..)
  refine ⟨hst, ?_⟩
  rw [statusOf, statusAddr_congr (t := putStatus s q w) (s := s) (memWr_man ..), hst.mNat, BitVec.toNat_ofNat, Nat.mod_mod]
  exact Nat.mod_eq_of_lt hw

/-! The message that is filed. -/

/-- The state in which a message and its sender stand in their slot, and the status word counts it. -/
def filed (s : State) (h : Dword) (p : BitVec 512) (slot : Nat) (w : Nat) : State :=
  putStatus (memWr (memWr s rqPST (partBase s pMBOX + 0x400 + 1024 * phQueue h + 64 * slot) (leBytes 64 p)) rqPST
    (partBase s pMBOX + 0x100 + 64 * phQueue h + 4 * slot) (leBytes 4 (BitVec.ofNat 32 (phSender h + if phExt h then 2 ^ 20 else 0)))) (phQueue h) w

/-- The word of a message's sender. -/
theorem senderWord (h : Dword) : phSender h + (if phExt h then 2 ^ 20 else 0) < 2 ^ 32 ∧
    bitsOf (phSender h + if phExt h then 2 ^ 20 else 0) 19 0 = (h.extractLsb' 24 20).toNat ∧
    (phSender h + if phExt h then 2 ^ 20 else 0).testBit 20 = h.getLsbD 47 := by
  have hlt := (h.extractLsb' 24 20).isLt
  rw [phSender_eq, phExt, bitsOf, Nat.shiftRight_zero, Nat.testBit_eq_decide_div_mod_eq]
  cases h.getLsbD 47
  · simp only [Bool.false_eq_true, if_false]
    exact ⟨by omega, by omega, decide_eq_false (by omega)⟩
  · simp only [if_true]
    exact ⟨by omega, by omega, decide_eq_true (by omega)⟩

theorem filed_spec {s : State} (hd : NoDouble s) (h : Dword) (p : BitVec 512) {slot w : Nat} (hslot : slot < 16) (hw : w < 2 ^ 64)
    (htop : partBase s pMBOX + 0x2400 ≤ memTop) :
    memBytes (filed s h p slot w).mem.bytes (partBase s pMBOX + 0x400 + 1024 * phQueue h + 64 * slot) 64 = leBytes 64 p ∧
      memNat (filed s h p slot w).mem.bytes (partBase s pMBOX + 0x100 + 64 * phQueue h + 4 * slot) 4 = phSender h + (if phExt h then 2 ^ 20 else 0) ∧
      statusOf (filed s h p slot w) (phQueue h) = w ∧
      (∀ x, x < partBase s pMBOX ∨ partBase s pMBOX + 0x2400 ≤ x → memByte (filed s h p slot w).mem.bytes x = memByte s.mem.bytes x) := by
  have hq : phQueue h < 8 := by rw [phQueue_eq]; exact (h.extractLsb' 44 3).isLt
  unfold filed
  generalize hb : partBase s pMBOX = b at htop
  obtain ⟨hsw, -, -⟩ := senderWord h
  generalize hu : memWr s rqPST (b + 0x400 + 1024 * phQueue h + 64 * slot) (leBytes 64 p) = u
  have h1 : Stored s u (b + 0x400 + 1024 * phQueue h + 64 * slot) (leBytes 64 p) := by
    rw [← hu]
    exact memWr_stored rqPST (by rw [leBytes_length]; omega) (hd.hasDouble ..)
  have hdu : NoDouble u := by rw [← hu]; exact memWr_noDouble hd _ _ _
  have hmu : u.man = s.man := by rw [← hu]; exact memWr_man ..
  generalize hv : memWr u rqPST (b + 0x100 + 64 * phQueue h + 4 * slot) (leBytes 4 (BitVec.ofNat 32 (phSender h + if phExt h then 2 ^ 20 else 0))) = v
  have h2 : Stored u v (b + 0x100 + 64 * phQueue h + 4 * slot) (leBytes 4 (BitVec.ofNat 32 (phSender h + if phExt h then 2 ^ 20 else 0))) := by
    rw [← hv]
    exact memWr_stored rqPST (by rw [leBytes_length]; omega) (hdu.hasDouble ..)
  have hdv : NoDouble v := by rw [← hv]; exact memWr_noDouble hdu _ _ _
  have hmv : v.man = s.man := by rw [← hv]; exact (memWr_man ..).trans hmu
  have haddr : statusAddr v (phQueue h) = b + 8 * phQueue h := by rw [statusAddr_congr hmv, statusAddr, hb]
  obtain ⟨h3, hstatus⟩ := putStatus_spec hdv (q := phQueue h) (by rw [haddr]; omega) hw
  rw [haddr] at h3
  have hout (x : Nat) (hx : x < b + 8 * phQueue h ∨ b + 8 * phQueue h + 8 ≤ x) :
      memByte (putStatus v (phQueue h) w).mem.bytes x = memByte v.mem.bytes x := by
    rw [h3 x, leBytes_length, if_neg (by omega)]
  refine ⟨?_, ?_, hstatus, fun x hx => ?_⟩
  · have hkeep : memBytes (putStatus v (phQueue h) w).mem.bytes (b + 0x400 + 1024 * phQueue h + 64 * slot) 64 =
        memBytes u.mem.bytes (b + 0x400 + 1024 * phQueue h + 64 * slot) 64 :=
      memBytes_congr fun x hlo hhi => by rw [hout x (by omega), h2 x, leBytes_length, if_neg (by omega)]
    have hstored := h1.memBytes
    rw [leBytes_length] at hstored
    exact hkeep.trans hstored
  · have hkeep : memBytes (putStatus v (phQueue h) w).mem.bytes (b + 0x100 + 64 * phQueue h + 4 * slot) 4 =
        memBytes v.mem.bytes (b + 0x100 + 64 * phQueue h + 4 * slot) 4 :=
      memBytes_congr fun x hlo hhi => hout x (by omega)
    have hstored := h2.mNat
    rw [mNat, BitVec.toNat_ofNat, Nat.mod_mod, Nat.mod_eq_of_lt hsw] at hstored
    rw [memNat, hkeep]
    exact hstored
  · rw [hout x (by omega), h2 x, leBytes_length, if_neg (by omega), h1 x, leBytes_length, if_neg (by omega)]

/-! The message that arrives. -/

/-- The state in which an arriving message has had its status word read. -/
def arrived (s : State) (h : Dword) : State := touchRead (spend s 7 5) rqPST (statusAddr s (phQueue h)) 8

theorem arrived_kept (s : State) (h : Dword) : (arrived s h).man = s.man ∧ (arrived s h).mem.bytes = s.mem.bytes ∧ (arrived s h).sec = s.sec ∧
    (arrived s h).pst = s.pst := by
  have hr := touchRead_reads (spend s 7 5) rqPST (statusAddr s (phQueue h)) 8
  refine ⟨hr.man, hr.bytes, ?_, ?_⟩
  · rw [arrived, hr.access]; rfl
  · rw [arrived, hr.access]; rfl

theorem inboundMessage_goes {s : State} {h : Dword} (p : BitVec 512) (hb : busOn s = true) (hf : s.flt.fatal = false) (hk : h.extractLsb' 0 4 = 1)
    (hwait : s.pst.waiting = []) (hinit : s.pst.mbinit = false) (hon : partSize s pMBOX ≠ 0) (hw : msgWaits s h = false) :
    exec (.inboundMessage h p) s = .next (freeMsg (fileMsg (arrived s h) h p)) := by
  have hkind : phKind h = 1 := by
    rw [phKind, bitsOf_toNat]
    exact congrArg BitVec.toNat hk
  have hmb : mboxOn (spend s 7 5) = true := decide_eq_true hon
  have hgo : exec (.inboundMessage h p) s = .next (takeMsg (spend s 7 5) h p) :=
    (whenOn_of (by rw [hb, hkind, hwait]; rfl) s _ : exec (.inboundMessage h p) s = _).trans (congrArg Host.Outcome.next (if_neg (Bool.eq_false_iff.mp hw)))
  rw [hgo, takeMsg, hmb, show (spend s 7 5).flt.fatal = false from hf, show (spend s 7 5).pst.mbinit = false from hinit]
  rfl

section File
variable {s : State} {h : Dword} {p : BitVec 512}

theorem fileMsg_closed (ho : mbOpen (statusOf s (phQueue h)) = false) : fileMsg s h p = answer (putStatus s (phQueue h)
    (mbWord (mbHead (statusOf s (phQueue h))) (mbTail (statusOf s (phQueue h))) false (bitsOf (statusOf s (phQueue h)) 63 32 + 1))) h 2 := by
  unfold fileMsg
  dsimp only
  rw [if_pos (by rw [ho]; rfl)]

theorem fileMsg_refused (ho : mbOpen (statusOf s (phQueue h)) = true) (hx : extRefused s h = true) : fileMsg s h p = answer s h 2 := by
  unfold fileMsg
  dsimp only
  rw [if_neg (by rw [ho]; decide), if_pos hx]

theorem fileMsg_full (ho : mbOpen (statusOf s (phQueue h)) = true) (hx : extRefused s h = false) (hc : mbCount (statusOf s (phQueue h)) = 16) :
    fileMsg s h p = answer s h 1 := by
  unfold fileMsg
  dsimp only
  rw [if_neg (by rw [ho]; decide), if_neg (Bool.eq_false_iff.mp hx), if_pos hc]

theorem fileMsg_accept (ho : mbOpen (statusOf s (phQueue h)) = true) (hx : extRefused s h = false) (hc : mbCount (statusOf s (phQueue h)) ≠ 16) :
    fileMsg s h p = answer (filed s h p (mbTail (statusOf s (phQueue h)) % 16)
      (mbWord (mbHead (statusOf s (phQueue h))) (mbTail (statusOf s (phQueue h)) + 1) true (bitsOf (statusOf s (phQueue h)) 63 32))) h 0 := by
  unfold fileMsg
  dsimp only
  rw [if_neg (by rw [ho]; decide), if_neg (Bool.eq_false_iff.mp hx), if_neg hc]
  rfl

end File

theorem putStatus_pst (s : State) (q w : Nat) : (putStatus s q w).pst = s.pst := by rw [putStatus, memWr_frame]

theorem filed_pst (s : State) (h : Dword) (p : BitVec 512) (slot w : Nat) : (filed s h p slot w).pst = s.pst := by
  rw [filed, putStatus_pst, memWr_frame, memWr_frame]

/-- The response with this code, from a state in which the message has been acted on. -/
theorem inboundMessage_answers {s v : State} {h : Dword} {p : BitVec 512} {code : Nat}
    (hgo : exec (.inboundMessage h p) s = .next (freeMsg (answer v h code))) (hv : v.pst = s.pst) (hc : code < 4) :
    ∃ t o, exec (.inboundMessage h p) s = .next t ∧ t.pst.out = some o ∧ o.payload = none ∧ o.header.extractLsb' 0 4 = 2 ∧
      o.header.extractLsb' 4 20 = h.extractLsb' 24 20 ∧ o.header.extractLsb' 44 3 = h.extractLsb' 44 3 ∧ t.pst.inCred = s.pst.inCred + 1 ∧
      o.header.extractLsb' 48 2 = BitVec.ofNat 2 code ∧ t.pst.inFull = s.pst.inFull + (if code = 1 then 1 else 0) ∧
      t.pst.inClosed = s.pst.inClosed + (if code = 2 then 1 else 0) ∧ t.pst.recv = s.pst.recv + (if code = 0 then 1 else 0) ∧
      t.mem = v.mem ∧ t.man = v.man := by
  obtain ⟨o, hout, hpay, hkind, hto, hq, hcode⟩ := answered_fields v h hc
  exact ⟨_, o, hgo, hout, hpay, hkind, hto, hq, (congrArg (fun x : Pst => x.inCred + 1) hv :), hcode,
    (congrArg (fun x : Pst => x.inFull + if code = 1 then 1 else 0) hv :), (congrArg (fun x : Pst => x.inClosed + if code = 2 then 1 else 0) hv :),
    (congrArg (fun x : Pst => x.recv + if code = 0 then 1 else 0) hv :), rfl, rfl⟩

/-- Settles O47: an arriving message by the status word of its queue. -/
theorem postIn : Obligations.PostIn := by
  unfold Obligations.PostIn
  intro s h p hb hf hk hwait hd hinit hon htop hw
  obtain ⟨hman, hbytes, hsec, hpst⟩ := arrived_kept s h
  have hda : NoDouble (arrived s h) := fun x => touchRead_noDouble (s := spend s 7 5) (hd.of_ecc rfl) _ _ _ x
  have hq : phQueue h < 8 := by rw [phQueue_eq]; exact (h.extractLsb' 44 3).isLt
  have hbase : partBase (arrived s h) pMBOX = partBase s pMBOX := by rw [partBase, cfg_congr hman]; rfl
  have hstatus : statusOf (arrived s h) (phQueue h) = statusOf s (phQueue h) := statusOf_congr hman hbytes _
  have haddr : statusAddr (arrived s h) (phQueue h) = partBase s pMBOX + 8 * phQueue h := by rw [statusAddr, hbase]
  have hgo := inboundMessage_goes p hb hf hk hwait hinit hon hw
  have hext : extRefused (arrived s h) h = (h.getLsbD 47 && decide (s.sec.state ≠ 0) && decide (h.extractLsb' 44 3 ≠ 7)) := by
    rw [extRefused_eq, hsec]
  rw [← phQueue_eq]
  intro ext q b w slot
  generalize arrived s h = u at *
  have hw' : statusOf u (phQueue h) = w := hstatus
  cases ho : mbOpen w with
  | false =>
    rw [fileMsg_closed (by rw [hw']; exact ho), hw'] at hgo
    obtain ⟨t, o, ht, hout, hpay, hkind, hto, hqo, hcred, hcode, -, hclosed, -, hmem, hman'⟩ :=
      inboundMessage_answers hgo ((putStatus_pst ..).trans hpst) (by decide)
    obtain ⟨hlt, -, -, hopen, hdrop⟩ := mbWord_spec (tail := mbTail w) (dropped := bitsOf w 63 32 + 1) (mbHead_lt w) false
    obtain ⟨hst, hword⟩ := putStatus_spec hda (q := phQueue h) (by rw [haddr]; omega) hlt
    have hword' : statusOf t q = mbWord (mbHead w) (mbTail w) false (bitsOf w 63 32 + 1) := (statusOf_congr hman' (congrArg Mem.bytes hmem) _).trans hword
    refine ⟨t, o, ht, hout, hpay, hkind, hto, hqo, hcred, (nomatch ·), (nomatch ·), (nomatch ·), fun _ => ⟨hcode, hclosed, ?_, ?_, fun x hx => ?_⟩⟩
    · rw [hword']; exact hdrop
    · rw [hword']; exact hopen
    · rw [hmem, hst x, haddr, leBytes_length, hbytes]
      exact if_neg (by omega)
  | true =>
    cases hx : ext with
    | true =>
      rw [fileMsg_refused (by rw [hw']; exact ho) (hext.trans hx)] at hgo
      obtain ⟨t, o, ht, hout, hpay, hkind, hto, hqo, hcred, hcode, -, hclosed, -, hmem, -⟩ := inboundMessage_answers hgo hpst (by decide)
      exact ⟨t, o, ht, hout, hpay, hkind, hto, hqo, hcred, fun _ _ => ⟨hcode, hclosed, fun x => by rw [hmem, hbytes]⟩, fun _ => (nomatch ·),
        fun _ => (nomatch ·), (nomatch ·)⟩
    | false =>
      by_cases hc : mbCount w = 16
      · rw [fileMsg_full (by rw [hw']; exact ho) (hext.trans hx) (by rw [hw']; exact hc)] at hgo
        obtain ⟨t, o, ht, hout, hpay, hkind, hto, hqo, hcred, hcode, hfull, -, -, hmem, -⟩ := inboundMessage_answers hgo hpst (by decide)
        exact ⟨t, o, ht, hout, hpay, hkind, hto, hqo, hcred, fun _ => (nomatch ·), fun _ _ h => absurd hc h,
          fun _ _ _ => ⟨hcode, hfull, fun x => by rw [hmem, hbytes]⟩, (nomatch ·)⟩
      · rw [fileMsg_accept (by rw [hw']; exact ho) (hext.trans hx) (by rw [hw']; exact hc), hw'] at hgo
        obtain ⟨t, o, ht, hout, hpay, hkind, hto, hqo, hcred, hcode, -, -, hrecv, hmem, hman'⟩ :=
          inboundMessage_answers hgo ((filed_pst ..).trans hpst) (by decide)
        obtain ⟨hlt, hhead, htail, hopen, -⟩ := mbWord_spec (tail := mbTail w + 1) (dropped := bitsOf w 63 32) (mbHead_lt w) true
        obtain ⟨hload, hsender, hword, hkeep⟩ := filed_spec hda h p (slot := slot) (Nat.mod_lt _ (by decide)) hlt (by rw [hbase]; exact htop)
        have hword' := (statusOf_congr hman' (congrArg Mem.bytes hmem) (phQueue h)).trans hword
        obtain ⟨-, hs20, hs1⟩ := senderWord h
        rw [hbase, ← hmem] at hload hsender hkeep
        refine ⟨t, o, ht, hout, hpay, hkind, hto, hqo, hcred, fun _ => (nomatch ·), fun _ _ _ => ⟨hcode, hrecv, hload, ?_, ?_, ?_, ?_, ?_, fun x hx => ?_⟩,
          fun _ _ h => absurd h hc, (nomatch ·)⟩
        · exact (congrArg (bitsOf · 19 0) hsender).trans hs20
        · exact (congrArg (Nat.testBit · 20) hsender).trans hs1
        · exact (congrArg mbHead hword').trans hhead
        · exact (congrArg mbTail hword').trans htail
        · exact (congrArg mbOpen hword').trans hopen
        · rw [hkeep x hx, hbytes]

end Sys2Proof.Machine
end
section
/-! PROOFS. Packets out of the stream port (13 R325 to R327; 15 R372, R373). -/

namespace Sys2Proof.Machine

/-! What the progress of a transfer leaves as it is. -/

/-- A transfer that moves on, ends or is dropped touches its job and what waits for it: no other register of the stream port, no byte, no fault. -/
structure JobFrame (s t : State) : Prop where
  str : t.str = { s.str with jobs := t.str.jobs }
  sec : ∃ g, t.sec = { s.sec with rg := g }
  mem : t.mem = s.mem
  flt : t.flt = s.flt

theorem JobFrame.rfl {s : State} : JobFrame s s := ⟨Eq.refl _, ⟨_, Eq.refl _⟩, Eq.refl _, Eq.refl _⟩

theorem JobFrame.trans {s t u : State} (h : JobFrame s t) (k : JobFrame t u) : JobFrame s u := by
  obtain ⟨g, hg⟩ := h.sec
  obtain ⟨g', hg'⟩ := k.sec
  exact ⟨by rw [k.str, h.str], ⟨g', by rw [hg', hg]⟩, k.mem.trans h.mem, k.flt.trans h.flt⟩

/-- A change of other units than those that a `JobFrame` speaks of. -/
theorem JobFrame.of_kept {s t : State} (hstr : t.str = s.str) (hsec : t.sec = s.sec) (hmem : t.mem = s.mem) (hflt : t.flt = s.flt) : JobFrame s t :=
  ⟨by rw [hstr], ⟨_, hsec⟩, hmem, hflt⟩

theorem modJobs_job (s : State) (f : List StrJob → List StrJob) : JobFrame s (s.modStr fun x => { x with jobs := f x.jobs }) :=
  ⟨rfl, ⟨_, rfl⟩, rfl, rfl⟩

theorem modJrnl_job (s : State) (f : Jrnl → Jrnl) : JobFrame s (s.modJrnl f) := .of_kept rfl rfl rfl rfl

theorem settleCopy_job (s : State) : JobFrame s (settleCopy s) := .of_kept rfl rfl rfl rfl

theorem restartRegion_job (s : State) (c : BitVec 2) (g : BitVec 6) : JobFrame s (restartRegion s c g) := by
  unfold restartRegion
  dsimp only
  split
  · exact .rfl
  · exact ⟨rfl, ⟨_, rfl⟩, rfl, rfl⟩

theorem sthClear_job (s : State) : JobFrame s (sthClear s) := by
  unfold sthClear
  dsimp only
  split
  · exact (JobFrame.of_kept rfl rfl rfl rfl : JobFrame s (s.modSth _)).trans (restartRegion_job ..)
  · exact .of_kept rfl rfl rfl rfl

theorem sthSettle_job (s : State) : JobFrame s (sthSettle s) := by
  unfold sthSettle
  split
  · exact sthClear_job s
  · exact .rfl

theorem markDone_job (s : State) (e id : Nat) : JobFrame s (markDone s e id) := .of_kept rfl rfl rfl rfl

theorem endJob_job (s : State) (j : StrJob) : JobFrame s (endJob s j) := by
  unfold endJob
  refine (modJobs_job s fun l => l.filter fun y => decide (y ≠ j)).trans ?_
  generalize s.modStr _ = t
  cases j.user with
  | str => exact markDone_job ..
  | sth =>
    dsimp only
    have hrd : JobFrame t (if j.dead then t.modSth fun h => { h with rd := none } else t) := by
      split
      · exact .of_kept rfl rfl rfl rfl
      · exact .rfl
    generalize (if j.dead then t.modSth fun h => { h with rd := none } else t) = u at hrd
    refine (hrd.trans ?_).trans (sthSettle_job _)
    split
    · exact .rfl
    · exact markDone_job ..
  | fac =>
    dsimp only
    split
    · exact markDone_job ..
    · exact .rfl
  | jrnl => exact (modJrnl_job ..).trans (settleCopy_job _)

theorem putJob_job (s : State) (old new : StrJob) : JobFrame s (putJob s old new) := by
  unfold putJob
  refine (modJobs_job s fun l => l.map fun y => if y = old then new else y).trans ?_
  dsimp only
  split
  · exact endJob_job ..
  · exact .rfl

/-! The fields of a packet's first header word. -/

theorem strH0_fields {kind status : Nat} (hk : kind < 16) (hs : status < 4) (tag : BitVec 6) (att last : Bool) (c : BitVec 2) (g : BitVec 6) (e : BitVec 24) :
    (strH0 kind tag status att last c g e).extractLsb' 0 4 = BitVec.ofNat 4 kind ∧
      (strH0 kind tag status att last c g e).extractLsb' 4 6 = tag ∧
      (strH0 kind tag status att last c g e).extractLsb' 10 2 = BitVec.ofNat 2 status ∧
      (strH0 kind tag status att last c g e).extractLsb' 22 24 = e := by
  have ht := tag.isLt
  have hc := c.isLt
  have hg := g.isLt
  have he := e.isLt
  have hatt : (if att then 4096 else 0) = 4096 * att.toNat := by cases att <;> rfl
  have hlast : (if last then 8192 else 0) = 8192 * last.toNat := by cases last <;> rfl
  have ha := att.toNat_lt
  have hl := last.toNat_lt
  refine ⟨?_, ?_, ?_, ?_⟩ <;>
  · apply BitVec.eq_of_toNat_eq
    rw [BitVec.extractLsb'_toNat, strH0, hatt, hlast, BitVec.toNat_ofNat, Nat.shiftRight_eq_div_pow]
    try rw [BitVec.toNat_ofNat]
    omega

/-! Encrypted blocks. -/

theorem gcmCrypt_length (key : BitVec 256) (iv : BitVec 96) (bs : List Byte) : (gcmCrypt key iv bs).length = bs.length := gctr_length _ _ _ le_rfl

/-- What a sealed packet carries opens under the same key, IV and additional data (15 R373). -/
theorem gcmOpen_packet (key : BitVec 256) (iv : BitVec 96) (aad : List Byte) {plain : List Byte} (h : plain.length = 512) :
    gcmOpen key iv aad (blockBytes (blockBits (gcmCrypt key iv plain)))
      (tagBytes (tagBits (gcmTag key iv aad (gcmCrypt key iv plain)))) = some plain := by
  rw [blockBytes_blockBits _ ((gcmCrypt_length ..).trans h), tagBytes_tagBits _ (gcmTag_length ..)]
  exact sealedBlocksOpen key iv aad plain

/-! The packets. -/

theorem sameBytes_of_mem {s t : State} (h : t.mem.bytes = s.mem.bytes) : SameBytes s t := fun _ => by rw [h]

theorem jobPlain_congr {s t : State} (hj : t.jrnl = s.jrnl) (hb : t.mem.bytes = s.mem.bytes) (j : StrJob) : jobPlain t j = jobPlain s j := by
  simp only [jobPlain, copyRecs, hj, hb]

theorem markWritten_sec (s : State) (b : Bool) (c : BitVec 2) (g : BitVec 6) (d : Dword) :
    ∃ r, markWritten s b c g d = { s with sec := { s.sec with rg := r } } := by
  unfold markWritten modRg
  dsimp only
  split <;> exact ⟨_, rfl⟩

/-- A read request leaves with the values of its check (13 R325; 15 R377). -/
theorem issueRead_ok {s : State} {j : StrJob} {c : BitVec 2} {e : BitVec 24} {r : Bool} (h : readCheck s j.stepBound j.ctx j.region j.block = .ok c e r) :
    ∃ o x, (issueRead s j).str.out = some o ∧ o.h0.extractLsb' 0 4 = 1 ∧ o.h0.extractLsb' 4 6 = x.tag ∧ o.h1 = BitVec.ofNat 64 j.ext ∧
      (issueRead s j).str.reads = s.str.reads ++ [x] ∧ x.job = j.id ∧ x.i = j.issued ∧ x.epoch = e ∧ x.retired = r ∧
      (issueRead s j).str.cred = s.str.cred - 1 ∧ SameBytes s (issueRead s j) := by
  unfold issueRead
  rw [h]
  dsimp only
  generalize hu : spend _ 7 2 = u
  have hf := putJob_job u j { j with issued := j.issued + 1 }
  subst hu
  obtain ⟨hkind, htag, -, -⟩ := strH0_fields (kind := 1) (status := 0) (by decide) (by decide) (pickTag s (s.str.reads.map (·.tag))) false false 0 0 0
  refine ⟨_, _, (congrArg Str.out hf.str :), hkind, htag, rfl, (congrArg Str.reads hf.str :), rfl, rfl, rfl, rfl, (congrArg Str.cred hf.str :), ?_⟩
  exact sameBytes_of_mem (congrArg Mem.bytes hf.mem)

/-- A write packet leaves with the values of its check, its block encrypted (13 R325; 15 R372, R373, R376). -/
theorem issueWrite_ok {s : State} {j : StrJob} {c : BitVec 2} {e : BitVec 24} {r : Bool} (h : writeCheck s j.stepBound j.ctx j.region j.block = .ok c e r)
    (hp : (jobPlain s j).length = 512) :
    ∃ o x, (issueWrite s j).str.out = some o ∧ o.h0.extractLsb' 0 4 = (if j.kind = .rput then 3 else 2) ∧ o.h0.extractLsb' 4 6 = x.tag ∧
      o.h0.extractLsb' 22 24 = e ∧ (issueWrite s j).str.writes = s.str.writes ++ [x] ∧ x.job = j.id ∧ (issueWrite s j).str.cred = s.str.cred - 1 ∧
      gcmOpen s.sec.key (streamIv c j.region e j.block) (if j.kind = .rput then rputAad o.h0 o.h1 o.h2 else [])
        (blockBytes o.data) (tagBytes o.tag) = some (jobPlain s j) ∧
      (issueWrite s j).sec.blkOut = s.sec.blkOut + 1 ∧ SameBytes s (issueWrite s j) := by
  unfold issueWrite
  rw [h]
  dsimp only
  obtain ⟨hread, hbytes, -, -⟩ := touchSpans_reads s (jobReq j) (jobSpans s j)
  generalize touchSpans s (jobReq j) (jobSpans s j) = s1 at hread hbytes
  have hsec : s1.sec = s.sec := (congrArg State.sec (show s1 = _ from hread) :)
  have hstr : s1.str = s.str := (congrArg State.str (show s1 = _ from hread) :)
  have hjrnl : s1.jrnl = s.jrnl := (congrArg State.jrnl (show s1 = _ from hread) :)
  rw [jobPlain_congr hjrnl hbytes j, hsec]
  obtain ⟨g, hmark⟩ := markWritten_sec s1 j.stepBound j.ctx j.region j.block
  rw [hmark]
  generalize hu : spend _ 7 32 = u
  have hf := putJob_job u j { j with issued := j.issued + 1 }
  obtain ⟨g', hg⟩ := hf.sec
  subst hu
  obtain ⟨hkind, htag, -, hepoch⟩ := strH0_fields (kind := if decide (j.kind = .rput) = true then 3 else 2) (status := 0) (by split <;> decide) (by decide)
    (pickTag s (s.str.writes.map (·.tag))) j.att.isSome (decide (j.kind = .rput) && decide (j.issued + 1 = j.n)) c j.region e
  refine ⟨_, { tag := _, job := j.id, put := decide (j.kind = .put) }, (congrArg Str.out hf.str :), hkind.trans ?_, htag, hepoch, ?_, rfl, ?_, ?_, ?_, ?_⟩
  · simp only [decide_eq_true_eq]
    split <;> rfl
  · rw [hf.str, ← hstr]; rfl
  · rw [hf.str, ← hstr]; rfl
  · simp only [decide_eq_true_eq]
    exact gcmOpen_packet _ _ _ hp
  · rw [hg, ← hsec]; rfl
  · exact sameBytes_of_mem ((congrArg Mem.bytes hf.mem).trans hbytes)

/-! The obligation. -/

/-- A packet of a transfer leaves when no ACK is owed (13 R326, R327). -/
theorem packetIssue_job {s : State} {j : StrJob} (hbus : busOn s = true) (hfatal : s.flt.fatal = false) (hcred : 0 < s.str.cred) (hkey : s.sec.rekey = none)
    (hacks : s.str.acks = []) (hj : nextJob s = some j) :
    exec .packetIssue s = .next (unstall (if j.kind = .get then issueRead (s.modStr fun x => { x with rr := BitVec.ofNat 2 (userCode j.user + 1) }) j
      else issueWrite (s.modStr fun x => { x with rr := BitVec.ofNat 2 (userCode j.user + 1) }) j)) := by
  rw [show exec .packetIssue s = execPacketIssue s from rfl, execPacketIssue, if_neg (by simp [hbus, hfatal, hkey]; omega), hacks]
  dsimp only
  rw [hj]
  dsimp only
  cases j.kind <;> rfl

/-- Settles O44: what a job's next packet is, from the check of its block, is said for a read and for a write. -/
theorem streamIssues : Obligations.StreamIssues := by
  unfold Obligations.StreamIssues
  refine ⟨fun s a rest hbus hcred hkey hacks => ?_, fun s j c e r hbus hfatal hcred hkey hacks hj => ⟨fun hkind hcheck => ?_, fun hkind hcheck => ?_⟩⟩
  · have hexec : exec .packetIssue s = execPacketIssue s := rfl
    rw [execPacketIssue, if_neg ?_, hacks] at hexec
    · exact ⟨_, _, hexec, rfl, rfl, rfl, rfl, rfl, fun _ => rfl⟩
    · rcases hkey with hkey | hkey <;>
      · simp [hbus, hkey, hacks]
        omega
  · have hexec := packetIssue_job hbus hfatal hcred hkey hacks hj
    rw [if_pos hkind] at hexec
    obtain ⟨o, x, hout⟩ := issueRead_ok (s := s.modStr fun x => { x with rr := BitVec.ofNat 2 (userCode j.user + 1) }) hcheck
    exact ⟨_, o, x, hexec, hout⟩
  · have hexec := packetIssue_job hbus hfatal hcred hkey hacks hj
    intro slots recs plain hlen
    have hplain : jobPlain s j = plain := by
      unfold jobPlain
      split
      next hu => exact (if_pos hu).symm
      next hu => exact (by cases j.data <;> rfl : _ = _).trans (if_neg hu).symm
    refine ⟨?_, ?_⟩
    · unfold StrJob.block blockNo
      cases hk : j.kind <;> rfl
    · rw [if_neg hkind] at hexec
      obtain ⟨o, x, hout⟩ := issueWrite_ok (s := s.modStr fun x => { x with rr := BitVec.ofNat 2 (userCode j.user + 1) }) hcheck
        ((congrArg List.length hplain).trans hlen)
      rw [← hplain]
      exact ⟨_, o, x, hexec, hout⟩

end Sys2Proof.Machine
end
section
/-! PROOFS. Packets into the stream port (13 R328, R329; 12 R299; 15 R382, R383, R385). -/

namespace Sys2Proof.Machine

/-! Transfers that receive. -/

theorem dropCopy_job (s : State) (j : StrJob) : JobFrame s (dropCopy s j) := by
  unfold dropCopy
  refine (modJobs_job s fun l => l.map fun y => if y = j then { y with dead := true } else y).trans ?_
  exact (modJrnl_job ..).trans (settleCopy_job _)

theorem landed_job (s : State) (j : StrJob) : JobFrame s (landed s j) := by
  unfold landed
  split
  · exact .rfl
  · exact putJob_job ..

/-- A transfer of the stream engine ends with its operation's mark, and nothing else. -/
theorem landed_jrnl_str {s : State} {j : StrJob} (h : j.user = .str) : (landed s j).jrnl = s.jrnl := by
  unfold landed
  split
  · rfl
  next y hy =>
    have hy' := List.find?_some hy
    simp only [Bool.and_eq_true, decide_eq_true_eq] at hy'
    obtain ⟨⟨⟨-, huser⟩, -⟩, -⟩ := hy'
    unfold putJob
    dsimp only
    split
    · unfold endJob
      rw [show ({ y with landed := y.landed + 1 } : StrJob).user = .str from huser.trans h]
      rfl
    · rfl

/-! The fields of a packet. -/

theorem h0Kind_eq (h : Dword) : h0Kind h = (h.extractLsb' 0 4).toNat := bitsOf_toNat ..
theorem h0Status_eq (h : Dword) : h0Status h = (h.extractLsb' 10 2).toNat := bitsOf_toNat ..
theorem ofNat_bitsOf {w : Nat} (v : BitVec w) (hi lo : Nat) : BitVec.ofNat (hi + 1 - lo) (bitsOf v.toNat hi lo) = v.extractLsb' lo (hi + 1 - lo) := by
  rw [bitsOf_toNat, BitVec.ofNat_toNat, BitVec.setWidth_eq]

theorem h0Ctx_eq (h : Dword) : h0Ctx h = h.extractLsb' 14 2 := ofNat_bitsOf h 15 14
theorem h0Region_eq (h : Dword) : h0Region h = h.extractLsb' 16 6 := ofNat_bitsOf h 21 16
theorem h0Epoch_eq (h : Dword) : h0Epoch h = h.extractLsb' 22 24 := ofNat_bitsOf h 45 22
theorem rputAddr_eq (h1 : Dword) : rputAddr h1 = 128 * (h1.extractLsb' 20 14).toNat := congrArg (128 * ·) (bitsOf_toNat ..)

theorem h0Kind_of {h : Dword} {k : BitVec 4} (hk : h.extractLsb' 0 4 = k) : h0Kind h = k.toNat := (h0Kind_eq h).trans (congrArg BitVec.toNat hk)

theorem h0Status_zero {h : Dword} : h0Status h = 0 ↔ h.extractLsb' 10 2 = 0 := by
  rw [h0Status_eq]
  exact BitVec.toNat_inj (y := (0 : BitVec 2))

/-! A packet that opens has 512 bytes. -/

theorem gcmOpen_length {key : BitVec 256} {iv : BitVec 96} {aad c tag b : List Byte} (h : gcmOpen key iv aad c tag = some b) : b.length = c.length := by
  unfold gcmOpen at h
  split at h
  · rw [← Option.some.inj h]
    exact gcmCrypt_length ..
  · exact absurd h nofun

theorem blockBytes_length (d : BitVec 4096) : (blockBytes d).length = 512 := leBytes_length ..

/-! Read data. -/

theorem strTakes_iff (s : State) : strTakes s = true ↔ unitsOn s = true ∨ (busOn s = true ∧ s.sec.stop = true) := by
  simp [strTakes]

theorem rdatReceived_takes {s : State} {p : StrPacket} {r : StrRead} (ht : strTakes s = true) (hk : p.h0.extractLsb' 0 4 = 4) (hw : s.str.waiting = [])
    (hr : s.str.reads.find? (fun x => decide (x.tag = p.h0.extractLsb' 4 6)) = some r) (hm : rdatWaits (spend s 7 32) r = false) :
    exec (.rdatReceived p) s = .next (unstall (takeRdat (spend s 7 32) r p)) := by
  have hany : s.str.reads.any (fun x => decide (x.tag = p.h0.extractLsb' 4 6)) = true :=
    List.any_eq_true.mpr ⟨r, List.mem_of_find?_eq_some hr, (List.find?_some hr :)⟩
  rw [show exec (.rdatReceived p) s = execRdatReceived p s from rfl, execRdatReceived, whenOn_of]
  · rw [execRdat, h0Tag_eq, show (spend s 7 32).str = s.str from rfl, hr]
    dsimp only
    rw [if_neg (by rw [hm]; exact Bool.false_ne_true)]
  · rw [h0Tag_eq, h0Kind_of hk, hany, ht, hw]
    rfl

/-- The read whose data has come is over. -/
def readOver (s : State) (r : StrRead) : State := s.modStr fun x => { x with reads := x.reads.filter fun y => decide (y.tag ≠ r.tag) }

theorem tagZeroise_blkIn (s : State) : (tagZeroise s).sec.blkIn = s.sec.blkIn := by
  unfold tagZeroise
  split
  · rfl
  · obtain ⟨-, -, -, -, -, l, c, e, hz⟩ := startZero_frame (streamStop s)
    obtain ⟨-, -, -, -, -, -, hs, -⟩ := streamStop_spec s
    rw [hz, hs]

theorem secErr_blkIn (s : State) (cause region : Nat) (c : BitVec 2) (user : Nat) : (secErr s cause region c user).sec.blkIn = s.sec.blkIn := by
  unfold secErr
  simp only [State.modSec_sec]
  split <;> rfl

theorem secTag_blkIn (s : State) (cause region : Nat) (c : BitVec 2) (user : Nat) : (secTag s cause region c user).sec.blkIn = s.sec.blkIn := by
  unfold secTag tagFailure
  rw [tagZeroise_blkIn, raise_frame]
  exact secErr_blkIn ..

/-- A failing response is recorded, and raises a fault that a context can outlive (13 R329). -/
theorem strResp_spec (s : State) (h0 : Dword) : (strResp s h0).str.resp = true ∧ (strResp s h0).flt.cont = true ∧ (strResp s h0).sec = s.sec ∧
    (strResp s h0).mem = s.mem ∧ (strResp s h0).str.jobs = s.str.jobs ∧ (strResp s h0).str.reads = s.str.reads ∧
    (strResp s h0).str.writes = s.str.writes ∧ (strResp s h0).str.rdBlk = s.str.rdBlk := by
  unfold strResp
  obtain ⟨hcont, -, -⟩ := raise_recorded (s.modStr (fun x => if x.resp then x else { x with
    resp := true, respKind := BitVec.ofNat 4 (h0Kind h0), respStatus := BitVec.ofNat 2 (h0Status h0), respTag := h0Tag h0 })) fcSTRRESP 5 0 0
  refine ⟨?_, hcont, ?_⟩ <;> rw [raise_frame] <;> simp only [State.modStr_str]
  · split <;> simp [*]
  · refine ⟨rfl, rfl, ?_⟩
    split <;> exact ⟨rfl, rfl, rfl, rfl⟩

/-- The block of a stream transfer lands where its job says (13 R328). -/
theorem takeRdat_lands {s : State} {p : StrPacket} {r : StrRead} {j : StrJob} {b : List Byte} (hstop : s.sec.stop = false) (hlost : r.lost = false)
    (hstatus : h0Status p.h0 = 0) (hj : s.str.jobs.find? (fun x => decide (x.id = r.job) && decide (x.kind = .get)) = some j) (huser : j.user = .str)
    (hopen : gcmOpen (keyOf s r.retired) (streamIv r.ctxIv r.region r.epoch r.block) [] (blockBytes p.data) (tagBytes p.tag) = some b) :
    takeRdat s r p = progress (landed (creditSin (memWr ((blkChecked (readOver s r)).modStr fun x => { x with rdBlk := x.rdBlk + 1 }) rqSTR
      (j.addr + 512 * r.i) b) (j.addr + 512 * r.i) j.region.toNat false (j.blk + r.i) b) j) := by
  have hkey (f : Str → Str) : keyOf (blkChecked (s.modStr f)) r.retired = keyOf s r.retired := rfl
  unfold takeRdat
  dsimp only
  rw [if_neg (by simp [hstop, hlost]), if_neg (by simp [hstatus]), hkey, hopen]
  simp only [State.modStr_str, hj]
  unfold landBlock
  rw [huser]
  rfl

/-- What a read leaves whose job is over (13 R329; 15 R385). -/
theorem takeRdat_nowhere {s : State} {p : StrPacket} {r : StrRead} (hj : s.str.jobs.find? (fun x => decide (x.id = r.job) && decide (x.kind = .get)) = none) :
    takeRdat s r p =
      if s.sec.stop || r.lost then readOver s r
      else if h0Status p.h0 ≠ 0 then strResp (readOver s r) p.h0
      else if (gcmOpen (keyOf s r.retired) (streamIv r.ctxIv r.region r.epoch r.block) [] (blockBytes p.data) (tagBytes p.tag)).isSome then
        blkChecked (readOver s r)
      else secTag (blkChecked (readOver s r)) 1 r.region.toNat r.ctx (userCode r.user) := by
  have hkey (f : Str → Str) : keyOf (blkChecked (s.modStr f)) r.retired = keyOf s r.retired := rfl
  unfold takeRdat
  simp only [State.modStr_str, hj, hkey]
  cases gcmOpen (keyOf s r.retired) (streamIv r.ctxIv r.region r.epoch r.block) [] (blockBytes p.data) (tagBytes p.tag) <;> rfl

/-- Read data of a stream transfer: the block is written, and its job counts it. -/
theorem rdatReceived_str {s : State} {p : StrPacket} {r : StrRead} {j : StrJob} {b : List Byte} (hd : NoDouble s) (hstop : s.sec.stop = false) (hlost : r.lost = false)
    (hstatus : h0Status p.h0 = 0) (hj : s.str.jobs.find? (fun x => decide (x.id = r.job) && decide (x.kind = .get)) = some j) (huser : j.user = .str)
    (htop : j.addr + 512 * r.i + 512 ≤ memTop)
    (hopen : gcmOpen (keyOf s r.retired) (streamIv r.ctxIv r.region r.epoch r.block) [] (blockBytes p.data) (tagBytes p.tag) = some b) :
    Stored s (takeRdat s r p) (j.addr + 512 * r.i) b ∧ (takeRdat s r p).str.reads = s.str.reads.filter (fun x => decide (x.tag ≠ r.tag)) ∧
      (takeRdat s r p).str.rdBlk = s.str.rdBlk + 1 ∧ (takeRdat s r p).sec.blkIn = s.sec.blkIn + 1 ∧
      (takeRdat s r p).jrnl.toClose.length = s.jrnl.toClose.length + 1 := by
  rw [takeRdat_lands hstop hlost hstatus hj huser hopen]
  generalize hv : (blkChecked (readOver s r)).modStr _ = v
  have hvd : NoDouble v := by rw [← hv]; exact hd.of_ecc rfl
  have hstored : Stored v (memWr v rqSTR (j.addr + 512 * r.i) b) (j.addr + 512 * r.i) b :=
    memWr_stored rqSTR (by rw [gcmOpen_length hopen, blockBytes_length]; exact htop) (hvd.hasDouble ..)
  have hwr := memWr_frame v rqSTR (j.addr + 512 * r.i) b
  generalize memWr v rqSTR (j.addr + 512 * r.i) b = w at hstored hwr
  have hf := landed_job (creditSin w (j.addr + 512 * r.i) j.region.toNat false (j.blk + r.i) b) j
  obtain ⟨g, hg⟩ := hf.sec
  have hwstr : w.str = v.str := by rw [hwr]
  have hwsec : w.sec = v.sec := by rw [hwr]
  have hwjrnl : w.jrnl = v.jrnl := by rw [hwr]
  refine ⟨?_, ?_, ?_, ?_, ?_⟩
  · intro x
    refine (congrArg (fun m => memByte m x) (congrArg Mem.bytes hf.mem :)).trans ?_
    rw [← hv] at hstored
    exact hstored x
  · refine (congrArg Str.reads hf.str :).trans ((congrArg Str.reads hwstr :).trans ?_)
    rw [← hv]; rfl
  · refine (congrArg Str.rdBlk hf.str :).trans ((congrArg Str.rdBlk hwstr :).trans ?_)
    rw [← hv]; rfl
  · refine (congrArg Sec.blkIn hg :).trans ((congrArg Sec.blkIn hwsec :).trans ?_)
    rw [← hv]; rfl
  · refine (congrArg (fun x : Jrnl => x.toClose.length) (landed_jrnl_str huser)).trans ?_
    rw [creditSin]
    simp only [State.modJrnl_jrnl, Bool.false_eq_true, if_false, List.length_append, List.length_singleton, hwjrnl]
    rw [← hv]; rfl

/-! Acknowledgements. -/

/-- What an acknowledgement does before its job hears of it: its slot is free, and it counts, or is recorded as a failing response. -/
def ackTaken (s : State) (h0 : Dword) (w : StrWrite) : State :=
  let t := progress ((spend s 7 1).modStr (fun x => { x with writes := x.writes.filter (fun y => decide (y.tag ≠ w.tag)) }))
  if decide (h0Status h0 ≠ 0) then strResp t h0 else if w.put then t.modStr (fun x => { x with wrBlk := x.wrBlk + 1 }) else t

theorem ackTaken_spec (s : State) (h0 : Dword) (w : StrWrite) :
    (ackTaken s h0 w).str.writes = s.str.writes.filter (fun x => decide (x.tag ≠ w.tag)) ∧ (ackTaken s h0 w).mem = s.mem ∧
      (h0Status h0 = 0 → w.put = true → (ackTaken s h0 w).str.wrBlk = s.str.wrBlk + 1) ∧
      (h0Status h0 ≠ 0 → (ackTaken s h0 w).str.resp = true ∧ (ackTaken s h0 w).flt.cont = true) := by
  unfold ackTaken
  dsimp only
  split
  next hbad =>
    replace hbad := of_decide_eq_true hbad
    obtain ⟨hresp, hcont, -, hmem, -, -, hwrites, -⟩ :=
      strResp_spec (progress ((spend s 7 1).modStr (fun x => { x with writes := x.writes.filter (fun y => decide (y.tag ≠ w.tag)) }))) h0
    exact ⟨hwrites, hmem, fun h => absurd h hbad, fun _ => ⟨hresp, hcont⟩⟩
  next hgood =>
    replace hgood : ¬ h0Status h0 ≠ 0 := of_decide_eq_false (Bool.eq_false_iff.mpr hgood)
    split
    · exact ⟨rfl, rfl, fun _ _ => rfl, fun h => absurd h hgood⟩
    next hput => exact ⟨rfl, rfl, fun _ h => absurd h hput, fun h => absurd h hgood⟩

/-- The job of a write hears of its acknowledgement, if it is still there. -/
theorem execAckReceived_eq {s : State} {h0 : Dword} {w : StrWrite} (hw : s.str.writes.find? (fun x => decide (x.tag = h0Tag h0)) = some w) :
    execAckReceived h0 s = whenOn (strTakes s && decide (h0Kind h0 = 5)) s
      ((s.str.jobs.find? (fun j => decide (j.id = w.job) && decide (j.kind ≠ .get))).elim (ackTaken s h0 w) fun j =>
        unstall (landed (if decide (h0Status h0 ≠ 0) && decide (j.user = .jrnl) && !j.dead then dropCopy (ackTaken s h0 w) j else ackTaken s h0 w) j)) := by
  have hjobs : (progress ((spend s 7 1).modStr (fun x => { x with writes := x.writes.filter (fun y => decide (y.tag ≠ w.tag)) }))).str.jobs = s.str.jobs := rfl
  unfold execAckReceived
  rw [hw]
  dsimp only
  rw [hjobs]
  cases s.str.jobs.find? (fun j => decide (j.id = w.job) && decide (j.kind ≠ .get)) <;> rfl

theorem ackReceived_spec {s : State} {h0 : Dword} {w : StrWrite} (ht : strTakes s = true) (hk : h0.extractLsb' 0 4 = 5)
    (hw : s.str.writes.find? (fun x => decide (x.tag = h0.extractLsb' 4 6)) = some w) :
    ∃ t u, exec (.ackReceived h0) s = .next t ∧ JobFrame (ackTaken s h0 w) u ∧ (t = u ∨ t = unstall u) := by
  rw [← h0Tag_eq] at hw
  rw [show exec (.ackReceived h0) s = execAckReceived h0 s from rfl, execAckReceived_eq hw, whenOn_of (by rw [ht, h0Kind_of hk]; rfl)]
  cases s.str.jobs.find? (fun j => decide (j.id = w.job) && decide (j.kind ≠ .get)) with
  | none => exact ⟨_, _, rfl, .rfl, .inl rfl⟩
  | some j =>
    refine ⟨_, _, rfl, JobFrame.trans ?_ (landed_job ..), .inr rfl⟩
    split
    · exact dropCopy_job ..
    · exact .rfl

/-! Puts of other tiles. -/

theorem rputReceived_takes {s : State} {p : StrPacket} (hbus : busOn s = true) (hk : p.h0.extractLsb' 0 4 = 3) (hbuf : 0 < s.str.inbuf)
    (hm : s.sec.stop = true ∨ s.flt.fatal = true ∨ memWaits s (rputAddr p.h1) 512 = false) :
    exec (.rputReceived p) s = .next (unstall (takeRput (spend s 7 32) p)) := by
  rw [show exec (.rputReceived p) s = execRputReceived p s from rfl, execRputReceived, whenOn_of]
  · rw [execRput, if_neg]
    rw [show (spend s 7 32).sec = s.sec from rfl, show (spend s 7 32).flt = s.flt from rfl,
      show memWaits (spend s 7 32) (rputAddr p.h1) 512 = memWaits s (rputAddr p.h1) 512 from rfl]
    rcases hm with h | h | h <;> simp [h]
  · simp [hbus, h0Kind_of hk, hbuf]

/-- The acknowledgement that a put is owed (13 Table 10). -/
def ackOf (h0 : Dword) (status : Nat) : Dword := strH0 5 (h0.extractLsb' 4 6) status false false 0 0 0

theorem ackOf_fields (h0 : Dword) {status : Nat} (h : status < 4) : (ackOf h0 status).extractLsb' 0 4 = 5 ∧
    (ackOf h0 status).extractLsb' 4 6 = h0.extractLsb' 4 6 ∧ (ackOf h0 status).extractLsb' 10 2 = BitVec.ofNat 2 status := by
  obtain ⟨hkind, htag, hstatus, -⟩ := strH0_fields (kind := 5) (by decide) h (h0.extractLsb' 4 6) false false 0 0 0
  exact ⟨hkind, htag, hstatus⟩

/-- A put in a stream stop or after a fatal fault is refused unread (15 R385; 16 R391). -/
theorem takeRput_stopped {s : State} {p : StrPacket} (h : s.sec.stop = true ∨ s.flt.fatal = true) :
    takeRput s p = (freeBuf s).modStr fun x => { x with acks := x.acks ++ [ackOf p.h0 1] } := by
  unfold takeRput
  dsimp only
  rw [if_pos (by simpa [freeBuf] using h), oweAck, h0Tag_eq]
  rfl

/-- What an attached put touches besides its own lists: the sync unit, and what a fault touches (12 R299). -/
theorem attached_frame (s : State) (p : StrPacket) :
    (attached s p).mem = s.mem ∧ ∃ k l, (attached s p).str = { s.str with attPkts := k, attPuts := l } := by
  unfold attached
  dsimp only
  split
  next u _ =>
    unfold attSignal
    dsimp only
    split
    · rw [signal, signalAmt_frame]
      exact ⟨rfl, _, _, rfl⟩
    · exact ⟨rfl, _, _, rfl⟩
  · exact ⟨rfl, _, _, rfl⟩

/-- A put may be written: it lies in DATA, or, where no manifest is live, in memory. -/
def putFits (s : State) (a : Nat) : Bool := if s.man.isLive then permits s [pDATA] a 512 else decide (a + 512 ≤ memTop)

theorem putFits_memTop {s : State} {a : Nat} (h : putFits s a = true) : a + 512 ≤ memTop := by
  unfold putFits at h
  split at h
  · unfold permits at h
    simp only [Bool.and_eq_true, decide_eq_true_eq] at h
    exact h.1
  · exact of_decide_eq_true h

/-- The put's block opens under the key and the values of its header (15 R382). -/
def PutOpens (s : State) (p : StrPacket) (b : List Byte) : Prop :=
  gcmOpen s.sec.key (streamIv (h0Ctx p.h0) (h0Region p.h0) (h0Epoch p.h0) (p.h2.setWidth 32 |>.setWidth 64)) (rputAad p.h0 p.h1 p.h2)
    (blockBytes p.data) (tagBytes p.tag) = some b

section
variable {s : State} {p : StrPacket} {b : List Byte} (hstop : s.sec.stop = false) (hfatal : s.flt.fatal = false)
  (hepoch : (h0Epoch p.h0).getLsbD 23 = true → h0Epoch p.h0 = seEpoch s.sec.seCur) (hopen : PutOpens s p b)
include hstop hfatal hepoch hopen

theorem takeRput_opens :
    takeRput s p =
      if putFits s (rputAddr p.h1) then
        let u := creditSin (memWr (blkChecked (freeBuf s)) rqSTR (rputAddr p.h1) b) (rputAddr p.h1) (h0Region p.h0).toNat true (p.h2.toNat % 2 ^ 32) b
        let v := progress (u.modStr (fun x => { x with rpIn := x.rpIn + 1 }))
        oweAck (if h0Att p.h0 then attached v p else v) (h0Tag p.h0) 0
      else oweAck ((blkChecked (freeBuf s)).modStr (fun x => { x with nackIn := x.nackIn + 1 })) (h0Tag p.h0) 1 := by
  unfold takeRput
  dsimp only
  rw [if_neg (by simp [freeBuf, hstop, hfatal]), if_neg, show (freeBuf s).sec.key = s.sec.key from rfl, show gcmOpen _ _ _ _ _ = _ from hopen]
  · rfl
  · simp only [Bool.and_eq_true, decide_eq_true_eq]
    exact fun ⟨h23, hne⟩ => hne (hepoch h23)

/-- A put that opens and fits is written and acknowledged with 0 (13 R329; 15 R382). -/
theorem takeRput_written (hd : NoDouble s) (hfits : putFits s (rputAddr p.h1) = true) :
    Stored s (takeRput s p) (rputAddr p.h1) b ∧ ∃ k l, (takeRput s p).str =
      { s.str with inCred := s.str.inCred + 1, rpIn := s.str.rpIn + 1, attPkts := k, attPuts := l, acks := s.str.acks ++ [ackOf p.h0 0] } := by
  rw [takeRput_opens hstop hfatal hepoch hopen, if_pos hfits]
  dsimp only
  have hstored : Stored (blkChecked (freeBuf s)) (memWr (blkChecked (freeBuf s)) rqSTR (rputAddr p.h1) b) (rputAddr p.h1) b :=
    memWr_stored rqSTR (by rw [gcmOpen_length hopen, blockBytes_length]; exact putFits_memTop hfits)
      ((hd.of_ecc (t := blkChecked (freeBuf s)) rfl).hasDouble ..)
  have hwr : (memWr (blkChecked (freeBuf s)) rqSTR (rputAddr p.h1) b).str = { s.str with inCred := s.str.inCred + 1 } := by
    rw [memWr_frame]; rfl
  generalize memWr (blkChecked (freeBuf s)) rqSTR (rputAddr p.h1) b = w at hstored hwr
  generalize hv : progress _ = v
  have hvmem : v.mem = w.mem := by rw [← hv]; rfl
  have hvstr : v.str = { s.str with inCred := s.str.inCred + 1, rpIn := s.str.rpIn + 1 } := by
    rw [← hv]
    simp only [progress, State.modSyn_str, State.modStr_str, creditSin, State.modJrnl_str, hwr]
  have hatt : (if h0Att p.h0 then attached v p else v).mem = w.mem ∧
      ∃ k l, (if h0Att p.h0 then attached v p else v).str = { s.str with inCred := s.str.inCred + 1, rpIn := s.str.rpIn + 1, attPkts := k, attPuts := l } := by
    split
    · obtain ⟨hmem, k, l, hstr⟩ := attached_frame v p
      exact ⟨hmem.trans hvmem, k, l, by rw [hstr, hvstr]⟩
    · exact ⟨hvmem, _, _, hvstr⟩
  generalize (if h0Att p.h0 then attached v p else v) = x at hatt
  obtain ⟨hxmem, k, l, hxstr⟩ := hatt
  refine ⟨fun y => ?_, k, l, ?_⟩
  · rw [oweAck, State.modStr_mem, hxmem, hstored y]; rfl
  · rw [oweAck, State.modStr_str, hxstr, h0Tag_eq]; rfl

/-- A put that opens and lies elsewhere is refused with 1. -/
theorem takeRput_outside (hfits : putFits s (rputAddr p.h1) = false) :
    takeRput s p = (blkChecked (freeBuf s)).modStr (fun x => { x with nackIn := x.nackIn + 1, acks := x.acks ++ [ackOf p.h0 1] }) := by
  rw [takeRput_opens hstop hfatal hepoch hopen, if_neg (by rw [hfits]; exact Bool.false_ne_true), oweAck, h0Tag_eq]
  rfl

end

/-! The obligation. -/

theorem unstall_str (s : State) : (unstall s).str = s.str := by rw [unstall_frame]

theorem keyOf_eq (s : State) (b : Bool) : keyOf s b = if b then s.sec.rkey else s.sec.key := rfl

theorem rdatWaits_none {s : State} {r : StrRead} (hj : s.str.jobs.find? (fun x => decide (x.id = r.job) && decide (x.kind = .get)) = none) : rdatWaits s r = false := by
  unfold rdatWaits
  rw [hj]
  exact Bool.and_false _

theorem rdatWaits_str {s : State} {r : StrRead} {j : StrJob} (hj : s.str.jobs.find? (fun x => decide (x.id = r.job) && decide (x.kind = .get)) = some j)
    (huser : j.user = .str) (hz : s.mem.zeroing = false) (hm : memWaits s (j.addr + 512 * r.i) 512 = false) : rdatWaits s r = false := by
  unfold rdatWaits landAddr
  rw [hj]
  dsimp only
  rw [huser, hz]
  simp [hm]

/-- Settles O45: each kind of packet by what its taking does, a job's part by `JobFrame`. -/
theorem streamReceives : Obligations.StreamReceives := by
  unfold Obligations.StreamReceives
  refine ⟨?_, ?_, ?_, ?_, ?_, ?_, ?_⟩
  · intro s p r j b hunits hk hw hr hlost hd hj huser hstop hstatus hz hm htop hopen
    exact ⟨_, rdatReceived_takes ((strTakes_iff s).mpr (.inl hunits)) hk hw hr (rdatWaits_str (s := spend s 7 32) hj huser hz hm),
      rdatReceived_str (s := spend s 7 32) (hd.of_ecc rfl) hstop hlost (h0Status_zero.mpr hstatus) hj huser htop hopen⟩
  · intro s p r hunits hk hw hr hj nowhere
    have hover : nowhere (readOver (spend s 7 32) r) := ⟨fun _ => rfl, rfl, rfl, rfl⟩
    have hover' : nowhere (blkChecked (readOver (spend s 7 32) r)) := ⟨fun _ => rfl, rfl, rfl, rfl⟩
    refine ⟨_, rdatReceived_takes ((strTakes_iff s).mpr hunits) hk hw hr (rdatWaits_none (s := spend s 7 32) hj), ?_⟩
    rw [takeRdat_nowhere (s := spend s 7 32) hj]
    refine ⟨fun h => ?_, fun hstop hlost => ⟨fun hstatus => ?_, fun hstatus => ?_⟩⟩
    · rw [if_pos (by rw [show (spend s 7 32).sec = s.sec from rfl]; simpa using h)]
      exact ⟨hover, rfl, rfl⟩
    · rw [if_neg (by rw [show (spend s 7 32).sec = s.sec from rfl]; simp [hstop, hlost]), if_pos (fun h => hstatus (h0Status_zero.mp h))]
      obtain ⟨hresp, hcont, hsec, hmem, hjobs, hreads, -, hblk⟩ := strResp_spec (readOver (spend s 7 32) r) p.h0
      exact ⟨⟨fun _ => by rw [hmem]; rfl, hreads, hblk, hjobs⟩, hresp, hcont, hsec⟩
    · rw [if_neg (by rw [show (spend s 7 32).sec = s.sec from rfl]; simp [hstop, hlost]), if_neg (fun h => h (h0Status_zero.mpr hstatus))]
      refine ⟨?_, fun b hb => ?_⟩
      · split
        · rfl
        · exact secTag_blkIn ..
      · rw [if_pos (by rw [show gcmOpen (keyOf (spend s 7 32) r.retired) _ _ _ _ = _ from hb]; rfl)]
        exact ⟨hover', rfl⟩
  · intro s h0 w hunits hk hw
    obtain ⟨t, u, hexec, hf, ht⟩ := ackReceived_spec ((strTakes_iff s).mpr hunits) hk hw
    obtain ⟨hwrites, hmem, hgood, hbad⟩ := ackTaken_spec s h0 w
    have hkept : t.str = u.str ∧ t.mem = u.mem ∧ t.flt = u.flt := by
      rcases ht with rfl | rfl
      · exact ⟨rfl, rfl, rfl⟩
      · rw [unstall_frame]
        exact ⟨rfl, rfl, rfl⟩
    obtain ⟨tstr, tmem, tflt⟩ := hkept
    rw [hf.str] at tstr
    refine ⟨t, hexec, ?_, fun _ => by rw [tmem, hf.mem, hmem], fun hs hput => ?_, fun hs => ?_⟩
    · rw [tstr]; exact hwrites
    · rw [tstr]; exact hgood (h0Status_zero.mpr hs) hput
    · rw [tstr, tflt, hf.flt]; exact hbad fun h => hs (h0Status_zero.mp h)
  · intro s p b hbus hfatal hk hbuf hstop hd a e ok hm hepoch hopen
    have ha : rputAddr p.h1 = a := rputAddr_eq ..
    have hok : putFits (spend s 7 32) (rputAddr p.h1) = ok := by rw [ha]; rfl
    have hopen' : PutOpens (spend s 7 32) p b := by
      unfold PutOpens
      rw [h0Ctx_eq, h0Region_eq, h0Epoch_eq, low_eq_extractLsb']
      exact hopen
    have hepoch' : (h0Epoch p.h0).getLsbD 23 = true → h0Epoch p.h0 = seEpoch (spend s 7 32).sec.seCur := by
      rw [h0Epoch_eq]
      exact hepoch
    have hexec := rputReceived_takes hbus hk hbuf (.inr (.inr (by rw [ha]; exact hm)))
    cases hokb : ok with
    | true =>
      obtain ⟨hkind, htag, hstatus⟩ := ackOf_fields p.h0 (status := 0) (by decide)
      obtain ⟨hstored, k, l, hstr⟩ := takeRput_written (s := spend s 7 32) hstop hfatal hepoch' hopen' (hd.of_ecc rfl) (hok.trans hokb)
      rw [ha] at hstored
      refine ⟨_, ackOf p.h0 0, ?_, ?_, hexec, ?_, hkind, htag, fun _ => ⟨hstored, hstatus, ?_⟩, fun h => absurd h nofun⟩ <;> rw [hstr] <;> rfl
    | false =>
      obtain ⟨hkind, htag, hstatus⟩ := ackOf_fields p.h0 (status := 1) (by decide)
      rw [takeRput_outside (s := spend s 7 32) hstop hfatal hepoch' hopen' (hok.trans hokb)] at hexec
      refine ⟨_, ackOf p.h0 1, ?_, ?_, hexec, rfl, hkind, htag, fun h => absurd h nofun, fun _ => ⟨fun _ => rfl, hstatus, rfl⟩⟩ <;> rfl
  · intro s p hbus hk hbuf hstop
    obtain ⟨hkind, htag, hstatus⟩ := ackOf_fields p.h0 (status := 1) (by decide)
    have hexec := rputReceived_takes hbus hk hbuf (hstop.imp_right .inl)
    rw [takeRput_stopped (s := spend s 7 32) hstop] at hexec
    exact ⟨_, ackOf p.h0 1, hexec, rfl, hkind, htag, hstatus, rfl, fun _ => rfl⟩
  · intro s hbus
    exact congrArg Host.Outcome.next (if_pos hbus)
  · intro s hbus
    exact congrArg Host.Outcome.next (if_pos hbus)

end Sys2Proof.Machine
end
section
/-! PROOFS. The c-cycles of the exchange phase (13 R316 to R321; 16 R394). -/

namespace Sys2Proof.Machine

/-! What the entries of an itinerary leave as it is. -/

/-- What the entries that start, and the beats that are missed or collide, can touch, and what of it they keep. -/
structure PortFrame (s t : State) : Prop where
  frame : t = { s with xch := t.xch, syn := t.syn, flt := t.flt, fac := t.fac, wgh := t.wgh, free := t.free }
  run : t.xch.run = s.xch.run
  act : t.xch.act = s.xch.act
  beatsOut : t.xch.beatsOut = s.xch.beatsOut
  fePend : t.syn.fePend = s.syn.fePend
  cont : s.flt.cont = true → t.flt.cont = true

theorem PortFrame.rfl {s : State} : PortFrame s s := ⟨Eq.refl _, Eq.refl _, Eq.refl _, Eq.refl _, Eq.refl _, id⟩

theorem PortFrame.trans {s t u : State} (h : PortFrame s t) (k : PortFrame t u) : PortFrame s u :=
  ⟨k.frame.trans (by rw [h.frame]), k.run.trans h.run, k.act.trans h.act, k.beatsOut.trans h.beatsOut, k.fePend.trans h.fePend, fun hc => k.cont (h.cont hc)⟩

section
variable {s t : State} (h : PortFrame s t)
include h

theorem PortFrame.core : t.core = s.core := by rw [h.frame]
theorem PortFrame.mem : t.mem = s.mem := by rw [h.frame]
theorem PortFrame.str : t.str = s.str := by rw [h.frame]
theorem PortFrame.pst : t.pst = s.pst := by rw [h.frame]
theorem PortFrame.bus : t.bus = s.bus := by rw [h.frame]
theorem PortFrame.sameBytes : SameBytes s t := fun a => by rw [h.mem]
theorem PortFrame.exchRuns : exchRuns t = exchRuns s := by rw [Machine.exchRuns, h.run, h.core]; rfl

end

/-- A beat that is missed or over records no fault for later, and captures no collision. -/
structure BeatFrame (s t : State) : Prop extends PortFrame s t where
  due : t.xch.due = s.xch.due
  coll : t.xch.coll = s.xch.coll
  collOff : t.xch.collOff = s.xch.collOff

theorem BeatFrame.rfl {s : State} : BeatFrame s s := ⟨.rfl, Eq.refl _, Eq.refl _, Eq.refl _⟩

theorem BeatFrame.trans {s t u : State} (h : BeatFrame s t) (k : BeatFrame t u) : BeatFrame s u :=
  ⟨h.toPortFrame.trans k.toPortFrame, k.due.trans h.due, k.coll.trans h.coll, k.collOff.trans h.collOff⟩

theorem raise_beat (s : State) (code unit : Nat) (addr : Addr) (d : Nat) : BeatFrame s (raise s code unit addr d) := by
  have hc := raise_cont s code unit addr d
  have hf := raise_frame s code unit addr d
  generalize raise s code unit addr d = t at hc hf
  rw [hf]
  exact ⟨⟨rfl, rfl, rfl, rfl, rfl, fun _ => hc⟩, rfl, rfl, rfl⟩

theorem signal_beat (s : State) (src : BitVec 4) (o : Byte) : BeatFrame s (signal s src o) ∧ (signal s src o).xch = s.xch := by
  have hcont : s.flt.cont = true → (signal s src o).flt.cont = true := fun h => signalAmt_cont h ..
  have hpend : (signal s src o).syn.fePend = s.syn.fePend := by
    unfold signal signalAmt
    dsimp only
    split
    · rw [raise_frame]
      split <;> rfl
    · rfl
  have hf := signalAmt_frame s src o 1 1
  change signal s src o = { s with
    syn := (signal s src o).syn, flt := (signal s src o).flt, fac := (signal s src o).fac, wgh := (signal s src o).wgh } at hf
  generalize signal s src o = t at hf hcont hpend
  rw [hf] at hcont hpend ⊢
  exact ⟨⟨⟨rfl, rfl, rfl, rfl, hpend, hcont⟩, rfl, rfl, rfl⟩, rfl⟩

theorem setBeat_beat (s : State) (e : XEnt) (k : Nat) : BeatFrame s (setBeat s e k) := ⟨⟨rfl, rfl, rfl, rfl, rfl, id⟩, rfl, rfl, rfl⟩

theorem endBeat_beat (s : State) (e : XEnt) (k : Nat) : BeatFrame s (endBeat s e k) := by
  unfold endBeat
  dsimp only
  split
  · split
    · exact (setBeat_beat ..).trans (signal_beat ..).1
    · exact setBeat_beat ..
  · exact setBeat_beat ..

/-- The beat that is over is the one that its entry does next. -/
theorem endBeat_xch (s : State) (e : XEnt) (k : Nat) : (endBeat s e k).xch = (setBeat s e (k + 1)).xch := by
  unfold endBeat
  dsimp only
  split
  · split
    · exact (signal_beat ..).2
    · rfl
  · rfl

theorem beatOf_setBeat (s : State) (e : XEnt) (k : Nat) : beatOf (setBeat s e k) e = k := tabGet_set_same ..

theorem beatOf_endBeat (s : State) (e : XEnt) (k : Nat) : beatOf (endBeat s e k) e = k + 1 := by
  rw [beatOf, endBeat_xch]
  exact beatOf_setBeat s e (k + 1)

theorem recvFail_beat (s : State) (cause ent : Nat) (off : Word) (src : BitVec 20) (sent : BitVec 10) (beat : Half) :
    BeatFrame s (recvFail s cause ent off src sent beat) := by
  have hcap : BeatFrame s (s.modXch fun x =>
      let y := if x.rerr then x else { x with
        rerr := true, rerrCause := BitVec.ofNat 2 cause, rerrEnt := BitVec.ofNat 10 ent, rerrOff := off, rerrSrc := src
        rerrSent := sent, rerrBeat := beat }
      { y with rerrs := x.rerrs + 1, failed := true }) := by
    refine ⟨⟨rfl, ?_, ?_, ?_, rfl, id⟩, ?_, ?_, ?_⟩ <;> simp only [State.modXch_xch] <;> split <;> rfl
  unfold recvFail
  dsimp only
  split
  · exact hcap
  · exact hcap.trans (raise_beat ..)

theorem missBeat_beat (s : State) (e : XEnt) (k : Nat) : BeatFrame s (missBeat s e k) := by
  unfold missBeat
  dsimp only
  exact (⟨⟨rfl, rfl, rfl, rfl, rfl, id⟩, rfl, rfl, rfl⟩ : BeatFrame s { s with free := s.free + 1 }).trans ((recvFail_beat ..).trans (endBeat_beat ..))

/-- A relation that each step of a fold keeps relates the ends of the fold. -/
theorem foldl_related {α β : Type} {R : β → β → Prop} (hrefl : ∀ s, R s s) (htrans : ∀ {s t u}, R s t → R t u → R s u) {f : β → α → β}
    (hf : ∀ s x, R s (f s x)) (l : List α) (s : β) : R s (l.foldl f s) := by
  induction l generalizing s with
  | nil => exact hrefl s
  | cons x l ih => exact htrans (hf s x) (ih _)

theorem catchEnt_beat (s : State) (off : Nat) (e : XEnt) : BeatFrame s (catchEnt s off e) :=
  foldl_related (R := BeatFrame) (fun _ => .rfl) .trans (fun _ _ => missBeat_beat ..) _ s

theorem catchAll_beat (s : State) (off : Nat) : BeatFrame s (catchAll s off) :=
  foldl_related (R := BeatFrame) (fun _ => .rfl) .trans (fun _ _ => catchEnt_beat ..) _ s

/-! Entries that start. -/

/-- A start records a fault for later only where a slot has an uncorrectable error, and captures no collision. -/
structure StartFrame (s t : State) : Prop extends PortFrame s t where
  due : ∃ l, t.xch.due = s.xch.due ++ l ∧ ∀ d ∈ l, d.2 = fcSLOTUE
  coll : t.xch.coll = s.xch.coll
  collOff : t.xch.collOff = s.xch.collOff

theorem StartFrame.rfl {s : State} : StartFrame s s := ⟨.rfl, ⟨[], (List.append_nil _).symm, nofun⟩, Eq.refl _, Eq.refl _⟩

theorem StartFrame.trans {s t u : State} (h : StartFrame s t) (k : StartFrame t u) : StartFrame s u := by
  obtain ⟨l, hl, hl'⟩ := h.due
  obtain ⟨m, hm, hm'⟩ := k.due
  refine ⟨h.toPortFrame.trans k.toPortFrame, ⟨l ++ m, by rw [hm, hl, List.append_assoc], fun d hd => ?_⟩, k.coll.trans h.coll, k.collOff.trans h.collOff⟩
  exact (List.mem_append.mp hd).elim (hl' d) (hm' d)

theorem BeatFrame.start {s t : State} (h : BeatFrame s t) : StartFrame s t :=
  ⟨h.toPortFrame, ⟨[], by rw [h.due, List.append_nil], nofun⟩, h.coll, h.collOff⟩

theorem startEnt_start (s : State) (e : XEnt) : StartFrame s (startEnt s e) := by
  have hkept {t : State} (g : Xch → Xch) (hg : ∀ x, (g x).run = x.run ∧ (g x).act = x.act ∧ (g x).beatsOut = x.beatsOut ∧ (g x).due = x.due ∧
      (g x).coll = x.coll ∧ (g x).collOff = x.collOff) : StartFrame t (t.modXch g) := by
    obtain ⟨hrun, hact, hout, hdue, hcoll, hoff⟩ := hg t.xch
    exact BeatFrame.start ⟨⟨rfl, hrun, hact, hout, rfl, id⟩, hdue, hcoll, hoff⟩
  unfold startEnt
  split
  · exact .rfl
  · split
    · have hdue : StartFrame s (dueFault s e.off fcSLOTUE) := ⟨⟨rfl, rfl, rfl, rfl, rfl, id⟩, ⟨[(e.off, fcSLOTUE)], rfl, by simp⟩, rfl, rfl⟩
      exact hdue.trans (setBeat_beat ..).start
    next err _ =>
      extract_lets t
      have hce : StartFrame s t := by
        unfold t
        split
        · exact BeatFrame.start ⟨⟨rfl, rfl, rfl, rfl, rfl, id⟩, rfl, rfl, rfl⟩
        · exact .rfl
      clear_value t
      refine hce.trans ?_
      split
      · exact (setBeat_beat ..).start.trans (hkept _ fun _ => ⟨rfl, rfl, rfl, rfl, rfl, rfl⟩)
      · exact hkept _ fun _ => ⟨rfl, rfl, rfl, rfl, rfl, rfl⟩

theorem startAll_start (s : State) (recv : Bool) (off : Nat) : StartFrame s (startAll s recv off) :=
  foldl_related (R := StartFrame) (fun _ => .rfl) .trans startEnt_start _ s

/-! Faults that are due. -/

theorem raiseDue_port (s : State) (d : Nat × Nat) : PortFrame s (raiseDue s d) ∧ (raiseDue s d).flt.cont = true ∧ (raiseDue s d).xch.due = s.xch.due ∧
    (s.xch.coll = true → (raiseDue s d).xch.coll = true ∧ (raiseDue s d).xch.collOff = s.xch.collOff) ∧
    (d.2 = fcXCHCOLLIDE → (raiseDue s d).xch.coll = true ∧ (s.xch.coll = false → (raiseDue s d).xch.collOff = BitVec.ofNat 32 d.1)) ∧
    (d.2 ≠ fcXCHCOLLIDE → (raiseDue s d).xch.coll = s.xch.coll ∧ (raiseDue s d).xch.collOff = s.xch.collOff) := by
  unfold raiseDue
  dsimp only
  split
  next h =>
    obtain ⟨hcode, hcoll⟩ := h
    have hb := raise_beat (s.modXch (fun y => { y with coll := true, collOff := BitVec.ofNat 32 d.1 })) d.2 10 0 0
    have hs : PortFrame s (s.modXch (fun y => { y with coll := true, collOff := BitVec.ofNat 32 d.1 })) := ⟨rfl, rfl, rfl, rfl, rfl, id⟩
    refine ⟨hs.trans hb.toPortFrame, raise_cont .., hb.due, fun h => ?_, fun _ => ⟨hb.coll, fun _ => hb.collOff⟩, fun h => absurd hcode h⟩
    rw [hcoll] at h
    exact absurd h Bool.false_ne_true
  next h =>
    have hb := raise_beat s d.2 10 0 0
    refine ⟨hb.toPortFrame, raise_cont .., hb.due, fun h => ⟨hb.coll.trans h, hb.collOff⟩, fun hcode => ?_, fun _ => ⟨hb.coll, hb.collOff⟩⟩
    have hcoll : s.xch.coll = true := by
      cases hc : s.xch.coll
      · exact absurd ⟨hcode, hc⟩ h
      · rfl
    rw [hb.coll, hcoll]
    exact ⟨rfl, fun h => absurd h.symm Bool.false_ne_true⟩

theorem mem_insert_sorted {α : Type} {p q : α → Bool} (hpq : ∀ x, q x = !p x) {l : List α} {x d : α} :
    x ∈ l.filter p ++ [d] ++ l.filter q ↔ x ∈ l ∨ x = d := by
  simp only [List.mem_append, List.mem_filter, List.mem_singleton, hpq]
  cases p x <;> simp [or_comm]

theorem mem_byDue {l : List (Nat × Nat)} {x : Nat × Nat} : x ∈ byDue l ↔ x ∈ l := by
  have hfold : ∀ (l m : List (Nat × Nat)), x ∈ l.foldl (fun m d => m.filter (fun y => dueBefore y d) ++ [d] ++ m.filter (fun y => !dueBefore y d)) m ↔ x ∈ m ∨ x ∈ l := by
    intro l
    induction l with
    | nil => simp
    | cons d l ih =>
      intro m
      rw [List.foldl_cons, ih, mem_insert_sorted (fun _ => rfl), List.mem_cons, or_assoc]
  exact (hfold l []).trans (by simp)

/-- One fault that is due is recorded, behind what its c-cycle missed. -/
def dueStep (t : State) (d : Nat × Nat) : State := raiseDue (if exchRuns t then catchAll t (d.1 + 1) else t) d

theorem dueStep_beat (t : State) (d : Nat × Nat) : ∃ u, BeatFrame t u ∧ dueStep t d = raiseDue u d := by
  unfold dueStep
  split
  · exact ⟨_, catchAll_beat .., rfl⟩
  · exact ⟨_, .rfl, rfl⟩

theorem dueStep_port (t : State) (d : Nat × Nat) : PortFrame t (dueStep t d) ∧ (dueStep t d).xch.due = t.xch.due := by
  obtain ⟨u, hb, he⟩ := dueStep_beat t d
  obtain ⟨hport, -, hdue, -⟩ := raiseDue_port u d
  rw [he]
  exact ⟨hb.toPortFrame.trans hport, hdue.trans hb.due⟩

/-- The faults due before an offset are recorded; those behind it stay. -/
theorem settleDue_port (s : State) (off : Nat) : PortFrame s (settleDue s off) ∧ (settleDue s off).xch.due = s.xch.due.filter (fun d => !decide (d.1 < off)) := by
  have hfold := foldl_related (R := fun s t => PortFrame s t ∧ t.xch.due = s.xch.due) (f := dueStep) (fun _ => ⟨.rfl, rfl⟩)
    (fun h k => ⟨h.1.trans k.1, k.2.trans h.2⟩) dueStep_port (byDue (s.xch.due.filter (fun d => decide (d.1 < off))))
    (s.modXch (fun x => { x with due := x.due.filter (fun d => !decide (d.1 < off)) }))
  obtain ⟨hport, hdue⟩ := hfold
  have hs : PortFrame s (s.modXch (fun x => { x with due := x.due.filter (fun d => !decide (d.1 < off)) })) := ⟨rfl, rfl, rfl, rfl, rfl, id⟩
  exact ⟨hs.trans hport, hdue⟩

theorem le_foldl_max {l : List (Nat × Nat)} (m : Nat) : m ≤ l.foldl (fun m d => max m (d.1 + 1)) m ∧
    ∀ d ∈ l, d.1 < l.foldl (fun m d => max m (d.1 + 1)) m := by
  induction l generalizing m with
  | nil => exact ⟨Nat.le_refl _, nofun⟩
  | cons d l ih =>
    obtain ⟨hle, hlt⟩ := ih (max m (d.1 + 1))
    rw [List.foldl_cons]
    refine ⟨by omega, fun x hx => ?_⟩
    rcases List.mem_cons.mp hx with rfl | hx
    · omega
    · exact hlt x hx

theorem settleAll_port (s : State) : PortFrame s (settleAll s) ∧ (settleAll s).xch.due = [] := by
  unfold settleAll
  split
  next h => exact ⟨.rfl, h⟩
  next =>
    obtain ⟨hport, hdue⟩ := settleDue_port s (s.xch.due.foldl (fun m d => max m (d.1 + 1)) 0)
    refine ⟨hport, hdue.trans (List.filter_eq_nil_iff.mpr fun d hd => ?_)⟩
    simpa using (le_foldl_max 0).2 d hd

theorem catchUp_port (s : State) (off : Nat) : PortFrame s (catchUp s off) := by
  unfold catchUp
  split
  · refine ((?_ : PortFrame s _).trans (startAll_start _ true off).toPortFrame).trans ((settleDue_port ..).1.trans (catchAll_beat ..).toPortFrame)
    exact ⟨rfl, rfl, rfl, rfl, rfl, id⟩
  · exact (settleDue_port ..).1

end Sys2Proof.Machine
end
section
/-! PROOFS. The exchange port's banks, loads, entries and beats (13 R308 to R321). -/

namespace Sys2Proof.Machine

/-! The banks. -/

theorem actBank_congr {s t : State} (h : t.xch = s.xch) : actBank t = actBank s := by rw [actBank, h]; rfl
theorem inactBank_congr {s t : State} (h : t.xch = s.xch) : inactBank t = inactBank s := by rw [inactBank, h]; rfl

theorem setInact_spec (s : State) (b : XBank) : inactBank (setInact s b) = b ∧ actBank (setInact s b) = actBank s ∧
    ∃ b0 b1, setInact s b = { s with xch := { s.xch with bank0 := b0, bank1 := b1 } } := by
  have hset : (setInact s b).xch = if s.xch.act then { s.xch with bank0 := b } else { s.xch with bank1 := b } := rfl
  cases ha : s.xch.act <;> rw [ha] at hset
  · simp only [Bool.false_eq_true, if_false] at hset
    refine ⟨?_, ?_, s.xch.bank0, b, congrArg (fun x => { s with xch := x }) hset⟩
    · rw [inactBank, hset, ha]; rfl
    · rw [actBank, actBank, hset, ha]; rfl
  · simp only [if_true] at hset
    refine ⟨?_, ?_, b, s.xch.bank1, congrArg (fun x => { s with xch := x }) hset⟩
    · rw [inactBank, hset, ha]; rfl
    · rw [actBank, actBank, hset, ha]; rfl

/-- The state in which the banks have been swapped (13 R315). -/
def swapped (s : State) (r : XRun) : State := s.modXch fun x => { x with act := !x.act, latched := [], nextBeat := [], seen := 0, run := r }

theorem actBank_swapped (s : State) (r : XRun) : actBank (swapped s r) = inactBank s := by
  cases h : s.xch.act <;> simp [actBank, inactBank, swapped, h]

/-- The words that a load has taken, and the image that it names (13 R311). -/
theorem pickImage_spec (s : State) (c : BitVec 2) (img : BitVec 3) :
    actBank (pickImage s c img) = actBank s ∧ ∃ b0 b1, pickImage s c img = { s with xch := { s.xch with
      load := some (c, img), loadLen := s.xch.loadItin.getD (2 * img.toNat + 1) 0, loadDesc := s.xch.loadItin.getD (2 * img.toNat) 0, loadSel := none
      bank0 := b0, bank1 := b1 } } := by
  unfold pickImage
  dsimp only
  obtain ⟨-, hact, b0, b1, hset⟩ := setInact_spec (s.modXch fun x => { x with load := some (c, img), loadLen := s.xch.loadItin.getD (2 * img.toNat + 1) 0, loadDesc := s.xch.loadItin.getD (2 * img.toNat + 0) 0, loadSel := none })
    { image := img, exchLen := s.xch.loadItin.getD (2 * img.toNat + 1) 0 }
  exact ⟨hact, b0, b1, hset⟩

theorem itinWords_getD (s : State) (c : Nat) {k : Nat} (hk : k < 16) : (itinWords s c).getD k 0 = BitVec.ofNat 32 (cfg s (oITIN + 64 * c + 4 * k) 4) := by
  rw [itinWords, List.getD_eq_getElem?_getD, List.getElem?_map, List.getElem?_range hk]
  rfl

theorem startItin_spec (s : State) (c : BitVec 2) (img : BitVec 3) (bad : Bool) :
    actBank (startItin s c img bad) = actBank s ∧ ∃ b0 b1, startItin s c img bad = { s with xch := { s.xch with
      load := some (c, img), loadSel := none, loadItin := itinWords s c.toNat, loadTiles := s.core.tileCount, loadBad := bad
      loadLen := BitVec.ofNat 32 (cfg s (oITIN + 64 * c.toNat + 8 * img.toNat + 4) 4)
      loadDesc := BitVec.ofNat 32 (cfg s (oITIN + 64 * c.toNat + 8 * img.toNat) 4)
      bank0 := b0, bank1 := b1 } } := by
  have himg : img.toNat < 8 := img.isLt
  obtain ⟨hact, b0, b1, hpick⟩ := pickImage_spec (s.modXch (fun x => { x with loadItin := itinWords s c.toNat, loadTiles := s.core.tileCount, loadBad := bad })) c img
  refine ⟨hact, b0, b1, ?_⟩
  unfold startItin
  rw [hpick]
  simp only [State.modXch, itinWords_getD s c.toNat (show 2 * img.toNat + 1 < 16 by omega), itinWords_getD s c.toNat (show 2 * img.toNat < 16 by omega)]
  rw [show oITIN + 64 * c.toNat + 8 * img.toNat + 4 = oITIN + 64 * c.toNat + 4 * (2 * img.toNat + 1) by omega,
    show oITIN + 64 * c.toNat + 8 * img.toNat = oITIN + 64 * c.toNat + 4 * (2 * img.toNat) by omega]

/-- The selector word names the image that the load goes on with (13 R312). -/
theorem readSel_spec (s : State) (c : BitVec 2) (a : Nat) :
    actBank (readSel s c a) = actBank s ∧ (readSel s c a).core = s.core ∧
      let n := BitVec.ofNat 3 (memNat s.mem.bytes a 4)
      (readSel s c a).xch.load = some (c, n) ∧ (readSel s c a).xch.loadLen = s.xch.loadItin.getD (2 * n.toNat + 1) 0 ∧
      (readSel s c a).xch.loadDesc = s.xch.loadItin.getD (2 * n.toNat) 0 ∧ (readSel s c a).xch.loadSel = none ∧
      (readSel s c a).xch.loadBad = s.xch.loadBad ∧ (readSel s c a).xch.run = s.xch.run ∧ (readSel s c a).xch.act = s.xch.act ∧
      (readSel s c a).xch.failed = s.xch.failed ∧ (readSel s c a).xch.due = s.xch.due := by
  have hf := touchRead_frame s rqITIN a 8
  have hb := touchRead_bytes s rqITIN a 8
  unfold readSel
  dsimp only
  generalize touchRead s rqITIN a 8 = t at hf hb
  rw [show mWord t a = memNat s.mem.bytes a 4 by rw [mWord, mNat, hb]]
  obtain ⟨hact, b0, b1, hpick⟩ := pickImage_spec t c (BitVec.ofNat 3 (memNat s.mem.bytes a 4))
  have htx : t.xch = s.xch := by rw [hf]
  have htc : t.core = s.core := by rw [hf]
  rw [hact, actBank_congr htx, hpick, htx, htc]
  exact ⟨rfl, rfl, rfl, rfl, rfl, rfl, rfl, rfl, rfl, rfl, rfl⟩

/-! The start of the exchange phase. -/

section
variable {s : State} (hload : s.xch.load = none)
include hload

theorem exchBegin_ready (h : (inactBank s).st = .ready) : exchBegin s = nextLoad (swapped s .run) := by
  rw [exchBegin, hload, h]; rfl

theorem exchBegin_failed (h : (inactBank s).st = .failed) : exchBegin s = setInact (swapped s .bare) {} := by
  rw [exchBegin, hload, h]; rfl

theorem exchBegin_empty (h : (inactBank s).st = .empty) : exchBegin s = s.modXch fun x => { x with run := .bare } := by
  rw [exchBegin, hload, h]; rfl

end

theorem exchBegin_late {s : State} (h : s.xch.load ≠ none) : exchBegin s = raise (s.modXch (fun x => { x with run := .bare, late := true })) fcXCHLATE 10 0 0 := by
  rw [exchBegin, if_pos (Option.isSome_iff_ne_none.mpr h)]

theorem exchStart_begins {s : State} (hon : unitsOn s = true) (hphase : s.core.phase = 2) (hrun : s.xch.run ≠ .switch) :
    exec .exchStart s = .next (exchBegin (s.modCore fun k => { k with phase := 3 })) := by
  rw [show exec .exchStart s = execExchStart s from rfl, execExchStart, whenOn_of (by rw [hon, hphase]; rfl)]
  exact congrArg Host.Outcome.next (if_neg hrun)

/-- The load that the new active header chooses (13 R311, R312). -/
theorem nextLoad_spec (s : State) : (nextLoad s).core = s.core ∧ actBank (nextLoad s) = actBank s ∧ (nextLoad s).xch.act = s.xch.act ∧ (nextLoad s).xch.run = s.xch.run := by
  unfold nextLoad
  dsimp only
  split
  · split
    · obtain ⟨hact, b0, b1, hit⟩ := startItin_spec s s.core.cur 0 true
      rw [hact, hit]
      exact ⟨rfl, rfl, rfl, rfl⟩
    · obtain ⟨hact, b0, b1, hit⟩ := startItin_spec s s.core.cur 0 false
      split
      · refine ⟨?_, hact, ?_, ?_⟩ <;> rw [hit] <;> rfl
      · obtain ⟨hact', hcore, -, -, -, -, -, hrun, hact'', -⟩ := readSel_spec (startItin s s.core.cur 0 false) s.core.cur (actBank s).selAddr.toNat
        rw [hcore, hact', hact, hrun, hact'', hit]
        exact ⟨rfl, rfl, rfl, rfl⟩
  · obtain ⟨hact, b0, b1, hit⟩ := startItin_spec s s.core.cur (actBank s).next false
    rw [hact, hit]
    exact ⟨rfl, rfl, rfl, rfl⟩

theorem nextLoad_next {s : State} (h : (actBank s).selV = false) : nextLoad s = startItin s s.core.cur (actBank s).next false := by
  rw [nextLoad, h]; rfl

section
variable {s : State} (h : (actBank s).selV = true)
include h

theorem nextLoad_outside (hd : dataAt s (actBank s).selAddr.toNat 8 8 = false) : nextLoad s = startItin s s.core.cur 0 true := by
  rw [nextLoad, h, if_pos rfl]
  dsimp only
  rw [hd]; rfl

theorem nextLoad_waits (hd : dataAt s (actBank s).selAddr.toNat 8 8 = true) (hw : memWaits s (actBank s).selAddr.toNat 8 = true) :
    nextLoad s = (startItin s s.core.cur 0 false).modXch (fun x => { x with loadSel := some (actBank s).selAddr }) := by
  rw [nextLoad, h, if_pos rfl]
  dsimp only
  rw [hd, hw]; rfl

theorem nextLoad_reads (hd : dataAt s (actBank s).selAddr.toNat 8 8 = true) (hw : memWaits s (actBank s).selAddr.toNat 8 = false) :
    nextLoad s = readSel (startItin s s.core.cur 0 false) s.core.cur (actBank s).selAddr.toNat := by
  rw [nextLoad, h, if_pos rfl]
  dsimp only
  rw [hd, hw]; rfl

end

/-- A load with its selector word read: its image's words are those of its context (13 R311, R312). -/
theorem readLoad_spec (s : State) (a : Nat) :
    let t := readSel (startItin s s.core.cur 0 false) s.core.cur a
    let n := BitVec.ofNat 3 (memNat s.mem.bytes a 4)
    t.xch.load = some (s.core.cur, n) ∧ t.xch.loadLen = BitVec.ofNat 32 (cfg s (oITIN + 64 * s.core.cur.toNat + 8 * n.toNat + 4) 4) ∧
      t.xch.loadDesc = BitVec.ofNat 32 (cfg s (oITIN + 64 * s.core.cur.toNat + 8 * n.toNat) 4) ∧ t.xch.loadSel = none ∧ t.xch.loadBad = false := by
  obtain ⟨-, b0, b1, hit⟩ := startItin_spec s s.core.cur 0 false
  obtain ⟨-, -, hload, hlen, hdesc, hsel, hbad, -⟩ := readSel_spec (startItin s s.core.cur 0 false) s.core.cur a
  have hmem : (startItin s s.core.cur 0 false).mem = s.mem := by rw [hit]
  have hitin : (startItin s s.core.cur 0 false).xch.loadItin = itinWords s s.core.cur.toNat := by rw [hit]
  have hbad' : (startItin s s.core.cur 0 false).xch.loadBad = false := by rw [hit]
  rw [hmem] at hload hlen hdesc
  rw [hitin] at hlen hdesc
  intro t n
  have hn : n.toNat < 8 := n.isLt
  refine ⟨hload, hlen.trans ?_, hdesc.trans ?_, hsel, hbad.trans hbad'⟩
  · rw [itinWords_getD s _ (show 2 * n.toNat + 1 < 16 by omega),
      show oITIN + 64 * s.core.cur.toNat + 8 * n.toNat + 4 = oITIN + 64 * s.core.cur.toNat + 4 * (2 * n.toNat + 1) by omega]
  · rw [itinWords_getD s _ (show 2 * n.toNat < 16 by omega),
      show oITIN + 64 * s.core.cur.toNat + 8 * n.toNat = oITIN + 64 * s.core.cur.toNat + 4 * (2 * n.toNat) by omega]

/-! Entries. -/

section
variable {s : State} {e : XEnt} (hbeat : beatOf s e = 0) (hlatch : latchOf s e.num = none) (hclean : slotErrOf s s.xch.act e.num.toNat = .clean)
include hbeat hlatch hclean

/-- An entry whose slot is clean runs, unless another of its direction does, or it was written too late (13 R316). -/
theorem startEnt_clean : startEnt s e = if e.gone then s
    else if overlapped s e then (setBeat s e e.beats).modXch (fun x => { x with skips := x.skips + 1 })
    else s.modXch (fun x => { x with latched := tabSet none x.latched e.num.toNat (some e) }) := by
  unfold startEnt
  rw [hbeat, hlatch, hclean]
  cases e.gone <;> rfl

end

/-! Beats sent. -/

theorem touchRead_sameMem (s : State) (req a n : Nat) : (touchRead s req a n).xch = s.xch ∧ (touchRead s req a n).core = s.core ∧
    (touchRead s req a n).mem.bytes = s.mem.bytes := by
  refine ⟨?_, ?_, touchRead_bytes ..⟩ <;> rw [touchRead_frame]

theorem countXun_kept (s : State) (a : Nat) : (countXun s a).xch = s.xch ∧ (countXun s a).core = s.core ∧ (countXun s a).mem.bytes = s.mem.bytes ∧
    (countXun s a).mem.ecc = s.mem.ecc := by
  unfold countXun
  split <;> exact ⟨rfl, rfl, rfl, rfl⟩

/-- A reading that meets an error leaves a fault that stands recorded. -/
theorem eccFold_cont (req : Nat) (l : List (Nat × EccErr)) {s : State} (h : s.flt.cont = true) : (l.foldl (eccRdOne req) s).flt.cont = true := by
  induction l generalizing s with
  | nil => exact h
  | cons p l ih =>
    refine ih ?_
    unfold eccRdOne
    split
    · exact h
    · exact h
    · exact raise_cont ..

theorem touchRead_cont {s : State} (h : s.flt.cont = true) (req a n : Nat) : (touchRead s req a n).flt.cont = true := by
  unfold touchRead
  rw [serve_frame]
  exact eccFold_cont req _ h

/-- A beat that is sent: what is driven, and what else changes (13 R317, R321). -/
theorem sendBeat_spec (s : State) (e : XEnt) (o : Nat) :
    (sendBeat s e o).xch.out = some {
        data := if s.mem.zeroing then 0 else BitVec.ofNat 256 (memNat s.mem.bytes (e.addr + 32 * (o - e.off)) 32)
        src := s.core.tileId, ent := e.num, beat := BitVec.ofNat 16 (o - e.off), rt := e.route, mc := e.mcast } ∧
      (sendBeat s e o).xch.beatsOut = s.xch.beatsOut + 1 ∧ beatOf (sendBeat s e o) e = o - e.off + 1 ∧ SameBytes s (sendBeat s e o) ∧
      (sendBeat s e o).xch.coll = s.xch.coll ∧ (sendBeat s e o).xch.collOff = s.xch.collOff ∧ (sendBeat s e o).xch.due = s.xch.due ∧
      (s.flt.cont = true → (sendBeat s e o).flt.cont = true) := by
  unfold sendBeat
  extract_lets k a v d w
  have hv : v.xch = s.xch ∧ v.core = s.core ∧ v.mem.bytes = s.mem.bytes ∧ (s.flt.cont = true → v.flt.cont = true) := by
    unfold v
    split
    · exact ⟨rfl, rfl, rfl, id⟩
    · obtain ⟨hx, hc, hb⟩ := touchRead_sameMem s rqXCH a 32
      obtain ⟨hx', hc', hb', -⟩ := countXun_kept (touchRead s rqXCH a 32) a
      refine ⟨hx'.trans hx, hc'.trans hc, hb'.trans hb, fun h => ?_⟩
      unfold countXun
      split <;> exact touchRead_cont h ..
  obtain ⟨hx, hc, hb, hcont⟩ := hv
  have hd : d = if s.mem.zeroing then 0 else memNat s.mem.bytes a 32 := by
    unfold d
    rw [mNat, hb]
  have hend := endBeat_beat w e k
  have hendx := endBeat_xch w e k
  have hw : w.xch = { s.xch with
      beatsOut := s.xch.beatsOut + 1
      out := some { data := BitVec.ofNat 256 d, src := s.core.tileId, ent := e.num, beat := BitVec.ofNat 16 k, rt := e.route, mc := e.mcast } } := by
    unfold w
    rw [State.modXch_xch, hx, hc]
  have hout : (endBeat w e k).xch = { w.xch with nextBeat := (setBeat w e (k + 1)).xch.nextBeat } := hendx
  refine ⟨?_, ?_, beatOf_endBeat w e k, fun x => ?_, ?_, ?_, ?_, fun h => hend.cont (hcont h)⟩
  · refine (congrArg Xch.out (hout.trans (by rw [hw])) :).trans ?_
    rw [hd]
    split <;> rfl
  · exact (congrArg Xch.beatsOut (hout.trans (by rw [hw])) :)
  · rw [show (spend (endBeat w e k) 6 1).mem = w.mem from hend.mem]
    exact congrArg (fun m => memByte m x) hb
  · exact (congrArg Xch.coll (hout.trans (by rw [hw])) :)
  · exact (congrArg Xch.collOff (hout.trans (by rw [hw])) :)
  · exact (congrArg Xch.due (hout.trans (by rw [hw])) :)

theorem exchRuns_of {s : State} (hphase : s.core.phase = 3) (hrun : s.xch.run = .run) : exchRuns s = true := by
  rw [exchRuns, hphase, hrun]; rfl

theorem exchSendBeat_does {s : State} (hon : unitsOn s = true) (hphase : s.core.phase = 3) (hrun : s.xch.run = .run) (off : Word) :
    exec (.exchSendBeat off) s = .next ((openEnt (startAll (catchUp s off.toNat) false (off.toNat + 1)) false off.toNat).elim
      (startAll (catchUp s off.toNat) false (off.toNat + 1)) fun e => sendBeat (startAll (catchUp s off.toNat) false (off.toNat + 1)) e off.toNat) := by
  rw [show exec (.exchSendBeat off) s = execExchSendBeat off s from rfl, execExchSendBeat]
  rw [whenOn_of (by rw [hon, exchRuns_of hphase hrun]; rfl)]
  cases openEnt (startAll (catchUp s off.toNat) false (off.toNat + 1)) false off.toNat <;> rfl

/-- The state at an offset, with the entries of one direction started. -/
theorem startedAt_port (s : State) (recv : Bool) (o : Nat) : PortFrame s (startAll (catchUp s o) recv (o + 1)) :=
  (catchUp_port ..).trans (startAll_start ..).toPortFrame

/-! Beats received. -/

/-- A receive failure counts, and the first one is kept (13 R319). -/
theorem recvFail_xch (s : State) (cause ent : Nat) (off : Word) (src : BitVec 20) (sent : BitVec 10) (beat : Half) :
    (recvFail s cause ent off src sent beat).xch.rerrs = s.xch.rerrs + 1 ∧ (recvFail s cause ent off src sent beat).xch.rerr = true ∧
      (recvFail s cause ent off src sent beat).xch.failed = true ∧ (s.xch.rerr = false →
        (recvFail s cause ent off src sent beat).xch.rerrCause = BitVec.ofNat 2 cause ∧ (recvFail s cause ent off src sent beat).xch.rerrOff = off) := by
  have hx : (recvFail s cause ent off src sent beat).xch =
      { (if s.xch.rerr then s.xch else { s.xch with
        rerr := true, rerrCause := BitVec.ofNat 2 cause, rerrEnt := BitVec.ofNat 10 ent, rerrOff := off, rerrSrc := src
        rerrSent := sent, rerrBeat := beat }) with rerrs := s.xch.rerrs + 1, failed := true } := by
    unfold recvFail
    dsimp only
    split
    · rfl
    · rw [raise_frame]; rfl
  rw [hx]
  cases hr : s.xch.rerr
  · exact ⟨rfl, rfl, rfl, fun _ => ⟨rfl, rfl⟩⟩
  · exact ⟨rfl, hr, rfl, fun h => absurd h.symm Bool.false_ne_true⟩

theorem exchRecvBeat_checks {s : State} (hon : unitsOn s = true) (hphase : s.core.phase = 3) (hdisc : beatDiscarded s = false) (off : Word) (x : XchBeat) :
    exec (.exchRecvBeat off x) s = .next (spend (checkBeat (catchUp s off.toNat) off x) 6 1) := by
  rw [show exec (.exchRecvBeat off x) s = execExchRecvBeat off x s from rfl, execExchRecvBeat, whenOn_of hon, hdisc, if_neg Bool.false_ne_true,
    if_neg (by rw [hphase]; decide), if_neg (by rw [hphase]; decide)]

section
variable {t : State} (hruns : exchRuns t = true) (off : Word) (x : XchBeat)
include hruns

theorem checkBeat_closed (h : openEnt (startAll t true (off.toNat + 1)) true off.toNat = none) :
    checkBeat t off x = recvFail (startAll t true (off.toNat + 1)) 2 0 off x.src x.ent x.beat := by
  unfold checkBeat
  simp only [hruns, if_true, h]

theorem checkBeat_open {e : XEnt} (h : openEnt (startAll t true (off.toNat + 1)) true off.toNat = some e) :
    checkBeat t off x =
      let u := startAll t true (off.toNat + 1)
      let k := off.toNat - e.off
      let fail := fun cause => endBeat (recvFail u cause e.num.toNat off x.src x.ent x.beat) e k
      if x.src ≠ e.route ∨ x.ent ≠ e.sent then fail 1
      else if x.beat.toNat < k then fail 2
      else if k < x.beat.toNat then fail 3
      else endBeat ((landBeat u e k x).modXch (fun y => { y with beatsIn := y.beatsIn + 1 })) e k := by
  unfold checkBeat
  simp only [hruns, if_true, h]

end

/-- The entry that does a beat at an offset has that offset in its window. -/
theorem openEnt_holds {s : State} {recv : Bool} {o : Nat} {e : XEnt} (h : openEnt s recv o = some e) : e.off ≤ o := by
  have hh := List.find?_some h
  simp only [XEnt.holds, Bool.and_eq_true, decide_eq_true_eq] at hh
  exact hh.1.1

/-- What a failing beat leaves. -/
theorem failedBeat_spec (u : State) (e : XEnt) (k cause : Nat) (off : Word) (x : XchBeat) :
    let t := endBeat (recvFail u cause e.num.toNat off x.src x.ent x.beat) e k
    SameBytes u t ∧ t.xch.rerrs = u.xch.rerrs + 1 ∧ t.xch.rerr = true ∧ t.xch.failed = true ∧ beatOf t e = k + 1 ∧
      (u.xch.rerr = false → t.xch.rerrCause = BitVec.ofNat 2 cause ∧ t.xch.rerrOff = off) := by
  intro t
  have hport := ((recvFail_beat u cause e.num.toNat off x.src x.ent x.beat).trans (endBeat_beat _ e k)).toPortFrame
  obtain ⟨hcount, herr, hfailed, hfirst⟩ := recvFail_xch u cause e.num.toNat off x.src x.ent x.beat
  have hx : t.xch = _ := endBeat_xch ..
  refine ⟨hport.sameBytes, ?_, ?_, ?_, beatOf_endBeat .., ?_⟩ <;> rw [hx]
  · exact hcount
  · exact herr
  · exact hfailed
  · exact hfirst

/-- A beat that lands is written, and nothing else (13 R319; 07 R172). -/
theorem landedBeat_spec {u : State} {e : XEnt} {o : Nat} (hopen : openEnt u true o = some e) (x : XchBeat) (hz : u.mem.zeroing = false) (hd : NoDouble u)
    (hmeets : (sendBanks u (o + 1)).contains (bankOf (e.addr + 32 * (o - e.off))) = false) (htop : e.addr + 32 * (o - e.off) + 32 ≤ memTop) :
    let t := endBeat ((landBeat u e (o - e.off) x).modXch (fun y => { y with beatsIn := y.beatsIn + 1 })) e (o - e.off)
    Stored u t (e.addr + 32 * (o - e.off)) (leBytes 32 x.data) ∧ t.xch.beatsIn = u.xch.beatsIn + 1 ∧ t.xch.rerrs = u.xch.rerrs ∧
      beatOf t e = o - e.off + 1 := by
  intro t
  have hnext : e.off + (o - e.off) + 1 = o + 1 := by
    have := openEnt_holds hopen
    omega
  obtain ⟨cx, -, cb, ce⟩ := countXun_kept u (e.addr + 32 * (o - e.off))
  have hst : Stored (countXun u (e.addr + 32 * (o - e.off))) (memWr (countXun u (e.addr + 32 * (o - e.off))) rqXCH (e.addr + 32 * (o - e.off)) (leBytes 32 x.data))
      (e.addr + 32 * (o - e.off)) (leBytes 32 x.data) := memWr_stored rqXCH (by rw [leBytes_length]; exact htop) ((hd.of_ecc ce).hasDouble ..)
  have hwx : (memWr (countXun u (e.addr + 32 * (o - e.off))) rqXCH (e.addr + 32 * (o - e.off)) (leBytes 32 x.data)).xch = u.xch := by
    rw [memWr_frame]
    exact cx
  have hland : landBeat u e (o - e.off) x = creditXin (memWr (countXun u (e.addr + 32 * (o - e.off))) rqXCH (e.addr + 32 * (o - e.off)) (leBytes 32 x.data))
      (e.addr + 32 * (o - e.off)) e.num.toNat (o - e.off) (leBytes 32 x.data) := by
    unfold landBeat
    dsimp only
    rw [hz, if_neg Bool.false_ne_true, hnext, hmeets, if_neg Bool.false_ne_true]
  have hx : t.xch = _ := endBeat_xch ..
  have hmem : t.mem = _ := (endBeat_beat ..).mem
  rw [hland] at hx hmem
  generalize memWr (countXun u (e.addr + 32 * (o - e.off))) rqXCH (e.addr + 32 * (o - e.off)) (leBytes 32 x.data) = w at hst hwx hx hmem
  replace hmem : t.mem = w.mem := hmem
  have hkept : t.xch.beatsIn = w.xch.beatsIn + 1 ∧ t.xch.rerrs = w.xch.rerrs := by
    rw [hx]
    exact ⟨rfl, rfl⟩
  rw [hwx] at hkept
  refine ⟨fun y => ?_, hkept.1, hkept.2, beatOf_endBeat ..⟩
  rw [hmem, hst y, cb]

/-- A beat whose bank the next send reads is discarded, and the collision is due behind that c-cycle (13 R321). -/
theorem collidingBeat_spec {u : State} {e : XEnt} {o : Nat} (hopen : openEnt u true o = some e) (x : XchBeat) (hz : u.mem.zeroing = false)
    (hmeets : (sendBanks u (o + 1)).contains (bankOf (e.addr + 32 * (o - e.off))) = true) :
    let t := endBeat ((landBeat u e (o - e.off) x).modXch (fun y => { y with beatsIn := y.beatsIn + 1 })) e (o - e.off)
    SameBytes u t ∧ t.xch.due = u.xch.due ++ [(o + 1, 0x21)] ∧ t.xch.coll = u.xch.coll ∧ beatOf t e = o - e.off + 1 := by
  intro t
  have hnext : e.off + (o - e.off) + 1 = o + 1 := by
    have := openEnt_holds hopen
    omega
  have hland : landBeat u e (o - e.off) x = dueFault u (o + 1) fcXCHCOLLIDE := by
    unfold landBeat
    dsimp only
    rw [hz, if_neg Bool.false_ne_true, hnext, hmeets, if_pos rfl]
  have hx : t.xch = _ := endBeat_xch ..
  refine ⟨fun y => ?_, ?_, ?_, beatOf_endBeat ..⟩
  · refine (congrArg (fun m : Mem => memByte m.bytes y) (endBeat_beat ..).mem).trans ?_
    rw [hland]
    rfl
  · rw [hx, hland]; rfl
  · rw [hx, hland]; rfl

/-! Collisions that are due. -/

theorem dueFold_collides (o : Nat) (l : List (Nat × Nat)) : ∀ t : State, (∀ d ∈ l, d = (o, fcXCHCOLLIDE) ∨ d.2 ≠ fcXCHCOLLIDE) →
    (o, fcXCHCOLLIDE) ∈ l ∨ t.xch.coll = true ∧ t.flt.cont = true →
    (l.foldl dueStep t).xch.coll = true ∧ (l.foldl dueStep t).flt.cont = true ∧
      (t.xch.coll = true → (l.foldl dueStep t).xch.collOff = t.xch.collOff) ∧
      (t.xch.coll = false → (l.foldl dueStep t).xch.collOff = BitVec.ofNat 32 o) := by
  induction l with
  | nil =>
    intro t _ h
    obtain ⟨hc, hcont⟩ := h.resolve_left List.not_mem_nil
    exact ⟨hc, hcont, fun _ => rfl, fun h => absurd (hc.symm.trans h) (by decide)⟩
  | cons d l ih =>
    intro t hl h
    obtain ⟨hd, hrest⟩ := List.forall_mem_cons.mp hl
    obtain ⟨u, hb, he⟩ := dueStep_beat t d
    obtain ⟨-, hcont, -, hkept, hmeets, hother⟩ := raiseDue_port u d
    rw [List.foldl_cons, he]
    rw [hb.coll, hb.collOff] at hkept hother
    rw [hb.coll] at hmeets
    rcases hd with rfl | hd
    · obtain ⟨hcoll, hoff⟩ := hmeets rfl
      obtain ⟨hcoll', hcont', hoff', -⟩ := ih _ hrest (.inr ⟨hcoll, hcont⟩)
      exact ⟨hcoll', hcont', fun h => (hoff' hcoll).trans (hkept h).2, fun h => (hoff' hcoll).trans (hoff h)⟩
    · obtain ⟨hcoll, hoff⟩ := hother hd
      have hmem : (o, fcXCHCOLLIDE) ∈ l ∨ (raiseDue u d).xch.coll = true ∧ (raiseDue u d).flt.cont = true := by
        refine h.imp (fun hin => ?_) fun hc => ⟨hcoll.trans hc.1, hcont⟩
        rcases List.mem_cons.mp hin with rfl | hin
        · exact absurd rfl hd
        · exact hin
      obtain ⟨hcoll', hcont', hkept', hnew⟩ := ih _ hrest hmem
      exact ⟨hcoll', hcont', fun h => (hkept' (hcoll.trans h)).trans hoff, fun h => hnew (hcoll.trans h)⟩

theorem settleDue_collides {s : State} {o off : Nat} (hin : (o, fcXCHCOLLIDE) ∈ s.xch.due) (hall : ∀ d ∈ s.xch.due, d = (o, fcXCHCOLLIDE) ∨ d.2 ≠ fcXCHCOLLIDE)
    (ho : o < off) : (settleDue s off).xch.coll = true ∧ (settleDue s off).flt.cont = true ∧
      (s.xch.coll = false → (settleDue s off).xch.collOff = BitVec.ofNat 32 o) ∧ (o, fcXCHCOLLIDE) ∉ (settleDue s off).xch.due := by
  obtain ⟨hcoll, hcont, -, hoff⟩ := dueFold_collides o (byDue (s.xch.due.filter (fun d => decide (d.1 < off))))
    (s.modXch (fun x => { x with due := x.due.filter (fun d => !decide (d.1 < off)) }))
    (fun d hd => hall d (List.mem_filter.mp (mem_byDue.mp hd)).1)
    (.inl (mem_byDue.mpr (List.mem_filter.mpr ⟨hin, decide_eq_true ho⟩)))
  refine ⟨hcoll, hcont, hoff, fun h => ?_⟩
  rw [(settleDue_port s off).2] at h
  have := (List.mem_filter.mp h).2
  simp [ho] at this

/-- A collision is captured and recorded when its c-cycle is over (13 R321). -/
theorem catchUp_collides {s : State} {o off : Nat} (hruns : exchRuns s = true) (hdue : s.xch.due = [(o, fcXCHCOLLIDE)]) (ho : o < off) :
    (catchUp s off).xch.coll = true ∧ (catchUp s off).flt.cont = true ∧ (s.xch.coll = false → (catchUp s off).xch.collOff = BitVec.ofNat 32 o) ∧
      (o, fcXCHCOLLIDE) ∉ (catchUp s off).xch.due := by
  unfold catchUp
  rw [if_pos hruns]
  dsimp only
  have hst := startAll_start (s.modXch (fun x => { x with seen := max x.seen (off + 1) })) true off
  generalize startAll (s.modXch (fun x => { x with seen := max x.seen (off + 1) })) true off = t at hst
  obtain ⟨l, hl, hl'⟩ := hst.due
  have htdue : t.xch.due = (o, fcXCHCOLLIDE) :: l := by rw [hl]; exact congrArg (· ++ l) hdue
  obtain ⟨hcoll, hcont, hoff, hnot⟩ := settleDue_collides (s := t) (off := off) (by rw [htdue]; exact List.mem_cons_self ..)
    (fun d hd => by
      rw [htdue] at hd
      rcases List.mem_cons.mp hd with rfl | hd
      · exact .inl rfl
      · exact .inr (by rw [hl' d hd]; decide)) ho
  have hb := catchAll_beat (settleDue t off) off
  exact ⟨hb.coll.trans hcoll, hb.cont hcont, fun h => hb.collOff.trans (hoff (hst.coll.trans h)), by rw [hb.due]; exact hnot⟩

/-! Loads. -/

theorem readImage_ok {s : State} {c : BitVec 2} {img : BitVec 3} {b : XBank} (h : readImage s c img = .ok b) :
    b.st = .ready ∧ b.image = img ∧ b.exchLen = s.xch.loadLen := by
  unfold readImage at h
  dsimp only at h
  split at h
  · exact absurd h nofun
  · split at h
    · exact absurd h nofun
    · split at h
      · exact absurd h nofun
      · split at h
        · exact absurd h nofun
        · injection h with h
          subst h
          exact ⟨rfl, rfl, rfl⟩

theorem cleanSlots_frame (act : Bool) (l : List XEnt) (s : State) :
    ∃ z, l.foldl (fun t e => cleanSlot t act e.num.toNat) s = { s with xch := { s.xch with slotErr := z } } := by
  induction l generalizing s with
  | nil => exact ⟨_, rfl⟩
  | cons e l ih =>
    obtain ⟨z, hz⟩ := ih (cleanSlot s act e.num.toNat)
    exact ⟨z, hz⟩

/-- A loaded image fills the inactive bank (13 R313). -/
theorem fillBank_spec (s : State) (b : XBank) : inactBank (fillBank s b) = b ∧ actBank (fillBank s b) = actBank s ∧
    ∃ b0 b1 z, fillBank s b = { s with xch := { s.xch with bank0 := b0, bank1 := b1, slotErr := z } } := by
  obtain ⟨hin, hact, b0, b1, hset⟩ := setInact_spec s b
  obtain ⟨z, hz⟩ := cleanSlots_frame (!s.xch.act) b.ents (setInact s b)
  change fillBank s b = _ at hz
  rw [hz]
  refine ⟨hin, hact, b0, b1, z, ?_⟩
  rw [hset]

/-- A failing image leaves an empty, failed bank, its failure captured (13 R313). -/
theorem itinFail_spec (s : State) (cause ent : Nat) :
    (inactBank (itinFail s cause ent)).st = .failed ∧ (inactBank (itinFail s cause ent)).ents = [] ∧ actBank (itinFail s cause ent) = actBank s ∧
      (itinFail s cause ent).xch.load = none ∧ (itinFail s cause ent).xch.lerr = true ∧ (itinFail s cause ent).flt.cont = true ∧
      (s.xch.lerr = false → (itinFail s cause ent).xch.lerrCause = BitVec.ofNat 3 cause ∧ (itinFail s cause ent).xch.lerrEnt = BitVec.ofNat 10 ent) ∧
      (itinFail s cause ent).mem = s.mem := by
  obtain ⟨hin, hact, b0, b1, hset⟩ := setInact_spec (s.modXch fun x => { x with load := none }) { inactBank s with st := .failed, ents := [] }
  have hcont : (itinFail s cause ent).flt.cont = true := raise_cont ..
  have hx : (itinFail s cause ent).xch = (if s.xch.lerr then (setInact (s.modXch fun x => { x with load := none }) { inactBank s with st := .failed, ents := [] }).xch
      else { (setInact (s.modXch fun x => { x with load := none }) { inactBank s with st := .failed, ents := [] }).xch with
        lerr := true, lerrCause := BitVec.ofNat 3 cause, lerrEnt := BitVec.ofNat 10 ent, lerrImg := (inactBank s).image }) ∧ (itinFail s cause ent).mem = s.mem := by
    unfold itinFail
    dsimp only
    rw [raise_frame]
    refine ⟨?_, by rw [hset]; rfl⟩
    rw [State.modXch_xch, hset]
    rfl
  obtain ⟨hx, hmem⟩ := hx
  have hbanks : inactBank (itinFail s cause ent) = inactBank (setInact (s.modXch fun x => { x with load := none }) { inactBank s with st := .failed, ents := [] }) ∧
      actBank (itinFail s cause ent) = actBank (setInact (s.modXch fun x => { x with load := none }) { inactBank s with st := .failed, ents := [] }) := by
    unfold inactBank actBank
    rw [hx]
    split <;> exact ⟨rfl, rfl⟩
  obtain ⟨hinact, hactb⟩ := hbanks
  rw [hinact, hactb, hin, hact, hx, hset, hmem]
  cases hl : s.xch.lerr
  · exact ⟨rfl, rfl, rfl, rfl, rfl, hcont, fun _ => ⟨rfl, rfl⟩, rfl⟩
  · exact ⟨rfl, rfl, rfl, rfl, hl, hcont, fun h => absurd h.symm Bool.false_ne_true, rfl⟩

section
variable {s : State} {c : BitVec 2} {img : BitVec 3} (hon : unitsOn s = true) (hload : s.xch.load = some (c, img)) (hsel : s.xch.loadSel = none)
  (hw : spansWait s (loadSpans s) = false) (cyc : Word)
include hon hload hsel hw

theorem itinLoadDone_fills {b : XBank} (hb : readImage s c img = .ok b) :
    exec (.itinLoadDone cyc) s = .next ((fillBank (touchSpans s rqITIN (loadSpans s)) b).modXch
      (fun x => { x with load := none, loads := x.loads + 1, loadCyc := cyc })) := by
  rw [show exec (.itinLoadDone cyc) s = execItinLoadDone cyc s from rfl, execItinLoadDone, hload]
  dsimp only
  rw [whenMem_goes (by rw [hon, hsel]; rfl) hw, hb]

theorem itinLoadDone_fails {e : Nat × Nat} (hb : readImage s c img = .error e) :
    exec (.itinLoadDone cyc) s = .next (itinFail (touchSpans s rqITIN (loadSpans s)) e.1 e.2) := by
  rw [show exec (.itinLoadDone cyc) s = execItinLoadDone cyc s from rfl, execItinLoadDone, hload]
  dsimp only
  rw [whenMem_goes (by rw [hon, hsel]; rfl) hw, hb]

end

/-! Test writes. -/

/-- The entries of a bank with one that takes its number's place. -/
def placed (l : List XEnt) (n : Nat) (e : XEnt) : List XEnt :=
  if l.any (fun y => decide (y.num.toNat = n)) then l.map (fun y => if y.num.toNat = n then e else y) else l ++ [e]

theorem mem_placed (l : List XEnt) (n : Nat) (e : XEnt) : e ∈ placed l n e := by
  unfold placed
  split
  next h =>
    obtain ⟨y, hy, hn⟩ := List.any_eq_true.mp h
    exact List.mem_map.mpr ⟨y, hy, if_pos (of_decide_eq_true hn)⟩
  next => exact List.mem_append_right _ (List.mem_singleton_self e)

/-- The bank that XCH_TSEL names, and the entry that XCH_TDATA gives (13 R316). -/
def selBank (s : State) : XBank := if s.xch.tselBank then s.xch.bank1 else s.xch.bank0
def testWord (s : State) (i : Nat) : Nat := (tabGet (0 : Word) s.xch.tdata i).toNat
def testEntry (s : State) : XEnt :=
  { entryWords s s.core.cur.toNat s.xch.tselEnt.toNat (testWord s) with
    test := true, gone := decide (s.xch.tselBank = s.xch.act) && exchRuns s && decide (testWord s 0 < s.xch.seen) }

/-- A test write is allowed, and its entry passes its checks. -/
def testOk (s : State) : Bool :=
  s.xch.testEn && decide (s.sec.state = 0) && decide (entryCause s s.core.cur.toNat (selBank s).exchLen.toNat 0 (testWord s) = 0)

theorem testWrite_eq (s : State) : testWrite s =
    if testOk s then (cleanSlot s s.xch.tselBank s.xch.tselEnt.toNat).modXch (fun x =>
      if x.tselBank then { x with bank1 := { selBank s with ents := placed (selBank s).ents s.xch.tselEnt.toNat (testEntry s) } }
      else { x with bank0 := { selBank s with ents := placed (selBank s).ents s.xch.tselEnt.toNat (testEntry s) } })
    else s.modXch (fun x => { x with trej := true }) := rfl

theorem testWrite_ok {s : State} (h : testOk s = true) : testWrite s = { s with xch := (testWrite s).xch } ∧
    (testWrite s).xch.trej = s.xch.trej ∧ testEntry s ∈ (if s.xch.tselBank then (testWrite s).xch.bank1 else (testWrite s).xch.bank0).ents := by
  have hsel : (cleanSlot s s.xch.tselBank s.xch.tselEnt.toNat).xch.tselBank = s.xch.tselBank := rfl
  rw [testWrite_eq, if_pos h]
  refine ⟨rfl, ?_, ?_⟩ <;> simp only [State.modXch_xch, hsel] <;> cases s.xch.tselBank
  · rfl
  · rfl
  · exact mem_placed ..
  · exact mem_placed ..

/-! The obligation. -/

/-- Settles O49: each c-cycle by what its entries, its beats and its faults can touch. -/
theorem exchangePort : Obligations.ExchangePort := by
  unfold Obligations.ExchangePort
  refine ⟨?_, ?_, ?_, ?_, ?_, ?_, ?_, ?_, ?_⟩
  · intro s hon hphase hrun words
    have hexec := exchStart_begins hon hphase hrun
    refine ⟨fun hload hst => ?_, fun hload hst => ?_, fun hload hst => ?_, fun hload => ?_⟩
    · rw [exchBegin_ready (s := s.modCore fun k => { k with phase := 3 }) hload hst] at hexec
      have hb : actBank (swapped (s.modCore fun k => { k with phase := 3 }) .run) = inactBank s := actBank_swapped (s.modCore fun k => { k with phase := 3 }) .run
      generalize hu : swapped (s.modCore fun k => { k with phase := 3 }) .run = u at hexec hb
      obtain ⟨hcore, hact, hflag, hxrun⟩ := nextLoad_spec u
      have hda : dataAt u (inactBank s).selAddr.toNat 8 8 = dataAt s (inactBank s).selAddr.toNat 8 8 := by rw [← hu]; rfl
      have hmw : memWaits u (inactBank s).selAddr.toNat 8 = memWaits s (inactBank s).selAddr.toNat 8 := by rw [← hu]; rfl
      refine ⟨_, hexec, by rw [hcore, ← hu]; rfl, by rw [hflag, ← hu]; rfl, by rw [hxrun, ← hu]; rfl, hact.trans hb, fun hsel => ?_, fun hsel => ⟨fun hd => ?_, fun hd hw => ?_, fun hd hw => ?_⟩⟩
      · obtain ⟨-, b0, b1, hit⟩ := startItin_spec u u.core.cur (actBank u).next false
        rw [nextLoad_next (by rw [hb]; exact hsel), hit, hb, ← hu]
        exact ⟨rfl, rfl, rfl, rfl, rfl⟩
      · obtain ⟨-, b0, b1, hit⟩ := startItin_spec u u.core.cur 0 true
        rw [nextLoad_outside (by rw [hb]; exact hsel) (by rw [hb, hda]; exact hd), hit]
      · have hnext := nextLoad_reads (s := u) (by rw [hb]; exact hsel) (by rw [hb, hda]; exact hd) (by rw [hb, hmw]; exact hw)
        rw [hb] at hnext
        rw [hnext]
        have hread := readLoad_spec u (inactBank s).selAddr.toNat
        rw [← hu] at hread ⊢
        exact hread
      · obtain ⟨-, b0, b1, hit⟩ := startItin_spec u u.core.cur 0 false
        rw [nextLoad_waits (by rw [hb]; exact hsel) (by rw [hb, hda]; exact hd) (by rw [hb, hmw]; exact hw), hit, hb]
        refine ⟨rfl, rfl, fun k hk => (itinWords_getD u u.core.cur.toNat hk).trans ?_⟩
        rw [← hu]; rfl
    · rw [exchBegin_failed (s := s.modCore fun k => { k with phase := 3 }) hload hst] at hexec
      obtain ⟨hin, hact, b0, b1, hset⟩ := setInact_spec (swapped (s.modCore fun k => { k with phase := 3 }) .bare) {}
      refine ⟨_, hexec, by rw [hset]; rfl, by rw [hset]; rfl, by rw [hset]; rfl, hact.trans (actBank_swapped (s.modCore fun k => { k with phase := 3 }) .bare), by rw [hin], by rw [hin]⟩
    · rw [exchBegin_empty (s := s.modCore fun k => { k with phase := 3 }) hload hst] at hexec
      exact ⟨_, hexec, rfl, rfl⟩
    · rw [exchBegin_late (s := s.modCore fun k => { k with phase := 3 }) hload] at hexec
      refine ⟨_, hexec, ?_, ?_, raise_cont ..⟩ <;> rw [raise_frame] <;> rfl
  · intro s hon hphase hrun
    rw [show exec .exchStart s = execExchStart s from rfl, execExchStart, whenOn_of (by rw [hon, hphase]; rfl)]
    exact congrArg Host.Outcome.next (if_pos hrun)
  · intro s e hbeat hlatch hclean t
    have ht : t = _ := startEnt_clean hbeat hlatch hclean
    refine ⟨?_, fun hg => ?_, fun hg ho => ?_, fun hg ho => ?_⟩
    · rw [ht]
      split
      · rfl
      · split <;> rfl
    · rw [ht, if_pos hg]
    · rw [hg, if_neg Bool.false_ne_true, if_pos ho] at ht
      rw [ht]
      exact ⟨hlatch, beatOf_setBeat .., rfl⟩
    · rw [hg, if_neg Bool.false_ne_true, ho, if_neg Bool.false_ne_true] at ht
      rw [ht]
      exact ⟨(tabGet_set_same (none : Option XEnt) s.xch.latched e.num.toNat (some e) :), hbeat, rfl⟩
  · intro s off hon hphase hrun u
    have hport : PortFrame s u := startedAt_port s false off.toNat
    have hexec := exchSendBeat_does hon hphase hrun off
    refine ⟨fun e hopen => ?_, fun hopen => ?_⟩
    · intro k
      rw [show openEnt (startAll _ false (off.toNat + 1)) false off.toNat = some e from hopen] at hexec
      obtain ⟨hout, hcount, hbeat, hbytes, -⟩ := sendBeat_spec u e off.toNat
      refine ⟨_, _, hexec, hout, by rw [hport.core], rfl, rfl, rfl, rfl, by rw [hport.mem], hcount.trans (by rw [hport.beatsOut]), hbeat, fun a => ?_⟩
      exact (hbytes a).trans (hport.sameBytes a)
    · rw [show openEnt (startAll _ false (off.toNat + 1)) false off.toNat = none from hopen] at hexec
      exact ⟨hexec, hport.sameBytes⟩
  · intro s off x hon hphase hrun hdisc hz hd u
    have hport : PortFrame s u := startedAt_port s true off.toNat
    have hruns : exchRuns (catchUp s off.toNat) = true := (catchUp_port ..).exchRuns.trans (exchRuns_of hphase hrun)
    have hexec := exchRecvBeat_checks hon hphase hdisc off x
    have hud : NoDouble u := hd.of_ecc (by rw [hport.mem])
    have huz : u.mem.zeroing = false := by rw [hport.mem]; exact hz
    refine ⟨fun e hopen => ?_, fun hopen => ?_⟩
    · intro k a meets fails
      rw [checkBeat_open hruns off x hopen] at hexec
      dsimp only at hexec
      have hfails (cause : Nat) (he : exec (.exchRecvBeat off x) s = .next (spend (endBeat (recvFail u cause e.num.toNat off x.src x.ent x.beat) e k) 6 1)) :
          fails (BitVec.ofNat 2 cause) := by
        obtain ⟨hbytes, hcount, herr, hfailed, hbeat, hfirst⟩ := failedBeat_spec u e k cause off x
        exact ⟨_, he, fun y => (hbytes y).trans (hport.sameBytes y), hcount, herr, hfailed, hbeat, hfirst⟩
      refine ⟨fun hsrc hent hb hm htop => ?_, fun hsrc hent hb hm => ?_, fun hne => ?_, fun hsrc hent hb => ?_, fun hsrc hent hb => ?_⟩
      · rw [if_neg (by simp [hsrc, hent]), if_neg (by omega), if_neg (by omega)] at hexec
        obtain ⟨hst, hcount, herrs, hbeat⟩ := landedBeat_spec hopen x huz hud hm htop
        refine ⟨_, hexec, fun y => (hst y).trans ?_, hcount, herrs, hbeat⟩
        rw [hport.mem]
      · rw [if_neg (by simp [hsrc, hent]), if_neg (by omega), if_neg (by omega)] at hexec
        obtain ⟨hbytes, hdue, hcoll, hbeat⟩ := collidingBeat_spec hopen x huz hm
        exact ⟨_, hexec, fun y => (hbytes y).trans (hport.sameBytes y), hdue, hcoll, hbeat⟩
      · rw [if_pos hne] at hexec
        exact hfails 1 hexec
      · rw [if_neg (by simp [hsrc, hent]), if_pos hb] at hexec
        exact hfails 2 hexec
      · rw [if_neg (by simp [hsrc, hent]), if_neg (by omega), if_pos hb] at hexec
        exact hfails 3 hexec
    · rw [checkBeat_closed hruns off x hopen] at hexec
      obtain ⟨hcount, herr, hfailed, -⟩ := recvFail_xch u 2 0 off x.src x.ent x.beat
      exact ⟨_, hexec, (hport.trans (recvFail_beat ..).toPortFrame).sameBytes, hcount, herr, hfailed⟩
  · intro s off o hon hphase hrun hdue ho
    have hexec := exchSendBeat_does hon hphase hrun off
    obtain ⟨hcoll, hcont, hoff, hnot⟩ := catchUp_collides (exchRuns_of hphase hrun) hdue ho
    have hst := startAll_start (catchUp s off.toNat) false (off.toNat + 1)
    have hport := startedAt_port s false off.toNat
    generalize startAll (catchUp s off.toNat) false (off.toNat + 1) = u at hexec hst hport
    obtain ⟨l, hl, hl'⟩ := hst.due
    have hnot' : (o, fcXCHCOLLIDE) ∉ u.xch.due := by
      rw [hl, List.mem_append, not_or]
      exact ⟨hnot, fun hin => absurd (hl' _ hin) (show fcXCHCOLLIDE ≠ fcSLOTUE by decide)⟩
    cases hopen : openEnt u false off.toNat with
    | none =>
      rw [hopen] at hexec
      exact ⟨u, hexec, hst.coll.trans hcoll, hst.cont hcont, hport.sameBytes, fun h => hst.collOff.trans (hoff h), hnot'⟩
    | some e =>
      rw [hopen] at hexec
      obtain ⟨-, -, -, hbytes, scoll, soff, sdue, scont⟩ := sendBeat_spec u e off.toNat
      exact ⟨sendBeat u e off.toNat, hexec, scoll.trans (hst.coll.trans hcoll), scont (hst.cont hcont), fun a => (hbytes a).trans (hport.sameBytes a),
        fun h => soff.trans (hst.collOff.trans (hoff h)), by rw [sdue]; exact hnot'⟩
  · intro s off x hon hdisc
    rw [show exec (.exchRecvBeat off x) s = execExchRecvBeat off x s from rfl, execExchRecvBeat, whenOn_of hon, hdisc, if_pos rfl]
    exact ⟨_, rfl, rfl, fun _ => rfl⟩
  · intro s cyc c img hon hload hsel hw
    have hfills (b : XBank) (hb : readImage s c img = .ok b) := itinLoadDone_fills hon hload hsel hw cyc hb
    have hfails (e : Nat × Nat) (hb : readImage s c img = .error e) := itinLoadDone_fails hon hload hsel hw cyc hb
    obtain ⟨hread, hbytes, -, -⟩ := touchSpans_reads s rqITIN (loadSpans s)
    generalize touchSpans s rqITIN (loadSpans s) = t at hfills hfails hread hbytes
    have htx : t.xch = s.xch := (congrArg State.xch (show t = _ from hread) :)
    refine ⟨fun b hb => ?_, fun cause n hb => ?_⟩
    · have hexec := hfills b hb
      obtain ⟨hst, himg, hlen⟩ := readImage_ok hb
      obtain ⟨hin, hact, b0, b1, z, hfill⟩ := fillBank_spec t b
      refine ⟨_, hexec, hin, hst, himg, hlen, hact.trans (actBank_congr htx), rfl, ?_, rfl, fun a => ?_⟩
      · rw [State.modXch_xch, hfill]
        exact (congrArg (fun x : Xch => x.loads + 1) htx :)
      · rw [State.modXch_mem, hfill]
        exact congrArg (fun m => memByte m a) hbytes
    · have hexec := hfails (cause, n) hb
      obtain ⟨hst, hents, hact, hl, herr, hcont, hfirst, hmem⟩ := itinFail_spec t cause n
      rw [htx] at hfirst
      exact ⟨_, hexec, hst, hents, hact.trans (actBank_congr htx), hl, herr, hcont, hfirst, fun a => by rw [hmem, hbytes]⟩
  · intro s hserved b w ok
    have hexec : exec .xchTctrlWrite s = .next (testWrite s) := regCmd_served hserved .xchTctrlWrite (testWrite s)
    have hok : testOk s = true ↔ ok := by
      unfold testOk
      simp only [Bool.and_eq_true, decide_eq_true_eq, and_assoc]
      exact Iff.rfl
    refine ⟨fun h => ⟨_, hexec, testWrite_ok (hok.mpr h)⟩, fun h => ?_⟩
    rw [hexec, testWrite_eq, if_neg (fun hc => h (hok.mp hc))]
    rfl

end Sys2Proof.Machine
end
section
/-! PROOFS. Arrivals, the norm token, the end of the live copy, and the end of the exchange phase (01 R7 to R19; 02 R48; 10 R251, R253; 13 R334). -/

namespace Sys2Proof.Machine

/-! Arrival. -/

theorem execSyncArrival_program {s : State} {c : Bool} (hon : unitsOn s = true) (harr : s.core.syncArr = false) (hrld : s.core.rldBusy = false)
    (hprog : noProgram s = false) (hstop : stopClose s = some c) (hmet : arrivalMet s c = true) :
    exec .syncArrival s = .next (arrive (creditArrival s c) ((curCtx s).zone.getD 3) true) := by
  rw [show exec .syncArrival s = execSyncArrival s from rfl, execSyncArrival]
  rw [hprog, if_neg Bool.false_ne_true, hstop]
  exact whenOn_of (by rw [hon, harr, hrld, hmet]; rfl) ..

theorem execSyncArrival_idle {s : State} (hon : unitsOn s = true) (harr : s.core.syncArr = false) (hrld : s.core.rldBusy = false)
    (hprog : noProgram s = true) (hphase : s.core.phase.toNat < 2) (hhalt : s.dbg.halted = false) :
    exec .syncArrival s = .next (arrive (creditArrival s false) 3 false) := by
  rw [show exec .syncArrival s = execSyncArrival s from rfl, execSyncArrival]
  rw [if_pos hprog]
  exact whenOn_of (by simp [hon, harr, hrld, hphase, hhalt]) ..

theorem creditArrival_jrnl (s : State) (c : Bool) :
    (creditArrival s c).jrnl.cred = s.jrnl.cred ++ s.jrnl.toArr ++ (if c then s.jrnl.toClose else []) ∧ (creditArrival s c).jrnl.toArr = [] := by
  cases c
  · exact ⟨(List.append_nil _).symm, rfl⟩
  · exact ⟨rfl, rfl⟩

/-! The norm token. -/

theorem tokenOf_spec (lat : StepLatch) (sq : Word) (nf : Bool) (mn mx : Word) :
    let k := tokenOf lat sq nf mn mx
    let q := fDiv lat.clipMax (fAdd (fSqrt sq) lat.normEps)
    k.sq = sq ∧ k.nf = (nf || decide (sq = 0x7F800000)) ∧ k.min = mn ∧ k.max = mx ∧ k.norm = fSqrt sq ∧
      (lat.clipEn = false → k.c = 0x3F800000) ∧ (lat.clipEn = true → f32IsNaN q = false → k.c = fMin 0x3F800000 q) := by
  intro k q
  have hc : k.c = if !lat.clipEn then f32One else if f32IsNaN q then Config.clipNaN (fSqrt sq) else fMin f32One q := rfl
  refine ⟨rfl, rfl, rfl, rfl, rfl, fun h => ?_, fun h hq => ?_⟩
  · rw [hc, h]; rfl
  · rw [hc, h, hq]; rfl

/-! The live copy. -/

/-- Waiting writes land in the shadow copy, and nowhere else. -/
theorem putShadows_frame (l : List ShadowWr) {s : State} (h : s.man.syncing = false) :
    ∃ sh ep, l.foldl putShadow s = { s with man := { s.man with shadow := sh, epochShadow := ep } } := by
  induction l generalizing s with
  | nil => exact ⟨_, _, rfl⟩
  | cons w l ih =>
    obtain ⟨sh, ep, hput⟩ : ∃ sh ep, putShadow s w = { s with man := { s.man with shadow := sh, epochShadow := ep } } := by
      simp only [putShadow, State.modMan, h, Bool.false_eq_true, if_false]
      cases w <;> exact ⟨_, _, rfl⟩
    rw [List.foldl_cons, hput]
    exact ih (s := { s with man := { s.man with shadow := sh, epochShadow := ep } }) h

/-- The end of the live copy (02 R48). -/
theorem copyDone_spec (s : State) : ∃ sh ep, copyDone s = { s with man := { s.man with
      syncing := false, waiting := [], shadow := sh, epochShadow := ep, load := s.man.loadWait.or s.man.load, loadWait := none } } ∧
    (s.man.waiting = [] → sh = s.man.shadow) ∧ (∀ o m v, s.man.waiting = [.store o m v] → sh = tWord s.man.shadow o m v) := by
  obtain ⟨sh, ep, hput⟩ := putShadows_frame s.man.waiting (s := s.modMan fun m => { m with syncing := false, waiting := [] }) rfl
  refine ⟨sh, ep, ?_, fun h => ?_, fun o m v h => ?_⟩
  · unfold copyDone
    rw [hput]
    dsimp only [State.modMan]
    cases s.man.loadWait <;> rfl
  · rw [h] at hput
    exact (congrArg (fun t : State => t.man.shadow) hput).symm
  · rw [h] at hput
    exact (congrArg (fun t : State => t.man.shadow) hput).symm

/-! Configuration bytes come from the live copy alone. -/

section
variable {s t : State} (hlive : t.man.live = s.man.live) (his : t.man.isLive = s.man.isLive)
include hlive his

theorem cfg_ofLive (o n : Nat) : cfg t o n = cfg s o n := by simp only [cfg, liveByte, hlive, his]
theorem statusAddr_ofLive (q : Nat) : statusAddr t q = statusAddr s q := by rw [statusAddr, partBase, cfg_ofLive hlive his]; rfl
theorem mboxOn_ofLive : mboxOn t = mboxOn s := by rw [mboxOn, partSize, cfg_ofLive hlive his]; rfl

end

/-! The mailbox after a commit. -/

/-- A message that is acted on leaves the manifest, and the clearing of the mailbox. -/
structure MsgKept (s t : State) : Prop where
  man : t.man = s.man
  mbinit : t.pst.mbinit = s.pst.mbinit
  mbclear : t.pst.mbclear = s.pst.mbclear

theorem MsgKept.trans {s t u : State} (h : MsgKept s t) (k : MsgKept t u) : MsgKept s u :=
  ⟨k.man.trans h.man, k.mbinit.trans h.mbinit, k.mbclear.trans h.mbclear⟩

theorem memWr_msg (s : State) (req a : Nat) (bs : List Byte) : MsgKept s (memWr s req a bs) := by
  rw [memWr_frame]
  exact ⟨rfl, rfl, rfl⟩

theorem touchRead_msg (s : State) (req a n : Nat) : MsgKept s (touchRead s req a n) := by
  rw [touchRead_frame]
  exact ⟨rfl, rfl, rfl⟩

theorem answer_msg (s : State) (h : Dword) (code : Nat) : MsgKept s (answer s h code) := ⟨rfl, rfl, rfl⟩

theorem fileMsg_msg (s : State) (h : Dword) (payload : BitVec 512) : MsgKept s (fileMsg s h payload) := by
  unfold fileMsg
  dsimp only
  split
  · exact (memWr_msg ..).trans (answer_msg ..)
  · split
    · exact answer_msg ..
    · split
      · exact answer_msg ..
      · exact ((memWr_msg ..).trans (memWr_msg ..)).trans ((memWr_msg ..).trans (answer_msg ..))

theorem takeMsg_msg (s : State) (h : Dword) (payload : BitVec 512) : MsgKept s (takeMsg s h payload) := by
  have hfree (t : State) : MsgKept t (freeMsg t) := ⟨rfl, rfl, rfl⟩
  unfold takeMsg
  refine MsgKept.trans ?_ (hfree _)
  split
  · exact answer_msg ..
  · split
    · exact answer_msg ..
    · exact (touchRead_msg ..).trans (fileMsg_msg ..)

theorem pstResume_msg (s : State) : MsgKept s (pstResume s) := by
  have hrest (w : List (Dword × BitVec 512)) : MsgKept s (s.modPst fun x => { x with waiting := w }) := ⟨rfl, rfl, rfl⟩
  unfold pstResume
  split
  · exact ⟨rfl, rfl, rfl⟩
  · split
    · exact ⟨rfl, rfl, rfl⟩
    · exact (hrest _).trans (takeMsg_msg ..)

/-- The status words that have been cleared so far (13 R334). -/
theorem clearStatus_upto {s : State} (hd : NoDouble s) {n b : Nat} (hn : n ≤ 8) (hb : partBase s pMBOX = b) (htop : b + 64 ≤ memTop) :
    let t := (List.range n).foldl (fun t q => putStatus t q 0) s
    t.man = s.man ∧ NoDouble t ∧ ∀ x, memByte t.mem.bytes x = if b ≤ x ∧ x < b + 8 * n then 0 else memByte s.mem.bytes x := by
  induction n with
  | zero => exact ⟨rfl, hd, fun x => (if_neg (by omega)).symm⟩
  | succ n ih =>
    obtain ⟨hman, htd, hbytes⟩ := ih (by omega)
    rw [List.range_succ, List.foldl_append, List.foldl_cons, List.foldl_nil]
    generalize (List.range n).foldl (fun t q => putStatus t q 0) s = t at hman htd hbytes
    have haddr : statusAddr t n = b + 8 * n := by rw [statusAddr_congr hman n, statusAddr, hb]
    have hst : Stored t (putStatus t n 0) (statusAddr t n) (leBytes 8 (0 : Dword)) :=
      memWr_stored rqPST (by rw [leBytes_length, haddr]; omega) (htd.hasDouble ..)
    have hzero (i : Nat) : (leBytes 8 (0 : Dword)).getD i 0 = 0 := by
      rw [show leBytes 8 (0 : Dword) = List.replicate 8 0 by decide, List.getD_eq_getElem?_getD]
      by_cases hi : i < 8
      · rw [List.getElem?_replicate_of_lt hi]; rfl
      · rw [List.getElem?_eq_none (by simpa using hi)]; rfl
    refine ⟨(memWr_man ..).trans hman, memWr_noDouble htd _ _ _, fun x => ?_⟩
    rw [hst x, leBytes_length, haddr, hbytes x, hzero]
    by_cases hx : b + 8 * n ≤ x ∧ x < b + 8 * n + 8
    · rw [if_pos hx, if_pos (by omega)]
    · rw [if_neg hx]
      by_cases hx' : b ≤ x ∧ x < b + 8 * n
      · rw [if_pos hx', if_pos (by omega)]
      · rw [if_neg hx', if_neg (by omega)]

theorem putStatuses_kept (l : List Nat) (s : State) : MsgKept s (l.foldl (fun t q => putStatus t q 0) s) ∧ (l.foldl (fun t q => putStatus t q 0) s).pst = s.pst :=
  foldl_related (R := fun s t => MsgKept s t ∧ t.pst = s.pst) (fun _ => ⟨⟨rfl, rfl, rfl⟩, rfl⟩) (fun h k => ⟨h.1.trans k.1, k.2.trans h.2⟩)
    (fun _ _ => ⟨memWr_msg .., putStatus_pst ..⟩) l s

theorem clearStatus_kept (s : State) : MsgKept s (clearStatus s) ∧ (clearStatus s).pst = s.pst := putStatuses_kept (List.range 8) s

theorem clearStatus_bytes {s : State} {b : Nat} (hd : NoDouble s) (hb : partBase s pMBOX = b) (htop : b + 64 ≤ memTop) (x : Nat) :
    memByte (clearStatus s).mem.bytes x = if b ≤ x ∧ x < b + 64 then 0 else memByte s.mem.bytes x := by
  obtain ⟨-, -, hbytes⟩ := clearStatus_upto hd (Nat.le_refl 8) hb htop
  unfold clearStatus
  exact hbytes x

/-- The clearing of the mailbox goes on, or is over. -/
theorem clearMbox_kept (s : State) : (clearMbox s).man = s.man ∧
    (s.pst.mbclear = false ∨ mboxOn s = false ∨ memWaits s (statusAddr s 0) 64 = false → (clearMbox s).pst.mbinit = false ∧ (clearMbox s).pst.mbclear = false) ∧
    (¬ (s.pst.mbclear = false ∨ mboxOn s = false ∨ memWaits s (statusAddr s 0) 64 = false) →
      (clearMbox s).pst.mbinit = s.pst.mbinit ∧ (clearMbox s).pst.mbclear = true) := by
  unfold clearMbox
  cases hc : s.pst.mbclear
  · exact ⟨rfl, fun _ => ⟨rfl, hc⟩, fun h => absurd (.inl rfl) h⟩
  · rw [if_neg (by decide)]
    cases hon : mboxOn s
    · rw [Bool.false_and, if_neg Bool.false_ne_true, if_neg Bool.false_ne_true]
      exact ⟨rfl, fun _ => ⟨rfl, rfl⟩, fun h => absurd (.inr (.inl rfl)) h⟩
    · cases hw : memWaits s (statusAddr s 0) 64
      · rw [Bool.and_false, if_neg Bool.false_ne_true, if_pos rfl]
        have hkept := (clearStatus_kept s).1.man
        generalize clearStatus s = t at hkept
        exact ⟨hkept, fun _ => ⟨rfl, rfl⟩, fun h => absurd (.inr (.inr rfl)) h⟩
      · rw [Bool.and_true, if_pos rfl]
        exact ⟨rfl, fun h => by simp at h, fun _ => ⟨rfl, hc⟩⟩

theorem clearMbox_bytes {s : State} (hc : s.pst.mbclear = true) (hon : mboxOn s = true) (hw : memWaits s (statusAddr s 0) 64 = false) (hd : NoDouble s)
    (htop : partBase s pMBOX + 64 ≤ memTop) (x : Nat) : memByte (clearMbox s).mem.bytes x =
      if partBase s pMBOX ≤ x ∧ x < partBase s pMBOX + 64 then 0 else memByte s.mem.bytes x := by
  unfold clearMbox
  rw [hc, hon, hw, Bool.and_false, if_neg (by decide), if_neg Bool.false_ne_true, if_pos rfl]
  have hbytes := clearStatus_bytes hd rfl htop x
  generalize clearStatus s = t at hbytes
  exact hbytes

theorem clearMbox_waiting (s : State) (h : s.pst.waiting = []) : (clearMbox s).pst.waiting = [] := by
  unfold clearMbox
  split
  · exact h
  · split
    · exact h
    · refine (?_ : (if mboxOn s then clearStatus s else s).pst.waiting = [])
      split
      · exact (congrArg Pst.waiting (clearStatus_kept s).2).trans h
      · exact h

/-! The end of the exchange phase. -/

theorem eccFold_xph (req : Nat) (l : List (Nat × EccErr)) (s : State) : (l.foldl (eccRdOne req) s).mem.xph = s.mem.xph :=
  foldl_related (R := fun s t : State => t.mem.xph = s.mem.xph) (fun _ => rfl) (fun h k => k.trans h) (fun s p => by
    unfold eccRdOne
    split
    · rfl
    · rfl
    · rw [memUe, raise_frame]
      split <;> rfl) l s

theorem serve_xph (s : State) (req a n : Nat) : (serve s req a n).mem.xph = s.mem.xph :=
  foldl_related (R := fun s t : State => t.mem.xph = s.mem.xph) (f := serveBank req) (fun _ => rfl) (fun h k => k.trans h) (fun _ _ => rfl)
    ((List.range 32).filter (banksOf a n).testBit) s

theorem touchRead_xph (s : State) (req a n : Nat) : (touchRead s req a n).mem.xph = s.mem.xph :=
  (serve_xph ..).trans (eccFold_xph req _ s)

theorem touchRead_record (s : State) (req a n : Nat) : RecordFrame s (touchRead s req a n) := by
  rw [touchRead_frame]
  exact ⟨⟨_, rfl⟩, rfl, rfl, rfl, rfl, rfl, rfl⟩

theorem raise_record (s : State) (code unit : Nat) (addr : Addr) (d : Nat) : RecordFrame s (raise s code unit addr d) := by
  rw [raise_frame]
  exact ⟨⟨_, rfl⟩, rfl, rfl, rfl, rfl, rfl, rfl⟩

theorem noRecord_record (s : State) : RecordFrame s (noRecord s) := (modJrnl_record ..).trans (modJrnl_record ..)

theorem compareRecord_record (s : State) : RecordFrame s (compareRecord s) := by
  unfold compareRecord
  extract_lets st ds held old mask t v u
  have ht : RecordFrame s t := modJrnl_record ..
  have hu : RecordFrame s u := by
    unfold u
    refine ht.trans ?_
    split
    · exact modJrnl_record ..
    · split
      · exact touchRead_record ..
      · split
        · exact (touchRead_record ..).trans (modJrnl_record ..)
        · split
          · exact ((touchRead_record ..).trans (modJrnl_record ..)).trans (raise_record ..)
          · exact (touchRead_record ..).trans (modJrnl_record ..)
  split
  · exact hu.trans (modJrnl_record ..)
  · exact hu

theorem writeRecord_record (s : State) : RecordFrame s (writeRecord s) := by
  unfold writeRecord
  dsimp only
  split
  · exact (modJrnl_record ..).trans (modJrnl_record ..)
  · exact (modJrnl_record ..).trans (putRecord_record ..)

/-- The record of the stage touches neither the core nor the exchange port (11 R271 to R277). -/
theorem finishRecord_record (s : State) : RecordFrame s (finishRecord s) := by
  unfold finishRecord
  split
  · exact noRecord_record s
  · split
    · dsimp only
      split
      · exact (modJrnl_record ..).trans (modJrnl_record ..)
      · exact modJrnl_record ..
    · split
      · exact compareRecord_record s
      · exact writeRecord_record s

/-- What a load that goes on touches: the load, and what a reading touches. -/
theorem resolveSel_spec (s : State) : (resolveSel s).core = s.core ∧ (resolveSel s).mem.xph = s.mem.xph ∧ (resolveSel s).xch.run = s.xch.run ∧
    (resolveSel s).xch.failed = s.xch.failed ∧ (resolveSel s).xch.due = s.xch.due ∧ (resolveSel s).str = s.str ∧ (resolveSel s).pst = s.pst ∧
    (resolveSel s).bus = s.bus ∧ (resolveSel s).syn = s.syn := by
  have hread (c : BitVec 2) (a : Nat) : (readSel s c a).mem.xph = s.mem.xph ∧ (readSel s c a).str = s.str ∧ (readSel s c a).pst = s.pst ∧
      (readSel s c a).bus = s.bus ∧ (readSel s c a).syn = s.syn := by
    obtain ⟨-, b0, b1, hpick⟩ := pickImage_spec (touchRead s rqITIN a 8) c (BitVec.ofNat 3 (mWord (touchRead s rqITIN a 8) a))
    have hr := touchRead_record s rqITIN a 8
    unfold readSel
    dsimp only
    rw [hpick]
    exact ⟨touchRead_xph .., by rw [touchRead_frame], hr.pst, hr.bus, hr.syn⟩
  unfold resolveSel
  split
  next c _ a _ _ =>
    split
    · exact ⟨rfl, rfl, rfl, rfl, rfl, rfl, rfl, rfl, rfl⟩
    · obtain ⟨-, hcore, -, -, -, -, -, hrun, -, hfailed, hdue⟩ := readSel_spec s c a.toNat
      obtain ⟨hxph, hkept⟩ := hread c a.toNat
      exact ⟨hcore, hxph, hrun, hfailed, hdue, hkept⟩
  · exact ⟨rfl, rfl, rfl, rfl, rfl, rfl, rfl, rfl, rfl⟩

/-- An issue that goes on changes its context and the mode of the core, and no count or phase. -/
theorem unstall_core (s : State) : ∃ x m, (unstall s).core = { s.core with ctxs := x, mode := m } := by
  unfold unstall
  split
  · split
    · exact ⟨_, _, rfl⟩
    · split
      · exact ⟨_, _, rfl⟩
      · split
        · exact ⟨_, _, rfl⟩
        · rw [advance, complete_core, enqueue, armHead_frame]
          exact ⟨_, _, rfl⟩
  · exact ⟨_, _, rfl⟩

/-- The phase's end: the stage is counted, the reservation ends, and nothing is due (01 R7, R17). -/
theorem exchEnd_spec (s : State) : (exchEnd s).core = { s.core with phase := 0, stage := s.core.stage + 1 } ∧ (exchEnd s).mem.xph = false ∧
    (exchEnd s).xch.run = .off ∧ (exchEnd s).xch.failed = false ∧ (exchEnd s).xch.due = [] ∧ (exchEnd s).str.waiting = s.str.waiting ∧
    (exchEnd s).pst = s.pst ∧ (exchEnd s).bus = s.bus ∧ (exchEnd s).syn.fePend = s.syn.fePend := by
  unfold exchEnd
  extract_lets o c t
  have hc : PortFrame s c := catchUp_port ..
  have hall : PortFrame s (if exchRuns s then startAll c false o else c) := by
    split
    · exact hc.trans (startAll_start ..).toPortFrame
    · exact hc
  obtain ⟨hset, hdue⟩ := settleAll_port (if exchRuns s then startAll c false o else c)
  have hport := hall.trans hset
  have ht : RecordFrame (settleAll (if exchRuns s then startAll c false o else c)) t := finishRecord_record _
  clear_value t
  generalize settleAll (if exchRuns s then startAll c false o else c) = u at hdue hport ht
  have htcore : t.core = s.core := ht.core.trans hport.core
  have htdue : t.xch.due = [] := (congrArg Xch.due ht.xch).trans hdue
  obtain ⟨rcore, rxph, rrun, rfailed, rdue, rstr, rpst, rbus, rsyn⟩ := resolveSel_spec
    (((t.modCore (fun k => { k with phase := 0, stage := k.stage + 1 })).modMem (fun m => Mem.settled { m with xph := false })).modXch
      (fun x => { x with run := .off, failed := false }))
  refine ⟨rcore.trans ?_, rxph, rrun, rfailed, rdue.trans htdue, ?_, ?_, ?_, ?_⟩
  · rw [State.modXch_core, State.modMem_core, State.modCore_core, htcore]
  · rw [rstr]
    exact ht.waiting.trans (by rw [hport.str])
  · exact rpst.trans (ht.pst.trans hport.pst)
  · exact rbus.trans (ht.bus.trans hport.bus)
  · rw [rsyn]
    exact (congrArg Syn.fePend ht.syn).trans hport.fePend

end Sys2Proof.Machine
end
section
/-! PROOFS. Releases (01 R10, R15; 02 R48 to R57; 03 R65 to R71; 10 R253; 16 R389). -/

namespace Sys2Proof.Machine

/-! What a release samples at once. -/

/-- The queues may take operations again. -/
def queuesOpened (s : State) : State := (List.range 7).foldl (fun u e => modQ u e (fun q => { q with failed := false })) s

theorem queuesOpened_frame (s : State) : queuesOpened s = { s with q := (queuesOpened s).q } :=
  foldl_related (R := fun s t : State => t = { s with q := t.q }) (fun _ => rfl) (fun h k => k.trans (by rw [h])) (fun _ _ => rfl) (List.range 7) s

theorem queuesOpened_failed (s : State) {e : Nat} (he : e < 7) : (qOf (queuesOpened s) e).failed = false := by
  have hrow : qOf (queuesOpened s) e = { qOf s e with failed := false } :=
    foldl_view_at (fun t : State => qOf t e) (fun q => { q with failed := false })
      (f := fun u e => modQ u e (fun q => { q with failed := false })) (fun u j hj => (qOf_modQ ..).trans (if_neg (Ne.symm hj)))
      (fun u => (qOf_modQ ..).trans (if_pos rfl)) (List.mem_range.mpr he) List.nodup_range s
  rw [hrow]

theorem releaseSampled_eq (s : State) (r : ReleaseIn) : releaseSampled s r = { s with
    core := { s.core with syncArr := false, phaseZone := r.zone, lastWait := BitVec.ofNat 32 (min s.core.waitCnt (2 ^ 32 - 1)) }
    q := (queuesOpened s).q, man := { s.man with lwin := false }, flt := { s.flt with pend := false, haltCtx := none } } := by
  have hq : releaseSampled s r = ((queuesOpened (s.modCore fun k => { k with
      syncArr := false, phaseZone := r.zone, lastWait := BitVec.ofNat 32 (min k.waitCnt (2 ^ 32 - 1)) })).modMan (fun m => { m with lwin := false })).modFlt
      (fun f => { f with pend := false, haltCtx := none }) := rfl
  rw [hq, queuesOpened_frame]
  rfl

/-! The norm token. -/

/-- The token, or the fault of a split norm, touches the Factor, the weighers and the fault unit. -/
theorem normLatch_frame (s : State) (r : ReleaseIn) :
    normLatch s r = { s with fac := (normLatch s r).fac, wgh := (normLatch s r).wgh, flt := (normLatch s r).flt } ∧
      (normLatch s r).flt.cntHalt = s.flt.cntHalt := by
  unfold normLatch
  split
  · split
    · exact ⟨rfl, rfl⟩
    · refine ⟨by rw [raise_frame], ?_⟩
      rw [raise_flt]
      split <;> rfl
  · exact ⟨rfl, rfl⟩

theorem normLatch_off {s : State} {r : ReleaseIn} (h : ¬ (r.zone = 2 ∧ s.core.syncZone = 2 ∧ s.fac.nrmV = true)) : normLatch s r = s := by
  unfold normLatch
  rw [if_neg]
  simp only [Bool.and_eq_true, decide_eq_true_eq]
  exact fun ⟨⟨hz, hs⟩, hv⟩ => h ⟨hz, hs, hv⟩

section
variable {s : State} {r : ReleaseIn} (hzone : r.zone = 2) (hsync : s.core.syncZone = 2) (hnrm : s.fac.nrmV = true)
include hzone hsync hnrm

theorem normLatch_token (hall : r.nrmAll = true) :
    let k := tokenOf (facOf s s.core.cur).lat r.nrmSq r.nrmNf r.nrmMin r.nrmMax
    (facOf (normLatch s r) s.core.cur).st = 3 ∧ (facOf (normLatch s r) s.core.cur).tok = k ∧ (normLatch s r).wgh.tok = true ∧ (normLatch s r).wgh.tokNf = k.nf := by
  intro k
  have hlatch : normLatch s r = ((modFacCtx s s.core.cur (fun x => { x with st := 3, tok := k })).modFac (fun f => { f with tok := k, tokCtx := s.core.cur })).modWgh
      (fun w => { w with tok := true, tokNf := k.nf }) := by
    unfold normLatch
    rw [if_pos (by simp [hzone, hsync, hnrm]), if_pos hall]
  have hctx : facOf (normLatch s r) s.core.cur = { facOf s s.core.cur with st := 3, tok := k } := by
    rw [hlatch]
    exact (facOf_modFacCtx s s.core.cur s.core.cur (fun x => { x with st := 3, tok := k })).trans (if_pos rfl)
  rw [hctx, hlatch]
  exact ⟨rfl, rfl, rfl, rfl⟩

theorem normLatch_split (hall : r.nrmAll = false) : normLatch s r = raise s fcNORMSPLIT 3 0 0 := by
  unfold normLatch
  rw [if_pos (by simp [hzone, hsync, hnrm]), if_neg (by rw [hall]; exact Bool.false_ne_true)]

end

/-! A commit. -/

theorem sthClear_frame (s : State) : ∃ h x, sthClear s = { s with sth := h, sec := x } := by
  unfold sthClear restartRegion
  dsimp only
  split
  · split
    · exact ⟨_, _, rfl⟩
    · exact ⟨_, _, rfl⟩
  · exact ⟨_, _, rfl⟩

/-- What a commit makes of the manifest, and what it leaves as it is (02 R52). -/
theorem commitAll_spec (s : State) (epoch : Word) : ∃ w m j x d h p, commitAll s epoch = { s with
      man := { s.man with live := s.man.shadow, epochCur := epoch, armed := none, commits := s.man.commits + 1, syncing := true, agree := agreeOf s.man.shadow }
      wgh := w, mem := m, jrnl := j, sec := x, dbg := d, sth := h, pst := p } ∧
    w.tok = s.wgh.tok ∧ w.tokNf = s.wgh.tokNf ∧ m.bytes = s.mem.bytes := by
  have hcommit : ∃ w m j x d, commit s epoch = { s with
        man := { s.man with live := s.man.shadow, epochCur := epoch, armed := none, commits := s.man.commits + 1, syncing := true, agree := agreeOf s.man.shadow }
        wgh := w, mem := m, jrnl := j, sec := x, dbg := d } ∧ w.tok = s.wgh.tok ∧ w.tokNf = s.wgh.tokNf ∧ m.bytes = s.mem.bytes := by
    unfold commit
    rw [lowerLevel_frame]
    exact ⟨_, _, _, _, _, rfl, rfl, rfl, rfl⟩
  obtain ⟨w, m, j, x, d, hc, htok, hnf, hb⟩ := hcommit
  unfold commitAll
  extract_lets old live t t1 u
  have ht1 : ∃ m, t1 = { t with mem := m } ∧ m.bytes = t.mem.bytes := by
    unfold t1
    split
    · exact ⟨_, rfl, rfl⟩
    · exact ⟨_, rfl, rfl⟩
  obtain ⟨m1, h1, hb1⟩ := ht1
  have hu : ∃ h x, u = { t1 with sth := h, sec := x } := by
    unfold u
    split
    · exact sthClear_frame t1
    · exact ⟨_, _, rfl⟩
  obtain ⟨h, x1, hu⟩ := hu
  have hend : ∃ p, (if tDiffer old live (oPART + 12) 4 then u.modPst (fun x => { x with mbinit := true, mbclear := mboxOn u }) else u) = { u with pst := p } := by
    split
    · exact ⟨_, rfl⟩
    · exact ⟨_, rfl⟩
  obtain ⟨p, hend⟩ := hend
  rw [hend, hu, h1, show t = _ from hc]
  refine ⟨w, m1, j, x1, d, h, p, rfl, htok, hnf, ?_⟩
  rw [hb1, show t = _ from hc]
  exact hb

/-! The checks of a release. -/

/-- The epoch that a release must name (02 Table 6). -/
def epochMeant (s : State) : Word := s.man.armed.getD s.man.epochCur

theorem epochCheck_refused {s : State} {epoch : Word} (h : epoch ≠ epochMeant s) : epochCheck s epoch = enterHold s epoch fcEPOCH := if_neg h

theorem epochCheck_unarmed {s : State} (h : s.man.armed = none) : epochCheck s s.man.epochCur = s.modMan (fun m => { m with hold := false, resume := false }) := by
  rw [epochCheck, h]
  exact if_pos rfl

theorem epochCheck_armed {s : State} {epoch : Word} (h : s.man.armed = some epoch) :
    epochCheck s epoch = (commitAll s epoch).modMan (fun m => { m with hold := false, resume := false }) := by
  rw [epochCheck, h]
  exact if_pos rfl

/-- Hold, with the record of the mismatch (02 R53, R54). -/
theorem enterHold_spec (s : State) (epoch : Word) {code : Nat} (hcode : code < 2 ^ 8) :
    enterHold s epoch code = { s with man := { s.man with hold := true, holdEpoch := epoch, resume := false }, flt := (enterHold s epoch code).flt } ∧
      (enterHold s epoch code).flt.cont = true ∧ (enterHold s epoch code).flt.cntCont = s.flt.cntCont + 1 ∧
      (enterHold s epoch code).flt.cntHalt = s.flt.cntHalt ∧
      ∃ k, (enterHold s epoch code).flt.log.head? = some k ∧ k.w0.extractLsb' 0 8 = BitVec.ofNat 8 code ∧ k.w0.extractLsb' 8 2 = 1 := by
  obtain ⟨hframe, hcont, hcnt, hlog, -, -⟩ := raiseMismatch_spec s code 11
  have hhalt : (raiseMismatch s code 11).flt.cntHalt = s.flt.cntHalt := by
    unfold raiseMismatch
    dsimp only
    split <;> rfl
  obtain ⟨hc, hcls⟩ := faultRec_code_class s hcode 1 11 0 0
  unfold enterHold
  generalize raiseMismatch s code 11 = t at hframe hcont hcnt hlog hhalt
  refine ⟨by rw [hframe]; rfl, hcont, hcnt, hhalt, _, hlog, hc, hcls⟩

theorem releaseChecks_zone {s : State} {r : ReleaseIn} (hlive : s.man.isLive = true) (h3 : s.core.syncZone ≠ 3) (hz : r.zone ≠ s.core.syncZone) :
    releaseChecks s r = enterHold s r.epoch fcZONE := by
  rw [releaseChecks, hlive, if_neg (by decide), if_pos (by rw [decide_eq_true h3, decide_eq_true hz]; rfl)]

theorem zone_passes {s : State} {r : ReleaseIn} (hz : r.zone = s.core.syncZone ∨ s.core.syncZone = 3) :
    ¬ (decide (s.core.syncZone ≠ 3) && decide (r.zone ≠ s.core.syncZone)) = true := by
  rcases hz with h | h <;> simp [h]

section
variable {s : State} {r : ReleaseIn} (hlive : s.man.isLive = true) (hz : r.zone = s.core.syncZone ∨ s.core.syncZone = 3)
include hlive hz

theorem releaseChecks_epoch (hhold : s.man.hold = true → s.man.resume = true) : releaseChecks s r = epochCheck s r.epoch := by
  rw [releaseChecks, hlive, if_neg (by decide), if_neg (zone_passes hz), if_neg]
  cases h : s.man.hold
  · exact Bool.false_ne_true
  · rw [hhold h]; decide

theorem releaseChecks_holds (hhold : s.man.hold = true) (hres : s.man.resume = false) : releaseChecks s r = s := by
  rw [releaseChecks, hlive, if_neg (by decide), if_neg (zone_passes hz), if_pos (by rw [hhold, hres]; rfl)]

end

/-- What the checks leave as it is, whatever they come to. -/
structure ChecksKept (s t : State) : Prop where
  core : t.core = s.core
  fac : t.fac = s.fac
  tok : t.wgh.tok = s.wgh.tok
  tokNf : t.wgh.tokNf = s.wgh.tokNf
  cntHalt : t.flt.cntHalt = s.flt.cntHalt
  bytes : t.mem.bytes = s.mem.bytes

theorem enterHold_kept (s : State) (epoch : Word) {code : Nat} (hcode : code < 2 ^ 8) : ChecksKept s (enterHold s epoch code) := by
  obtain ⟨hframe, -, -, hhalt, -⟩ := enterHold_spec s epoch hcode
  generalize enterHold s epoch code = t at hframe hhalt
  rw [hframe]
  exact ⟨rfl, rfl, rfl, rfl, hhalt, rfl⟩

theorem releaseChecks_kept (s : State) (r : ReleaseIn) : ChecksKept s (releaseChecks s r) := by
  have hrfl : ChecksKept s s := ⟨rfl, rfl, rfl, rfl, rfl, rfl⟩
  have hheld (t : State) (h : ChecksKept s t) : ChecksKept s (t.modMan fun m => { m with hold := false, resume := false }) :=
    ⟨h.core, h.fac, h.tok, h.tokNf, h.cntHalt, h.bytes⟩
  unfold releaseChecks
  split
  · exact hrfl
  · split
    · exact enterHold_kept s r.epoch (by decide)
    · split
      · exact hrfl
      · unfold epochCheck
        split
        · dsimp only
          refine hheld _ ?_
          split
          · obtain ⟨w, m, j, x, d, h, p, hc, htok, hnf, hb⟩ := commitAll_spec s r.epoch
            rw [hc]
            exact ⟨rfl, rfl, htok, hnf, rfl, hb⟩
          · exact hrfl
        · exact enterHold_kept s r.epoch (by decide)

/-! The halt that a fault left pending, and the record of the stage. -/

/-- Between the checks and the switch: a pending halt is made, a marker is captured, and the stage takes its digests. -/
def haltsMade (s : State) (c : Option (BitVec 2)) : State := creditRelease (captureMark (pendingHalt s c))

theorem marked_frame (s : State) : ∃ g j, creditRelease (captureMark s) = { s with gov := g, jrnl := j } := by
  unfold captureMark
  split <;> exact ⟨_, _, rfl⟩

theorem haltsMade_none (s : State) : ∃ g j, haltsMade s none = { s with gov := g, jrnl := j } := marked_frame s

theorem haltsMade_some (s : State) (c : BitVec 2) : ∃ g j, haltsMade s (some c) = { s with
    core := (modCtx s c (fun x => { x with halted := true })).core, flt := { s.flt with cntHalt := s.flt.cntHalt + 1 }, gov := g, jrnl := j } := by
  obtain ⟨g, j, h⟩ := marked_frame (pendingHalt s (some c))
  exact ⟨g, j, h⟩

/-- What the making of a halt leaves as it is. -/
theorem haltsMade_kept (s : State) (c : Option (BitVec 2)) : ∃ x n g j, haltsMade s c = { s with
    core := { s.core with ctxs := x }, flt := { s.flt with cntHalt := n }, gov := g, jrnl := j } := by
  cases c with
  | none =>
    obtain ⟨g, j, h⟩ := haltsMade_none s
    exact ⟨_, _, g, j, h⟩
  | some c =>
    obtain ⟨g, j, h⟩ := haltsMade_some s c
    exact ⟨_, _, g, j, h⟩

/-! The switch. -/

theorem switchStep_none {s : State} (h : s.core.switch = false ∨ s.man.hold = true) : switchStep s = s := by
  have hout : switchOut s = .none := by
    unfold switchOut
    rw [if_pos]
    rcases h with h | h <;> simp [h]
  rw [switchStep, hout]

/-- The target of a switch request can run (03 R66). -/
def Ready (s : State) : Prop := ctxPresent s s.core.next.toNat = true ∧ (ctxOf s s.core.next).halted = false

section
variable {s : State} (hsw : s.core.switch = true) (hhold : s.man.hold = false) (hlive : s.man.isLive = true)
include hsw hhold hlive

theorem switchStep_refused (h : ¬ Ready s) : switchStep s = s.modCore (fun k => { k with switch := false, swrej := true }) := by
  have hout : switchOut s = .refused := by
    unfold switchOut
    rw [hsw, hhold, hlive, if_neg (by decide), if_pos]
    cases hp : ctxPresent s s.core.next.toNat
    · rfl
    · cases hc : (ctxOf s s.core.next).halted
      · exact absurd ⟨hp, hc⟩ h
      · rfl
  rw [switchStep, hout]

theorem switchStep_lapses (h : Ready s) (he : s.core.next = s.core.cur) : switchStep s = s.modCore (fun k => { k with switch := false }) := by
  have hout : switchOut s = .lapse := by
    unfold switchOut
    rw [hsw, hhold, hlive, if_neg (by decide), h.1, h.2, if_neg (by decide), if_pos he]
  rw [switchStep, hout]

theorem switchStep_made (h : Ready s) (he : s.core.next ≠ s.core.cur) :
    switchStep s = switchLoad (s.modCore (fun k => { k with cur := k.next, switch := false })) s.core.cur s.core.next := by
  have hout : switchOut s = .made := by
    unfold switchOut
    rw [hsw, hhold, hlive, if_neg (by decide), h.1, h.2, if_neg (by decide), if_neg he]
  rw [switchStep, hout]

end

/-! What follows the settings. -/

/-- The exchange lead-in begins, or the tile stands still. -/
def released (s : State) (cur : BitVec 2) : State := if runsOn s then beginPhase s (decide (s.core.cur ≠ cur)) else standStill s

theorem syncRelease_does {s : State} (hon : unitsOn s = true) (harr : s.core.syncArr = true) (r : ReleaseIn) :
    exec (.syncRelease r) s = .next (released (releaseSettings s r) s.core.cur) := by
  rw [show exec (.syncRelease r) s = execSyncRelease r s from rfl, execSyncRelease]
  exact whenOn_of (by rw [hon, harr]; rfl) ..

theorem releaseSettings_eq (s : State) (r : ReleaseIn) :
    releaseSettings s r = switchStep (haltsMade (releaseChecks (normLatch (releaseSampled s r) r) r) s.flt.haltCtx) := rfl

/-- What the lead-in, or standing still, leaves as it is. -/
structure ReleaseKept (s t : State) : Prop where
  man : t.man = s.man
  flt : t.flt = s.flt
  fac : t.fac = s.fac
  wgh : t.wgh = s.wgh
  q : t.q = s.q
  bytes : t.mem.bytes = s.mem.bytes
  cur : t.core.cur = s.core.cur
  switch : t.core.switch = s.core.switch
  swrej : t.core.swrej = s.core.swrej
  stage : t.core.stage = s.core.stage
  syncArr : t.core.syncArr = s.core.syncArr
  phaseZone : t.core.phaseZone = s.core.phaseZone
  halted : ∀ c, (ctxOf t c).halted = (ctxOf s c).halted

/-- The context that resumes (03 R65). -/
def resumed (s : State) (x : Ctx) : Ctx := { x with pc := if x.ran then x.pc else tabGet 0 s.core.entry s.core.cur.toNat, ran := true, atSync := false }

theorem beginPhase_core (s : State) (sw : Bool) : (beginPhase s sw).core = { s.core with
    ctxs := (modCtx s s.core.cur (resumed s)).core.ctxs, phase := 2, exchLen := 64 + (if sw then 0 else meantLen s), mode := .run } := rfl

theorem ctxOf_beginPhase (s : State) (sw : Bool) (c : BitVec 2) : ctxOf (beginPhase s sw) c = if c = s.core.cur then resumed s (curCtx s) else ctxOf s c :=
  ctxOf_setCtx s s.core.cur c (resumed s (curCtx s))

theorem beginPhase_kept (s : State) (sw : Bool) : ReleaseKept s (beginPhase s sw) := by
  refine ⟨rfl, rfl, rfl, rfl, rfl, rfl, rfl, rfl, rfl, rfl, rfl, rfl, fun c => ?_⟩
  rw [ctxOf_beginPhase]
  split
  next h => rw [h]; rfl
  next => rfl

theorem standStill_kept (s : State) : ReleaseKept s (standStill s) := ⟨rfl, rfl, rfl, rfl, rfl, rfl, rfl, rfl, rfl, rfl, rfl, rfl, fun _ => rfl⟩

theorem released_kept (s : State) (cur : BitVec 2) : ReleaseKept s (released s cur) := by
  unfold released
  split
  · exact beginPhase_kept ..
  · exact standStill_kept s

/-- A tile in hold stands still (02 R54). -/
theorem released_hold {s : State} (h : s.man.hold = true) (cur : BitVec 2) : released s cur = standStill s := by
  have hruns : runsOn s = false := by simp [runsOn, h]
  rw [released, hruns, if_neg Bool.false_ne_true]

theorem replayEnd_cred (s : State) : (replayEnd s).jrnl.cred = s.jrnl.cred := by
  simp only [replayEnd, State.modJrnl_jrnl]
  split <;> rfl

theorem noRecord_cred (s : State) : (noRecord s).jrnl.cred = [] := replayEnd_cred _

theorem standStill_hold {s : State} (h : s.man.hold = true) : (standStill s).core.phase = 1 ∧ (standStill s).core.mode = s.core.mode ∧
    (standStill s).xch.run = .off ∧ (standStill s).jrnl.cred = [] := by
  exact ⟨rfl, if_pos h, rfl, noRecord_cred _⟩

/-! A release, from its sampling to the switch. -/

/-- The state after the token and the checks of a release. -/
def checked (s : State) (r : ReleaseIn) : State := releaseChecks (normLatch (releaseSampled s r) r) r

/-- What a release samples, and what the token leaves of it. -/
theorem latched_frame (s : State) (r : ReleaseIn) :
    (normLatch (releaseSampled s r) r).man = { s.man with lwin := false } ∧ (normLatch (releaseSampled s r) r).core = (releaseSampled s r).core ∧
      (normLatch (releaseSampled s r) r).mem = s.mem ∧ (normLatch (releaseSampled s r) r).flt.cntHalt = s.flt.cntHalt := by
  obtain ⟨hframe, hhalt⟩ := normLatch_frame (releaseSampled s r) r
  generalize normLatch (releaseSampled s r) r = t at hframe hhalt
  rw [hhalt, hframe, releaseSampled_eq]
  exact ⟨rfl, rfl, rfl, rfl⟩

theorem checked_kept (s : State) (r : ReleaseIn) : (checked s r).core = (releaseSampled s r).core ∧ (checked s r).mem.bytes = s.mem.bytes ∧
    (checked s r).flt.cntHalt = s.flt.cntHalt := by
  obtain ⟨-, hcore, hmem, hhalt⟩ := latched_frame s r
  have hk := releaseChecks_kept (normLatch (releaseSampled s r) r) r
  exact ⟨hk.core.trans hcore, hk.bytes.trans (by rw [hmem]), hk.cntHalt.trans hhalt⟩

/-- A release without a switch. -/
theorem syncRelease_plain {s : State} {r : ReleaseIn} (hon : unitsOn s = true) (harr : s.core.syncArr = true)
    (hsw : s.core.switch = false ∨ (checked s r).man.hold = true) :
    exec (.syncRelease r) s = .next (released (haltsMade (checked s r) s.flt.haltCtx) s.core.cur) := by
  obtain ⟨hcore, -⟩ := checked_kept s r
  obtain ⟨x, n, g, j, hmade⟩ := haltsMade_kept (checked s r) s.flt.haltCtx
  rw [syncRelease_does hon harr, releaseSettings_eq]
  refine congrArg (fun t => Host.Outcome.next (released t s.core.cur)) (switchStep_none ?_)
  change (haltsMade (checked s r) s.flt.haltCtx).core.switch = false ∨ (haltsMade (checked s r) s.flt.haltCtx).man.hold = true
  rw [hmade]
  refine hsw.imp_left fun h => ?_
  change (checked s r).core.switch = false
  rw [hcore, releaseSampled_eq]
  exact h

/-- What a release without a switch shows of its checks. -/
theorem plainRelease_kept (s : State) (r : ReleaseIn) (cur : BitVec 2) :
    let t := released (haltsMade (checked s r) s.flt.haltCtx) cur
    t.man = (checked s r).man ∧ t.fac = (checked s r).fac ∧ t.wgh = (checked s r).wgh ∧ t.mem.bytes = s.mem.bytes ∧ t.core.cur = s.core.cur ∧
      t.core.switch = s.core.switch ∧ t.core.syncArr = false ∧ ∃ n, t.flt = { (checked s r).flt with cntHalt := n } := by
  intro t
  obtain ⟨hcore, hbytes, -⟩ := checked_kept s r
  obtain ⟨x, n, g, j, hmade⟩ := haltsMade_kept (checked s r) s.flt.haltCtx
  have hk : ReleaseKept _ t := released_kept (haltsMade (checked s r) s.flt.haltCtx) cur
  rw [hmade] at hk
  rw [releaseSampled_eq] at hcore
  refine ⟨hk.man, hk.fac, hk.wgh, hk.bytes.trans hbytes, hk.cur.trans ?_, hk.switch.trans ?_, hk.syncArr.trans ?_, n, hk.flt⟩
  · exact (congrArg Core.cur hcore :)
  · exact (congrArg Core.switch hcore :)
  · exact (congrArg Core.syncArr hcore :)

/-- A release whose checks end in hold. -/
theorem plainRelease_hold {s : State} {r : ReleaseIn} (h : (checked s r).man.hold = true) (cur : BitVec 2) :
    let t := released (haltsMade (checked s r) s.flt.haltCtx) cur
    t.core.phase = 1 ∧ t.core.mode = s.core.mode ∧ t.xch.run = .off ∧ t.jrnl.cred = [] := by
  obtain ⟨hcore, -⟩ := checked_kept s r
  obtain ⟨x, n, g, j, hmade⟩ := haltsMade_kept (checked s r) s.flt.haltCtx
  have hhold : (haltsMade (checked s r) s.flt.haltCtx).man.hold = true := by rw [hmade]; exact h
  have hmode : (haltsMade (checked s r) s.flt.haltCtx).core.mode = s.core.mode := by
    rw [hmade]
    change (checked s r).core.mode = s.core.mode
    rw [hcore, releaseSampled_eq]
  intro t
  have ht : t = standStill _ := released_hold hhold cur
  obtain ⟨hphase, hm, hrun, hcred⟩ := standStill_hold hhold
  rw [ht]
  exact ⟨hphase, hm.trans hmode, hrun, hcred⟩

/-! The cases of the checks. -/

section
variable {s : State} {r : ReleaseIn} (hlive : s.man.isLive = true) (hz : r.zone = s.core.syncZone ∨ s.core.syncZone = 3)
include hlive hz

theorem latched_zone : (normLatch (releaseSampled s r) r).man.isLive = true ∧
    (r.zone = (normLatch (releaseSampled s r) r).core.syncZone ∨ (normLatch (releaseSampled s r) r).core.syncZone = 3) := by
  obtain ⟨hman, hcore, -⟩ := latched_frame s r
  rw [hman, hcore, releaseSampled_eq]
  exact ⟨hlive, hz⟩

theorem checked_holds (hhold : s.man.hold = true) (hres : s.man.resume = false) : checked s r = normLatch (releaseSampled s r) r := by
  obtain ⟨hl, hz'⟩ := latched_zone hlive hz
  obtain ⟨hman, -⟩ := latched_frame s r
  exact releaseChecks_holds hl hz' (by rw [hman]; exact hhold) (by rw [hman]; exact hres)

variable (hhold : s.man.hold = true → s.man.resume = true)
include hhold

theorem checked_epoch : checked s r = epochCheck (normLatch (releaseSampled s r) r) r.epoch := by
  obtain ⟨hl, hz'⟩ := latched_zone hlive hz
  obtain ⟨hman, -⟩ := latched_frame s r
  exact releaseChecks_epoch hl hz' (by rw [hman]; exact hhold)

theorem checked_unarmed (ha : s.man.armed = none) (he : r.epoch = s.man.epochCur) :
    checked s r = (normLatch (releaseSampled s r) r).modMan (fun m => { m with hold := false, resume := false }) := by
  obtain ⟨hman, -⟩ := latched_frame s r
  have hcur : r.epoch = (normLatch (releaseSampled s r) r).man.epochCur := by rw [hman]; exact he
  rw [checked_epoch hlive hz hhold, hcur]
  exact epochCheck_unarmed (by rw [hman]; exact ha)

theorem checked_armed (ha : s.man.armed = some r.epoch) :
    checked s r = (commitAll (normLatch (releaseSampled s r) r) r.epoch).modMan (fun m => { m with hold := false, resume := false }) := by
  obtain ⟨hman, -⟩ := latched_frame s r
  rw [checked_epoch hlive hz hhold]
  exact epochCheck_armed (by rw [hman]; exact ha)

theorem checked_refused (he : r.epoch ≠ s.man.armed.getD s.man.epochCur) :
    checked s r = enterHold (normLatch (releaseSampled s r) r) r.epoch fcEPOCH := by
  obtain ⟨hman, -⟩ := latched_frame s r
  rw [checked_epoch hlive hz hhold]
  exact epochCheck_refused (by rw [epochMeant, hman]; exact he)

end

theorem checked_zone {s : State} {r : ReleaseIn} (hlive : s.man.isLive = true) (h3 : s.core.syncZone ≠ 3) (hz : r.zone ≠ s.core.syncZone) :
    checked s r = enterHold (releaseSampled s r) r.epoch fcZONE := by
  have hoff : normLatch (releaseSampled s r) r = releaseSampled s r := normLatch_off fun ⟨hz2, hs2, _⟩ => hz (by
    rw [releaseSampled_eq] at hs2
    exact hz2.trans hs2.symm)
  rw [checked, hoff]
  refine releaseChecks_zone ?_ ?_ ?_ <;> rw [releaseSampled_eq]
  · exact hlive
  · exact h3
  · exact hz

/-! Releases that pass. -/

/-- The state of a release that passes its checks and makes neither a commit nor a token nor a halt. -/
theorem passed_eq {s : State} {r : ReleaseIn} (hlive : s.man.isLive = true) (hz : r.zone = s.core.syncZone ∨ s.core.syncZone = 3)
    (hhold : s.man.hold = true → s.man.resume = true) (ha : s.man.armed = none) (he : r.epoch = s.man.epochCur) (h2 : r.zone ≠ 2)
    (hhalt : s.flt.haltCtx = none) : ∃ g j, haltsMade (checked s r) s.flt.haltCtx = { s with
      core := { s.core with syncArr := false, phaseZone := r.zone, lastWait := BitVec.ofNat 32 (min s.core.waitCnt (2 ^ 32 - 1)) }
      q := (queuesOpened s).q, man := { s.man with lwin := false, hold := false, resume := false }
      flt := { s.flt with pend := false, haltCtx := none }, gov := g, jrnl := j } := by
  obtain ⟨g, j, hmade⟩ := haltsMade_none (checked s r)
  refine ⟨g, j, ?_⟩
  rw [hhalt, hmade, checked_unarmed hlive hz hhold ha he, normLatch_off fun h => h2 h.1, releaseSampled_eq]
  rfl

/-- A release without a switch that passes begins the lead-in (01 R10; 03 R65). -/
theorem release_begins {s : State} {r : ReleaseIn} (hon : unitsOn s = true) (harr : s.core.syncArr = true) (hsw : s.core.switch = false)
    (hlive : s.man.isLive = true) (hz : r.zone = s.core.syncZone ∨ s.core.syncZone = 3) (hhold : s.man.hold = true → s.man.resume = true)
    (ha : s.man.armed = none) (he : r.epoch = s.man.epochCur) (h2 : r.zone ≠ 2) (hhalt : s.flt.haltCtx = none) (hctx : (curCtx s).halted = false)
    (hcode : s.sec.codeOk = true) (hrld : s.core.rldBusy = false) :
    ∃ t, exec (.syncRelease r) s = .next t ∧ t.core.phase = 2 ∧ t.core.phaseZone = r.zone ∧ t.core.syncArr = false ∧
      t.core.mode = .run ∧ t.core.exchLen = 64 + meantLen s ∧ t.core.cur = s.core.cur ∧ t.core.stage = s.core.stage ∧
      (curCtx t).pc = (if (curCtx s).ran then (curCtx s).pc else tabGet 0 s.core.entry s.core.cur.toNat) ∧
      (∀ k, rd t k = rd s k) ∧ t.mem.xph = true ∧ t.mem.xres = BitVec.ofNat 32 (cfg s (oPART + 0x18) 4) ∧
      t.man = { s.man with lwin := false, hold := false, resume := false } ∧ t.flt.pend = false ∧
      (∀ e, (qOf t e).failed = false ∨ 7 ≤ e) ∧ SameBytes s t := by
  obtain ⟨g, j, hv⟩ := passed_eq hlive hz hhold ha he h2 hhalt
  refine ⟨_, syncRelease_plain hon harr (.inl hsw), ?_⟩
  rw [hv]
  generalize hu : ({ s with
      core := { s.core with syncArr := false, phaseZone := r.zone, lastWait := BitVec.ofNat 32 (min s.core.waitCnt (2 ^ 32 - 1)) }
      q := (queuesOpened s).q, man := { s.man with lwin := false, hold := false, resume := false }
      flt := { s.flt with pend := false, haltCtx := none }, gov := g, jrnl := j } : State) = u
  have hcur : curCtx u = curCtx s := by rw [← hu]; rfl
  have hruns : runsOn u = true := by
    rw [runsOn, hcur, ← hu]
    simp [hlive, hctx, hcode, hrld]
  have hbegin : released u s.core.cur = beginPhase u false := by
    rw [released, if_pos hruns, ← hu]
    simp
  have hpc : curCtx (beginPhase u false) = resumed u (curCtx s) := (ctxOf_beginPhase ..).trans ((if_pos rfl).trans (by rw [hcur]))
  rw [hbegin, hpc]
  have hregs (k : SReg) : rd (beginPhase u false) k = rd s k := rd_eq_of_regs (by rw [hpc]; rfl) k
  have hk := beginPhase_kept u false
  have hq (e : Nat) : (qOf (beginPhase u false) e).failed = false ∨ 7 ≤ e := by
    by_cases h : 7 ≤ e
    · exact .inr h
    · have hfailed := queuesOpened_failed s (Nat.lt_of_not_le h)
      rw [qOf, hk.q, ← hu]
      exact .inl hfailed
  rw [← hu] at hregs hq ⊢
  exact ⟨rfl, rfl, rfl, rfl, rfl, rfl, rfl, rfl, hregs, rfl, rfl, rfl, rfl, hq, fun _ => rfl⟩

/-! Releases with a switch request. -/

/-- The state in which a switch has been made: the image of the incoming context loads (03 R65; 13 R311). -/
theorem switchLoad_spec {s : State} {a b : BitVec 2} (h : b ≠ a) : ∃ x, switchLoad s a b = { s with xch := x } ∧
    tabGet 0 x.resume a.toNat = (inactBank s).image ∧ x.load = some (b, tabGet 0 s.xch.resume b.toNat) := by
  obtain ⟨-, b0, b1, hit⟩ := startItin_spec (s.modXch (fun x => { x with resume := tabSet 0 x.resume a.toNat (inactBank s).image })) b
    (resumeOf (s.modXch (fun x => { x with resume := tabSet 0 x.resume a.toNat (inactBank s).image })) b) false
  have hres : resumeOf (s.modXch (fun x => { x with resume := tabSet 0 x.resume a.toNat (inactBank s).image })) b = tabGet 0 s.xch.resume b.toNat :=
    tabGet_set_ne 0 s.xch.resume (inactBank s).image fun hn => h (BitVec.eq_of_toNat_eq hn)
  unfold switchLoad
  dsimp only
  rw [hit, hres]
  exact ⟨_, rfl, tabGet_set_same .., rfl⟩

section
variable {s : State} {r : ReleaseIn} (hon : unitsOn s = true) (harr : s.core.syncArr = true) (hlive : s.man.isLive = true) (hhold : s.man.hold = false)
  (hz : r.zone = s.core.syncZone ∨ s.core.syncZone = 3) (h2 : r.zone ≠ 2) (ha : s.man.armed = none) (he : r.epoch = s.man.epochCur)
  (hhalt : s.flt.haltCtx = none) (hsw : s.core.switch = true)
include hon harr hlive hhold hz h2 ha he hhalt hsw

omit hsw in
/-- The request acts on a state whose contexts, manifest and exchange port are those before the release. -/
theorem switchRelease_from : ∃ v, exec (.syncRelease r) s = .next (released (switchStep v) s.core.cur) ∧
    (∃ q g j, v = { s with
      core := { s.core with syncArr := false, phaseZone := r.zone, lastWait := BitVec.ofNat 32 (min s.core.waitCnt (2 ^ 32 - 1)) }
      q := q, man := { s.man with lwin := false, hold := false, resume := false }, flt := { s.flt with pend := false, haltCtx := none }, gov := g, jrnl := j }) ∧
    (Ready v ↔ ctxPresent s s.core.next.toNat = true ∧ (ctxOf s s.core.next).halted = false) := by
  obtain ⟨g, j, hv⟩ := passed_eq hlive hz (fun h => absurd (hhold.symm.trans h) Bool.false_ne_true) ha he h2 hhalt
  refine ⟨_, (syncRelease_does hon harr r).trans (by rw [releaseSettings_eq, ← checked, hv]), ⟨_, g, j, rfl⟩, Iff.rfl⟩

/-- The target cannot run: the request is refused (03 R66). -/
theorem switchRelease_refused (h : ¬ (ctxPresent s s.core.next.toNat = true ∧ (ctxOf s s.core.next).halted = false)) :
    ∃ t, exec (.syncRelease r) s = .next t ∧ t.core.cur = s.core.cur ∧ t.core.switch = false ∧ t.core.swrej = true := by
  obtain ⟨v, hexec, ⟨q, g, j, hv⟩, hready⟩ := switchRelease_from hon harr hlive hhold hz h2 ha he hhalt
  rw [switchStep_refused (by rw [hv]; exact hsw) (by rw [hv]) (by rw [hv]; exact hlive) (fun hr => h (hready.mp hr))] at hexec
  have hk := released_kept (v.modCore (fun k => { k with switch := false, swrej := true })) s.core.cur
  exact ⟨_, hexec, hk.cur.trans (by rw [hv]; rfl), hk.switch, hk.swrej⟩

/-- The target is the running context: the request lapses. -/
theorem switchRelease_lapses (h : ctxPresent s s.core.next.toNat = true ∧ (ctxOf s s.core.next).halted = false) (hn : s.core.next = s.core.cur) :
    ∃ t, exec (.syncRelease r) s = .next t ∧ t.core.cur = s.core.cur ∧ t.core.switch = false ∧ t.core.swrej = s.core.swrej := by
  obtain ⟨v, hexec, ⟨q, g, j, hv⟩, hready⟩ := switchRelease_from hon harr hlive hhold hz h2 ha he hhalt
  rw [switchStep_lapses (by rw [hv]; exact hsw) (by rw [hv]) (by rw [hv]; exact hlive) (hready.mpr h) (by rw [hv]; exact hn)] at hexec
  have hk := released_kept (v.modCore (fun k => { k with switch := false })) s.core.cur
  exact ⟨_, hexec, hk.cur.trans (by rw [hv]; rfl), hk.switch, hk.swrej.trans (by rw [hv]; rfl)⟩

/-- The switch is made, and the incoming context resumes in an empty exchange phase (03 R65; 13 R311, R315). -/
theorem switchRelease_made (h : ctxPresent s s.core.next.toNat = true ∧ (ctxOf s s.core.next).halted = false) (hn : s.core.next ≠ s.core.cur)
    (hcode : s.sec.codeOk = true) (hrld : s.core.rldBusy = false) :
    ∃ t, exec (.syncRelease r) s = .next t ∧ t.core.cur = s.core.next ∧ t.core.switch = false ∧ t.core.swrej = s.core.swrej ∧ t.core.phase = 2 ∧
      t.core.mode = .run ∧ t.core.exchLen = 64 ∧ t.xch.run = .switch ∧
      (curCtx t).pc = (if (ctxOf s s.core.next).ran then (ctxOf s s.core.next).pc else tabGet 0 s.core.entry s.core.next.toNat) ∧
      (∀ c, (ctxOf t c).regs = (ctxOf s c).regs) ∧ (∀ c, c ≠ s.core.next → ctxOf t c = ctxOf s c) ∧
      tabGet 0 t.xch.resume s.core.cur.toNat = (inactBank s).image ∧ t.xch.load = some (s.core.next, tabGet 0 s.xch.resume s.core.next.toNat) ∧ SameBytes s t := by
  obtain ⟨v, hexec, ⟨q, g, j, hv⟩, hready⟩ := switchRelease_from hon harr hlive hhold hz h2 ha he hhalt
  have hvcur : v.core.cur = s.core.cur := by rw [hv]
  have hvnext : v.core.next = s.core.next := by rw [hv]
  rw [switchStep_made (by rw [hv]; exact hsw) (by rw [hv]) (by rw [hv]; exact hlive) (hready.mpr h) (by rw [hv]; exact hn), hvcur, hvnext] at hexec
  obtain ⟨x, hload, hres, himg⟩ := switchLoad_spec (s := v.modCore (fun k => { k with cur := k.next, switch := false })) (a := s.core.cur) (b := s.core.next) hn
  rw [hload] at hexec
  generalize hw : ({ v.modCore (fun k => { k with cur := k.next, switch := false }) with xch := x } : State) = w at hexec
  have hwcur : w.core.cur = s.core.next := by rw [← hw]; exact hvnext
  have hctx (c : BitVec 2) : ctxOf w c = ctxOf s c := by rw [← hw, hv]; rfl
  have hcurw : curCtx w = ctxOf s s.core.next := by rw [curCtx, hctx, hwcur]
  have hruns : runsOn w = true := by
    rw [runsOn, hcurw, h.2, ← hw, hv]
    simp [State.modCore, hlive, hcode, hrld]
  have hbegin : released w s.core.cur = beginPhase w true := by
    rw [released, if_pos hruns, hwcur, decide_eq_true hn]
  rw [hbegin] at hexec
  have hk := beginPhase_kept w true
  have hat (c : BitVec 2) : ctxOf (beginPhase w true) c = if c = s.core.next then resumed w (ctxOf s s.core.next) else ctxOf s c := by
    rw [ctxOf_beginPhase, hwcur, hcurw, hctx]
  have hcurt : curCtx (beginPhase w true) = resumed w (ctxOf s s.core.next) := by
    rw [curCtx, hat, if_pos (hk.cur.trans hwcur)]
  refine ⟨_, hexec, hk.cur.trans hwcur, ?_, ?_, rfl, rfl, rfl, rfl, ?_, fun c => ?_, fun c hc => ?_, ?_, ?_, fun a => ?_⟩
  · rw [hk.switch, ← hw]; rfl
  · rw [hk.swrej, ← hw, hv]; rfl
  · rw [hcurt]
    simp only [resumed, hwcur]
    rw [← hw, hv]
    rfl
  · rw [hat]
    split
    next hc => rw [hc]; rfl
    next => rfl
  · rw [hat, if_neg hc]
  · refine Eq.trans ?_ (hres.trans (by rw [hv]; rfl))
    rw [← hw]; rfl
  · refine Eq.trans ?_ (himg.trans (by rw [hv]; rfl))
    rw [← hw]; rfl
  · rw [hk.bytes, ← hw, hv]; rfl

end

/-! The obligation. -/

/-- The end of the live copy, with the mailbox that a commit began to clear (02 R48; 13 R334). -/
theorem shadowCopyDone_spec {s : State} (hon : unitsOn s = true) (hsync : s.man.syncing = true) :
    ∃ t, exec .shadowCopyDone s = .next t ∧ t.man.syncing = false ∧ t.man.waiting = [] ∧ t.man.live = s.man.live ∧
      (∀ l, s.man.loadWait = some l → t.man.load = some l ∧ t.man.loadWait = none) ∧
      (s.man.waiting = [] → t.man.shadow = s.man.shadow) ∧
      (∀ o m v, s.man.waiting = [.store o m v] → t.man.shadow = tWord s.man.shadow o m v) ∧
      (let open_ := s.pst.mbclear = false ∨ mboxOn s = false ∨ memWaits s (statusAddr s 0) 64 = false
       (open_ → t.pst.mbinit = false ∧ t.pst.mbclear = false) ∧ (¬ open_ → t.pst.mbinit = s.pst.mbinit ∧ t.pst.mbclear = true)) ∧
      (s.pst.mbclear = true → mboxOn s = true → memWaits s (statusAddr s 0) 64 = false → partBase s pMBOX + 64 ≤ memTop →
        s.pst.waiting = [] → NoDouble s → ∀ x, memByte t.mem.bytes x =
          if partBase s pMBOX ≤ x ∧ x < partBase s pMBOX + 64 then 0 else memByte s.mem.bytes x) := by
  have hexec : exec .shadowCopyDone s = .next (pstResume (clearMbox (copyDone s))) := whenOn_of (by rw [hon, hsync]; rfl) ..
  obtain ⟨sh, ep, hdone, hnone, hone⟩ := copyDone_spec s
  generalize copyDone s = u at hexec hdone
  have hlive : u.man.live = s.man.live := by rw [hdone]
  have his : u.man.isLive = s.man.isLive := by rw [hdone]
  have hmem : u.mem = s.mem := by rw [hdone]
  have hpst : u.pst = s.pst := by rw [hdone]
  have hon' : mboxOn u = mboxOn s := mboxOn_ofLive hlive his
  have hmw : memWaits u (statusAddr u 0) 64 = memWaits s (statusAddr s 0) 64 := by
    rw [statusAddr_ofLive hlive his, memWaits, hmem]
    rfl
  have hbase : partBase u pMBOX = partBase s pMBOX := by rw [partBase, cfg_ofLive hlive his]; rfl
  obtain ⟨cman, copen, cshut⟩ := clearMbox_kept u
  rw [hpst, hon', hmw] at copen cshut
  have hm := pstResume_msg (clearMbox u)
  have hman : (pstResume (clearMbox u)).man = u.man := hm.man.trans cman
  refine ⟨_, hexec, ?_, ?_, ?_, fun l hl => ?_, fun h => ?_, fun o m v h => ?_, ⟨fun h => ?_, fun h => ?_⟩, fun hc hmb hw htop hwait hd x => ?_⟩
  · rw [hman, hdone]
  · rw [hman, hdone]
  · rw [hman, hdone]
  · rw [hman, hdone, hl]
    exact ⟨rfl, rfl⟩
  · rw [hman, hdone]
    exact hnone h
  · rw [hman, hdone]
    exact hone o m v h
  · rw [hm.mbinit, hm.mbclear]
    exact copen h
  · rw [hm.mbinit, hm.mbclear]
    exact cshut h
  · rw [pstResume_none (clearMbox_waiting u (by rw [hpst]; exact hwait))]
    have hbytes := clearMbox_bytes (s := u) (by rw [hpst]; exact hc) (hon'.trans hmb) (hmw.trans hw) (hd.of_ecc (by rw [hmem])) (by rw [hbase]; exact htop) x
    rw [hbytes, hbase, hmem]

/-- The exchange phase's end, when nothing waits for its banks. -/
theorem exchEnd_ends {s : State} (hon : unitsOn s = true) (hphase : s.core.phase = 3) (hw : NothingWaits s) :
    ∃ t, exec .exchEnd s = .next t ∧ t.core.phase = 0 ∧ t.core.stage = s.core.stage + 1 ∧ t.mem.xph = false ∧ t.xch.run = .off ∧
      t.xch.failed = false ∧ t.xch.due = [] := by
  obtain ⟨hfe, hstr, hpst, hmgmt, hdbg⟩ := hw
  obtain ⟨hcore, hxph, hrun, hfailed, hdue, estr, epst, ebus, efe⟩ := exchEnd_spec s
  have hexec : exec .exchEnd s = .next (resumeAll (exchEnd s)) := whenOn_of (by rw [hon, hphase]; rfl) ..
  rw [resumeAll_unstalls (efe.trans hfe) (estr.trans hstr) (by rw [epst]; exact hpst) (by rw [ebus]; exact hmgmt) (by rw [ebus]; exact hdbg)] at hexec
  obtain ⟨x, m, hu⟩ := unstall_core (exchEnd s)
  have hf := unstall_frame (exchEnd s)
  refine ⟨_, hexec, ?_, ?_, ?_, ?_, ?_, ?_⟩
  · rw [hu, hcore]
  · rw [hu, hcore]
  · rw [hf]; exact hxph
  · rw [hf]; exact hrun
  · rw [hf]; exact hfailed
  · rw [hf]; exact hdue

/-- A contained fault drops the tokens of contexts, not the one that the tile shows. -/
theorem raise_facTok (s : State) (code unit : Nat) (addr : Addr) (d : Nat) : (raise s code unit addr d).fac.tok = s.fac.tok := by
  unfold raise
  dsimp only
  split
  · rw [abandonStep_frame]; rfl
  · rfl

/-- Settles O48: each release by what its checks come to, and what follows them. -/
theorem stageSequence : Obligations.StageSequence := by
  unfold Obligations.StageSequence
  refine ⟨fun s hon harr hrld => ⟨fun c hprog hstop hmet => ?_, fun hprog hphase hhalt => ?_⟩,
    fun s r hon harr hlive hhold hz hsw => ⟨fun ha he hhalt hctx hcode hrld h2 => release_begins hon harr hsw hlive hz hhold ha he h2 hhalt hctx hcode hrld,
      fun ha => ?_, fun he => ?_, fun c hhalt => ?_⟩,
    fun s r hon harr hlive h3 hz => ?_, fun s r hon harr hlive hhold hres hz hnrm => ?_,
    fun s r hon harr hlive hhold hz h2 ha he hhalt hsw => ⟨fun h hn hcode hrld => switchRelease_made hon harr hlive hhold hz h2 ha he hhalt hsw h hn hcode hrld,
      switchRelease_lapses hon harr hlive hhold hz h2 ha he hhalt hsw, switchRelease_refused hon harr hlive hhold hz h2 ha he hhalt hsw⟩,
    fun s r hon harr hsw hzone hsync hnrm hall => ?_, fun s r hon harr hlive hhold hsw hzone hsync hnrm hall ha he => ?_,
    tokenOf_spec, fun s hon hsync => shadowCopyDone_spec hon hsync, fun s hon hphase hw => exchEnd_ends hon hphase hw⟩
  · intro x
    obtain ⟨hcred, harrd⟩ := creditArrival_jrnl s c
    exact ⟨_, execSyncArrival_program hon harr hrld hprog hstop hmet, rfl, rfl, rfl, rfl, rfl, rfl, rfl, hcred, harrd⟩
  · obtain ⟨hcred, harrd⟩ := creditArrival_jrnl s false
    exact ⟨_, execSyncArrival_idle hon harr hrld hprog hphase hhalt, rfl, rfl, rfl, hcred.trans (List.append_nil _), harrd⟩
  · obtain ⟨hman, -⟩ := plainRelease_kept s r s.core.cur
    obtain ⟨hlman, -⟩ := latched_frame s r
    obtain ⟨w, m, j, x, d, h, p, hc, -⟩ := commitAll_spec (normLatch (releaseSampled s r) r) r.epoch
    rw [checked_armed hlive hz hhold ha, hc] at hman
    rw [hlman] at hman
    refine ⟨_, syncRelease_plain hon harr (.inl hsw), ?_⟩
    rw [checked_armed hlive hz hhold ha, hc, hlman]
    rw [hman]
    exact ⟨rfl, rfl, rfl, rfl, rfl, rfl⟩
  · have hch := checked_refused hlive hz hhold he
    obtain ⟨hframe, hcont, -, -, k, hlog, hcode, -⟩ := enterHold_spec (normLatch (releaseSampled s r) r) r.epoch (code := fcEPOCH) (by decide)
    obtain ⟨hlman, -⟩ := latched_frame s r
    have hchman : (checked s r).man = { s.man with lwin := false, hold := true, holdEpoch := r.epoch, resume := false } := by
      rw [hch, hframe, hlman]
    obtain ⟨hman, -, -, hbytes, -, -, -, n, hflt⟩ := plainRelease_kept s r s.core.cur
    obtain ⟨hphase, -, hrun, -⟩ := plainRelease_hold (s := s) (r := r) (by rw [hchman]) s.core.cur
    rw [hchman] at hman
    refine ⟨_, k, syncRelease_plain hon harr (.inl hsw), ?_⟩
    rw [← hch] at hcont hlog
    rw [hman, hflt]
    exact ⟨rfl, rfl, rfl, rfl, rfl, rfl, hphase, hcont, hlog, hcode, hrun, sameBytes_of_mem hbytes⟩
  · obtain ⟨hcore, -, hhalts⟩ := checked_kept s r
    obtain ⟨g, j, hmade⟩ := haltsMade_some (checked s r) c
    have hexec := syncRelease_plain (r := r) hon harr (.inl hsw)
    rw [hhalt, hmade] at hexec
    have hk := released_kept { checked s r with
      core := (modCtx (checked s r) c (fun x => { x with halted := true })).core, flt := { (checked s r).flt with cntHalt := (checked s r).flt.cntHalt + 1 }, gov := g, jrnl := j } s.core.cur
    refine ⟨_, hexec, (hk.halted c).trans ?_, ?_⟩
    · exact congrArg Ctx.halted ((ctxOf_setCtx (checked s r) c c { ctxOf (checked s r) c with halted := true }).trans (if_pos rfl))
    · rw [hk.flt]
      exact congrArg (· + 1) hhalts
  · have hch := checked_zone hlive h3 hz
    obtain ⟨hframe, -, hcnt, -, k, hlog, hcode, hcls⟩ := enterHold_spec (releaseSampled s r) r.epoch (code := fcZONE) (by decide)
    have hchman : (checked s r).man = { s.man with lwin := false, hold := true, holdEpoch := r.epoch, resume := false } := by
      rw [hch, hframe, releaseSampled_eq]
    obtain ⟨hman, -, -, hbytes, hcur, -, -, n, hflt⟩ := plainRelease_kept s r s.core.cur
    obtain ⟨hphase, -, hrun, -⟩ := plainRelease_hold (s := s) (r := r) (by rw [hchman]) s.core.cur
    rw [hchman] at hman
    refine ⟨_, k, syncRelease_plain hon harr (.inr (by rw [hchman])), ?_⟩
    rw [← hch] at hcnt hlog
    rw [hman, hflt]
    refine ⟨rfl, rfl, rfl, rfl, rfl, rfl, rfl, hphase, hcur, hlog, hcode, hcls, hcnt.trans ?_, hrun, sameBytes_of_mem hbytes⟩
    rw [releaseSampled_eq]
  · have hoff : normLatch (releaseSampled s r) r = releaseSampled s r := normLatch_off fun ⟨_, _, hv⟩ => by
      rw [releaseSampled_eq] at hv
      exact absurd (hnrm.symm.trans hv) Bool.false_ne_true
    have hch := checked_holds hlive hz hhold hres
    rw [hoff] at hch
    have hchman : (checked s r).man = { s.man with lwin := false } := by rw [hch, releaseSampled_eq]
    obtain ⟨hman, -, -, hbytes, hcur, hswt, hsarr, n, hflt⟩ := plainRelease_kept s r s.core.cur
    obtain ⟨hphase, hmode, hrun, hcred⟩ := plainRelease_hold (s := s) (r := r) (by rw [hchman]; exact hhold) s.core.cur
    refine ⟨_, syncRelease_plain hon harr (.inr (by rw [hchman]; exact hhold)), hman.trans hchman, hphase, hmode, hcur, hswt, hsarr, ?_, ?_, hrun, hcred, sameBytes_of_mem hbytes⟩
    · rw [hflt, hch, releaseSampled_eq]
    · rw [hflt, hch, releaseSampled_eq]
  · intro k
    obtain ⟨-, hfac, hwgh, -⟩ := plainRelease_kept s r s.core.cur
    have hk := releaseChecks_kept (normLatch (releaseSampled s r) r) r
    have htok := normLatch_token (s := releaseSampled s r) (r := r) hzone (by rw [releaseSampled_eq]; exact hsync) (by rw [releaseSampled_eq]; exact hnrm) hall
    rw [releaseSampled_eq] at htok
    obtain ⟨hst, htk, hw, hnf⟩ := htok
    rw [← releaseSampled_eq] at hst htk hw hnf
    refine ⟨_, syncRelease_plain hon harr (.inl hsw), ?_⟩
    rw [facOf_congr hfac, hwgh]
    rw [facOf_congr (show (checked s r).fac = _ from hk.fac), show (checked s r).wgh.tok = _ from hk.tok, show (checked s r).wgh.tokNf = _ from hk.tokNf]
    exact ⟨hst, htk, hw, hnf⟩
  · have hz : r.zone = s.core.syncZone ∨ s.core.syncZone = 3 := .inl (hzone.trans hsync.symm)
    have hch := checked_unarmed hlive hz (fun h => absurd (hhold.symm.trans h) Bool.false_ne_true) ha he
    have hsplit := normLatch_split (s := releaseSampled s r) (r := r) hzone (by rw [releaseSampled_eq]; exact hsync) (by rw [releaseSampled_eq]; exact hnrm) hall
    rw [hsplit] at hch
    obtain ⟨hcont, hcnt, hlog⟩ := raise_recorded (releaseSampled s r) fcNORMSPLIT 3 0 0
    obtain ⟨hcode, hcls⟩ := faultRec_code_class (releaseSampled s r) (code := fcNORMSPLIT) (by decide) 1 3 0 0
    obtain ⟨-, hfac, -, hbytes, -, -, -, n, hflt⟩ := plainRelease_kept s r s.core.cur
    refine ⟨_, faultRec (releaseSampled s r) fcNORMSPLIT 1 3 0 0, syncRelease_plain hon harr (.inl hsw), ?_⟩
    rw [hflt, hfac]
    have hchflt : (checked s r).flt = (raise (releaseSampled s r) fcNORMSPLIT 3 0 0).flt := by rw [hch]; rfl
    have hchfac : (checked s r).fac = (raise (releaseSampled s r) fcNORMSPLIT 3 0 0).fac := by rw [hch]; rfl
    rw [hchflt, hchfac, raise_facTok]
    exact ⟨hlog, hcode, hcls, hcont, hcnt.trans (by rw [releaseSampled_eq]), by rw [releaseSampled_eq], sameBytes_of_mem hbytes⟩

end Sys2Proof.Machine
end
section
/-! PROOFS. The stash mover's placement and eviction (09 R224, R226). -/

namespace Sys2Proof.Machine

/-! Entries. -/

theorem entOf_setEnt (s : State) (id k : Nat) (e : StEnt) : entOf (setEnt s id e) k = if k = id then e else entOf s k := tabGet_set ..

theorem entOf_congr {s t : State} (h : t.sth = s.sth) (k : Nat) : entOf t k = entOf s k := by rw [entOf, h]; rfl

theorem lineAddr_congr {s t : State} (h : t.man = s.man) (n : Nat) : lineAddr t n = lineAddr s n := by rw [lineAddr, partBase_congr h]; rfl

theorem depotReg_congr {s t : State} (h : t.man = s.man) : depotReg t = depotReg s := by rw [depotReg, cfgBits_congr h]; rfl

theorem depotRoom_congr {s t : State} (hm : t.man = s.man) (hc : t.core = s.core) (hs : t.sth.dptr = s.sth.dptr) (n : Nat) :
    depotRoom t n = depotRoom s n := by
  rw [depotRoom, depotEn, cfgBits_congr hm, regionEnt_congr hm, depotReg_congr hm, hc, hs]; rfl

/-! The depot write. -/

theorem memBytes_length (m : List Host.Cell) (a n : Nat) : (memBytes m a n).length = n := by simp [memBytes]

theorem memWith_nil (m : List Host.Cell) : memWith m [] = m := rfl

/-- An entry's lines, rounded up to depot blocks. -/
theorem lines_le_depotBlocks (e : StEnt) : 128 * e.size.toNat ≤ 512 * depotBlocks e := by
  unfold depotBlocks ceilDiv
  omega

/-- The entry at the depot, and the depot's pointer and count behind it. -/
def Sth.depoted (h : Sth) (id : Nat) (e : StEnt) : Sth :=
  { h with ents := tabSet {} h.ents id { e with dcopy := true, doff := h.dptr.toNat }
           dptr := h.dptr + BitVec.ofNat 32 (depotBlocks e), dblk := h.dblk + BitVec.ofNat 32 (depotBlocks e) }

/-- What a depot write leaves: a put of the entry's blocks among the transfers, its lines as they stand behind the operation's writings, and its place in the depot. -/
theorem depotWrite_spec (s : State) (op id : Nat) (ws : List Writes) : ∃ t bs, Reads s t ∧
    bs.length = 512 * depotBlocks (entOf s id) ∧
    bs.take (128 * (entOf s id).size.toNat) = memBytes (memWith s.mem.bytes ws) (lineAddr s (entOf s id).line) (128 * (entOf s id).size.toNat) ∧
    depotWrite s op id ws = { t with
      str := { s.str with jobs := s.str.jobs ++ [jobOf s op .sth .put s.core.cur (depotReg s) s.sth.dptr.toNat 0 (depotBlocks (entOf s id)) (some bs) none] }
      sth := s.sth.depoted id (entOf s id), free := t.free + 512 } := by
  unfold depotWrite
  extract_lets e n a k t bs u
  have ht : Reads s t := by
    unfold t
    split
    · exact touchRead_reads ..
    · exact (spend_reads ..).trans (serve_reads ..)
  have hpre : (memBytes (memWith t.mem.bytes ws) a (128 * e.size.toNat)).length = 128 * e.size.toNat := memBytes_length ..
  refine ⟨t, bs, ht, ?_, ?_, ?_⟩
  · rw [List.length_append, hpre, List.length_map, List.length_range]
    exact Nat.add_sub_of_le (lines_le_depotBlocks e)
  · exact (List.take_left' hpre).trans (by rw [ht.bytes])
  · have hjob : jobOf t op .sth .put t.core.cur (depotReg t) t.sth.dptr.toNat 0 n (some bs) none =
        jobOf s op .sth .put s.core.cur (depotReg s) s.sth.dptr.toNat 0 n (some bs) none := by
      unfold jobOf
      rw [regionEnt_congr ht.man, ht.core, depotReg_congr ht.man, ht.sth]
    have hu : u = { t with str := { s.str with
        jobs := s.str.jobs ++ [jobOf s op .sth .put s.core.cur (depotReg s) s.sth.dptr.toNat 0 n (some bs) none] } } := by
      rw [← hjob, ← ht.str]
      exact newJob_jobs ..
    show State.modSth { setEnt u id { e with dcopy := true, doff := t.sth.dptr.toNat } with free := t.free + 512 } _ = _
    rw [hu, ← ht.sth]
    rfl

/-! What an eviction leaves outside the entries. -/

/-- What evictions may touch: the entries with their counts, the transfers, and what a reading touches. -/
structure StashFrame (s t : State) : Prop where
  frame : AccessFrame s { t with sth := s.sth, str := s.str, free := s.free }
  bytes : t.mem.bytes = s.mem.bytes
  scale : ∀ k, wghScale t k = wghScale s k
  step : ∀ c, (facOf t c).step = (facOf s c).step ∧ (facOf t c).wrapped = (facOf s c).wrapped
  sth : t.sth = { s.sth with ents := t.sth.ents, order := t.sth.order, dptr := t.sth.dptr, dblk := t.sth.dblk, spills := t.sth.spills, drops := t.sth.drops }

theorem StashFrame.refl (s : State) : StashFrame s s := ⟨rfl, rfl, fun _ => rfl, fun _ => ⟨rfl, rfl⟩, rfl⟩

theorem StashFrame.trans {s t u : State} (h : StashFrame s t) (k : StashFrame t u) : StashFrame s u := by
  obtain ⟨hf, hb, hsc, hst, hs⟩ := h
  obtain ⟨kf, kb, ksc, kst, ks⟩ := k
  refine ⟨hf.trans (u := { u with sth := s.sth, str := s.str, free := s.free }) ?_, kb.trans hb, fun i => (ksc i).trans (hsc i),
    fun c => ⟨(kst c).1.trans (hst c).1, (kst c).2.trans (hst c).2⟩, by rw [ks, hs]⟩
  exact (congrArg (fun w : State => { w with sth := s.sth, str := s.str, free := s.free }) kf :)

theorem Reads.stash {s t : State} (h : Reads s t) : StashFrame s t := by
  obtain ⟨hf, hb, hsc, hst⟩ := h
  have hs : t.sth = s.sth := by rw [hf]
  have hstr : t.str = s.str := by rw [hf]
  have hfree : t.free = s.free := by rw [hf]
  refine ⟨?_, hb, hsc, hst, by rw [hs]⟩
  rw [← hs, ← hstr, ← hfree]
  exact hf

/-- A change of the entries, the transfers and the free choices alone. -/
theorem StashFrame.of_sth {s t : State} (hf : t = { s with sth := t.sth, str := t.str, free := t.free })
    (hs : t.sth = { s.sth with ents := t.sth.ents, order := t.sth.order, dptr := t.sth.dptr, dblk := t.sth.dblk, spills := t.sth.spills, drops := t.sth.drops }) :
    StashFrame s t := by
  rw [hf]
  exact ⟨rfl, rfl, fun _ => rfl, fun _ => ⟨rfl, rfl⟩, hs⟩

section
variable {s t : State} (h : StashFrame s t)
include h

theorem StashFrame.man : t.man = s.man := (congrArg State.man h.frame :)
theorem StashFrame.core : t.core = s.core := (congrArg State.core h.frame :)
theorem StashFrame.q : t.q = s.q := (congrArg State.q h.frame :)
theorem StashFrame.sec : t.sec = s.sec := (congrArg State.sec h.frame :)
theorem StashFrame.opId : t.opId = s.opId := (congrArg State.opId h.frame :)
theorem StashFrame.agree : Agree s t := ⟨h.man, h.bytes, h.scale, h.step⟩
theorem StashFrame.sameBytes : SameBytes s t := fun a => by rw [h.bytes]
theorem StashFrame.qOf (e : Nat) : qOf t e = Machine.qOf s e := by rw [Machine.qOf, h.q]; rfl
theorem StashFrame.mbpeak : t.sth.mbpeak = s.sth.mbpeak := by rw [h.sth]
theorem StashFrame.fullCnt : t.sth.fullCnt = s.sth.fullCnt := by rw [h.sth]

end

theorem depotWrite_frame (s : State) (op id : Nat) (ws : List Writes) : StashFrame s (depotWrite s op id ws) := by
  obtain ⟨t, bs, ht, _, _, heq⟩ := depotWrite_spec s op id ws
  rw [heq]
  refine ht.stash.trans (.of_sth rfl ?_)
  rw [ht.sth]
  rfl

/-! Eviction. -/

/-- The state in which the oldest entry is evicted as e, with counts changed. -/
def evicted (s : State) (id : Nat) (e : StEnt) (f : Sth → Sth) : State := (unplace (setEnt s id e) id).modSth f

section Evict
variable {s : State} {op id : Nat} {rest : List Nat} (ho : s.sth.order = id :: rest)
include ho

theorem evict_pinned (hp : (entOf s id).pinned = true) : evict s op = (s, 8) := by simp [evict, ho, hp]

theorem evict_copied (hp : (entOf s id).pinned = false) (hc : (entOf s id).dcopy = true) :
    evict s op = (evicted s id { entOf s id with st := .depot } (fun h => h), 0) := by
  simp [evict, ho, hp, hc, evicted, State.modSth]

theorem evict_room (hp : (entOf s id).pinned = false) (hc : (entOf s id).dcopy = false) (hr : depotRoom s (depotBlocks (entOf s id)) = true) :
    evict s op = if regionCheck s s.core.cur (depotReg s) .put s.sth.dptr.toNat (depotBlocks (entOf s id)) ≠ 0 then
        (s, regionCheck s s.core.cur (depotReg s) .put s.sth.dptr.toNat (depotBlocks (entOf s id)))
      else (evicted (depotWrite s op id []) id { entOf (depotWrite s op id []) id with st := .depot } (fun h => { h with spills := h.spills + 1 }), 0) := by
  simp [evict, ho, hp, hc, hr, evicted]

theorem evict_dropped (hp : (entOf s id).pinned = false) (hc : (entOf s id).dcopy = false) (hr : depotRoom s (depotBlocks (entOf s id)) = false)
    (he : (entOf s id).elig = true) :
    evict s op = (evicted s id { entOf s id with st := .dropped } (fun h => { h with drops := h.drops + 1 }), 0) := by
  simp [evict, ho, hp, hc, hr, he, evicted]

theorem evict_kept (hp : (entOf s id).pinned = false) (hc : (entOf s id).dcopy = false) (hr : depotRoom s (depotBlocks (entOf s id)) = false)
    (he : (entOf s id).elig = false) : evict s op = (s, 8) := by
  simp [evict, ho, hp, hc, hr, he]

end Evict

/-- An eviction leaves the entry's new state, and every other entry in its place. -/
structure EvictedAs (s t : State) (id : Nat) : Prop where
  frame : StashFrame s t
  order : t.sth.order = s.sth.order.filter (fun k => decide (k ≠ id))
  others : ∀ k, k ≠ id → entOf t k = entOf s k

theorem evicted_as (s : State) (id : Nat) (e : StEnt) : EvictedAs s (evicted s id e (fun h => h)) id ∧
    EvictedAs s (evicted s id e (fun h => { h with spills := h.spills + 1 })) id ∧
    EvictedAs s (evicted s id e (fun h => { h with drops := h.drops + 1 })) id := by
  refine ⟨⟨.of_sth rfl rfl, rfl, fun k hk => ?_⟩, ⟨.of_sth rfl rfl, rfl, fun k hk => ?_⟩, ⟨.of_sth rfl rfl, rfl, fun k hk => ?_⟩⟩ <;>
    exact (entOf_setEnt s id k e).trans (if_neg hk)

theorem entOf_evicted (s : State) (id : Nat) (e : StEnt) (f : Sth → Sth) (hf : ∀ h, (f h).ents = h.ents) : entOf (evicted s id e f) id = e := by
  have h : entOf (evicted s id e f) id = entOf (setEnt s id e) id := by
    show tabGet _ (f _).ents id = _
    rw [hf]
    rfl
  rw [h, entOf_setEnt, if_pos rfl]

theorem depotWrite_others (s : State) (op id : Nat) (ws : List Writes) : (depotWrite s op id ws).sth.order = s.sth.order ∧
    ∀ k, k ≠ id → entOf (depotWrite s op id ws) k = entOf s k := by
  obtain ⟨t, bs, ht, _, _, heq⟩ := depotWrite_spec s op id ws
  rw [heq]
  exact ⟨rfl, fun k hk => tabGet_set_ne _ _ _ hk⟩

/-- What every eviction that succeeds leaves. -/
theorem evict_as {s : State} {op id : Nat} {rest : List Nat} (ho : s.sth.order = id :: rest) (h : (evict s op).2 = 0) :
    EvictedAs s (evict s op).1 id := by
  obtain hp | hp := Bool.eq_false_or_eq_true (entOf s id).pinned
  · rw [evict_pinned ho hp] at h; cases h
  obtain hc | hc := Bool.eq_false_or_eq_true (entOf s id).dcopy
  · rw [evict_copied ho hp hc]
    exact (evicted_as s id _).1
  obtain hr | hr := Bool.eq_false_or_eq_true (depotRoom s (depotBlocks (entOf s id)))
  · rw [evict_room ho hp hc hr] at h ⊢
    split at h
    case isTrue hne => exact absurd h hne
    case isFalse hz =>
      rw [if_neg hz]
      obtain ⟨hord, hoth⟩ := depotWrite_others s op id []
      obtain ⟨kf, kord, koth⟩ := (evicted_as (depotWrite s op id []) id { entOf (depotWrite s op id []) id with st := .depot }).2.1
      exact ⟨(depotWrite_frame s op id []).trans kf, by rw [kord, hord], fun k hk => (koth k hk).trans (hoth k hk)⟩
  obtain he | he := Bool.eq_false_or_eq_true (entOf s id).elig
  · rw [evict_dropped ho hp hc hr he]
    exact (evicted_as s id _).2.2
  · rw [evict_kept ho hp hc hr he] at h; cases h

/-- An eviction that does not succeed leaves the state as it is. -/
theorem evict_refused {s : State} {op : Nat} (h : (evict s op).2 ≠ 0) : (evict s op).1 = s := by
  match ho : s.sth.order with
  | [] => simp [evict, ho]
  | id :: rest =>
    obtain hp | hp := Bool.eq_false_or_eq_true (entOf s id).pinned
    · rw [evict_pinned ho hp]
    obtain hc | hc := Bool.eq_false_or_eq_true (entOf s id).dcopy
    · exact absurd (by rw [evict_copied ho hp hc]) h
    obtain hr | hr := Bool.eq_false_or_eq_true (depotRoom s (depotBlocks (entOf s id)))
    · rw [evict_room ho hp hc hr] at h ⊢
      split at h
      case isTrue hne => rw [if_pos hne]
      case isFalse => exact absurd rfl h
    obtain he | he := Bool.eq_false_or_eq_true (entOf s id).elig
    · exact absurd (by rw [evict_dropped ho hp hc hr he]) h
    · rw [evict_kept ho hp hc hr he]

/-- What every eviction leaves, whether it succeeds or not. -/
theorem evict_frame (s : State) (op : Nat) : StashFrame s (evict s op).1 := by
  by_cases h : (evict s op).2 = 0
  · match ho : s.sth.order with
    | [] => exact absurd h (by simp [evict, ho])
    | id :: rest => exact (evict_as ho h).frame
  · rw [evict_refused h]
    exact .refl s

/-- An entry that goes to the depot: its new state, and the put that takes it there. -/
theorem evict_spills {s : State} {op id : Nat} {rest : List Nat} (ho : s.sth.order = id :: rest) (hp : (entOf s id).pinned = false)
    (hc : (entOf s id).dcopy = false) (hr : depotRoom s (depotBlocks (entOf s id)) = true)
    (hk : regionCheck s s.core.cur (depotReg s) .put s.sth.dptr.toNat (depotBlocks (entOf s id)) = 0) :
    let e := entOf s id
    let r := evict s op
    r.2 = 0 ∧ (entOf r.1 id).st = .depot ∧ (entOf r.1 id).dcopy = true ∧ (entOf r.1 id).doff = s.sth.dptr.toNat ∧
      r.1.sth.spills = s.sth.spills + 1 ∧ r.1.sth.dptr = s.sth.dptr + BitVec.ofNat 32 (depotBlocks e) ∧
      ∃ j bs, r.1.str.jobs = s.str.jobs ++ [j] ∧ j.user = .sth ∧ j.kind = .put ∧ j.n = depotBlocks e ∧ j.data = some bs ∧
        bs.length = 512 * depotBlocks e ∧ bs.take (128 * e.size.toNat) = memBytes s.mem.bytes (lineAddr s e.line) (128 * e.size.toNat) := by
  intro e r
  have hrr : r = (evicted (depotWrite s op id []) id { entOf (depotWrite s op id []) id with st := .depot } (fun h => { h with spills := h.spills + 1 }), 0) :=
    (evict_room ho hp hc hr).trans (if_neg (not_not_intro hk))
  obtain ⟨t, bs, ht, hlen, htake, heq⟩ := depotWrite_spec s op id []
  have hent : entOf (depotWrite s op id []) id = { e with dcopy := true, doff := s.sth.dptr.toNat } := by
    rw [heq]
    exact tabGet_set_same ..
  have hnew : entOf r.1 id = { e with dcopy := true, doff := s.sth.dptr.toNat, st := .depot } := by
    rw [hrr]
    refine (entOf_evicted _ id _ (fun h => { h with spills := h.spills + 1 }) fun _ => rfl).trans ?_
    rw [hent]
  rw [memWith_nil] at htake
  have hsth : r.1.sth.spills = s.sth.spills + 1 ∧ r.1.sth.dptr = s.sth.dptr + BitVec.ofNat 32 (depotBlocks e) := by
    rw [hrr, heq]
    exact ⟨rfl, rfl⟩
  refine ⟨by rw [hrr], by rw [hnew], by rw [hnew], by rw [hnew], hsth.1, hsth.2,
    jobOf s op .sth .put s.core.cur (depotReg s) s.sth.dptr.toNat 0 (depotBlocks e) (some bs) none, bs, ?_, rfl, rfl, rfl, rfl, hlen, htake⟩
  rw [hrr, heq]
  rfl

/-! Placement. -/

theorem place_at {s : State} {op n line : Nat} (h : placeAt s n = some line) : place s op n = (s, .at_ line) := by
  simp [place, placeGo, h]

theorem placeGo_evict {k : Nat} {s : State} {op n : Nat} (h : placeAt s n = none) : placeGo (k + 1) s op n =
    if (evict s op).2 = 0 then placeGo k (evict s op).1 op n
    else if (evict s op).2 = 8 then ((evict s op).1, .full)
    else (sthRefused (evict s op).1 (evict s op).2 1, .refused) := by
  rw [placeGo, h]
  dsimp only
  split
  · simp_all
  · simp_all
  · next c h0 h8 hc =>
    rw [hc, if_neg h0, if_neg h8]

theorem place_full {s : State} {op n : Nat} (h : placeAt s n = none) (h8 : (evict s op).2 = 8) : place s op n = ((evict s op).1, .full) := by
  rw [place, placeGo_evict h, if_neg (by rw [h8]; decide), if_pos h8]

theorem place_evict {s : State} {op n line : Nat} (h : placeAt s n = none) (h0 : (evict s op).2 = 0)
    (hl : placeAt (evict s op).1 n = some line) : place s op n = ((evict s op).1, .at_ line) := by
  rw [place, placeGo_evict h, if_pos h0, placeGo, hl]

/-- A placement that is not refused leaves what its evictions leave. -/
theorem placeGo_frame {k : Nat} {s v : State} {op n : Nat} {p : Placed} (h : placeGo k s op n = (v, p)) (hp : p ≠ .refused) : StashFrame s v := by
  induction k generalizing s with
  | zero => rw [← (Prod.mk.inj h).1]; exact .refl s
  | succ k ih =>
    match hn : placeAt s n with
    | some line =>
      rw [placeGo, hn] at h
      rw [← (Prod.mk.inj h).1]
      exact .refl s
    | none =>
      rw [placeGo_evict hn] at h
      split at h
      · exact (evict_frame s op).trans (ih h)
      · split at h
        · rw [← (Prod.mk.inj h).1]
          exact evict_frame s op
        · exact absurd (Prod.mk.inj h).2.symm hp

theorem place_frame {s v : State} {op n : Nat} {p : Placed} (h : place s op n = (v, p)) (hp : p ≠ .refused) : StashFrame s v := placeGo_frame h hp

/-- Settles O41: an eviction by what its entry is, a placement by whether the ring has room. -/
theorem stashEviction : Obligations.StashEviction := by
  intro s op id rest ho e r
  refine ⟨evict_pinned ho, ?_, fun hp hc hr hk => evict_spills ho hp hc hr hk, fun hp hc hr => ⟨?_, evict_kept ho hp hc hr⟩,
    fun n line hn => place_at hn, fun n hn h8 => place_full hn h8, fun n line hn h0 hl => place_evict hn h0 hl, ?_⟩
  · intro hp hc
    have hr : r = (evicted s id { e with st := .depot } (fun h => h), 0) := evict_copied ho hp hc
    rw [hr]
    exact ⟨rfl, entOf_evicted s id _ _ fun _ => rfl, rfl, rfl⟩
  · intro he
    have hr : r = (evicted s id { e with st := .dropped } (fun h => { h with drops := h.drops + 1 }), 0) := evict_dropped ho hp hc hr he
    rw [hr]
    exact ⟨rfl, entOf_evicted s id _ _ fun _ => rfl, rfl⟩
  · intro h0
    obtain ⟨hframe, hord, hoth⟩ := evict_as ho h0
    exact ⟨by rw [hord, ho], hoth, hframe.sameBytes⟩

end Sys2Proof.Machine
end
section
/-! PROOFS. What the stash mover's operations share: their place in flight, copies and conversions, and requests to the depot (09 R222 to R231). -/

namespace Sys2Proof.Machine

/-! Operations in flight. -/

theorem mem_infl_put (s : State) (e : Nat) (ent : QEntry) (wb : Option Dword) (d : Bool) :
    ({ ent := ent, id := s.opId, wb := wb, done := d } : Infl) ∈ (qOf (putInfl s e ent wb d) e).infl := by
  rw [qOf_putInfl, if_pos rfl]
  exact List.mem_append_right _ (List.mem_singleton_self _)

theorem mem_infl_mod {s : State} {e id : Nat} {x : Infl} (f : Infl → Infl) (hx : x ∈ (qOf s e).infl) (hid : x.id = id) :
    f x ∈ (qOf (modInfl s e id f) e).infl := by
  have hinfl : (qOf (modInfl s e id f) e).infl = (qOf s e).infl.map (fun x => if x.id = id then f x else x) :=
    congrArg EngQ.infl ((qOf_modQ ..).trans (if_pos rfl))
  rw [hinfl]
  exact List.mem_map.mpr ⟨x, hx, if_pos hid⟩

theorem sthOver_frame (s : State) (op : Nat) : sthOver s op = { s with q := (sthOver s op).q } := by
  unfold sthOver
  split <;> rfl

/-- An operation whose transfers may be over stands in flight as before, but for being done. -/
theorem mem_infl_over {s : State} {op : Nat} {x : Infl} (hx : x ∈ (qOf s eSTH).infl) (hid : x.id = op) :
    ∃ d, { x with done := d } ∈ (qOf (sthOver s op) eSTH).infl := by
  unfold sthOver
  split
  · exact ⟨x.done, hx⟩
  · exact ⟨true, mem_infl_mod _ hx hid⟩

theorem qOf_over (s : State) (op : Nat) : (qOf (sthOver s op) eSTH).failed = (qOf s eSTH).failed ∧
    (qOf (sthOver s op) eSTH).wait = (qOf s eSTH).wait := by
  unfold sthOver
  split
  · exact ⟨rfl, rfl⟩
  · have h := (qOf_modQ s eSTH eSTH (fun q => { q with infl := q.infl.map (fun x => if x.id = op then { x with done := true } else x) })).trans (if_pos rfl)
    exact ⟨(congrArg EngQ.failed h :), (congrArg EngQ.wait h :)⟩

/-! Copies and conversions. -/

theorem copyTensor_spec (e : Emit) (mem : List Host.Cell) (src dst : Layout) : copyTensor e mem src dst (fun _ _ => true) =
    { e with wr := ((copyPairs src dst).map (fun q => (q.2.1, memBytes mem q.1 q.2.2))).reverse ++ e.wr } := by
  unfold copyTensor
  generalize copyPairs src dst = l
  induction l generalizing e with
  | nil => rfl
  | cons p l ih =>
    rw [List.foldl_cons, ih, List.map_cons, List.reverse_cons, List.append_assoc]
    rfl

/-- An emission that adds only observations and writings. -/
def EmitFrame (e f : Emit) : Prop := f.s = { e.s with wgh := f.s.wgh }

theorem EmitFrame.trans {e f g : Emit} (h : EmitFrame e f) (k : EmitFrame f g) : EmitFrame e g := by
  unfold EmitFrame at h k ⊢
  rw [k, h]

theorem EmitFrame.ite {e f : Emit} {p : Prop} [Decidable p] (h : EmitFrame e f) : EmitFrame e (if p then e else f) := by
  split
  · rfl
  · exact h

theorem putElem_frame (e : Emit) (l : Layout) (step : BitVec 48) (r c : Nat) (v : Word) : EmitFrame e (putElem e l step r c v) := by
  unfold EmitFrame putElem Emit.put
  dsimp only
  rw [observe_eq]

theorem putBlock_frame (e : Emit) (l : Layout) (step : BitVec 48) (r c : Nat) (vs : List (Option Word)) : EmitFrame e (putBlock e l step r c vs) := by
  unfold EmitFrame putBlock Emit.put
  dsimp only
  rw [observe_eq]

theorem copyTensor_frame (e : Emit) (mem : List Host.Cell) (src dst : Layout) (have_ : Nat → Nat → Bool) :
    EmitFrame e (copyTensor e mem src dst have_) :=
  foldl_related (R := EmitFrame) (fun _ => rfl) EmitFrame.trans (fun _ _ => by split <;> rfl) _ _

theorem putTensor_frame (e : Emit) (l : Layout) (step : BitVec 48) (val : Nat → Nat → Option Word) : EmitFrame e (putTensor e l step val) := by
  unfold putTensor
  split
  · refine foldl_related (R := EmitFrame) (fun _ => rfl) EmitFrame.trans (fun t p => ?_) _ _
    exact (putBlock_frame t l step p.1 p.2 _).ite
  · refine foldl_related (R := EmitFrame) (fun _ => rfl) EmitFrame.trans (fun t p => ?_) _ _
    split
    · exact putElem_frame ..
    · rfl

/-- Emissions that go on alike: they agree in what random bits are made of, and in what they have written. -/
def EmitAlike (e f : Emit) : Prop := f.s.man = e.s.man ∧ f.wr = e.wr

theorem rndOf_congr {s t : State} (h : t.man = s.man) (l : Layout) (n : BitVec 48) : rndOf t l n = rndOf s l n := by
  funext i
  rw [rndOf, srBits, draw128, cfg_congr h, cfg_congr h]; rfl

theorem EmitFrame.man {e f : Emit} (h : EmitFrame e f) : f.s.man = e.s.man := by rw [h]

theorem EmitAlike.ite {e f e' f' : Emit} {p : Prop} [Decidable p] (h : EmitAlike e f) (k : EmitAlike e' f') :
    EmitAlike (if p then e else e') (if p then f else f') := by
  split
  · exact h
  · exact k

theorem EmitAlike.putElem {e f : Emit} (h : EmitAlike e f) (l : Layout) (step : BitVec 48) (r c : Nat) (v : Word) :
    EmitAlike (putElem e l step r c v) (putElem f l step r c v) := by
  obtain ⟨hm, hw⟩ := h
  refine ⟨(putElem_frame ..).man.trans (hm.trans (putElem_frame ..).man.symm), ?_⟩
  show _ :: f.wr = _ :: e.wr
  rw [hw, rndOf_congr hm]

theorem EmitAlike.putBlock {e f : Emit} (h : EmitAlike e f) (l : Layout) (step : BitVec 48) (r c : Nat) (vs : List (Option Word)) :
    EmitAlike (putBlock e l step r c vs) (putBlock f l step r c vs) := by
  obtain ⟨hm, hw⟩ := h
  refine ⟨(putBlock_frame ..).man.trans (hm.trans (putBlock_frame ..).man.symm), ?_⟩
  show _ :: _ :: f.wr = _ :: _ :: e.wr
  rw [hw, rndOf_congr hm]

/-- Steps that keep emissions alike keep them alike to their end. -/
theorem foldl_alike {α : Type} {f : Emit → α → Emit} (hf : ∀ {e g} x, EmitAlike e g → EmitAlike (f e x) (f g x)) (l : List α) {e g : Emit}
    (h : EmitAlike e g) : EmitAlike (l.foldl f e) (l.foldl f g) := by
  induction l generalizing e g with
  | nil => exact h
  | cons x l ih => exact ih (hf x h)

theorem EmitAlike.putTensor {e f : Emit} (h : EmitAlike e f) (l : Layout) (step : BitVec 48) (val : Nat → Nat → Option Word) :
    EmitAlike (putTensor e l step val) (putTensor f l step val) := by
  unfold Machine.putTensor
  split
  · refine foldl_alike (fun p h => ?_) _ h
    exact h.ite (h.putBlock l step p.1 p.2 _)
  · refine foldl_alike (fun p h => ?_) _ h
    split
    · exact h.putElem ..
    · exact h

theorem EmitAlike.copyTensor {e f : Emit} (h : EmitAlike e f) (mem : List Host.Cell) (src dst : Layout) (have_ : Nat → Nat → Bool) :
    EmitAlike (copyTensor e mem src dst have_) (copyTensor f mem src dst have_) := by
  refine foldl_alike (fun p h => ?_) _ h
  split
  · exact ⟨h.1, congrArg (List.cons _) h.2⟩
  · exact h

theorem EmitAlike.writes {e f : Emit} (h : EmitAlike e f) : f.writes = e.writes := congrArg List.reverse h.2

/-! Requests to the depot. -/

/-- What a refused request leaves: the mover, the queues and the bytes. -/
theorem sthRefused_kept (s : State) (cause fn : Nat) :
    (sthRefused s cause fn).sth = s.sth ∧ (sthRefused s cause fn).q = s.q ∧ (sthRefused s cause fn).mem.bytes = s.mem.bytes := by
  have h := raise_reads (strDerr s cause fn (depotReg s) s.core.cur .sth) fcSTRREFUSED 5 0 cause
  exact ⟨h.sth, h.q, h.bytes⟩

/-- What a failed placement leaves: the table of entries, with the failure and its count. -/
theorem sthFull_spec (s : State) (fn id : Nat) : let t := sthFull s fn id
    (∀ k, entOf t k = entOf s k) ∧ t.sth.order = s.sth.order ∧ t.sth.fullCnt = s.sth.fullCnt + 1 ∧ t.sth.mbpeak = s.sth.mbpeak ∧
      (qOf t eSTH).failed = true ∧ (qOf t eSTH).wait = [] ∧ t.flt.cont = true ∧ t.mem.bytes = s.mem.bytes := by
  intro t
  generalize hv : (sthErr s 8 fn id).modSth (fun h => { h with fullCnt := h.fullCnt + 1 }) = v
  have ht : t = failQueue (raise v fcSTASHFULL 7 0 8) eSTH none := by rw [← hv]; rfl
  have hr := raise_reads v fcSTASHFULL 7 0 8
  have hsth : t.sth = v.sth := by
    rw [ht, failQueue, signalMany_frame]
    exact hr.sth
  have hvs : v.sth.ents = s.sth.ents ∧ v.sth.order = s.sth.order ∧ v.sth.fullCnt = s.sth.fullCnt + 1 ∧ v.sth.mbpeak = s.sth.mbpeak := by
    rw [← hv, sthErr]
    dsimp only [State.modSth]
    split <;> exact ⟨rfl, rfl, rfl, rfl⟩
  have hvm : v.mem = s.mem := by rw [← hv]; rfl
  obtain ⟨hents, hord, hcnt, hpeak⟩ := hvs
  refine ⟨fun k => by rw [entOf, hsth, hents]; rfl, by rw [hsth, hord], by rw [hsth, hcnt], by rw [hsth, hpeak], ?_, ?_, ?_, ?_⟩
  · rw [ht, qOf_failQueue]
  · rw [ht, qOf_failQueue]
  · rw [ht]
    exact failQueue_cont (raise_cont ..) ..
  · rw [ht, failQueue, signalMany_frame]
    exact hr.bytes.trans (by rw [hvm])

/-- The entry becomes the newest local entry. -/
theorem makeLocal_spec (s : State) (id line : Nat) (e : StEnt) : let t := makeLocal s id line e
    t = { s with sth := t.sth } ∧ entOf t id = { e with st := .lcl, line := line } ∧ (∀ k, k ≠ id → entOf t k = entOf s k) ∧
      t.sth.order = s.sth.order ++ [id] ∧ t.sth.mbpeak = s.sth.mbpeak ∧ t.sth.dptr = s.sth.dptr ∧ t.sth.rd = s.sth.rd ∧
      t.sth.clearPend = s.sth.clearPend := by
  intro t
  have hents : t.sth.ents = tabSet {} s.sth.ents id { e with st := .lcl, line := line } := rfl
  refine ⟨rfl, ?_, fun k hk => ?_, rfl, rfl, rfl, rfl, rfl⟩
  · rw [entOf, hents]
    exact tabGet_set_same ..
  · rw [entOf, hents]
    exact tabGet_set_ne _ _ _ hk

end Sys2Proof.Machine
end
section
/-! PROOFS. PUT, FREE and QUERY of the stash mover (09 R222 to R225, R228, R229, R240). -/

namespace Sys2Proof.Machine

/-! PUT: its checks. -/

theorem touchAt_reads (s : State) (b : Nat) : Reads s (touchAt s b) := by
  unfold touchAt
  split
  · exact touchRead_reads ..
  · exact .refl s

/-- The state in which PUT has read its descriptor and is in flight. -/
def putStart (s : State) (ent : QEntry) : State := putInfl (touchAt (left s eSTH ent) ent.b.toNat) eSTH ent none false

/-- The entry that PUT names. -/
def putId (ent : QEntry) : Nat := (ent.a.extractLsb' 0 10).toNat

theorem putStart_agree (s : State) (ent : QEntry) : Agree s (putStart s ent) :=
  ((left_agree ..).trans (touchAt_reads ..).agree).trans (putInfl_agree ..)

theorem putStart_kept (s : State) (ent : QEntry) : (putStart s ent).sth = s.sth ∧ (putStart s ent).str = s.str ∧
    (putStart s ent).core = s.core ∧ (touchAt (left s eSTH ent) ent.b.toNat).opId = s.opId :=
  have h := touchAt_reads (left s eSTH ent) ent.b.toNat
  ⟨h.sth.trans (left_sth ..), h.str.trans (left_str ..), h.core.trans (left_core ..), h.opId.trans (left_opId ..)⟩

theorem putStart_infl (s : State) (ent : QEntry) :
    ({ ent := ent, id := s.opId, wb := none, done := false } : Infl) ∈ (qOf (putStart s ent) eSTH).infl := by
  have h := mem_infl_put (touchAt (left s eSTH ent) ent.b.toNat) eSTH ent none false
  rw [(putStart_kept s ent).2.2.2] at h
  exact h

section Congr
variable {s t : State} (h : Agree s t)
include h

theorem Agree.putCopies (l : Layout) : putCopies t l = Machine.putCopies s l := by rw [Machine.putCopies, h.classFmt]; rfl

theorem Agree.putEnt (ent : QEntry) (l : Layout) : putEnt t ent l = Machine.putEnt s ent l := by rw [Machine.putEnt, h.classFmt]; rfl

theorem Agree.putDrops (ent : QEntry) : putDrops t ent = Machine.putDrops s ent := by
  rw [Machine.putDrops, stashMode, cfgBits_congr h.man]; rfl

theorem Agree.putCause (hs : t.sth = s.sth) (ent : QEntry) (l : Layout) : putCause t ent (some l) = Machine.putCause s ent (some l) := by
  have hp : stashP t = stashP s := by rw [stashP, partSize, cfg_congr h.man]; rfl
  unfold Machine.putCause
  simp only [h.putCopies, h.putEnt, h.classFmt, h.inParts, hp, hs, entOf_congr hs]

theorem Agree.classSr (k : Nat) : classSr t k = Machine.classSr s k := by rw [Machine.classSr, liveByte_congr h.man]; rfl

/-- What a PUT writes depends on no more than layouts and random bits do. -/
theorem Agree.putData (e : StEnt) (line : Nat) (l : Layout) (step : BitVec 48) : (putData t e line l step).writes = (Machine.putData s e line l step).writes := by
  have hb : (touchLayout t rqSTH l).mem.bytes = (touchLayout s rqSTH l).mem.bytes :=
    ((touchSpans_reads ..).bytes.trans h.bytes).trans (touchSpans_reads ..).bytes.symm
  have hm : EmitAlike { s := touchLayout s rqSTH l } { s := touchLayout t rqSTH l } :=
    ⟨((touchSpans_reads ..).man.trans h.man).trans (touchSpans_reads ..).man.symm, rfl⟩
  unfold Machine.putData
  dsimp only
  rw [h.putCopies, lineAddr_congr h.man, h.classSr, hb]
  split
  · exact (hm.copyTensor ..).writes
  · exact (hm.putTensor ..).writes

end Congr

/-- A PUT that keeps its source as it stands copies it element by element. -/
theorem putData_copies {s : State} {l : Layout} (hc : putCopies s l = true) (e : StEnt) (line : Nat) (step : BitVec 48) :
    (putData s e line l step).writes = (copyPairs l (entLayout e (lineAddr s line))).map (fun q => (q.2.1, memBytes s.mem.bytes q.1 q.2.2)) := by
  have hb : (touchLayout s rqSTH l).mem.bytes = s.mem.bytes := (touchSpans_reads ..).bytes
  unfold putData
  dsimp only
  rw [if_pos hc, copyTensor_spec, Emit.writes, List.append_nil, List.reverse_reverse, hb]

theorem putData_frame (s : State) (e : StEnt) (line : Nat) (l : Layout) (step : BitVec 48) :
    (putData s e line l step).s = { touchLayout s rqSTH l with wgh := (putData s e line l step).s.wgh } := by
  unfold putData
  dsimp only
  split
  · exact copyTensor_frame { s := touchLayout s rqSTH l } ..
  · exact putTensor_frame { s := touchLayout s rqSTH l } ..

/-! PUT: how it goes on. -/

/-- The state in which an entry has become dropped without a place. -/
def putDropped (s : State) (ent : QEntry) (l : Layout) : State :=
  markDone ((notePeak (setEnt (putStart s ent) (putId ent) { putEnt s ent l with st := .dropped }) ent).modSth
    (fun h => { h with drops := h.drops + 1 })) eSTH s.opId

/-- What a placed PUT writes into its entry. -/
def putEmit (s : State) (ent : QEntry) (l : Layout) (v : State) (line : Nat) : Emit :=
  putData (makeLocal (notePeak v ent) (putId ent) line (putEnt s ent l)) (putEnt s ent l) line l (stepField v ent.ctx)

/-- The state in which a placed PUT has given its writings. -/
def putPlaced (s : State) (ent : QEntry) (l : Layout) (v : State) (line : Nat) : State :=
  giveWr (putEmit s ent l v line).s eSTH s.opId [(putEmit s ent l v line).writes]

/-- How a PUT goes on when its placement has ended. -/
def putEnded (s : State) (ent : QEntry) (l : Layout) : State × Placed → State
  | (v, .full) => sthOver (sthFull v 0 (putId ent)) s.opId
  | (v, .refused) => sthOver v s.opId
  | (v, .at_ line) => sthOver (putSpill (putPlaced s ent l v line) s.opId (putId ent) (putEnt s ent l) [(putEmit s ent l v line).writes]) s.opId

section Put
variable {s : State} {ent : QEntry} {l : Layout} (h : Head s eSTH 0 ent) (hfree : sthFree s = true) (hw : spansWait s (putSpans s ent) = false)
  (hd : ldescAt s ent.b.toNat = true) (hl : readLayout (left s eSTH ent) ent.b.toNat = some l) (hc : putCause (left s eSTH ent) ent (some l) = 0)
include h hfree hw hd hl hc

/-- A PUT that passes its checks is in flight, and goes on by whether it drops its entry and by what its placement says. -/
theorem sthPut_goes : execSthPut s = .next (settled (if putDrops s ent then putDropped s ent l else
    putEnded s ent l (place (putStart s ent) s.opId ent.fs.toNat)) eSTH) := by
  have hr := touchAt_reads (left s eSTH ent) ent.b.toNat
  have ha := (left_agree s eSTH ent).trans hr.agree
  have hlay : sthLayout (touchAt (left s eSTH ent) ent.b.toNat) ent = some l := by
    rw [sthLayout, ha.ldescAt, if_pos hd, hr.agree.readLayout, hl]
  have hfails : putFails (touchAt (left s eSTH ent) ent.b.toNat) ent = 0 := by
    rw [putFails, ha.ldescAt, if_pos hd, hlay, hr.agree.putCause hr.sth, hc]
  have hop := (putStart_kept s ent).2.2.2
  have he : putEnt (putInfl (touchAt (left s eSTH ent) ent.b.toNat) eSTH ent none false) ent l = putEnt s ent l := (putStart_agree s ent).putEnt ..
  have hdr : putDrops (putInfl (touchAt (left s eSTH ent) ent.b.toNat) eSTH ent none false) ent = putDrops s ent := (putStart_agree s ent).putDrops _
  have hid : bitsOf ent.a.toNat 9 0 = putId ent := bitsOf_toNat ..
  rw [execSthPut, dispatchMem_goes h hfree hw]
  simp only [hfails, ne_eq, not_true_eq_false, if_false, hlay, Option.getD_some, hop, he, hdr, hid]
  rfl

theorem sthPut_drops (hdr : putDrops s ent = true) : execSthPut s = .next (settled (putDropped s ent l) eSTH) := by
  rw [sthPut_goes h hfree hw hd hl hc, if_pos hdr]

theorem sthPut_fills {v : State} (hdr : putDrops s ent = false) (hv : place (putStart s ent) s.opId ent.fs.toNat = (v, .full)) :
    execSthPut s = .next (settled (sthOver (sthFull v 0 (putId ent)) s.opId) eSTH) := by
  rw [sthPut_goes h hfree hw hd hl hc, if_neg (by rw [hdr]; decide), hv]
  rfl

theorem sthPut_places {v : State} {line : Nat} (hdr : putDrops s ent = false) (hv : place (putStart s ent) s.opId ent.fs.toNat = (v, .at_ line)) :
    execSthPut s = .next (settled (sthOver (putSpill (putPlaced s ent l v line) s.opId (putId ent) (putEnt s ent l)
      [(putEmit s ent l v line).writes]) s.opId) eSTH) := by
  rw [sthPut_goes h hfree hw hd hl hc, if_neg (by rw [hdr]; decide), hv]
  rfl

end Put

/-! PUT: what it leaves. -/

theorem putDrops_iff (s : State) (ent : QEntry) : putDrops s ent = true ↔ stashMode s = 2 ∧ ent.sub.getLsbD 0 = true := by
  rw [putDrops, Bool.and_eq_true, decide_eq_true_eq]

/-- MBPEAK is the larger of what it was and the tokens that the operation names. -/
theorem notePeak_spec (s : State) (ent : QEntry) : let t := notePeak s ent
    t = { s with sth := { s.sth with mbpeak := t.sth.mbpeak } } ∧ t.sth.mbpeak.toNat = max s.sth.mbpeak.toNat (ent.a.extractLsb' 32 25).toNat := by
  intro t
  have htok : bitsOf ent.a.toNat 56 32 = (ent.a.extractLsb' 32 25).toNat := bitsOf_toNat ..
  refine ⟨rfl, ?_⟩
  show (if s.sth.mbpeak.toNat < bitsOf ent.a.toNat 56 32 then BitVec.ofNat 25 (bitsOf ent.a.toNat 56 32) else s.sth.mbpeak).toNat = _
  rw [htok]
  split
  · rw [BitVec.toNat_ofNat, Nat.mod_eq_of_lt (BitVec.isLt _)]
    omega
  · omega

theorem putDropped_spec (s : State) (ent : QEntry) (l : Layout) : let t := putDropped s ent l
    entOf t (putId ent) = { putEnt s ent l with st := .dropped } ∧ t.sth.drops = s.sth.drops + 1 ∧
      t.sth.mbpeak.toNat = max s.sth.mbpeak.toNat (ent.a.extractLsb' 32 25).toNat ∧
      (∃ x ∈ (qOf t eSTH).infl, x.ent = ent ∧ x.done = true ∧ x.wr = []) ∧
      (∀ k, k ≠ putId ent → entOf t k = entOf s k) ∧ t.sth.order = s.sth.order ∧ SameBytes s t := by
  intro t
  obtain ⟨hsth, -, -, -⟩ := putStart_kept s ent
  have hents : t.sth.ents = tabSet {} s.sth.ents (putId ent) { putEnt s ent l with st := .dropped } := by rw [← hsth]; rfl
  refine ⟨?_, ?_, ?_, ⟨_, mem_infl_mod (fun x => { x with done := true }) (putStart_infl s ent) rfl, rfl, rfl, rfl⟩, fun k hk => ?_, ?_, ?_⟩
  · rw [entOf, hents]
    exact tabGet_set_same ..
  · rw [← hsth]; rfl
  · have hpeak := (notePeak_spec (setEnt (putStart s ent) (putId ent) { putEnt s ent l with st := .dropped }) ent).2
    rw [← hsth]
    exact hpeak
  · rw [entOf, hents]
    exact tabGet_set_ne _ _ _ hk
  · rw [← hsth]; rfl
  · exact fun a => by rw [← (putStart_agree s ent).bytes]; rfl

section Placed
variable {s v : State} {ent : QEntry} {line n : Nat} (l : Layout) (hv : place (putStart s ent) s.opId n = (v, .at_ line))
include hv

theorem placed_frame : StashFrame (putStart s ent) v := place_frame hv nofun

theorem placed_agree : Agree s v := (putStart_agree s ent).trans (placed_frame hv).agree

theorem placed_core : v.core = s.core := (placed_frame hv).core.trans (putStart_kept s ent).2.2.1

/-- The state in which the entry is the newest local one. -/
theorem putPlaced_spec : let g := putPlaced s ent l v line
    g.sth = (makeLocal (notePeak v ent) (putId ent) line (putEnt s ent l)).sth ∧ g.str = v.str ∧ g.man = s.man ∧ g.core = s.core ∧
      g.mem.bytes = s.mem.bytes ∧
      ({ ent := ent, id := s.opId, wb := none, done := false, wr := [(putEmit s ent l v line).writes] } : Infl) ∈ (qOf g eSTH).infl := by
  intro g
  generalize hm : makeLocal (notePeak v ent) (putId ent) line (putEnt s ent l) = m
  generalize hw : putEmit s ent l v line = w
  have hg : g = giveWr w.s eSTH s.opId [w.writes] := by rw [← hw]; rfl
  have hws : w.s = { touchLayout m rqSTH l with wgh := w.s.wgh } := by
    rw [← hw, putEmit, hm]
    exact putData_frame ..
  have hr : Reads m (touchLayout m rqSTH l) := touchSpans_reads ..
  have hmf := (makeLocal_spec (notePeak v ent) (putId ent) line (putEnt s ent l)).1
  rw [hm] at hmf
  have hstr : m.str = v.str := (congrArg State.str hmf :)
  have hman : m.man = v.man := (congrArg State.man hmf :)
  have hcore : m.core = v.core := (congrArg State.core hmf :)
  have hmem : m.mem = v.mem := (congrArg State.mem hmf :)
  have hq : m.q = v.q := (congrArg State.q hmf :)
  have hinfl : ({ ent := ent, id := s.opId, wb := none, done := false } : Infl) ∈ (qOf w.s eSTH).infl := by
    have hqq : qOf w.s eSTH = qOf (putStart s ent) eSTH := by
      rw [hws]
      show qOf (touchLayout m rqSTH l) eSTH = _
      rw [qOf, hr.q, hq, (placed_frame hv).q]
      rfl
    rw [hqq]
    exact putStart_infl s ent
  have hkept : w.s.sth = m.sth ∧ w.s.str = m.str ∧ w.s.man = m.man ∧ w.s.core = m.core ∧ w.s.mem.bytes = m.mem.bytes := by
    rw [hws]
    exact ⟨hr.sth, hr.str, hr.man, hr.core, hr.bytes⟩
  obtain ⟨ksth, kstr, kman, kcore, kbytes⟩ := hkept
  rw [hg]
  refine ⟨ksth, kstr.trans hstr, ?_, ?_, ?_, mem_infl_mod (fun x => { x with wr := [w.writes] }) hinfl rfl⟩
  · exact (kman.trans hman).trans (placed_agree hv).man
  · exact (kcore.trans hcore).trans (placed_core hv)
  · exact kbytes.trans ((congrArg Mem.bytes hmem).trans (placed_agree hv).bytes)

/-- What a placed PUT writes does not depend on its placement. -/
theorem putEmit_writes : (putEmit s ent l v line).writes = (putData s (putEnt s ent l) line l (stepField s ent.ctx)).writes := by
  have ha := placed_agree hv
  have hmf := (makeLocal_spec (notePeak v ent) (putId ent) line (putEnt s ent l)).1
  have hm : Agree s (makeLocal (notePeak v ent) (putId ent) line (putEnt s ent l)) :=
    ha.trans (.of_kept (congrArg State.man hmf :) (congrArg (fun x : State => x.mem.bytes) hmf :) (congrArg State.fac hmf :) (congrArg State.wgh hmf :))
  rw [putEmit, hm.putData, ha.stepField]

/-- Whether a placed PUT goes to the depot at once. -/
theorem putSpills_placed : putSpills (putPlaced s ent l v line) (putEnt s ent l) =
    if stashMode s = 1 ∧ depotRoom v (depotBlocks (putEnt s ent l)) = true then
      some (regionCheck v v.core.cur (depotReg v) .put v.sth.dptr.toNat (depotBlocks (putEnt s ent l))) else none := by
  obtain ⟨hsth, -, hman, hcore, -⟩ := putPlaced_spec l hv
  have hm : (putPlaced s ent l v line).man = v.man := hman.trans (placed_agree hv).man.symm
  have hc : (putPlaced s ent l v line).core = v.core := hcore.trans (placed_core hv).symm
  have hd : (putPlaced s ent l v line).sth.dptr = v.sth.dptr := by rw [hsth]; rfl
  have hmode : stashMode (putPlaced s ent l v line) = stashMode s := by rw [stashMode, cfgBits_congr hman]; rfl
  rw [putSpills, hmode, depotRoom_congr hm hc hd, regionCheck_congr hm, depotReg_congr hm, hc, hd]
  simp only [Bool.and_eq_true, decide_eq_true_eq]

/-- The table of entries after a placement. -/
theorem putPlaced_ents : let g := putPlaced s ent l v line
    entOf g (putId ent) = { putEnt s ent l with st := .lcl, line := line } ∧ (∀ k, k ≠ putId ent → entOf g k = entOf v k) ∧
      g.sth.order = v.sth.order ++ [putId ent] ∧ g.sth.mbpeak.toNat = max v.sth.mbpeak.toNat (ent.a.extractLsb' 32 25).toNat ∧
      g.sth.dptr = v.sth.dptr := by
  intro g
  obtain ⟨hsth, -⟩ := putPlaced_spec l hv
  obtain ⟨-, hself, hoth, hord, hpeak, hdptr, -⟩ := makeLocal_spec (notePeak v ent) (putId ent) line (putEnt s ent l)
  obtain ⟨-, hnote⟩ := notePeak_spec v ent
  refine ⟨(entOf_congr hsth _).trans hself, fun k hk => (entOf_congr hsth k).trans (hoth k hk), ?_, ?_, ?_⟩
  · exact (congrArg Sth.order hsth).trans hord
  · rw [show g.sth = _ from hsth, hpeak, hnote]
  · exact (congrArg Sth.dptr hsth).trans hdptr

end Placed

/-- A placed PUT that does not go to the depot leaves the mover, the queues and the bytes as its placement left them. -/
theorem putSpill_none {g : State} {e : StEnt} (h : putSpills g e ≠ some 0) (op id : Nat) (ws : List Writes) :
    (putSpill g op id e ws).sth = g.sth ∧ (putSpill g op id e ws).q = g.q ∧ (putSpill g op id e ws).mem.bytes = g.mem.bytes := by
  unfold putSpill
  split
  · exact ⟨rfl, rfl, rfl⟩
  · next c hc =>
    rw [if_pos (fun hz => h (by rw [hc, hz]))]
    exact sthRefused_kept ..

theorem putSpill_some {g : State} {e : StEnt} (h : putSpills g e = some 0) (op id : Nat) (ws : List Writes) :
    putSpill g op id e ws = depotWrite g op id ws := by
  unfold putSpill
  rw [h]
  rfl

/-- A depot write at the state in which the entry has its place: the put that it adds, and the entry's copy at the depot. -/
theorem depotWrite_placed {g : State} {op id : Nat} {e : StEnt} (he : entOf g id = e) (ws : List Writes) : let t := depotWrite g op id ws
    entOf t id = { e with dcopy := true, doff := g.sth.dptr.toNat } ∧ (∀ k, k ≠ id → entOf t k = entOf g k) ∧
      t.sth.order = g.sth.order ∧ t.sth.mbpeak = g.sth.mbpeak ∧ t.sth.dptr = g.sth.dptr + BitVec.ofNat 32 (depotBlocks e) ∧
      t.q = g.q ∧ t.mem.bytes = g.mem.bytes ∧
      ∃ j bs, t.str.jobs = g.str.jobs ++ [j] ∧ j.user = .sth ∧ j.kind = .put ∧ j.id = op ∧ j.blk = g.sth.dptr.toNat ∧
        j.n = depotBlocks e ∧ j.data = some bs ∧ bs.length = 512 * depotBlocks e ∧
        bs.take (128 * e.size.toNat) = memBytes (memWith g.mem.bytes ws) (lineAddr g e.line) (128 * e.size.toNat) := by
  intro t
  obtain ⟨r, bs, hr, hlen, htake, heq⟩ := depotWrite_spec g op id ws
  obtain ⟨hord, hoth⟩ := depotWrite_others g op id ws
  rw [he] at hlen htake heq
  have hself : entOf t id = { e with dcopy := true, doff := g.sth.dptr.toNat } := by
    rw [show t = _ from heq]
    exact tabGet_set_same ..
  have hrest : t.sth.mbpeak = g.sth.mbpeak ∧ t.sth.dptr = g.sth.dptr + BitVec.ofNat 32 (depotBlocks e) ∧ t.q = g.q ∧ t.mem.bytes = g.mem.bytes := by
    rw [show t = _ from heq]
    exact ⟨rfl, rfl, hr.q, hr.bytes⟩
  obtain ⟨hpeak, hdptr, hq, hbytes⟩ := hrest
  refine ⟨hself, hoth, hord, hpeak, hdptr, hq, hbytes,
    jobOf g op .sth .put g.core.cur (depotReg g) g.sth.dptr.toNat 0 (depotBlocks e) (some bs) none, bs, ?_, rfl, rfl, rfl, rfl, rfl, rfl, hlen, htake⟩
  rw [show t = _ from heq]

/-- What every placed PUT leaves, whether its entry goes to the depot at once or not. -/
structure PutLeft (s : State) (ent : QEntry) (l : Layout) (v : State) (line : Nat) (t : State) : Prop where
  st : (entOf t (putId ent)).st = .lcl
  place : (entOf t (putId ent)).line = line
  size : (entOf t (putId ent)).size = (putEnt s ent l).size
  elig : (entOf t (putId ent)).elig = ent.sub.getLsbD 0
  mb : (entOf t (putId ent)).mb = ent.a.extractLsb' 16 16
  others : ∀ k, k ≠ putId ent → entOf t k = entOf v k
  order : t.sth.order = v.sth.order ++ [putId ent]
  mbpeak : t.sth.mbpeak.toNat = max v.sth.mbpeak.toNat (ent.a.extractLsb' 32 25).toNat
  bytes : SameBytes s t
  infl : ∃ d, ({ ent := ent, id := s.opId, wb := none, done := d, wr := [(putEmit s ent l v line).writes] } : Infl) ∈ (qOf t eSTH).infl

theorem putEnt_mb (s : State) (ent : QEntry) (l : Layout) : (putEnt s ent l).mb = ent.a.extractLsb' 16 16 := by
  have hb : bitsOf ent.a.toNat 31 16 = (ent.a.extractLsb' 16 16).toNat := bitsOf_toNat ..
  show BitVec.ofNat 16 (bitsOf ent.a.toNat 31 16) = _
  rw [hb, BitVec.ofNat_toNat, BitVec.setWidth_eq]

section Placed
variable {s v : State} {ent : QEntry} {line n : Nat} (l : Layout) (hv : place (putStart s ent) s.opId n = (v, .at_ line))
include hv

/-- The end of a placed PUT whose mover and queues are those of its placement, but for the entry's copy at the depot. -/
theorem putLeft_of {u : State} (hself : ∃ d o, entOf u (putId ent) = { putEnt s ent l with st := .lcl, line := line, dcopy := d, doff := o })
    (hoth : ∀ k, k ≠ putId ent → entOf u k = entOf (putPlaced s ent l v line) k) (hord : u.sth.order = (putPlaced s ent l v line).sth.order)
    (hpeak : u.sth.mbpeak = (putPlaced s ent l v line).sth.mbpeak) (hq : u.q = (putPlaced s ent l v line).q)
    (hbytes : u.mem.bytes = (putPlaced s ent l v line).mem.bytes) : PutLeft s ent l v line (sthOver u s.opId) := by
  obtain ⟨-, -, -, -, gbytes, ginfl⟩ := putPlaced_spec l hv
  obtain ⟨-, goth, gord, gpeak, -⟩ := putPlaced_ents l hv
  have hf := sthOver_frame u s.opId
  have hsth : (sthOver u s.opId).sth = u.sth := (congrArg State.sth hf :)
  have hmem : (sthOver u s.opId).mem = u.mem := (congrArg State.mem hf :)
  have hent := entOf_congr hsth
  obtain ⟨d, o, hself⟩ := hself
  have hinfl : (qOf u eSTH).infl = (qOf (putPlaced s ent l v line) eSTH).infl := by rw [qOf, hq]; rfl
  refine ⟨?_, ?_, ?_, ?_, ?_, fun k hk => ?_, ?_, ?_, fun a => ?_, mem_infl_over (hinfl ▸ ginfl) rfl⟩
  · rw [hent, hself]
  · rw [hent, hself]
  · rw [hent, hself]
  · rw [hent, hself]; rfl
  · rw [hent, hself]; exact putEnt_mb s ent l
  · rw [hent, hoth k hk, goth k hk]
  · rw [hsth, hord, gord]
  · rw [hsth, hpeak, gpeak]
  · rw [hmem, hbytes, gbytes]

/-- A placed PUT that does not go to the depot. -/
theorem putLeft_stays (hs : putSpills (putPlaced s ent l v line) (putEnt s ent l) ≠ some 0) (ws : List Writes) :
    let t := sthOver (putSpill (putPlaced s ent l v line) s.opId (putId ent) (putEnt s ent l) ws) s.opId
    PutLeft s ent l v line t ∧ (entOf t (putId ent)).dcopy = false := by
  intro t
  obtain ⟨hsth, hq, hbytes⟩ := putSpill_none hs s.opId (putId ent) ws
  obtain ⟨gself, -⟩ := putPlaced_ents l hv
  have hself := (entOf_congr hsth (putId ent)).trans gself
  refine ⟨putLeft_of l hv ⟨_, _, hself⟩ (fun k _ => entOf_congr hsth k) (congrArg _ hsth) (congrArg _ hsth) hq hbytes, ?_⟩
  have ht : t.sth = (putSpill (putPlaced s ent l v line) s.opId (putId ent) (putEnt s ent l) ws).sth := (congrArg State.sth (sthOver_frame ..) :)
  rw [entOf_congr ht, hself]
  rfl

/-- A placed PUT that goes to the depot at once. -/
theorem putLeft_spills (hs : putSpills (putPlaced s ent l v line) (putEnt s ent l) = some 0) (ws : List Writes) :
    let e := putEnt s ent l
    let t := sthOver (putSpill (putPlaced s ent l v line) s.opId (putId ent) e ws) s.opId
    PutLeft s ent l v line t ∧ (entOf t (putId ent)).dcopy = true ∧ (entOf t (putId ent)).doff = v.sth.dptr.toNat ∧
      t.sth.dptr = v.sth.dptr + BitVec.ofNat 32 (depotBlocks e) ∧
      ∃ j bs, t.str.jobs = v.str.jobs ++ [j] ∧ j.user = .sth ∧ j.kind = .put ∧ j.id = s.opId ∧ j.blk = v.sth.dptr.toNat ∧
        j.n = depotBlocks e ∧ j.data = some bs ∧ bs.length = 512 * depotBlocks e ∧
        bs.take (128 * e.size.toNat) = memBytes (memWith s.mem.bytes ws) (lineAddr s line) (128 * e.size.toNat) := by
  intro e t
  obtain ⟨-, gstr, gman, -, gbytes, -⟩ := putPlaced_spec l hv
  obtain ⟨gself, -, -, -, gdptr⟩ := putPlaced_ents l hv
  obtain ⟨hself, hoth, hord, hpeak, hdptr, hq, hbytes, j, bs, hjobs, huser, hkind, hid, hblk, hn, hdata, hlen, htake⟩ :=
    depotWrite_placed (op := s.opId) gself ws
  rw [gdptr] at hself hdptr hblk
  rw [gbytes, lineAddr_congr gman] at htake
  have ht : t = sthOver (depotWrite (putPlaced s ent l v line) s.opId (putId ent) ws) s.opId :=
    congrArg (sthOver · s.opId) (putSpill_some hs ..)
  have hf := sthOver_frame (depotWrite (putPlaced s ent l v line) s.opId (putId ent) ws) s.opId
  rw [← ht] at hf
  have tsth : t.sth = (depotWrite (putPlaced s ent l v line) s.opId (putId ent) ws).sth := (congrArg State.sth hf :)
  have tstr : t.str = (depotWrite (putPlaced s ent l v line) s.opId (putId ent) ws).str := (congrArg State.str hf :)
  refine ⟨?_, ?_, ?_, ?_, j, bs, ?_, huser, hkind, hid, hblk, hn, hdata, hlen, htake⟩
  · rw [ht]
    exact putLeft_of l hv ⟨_, _, hself⟩ hoth hord hpeak hq hbytes
  · rw [entOf_congr tsth, hself]
  · rw [entOf_congr tsth, hself]
  · rw [tsth, hdptr]; rfl
  · rw [tstr, hjobs, gstr]

end Placed

/-! FREE and QUERY. -/

theorem idCause_zero {s : State} {ent : QEntry} {all state : Bool} (hsub : ent.sub = 0) (hfs : ent.fs = 0)
    (hid : 1023 < ent.a.toNat % 65536 → (all && decide (ent.a.toNat % 65536 = 0xFFFF)) = true)
    (hst : state = true → (all && decide (ent.a.toNat % 65536 = 0xFFFF)) = true ∨ (entOf s (ent.a.toNat % 65536)).st ≠ .empty) :
    idCause s ent all state = 0 := by
  unfold idCause
  generalize hall : (all && decide (ent.a.toNat % 65536 = 0xFFFF)) = al at hid hst
  have h1 : (decide (1023 < ent.a.toNat % 65536) && !al) = false := by
    by_cases h : 1023 < ent.a.toNat % 65536
    · simp [hid h]
    · simp [h]
  have h2 : (state && !al && decide ((entOf s (ent.a.toNat % 65536)).st = .empty)) = false := by
    cases state with
    | false => rfl
    | true =>
      obtain h | h := hst rfl
      · simp [h]
      · simp [h]
  dsimp only
  rw [hall, h1, h2, hsub, hfs]
  rfl

theorem id_eq (ent : QEntry) : ent.a.toNat % 65536 = (ent.a.extractLsb' 0 16).toNat := by simp

theorem entOf_unplace (s : State) (id k : Nat) : entOf (unplace s id) k = entOf s k := rfl

section
variable {s : State} {ent : QEntry}

/-- FREE of one entry. -/
theorem sthFree_one (h : Head s eSTH 2 ent) (hfree : sthFree s = true) (hsub : ent.sub = 0) (hfs : ent.fs = 0)
    (hid : (ent.a.extractLsb' 0 16).toNat < 1024) (hst : (entOf s (ent.a.extractLsb' 0 16).toNat).st ≠ .empty) :
    execSthFree s = .next (settled (unplace (setEnt (putInfl (left s eSTH ent) eSTH ent none true) (ent.a.extractLsb' 0 16).toNat {})
      (ent.a.extractLsb' 0 16).toNat) eSTH) := by
  have hne : ¬ ent.a.toNat % 65536 = 0xFFFF := by rw [id_eq]; omega
  have hc : idCause (left s eSTH ent) ent true true = 0 :=
    idCause_zero hsub hfs (by rw [id_eq]; omega) fun _ => .inr (by rw [id_eq, entOf_congr (left_sth ..)]; exact hst)
  rw [execSthFree, dispatch_goes h (by simp [hfree, hne])]
  simp only [hc, ne_eq, not_true_eq_false, if_false, if_neg hne]
  rw [id_eq]

/-- FREE of the whole table. -/
theorem sthFree_all (h : Head s eSTH 2 ent) (hfree : sthFree s = true) (hsub : ent.sub = 0) (hfs : ent.fs = 0)
    (hid : (ent.a.extractLsb' 0 16).toNat = 0xFFFF) (hb : depotBusy s = false) :
    execSthFree s = .next (settled (sthClear (putInfl (left s eSTH ent) eSTH ent none true)) eSTH) := by
  have he : ent.a.toNat % 65536 = 0xFFFF := (id_eq ent).trans hid
  have hc : idCause (left s eSTH ent) ent true true = 0 := idCause_zero hsub hfs (fun _ => by simp [he]) fun _ => .inl (by simp [he])
  rw [execSthFree, dispatch_goes h (by simp [hfree, hb])]
  simp only [hc, ne_eq, not_true_eq_false, if_false, if_pos he]

theorem sthClear_hwm (s : State) : (sthClear s).sth.hwm = 0 := by
  unfold sthClear restartRegion
  dsimp only
  split
  · split <;> rfl
  · rfl

/-- QUERY of an entry. -/
theorem sthQuery_goes (h : Head s eSTH 3 ent) (hfree : sthFree s = true) (hsub : ent.sub = 0) (hfs : ent.fs = 0)
    (hid : (ent.a.extractLsb' 0 16).toNat < 1024) :
    execSthQuery s = .next (settled (putInfl (left s eSTH ent) eSTH ent (some (BitVec.ofNat 64 (queryWord s (ent.a.extractLsb' 0 16).toNat))) true) eSTH) := by
  have hc : idCause (left s eSTH ent) ent false false = 0 := idCause_zero hsub hfs (by rw [id_eq]; omega) nofun
  have hq : ∀ k, queryWord (left s eSTH ent) k = queryWord s k := fun k => by
    unfold queryWord
    simp only [entOf_congr (left_sth ..), lineAddr_congr (left_man ..)]
  rw [execSthQuery, dispatch_goes h hfree]
  simp only [hc, ne_eq, not_true_eq_false, if_false, hq]
  rw [id_eq]

end

theorem StSt.code_lt (x : StSt) : x.code < 4 := by cases x <;> decide

/-- The fields of a QUERY word. -/
theorem queryWord_fields {s : State} {id : Nat} (hl : (entOf s id).st = .lcl → lineAddr s (entOf s id).line < memTop) :
    let e := entOf s id
    let v := BitVec.ofNat 64 (queryWord s id)
    (v.extractLsb' 0 2).toNat = e.st.code ∧
      v.getLsbD 2 = e.elig ∧ v.getLsbD 3 = e.pinned ∧ v.getLsbD 4 = e.dcopy ∧
      (v.extractLsb' 8 21).toNat = (if e.st = .lcl then lineAddr s e.line else 0) ∧ v.extractLsb' 32 14 = e.size ∧ v.extractLsb' 46 16 = e.mb ∧
      v.extractLsb' 5 3 = 0 ∧ v.extractLsb' 29 3 = 0 ∧ v.extractLsb' 62 2 = 0 := by
  intro e v
  obtain ⟨a, ha, hlt⟩ : ∃ a, (if e.st = .lcl then lineAddr s e.line else 0) = a ∧ a < 2 ^ 21 := by
    refine ⟨_, rfl, ?_⟩
    split
    · next h => exact (hl h).trans (by decide)
    · decide
  have hcode := e.st.code_lt
  have := e.size.isLt; have := e.mb.isLt
  have := e.elig.toNat_le; have := e.pinned.toNat_le; have := e.dcopy.toNat_le
  have hv : queryWord s id = e.st.code + 4 * e.elig.toNat + 8 * e.pinned.toNat + 16 * e.dcopy.toNat + 2 ^ 8 * a +
      2 ^ 32 * e.size.toNat + 2 ^ 46 * e.mb.toNat := by
    rw [← ha, ← flag_eq, ← flag_eq, ← flag_eq]; rfl
  have hst : (v.extractLsb' 0 2) = BitVec.ofNat 2 e.st.code :=
    extract_ofNat (by omega) (by rw [hv, BitVec.toNat_ofNat]; omega)
  have had : (v.extractLsb' 8 21) = BitVec.ofNat 21 a := extract_ofNat (by omega) (by rw [hv, BitVec.toNat_ofNat]; omega)
  rw [ha, hst, had, BitVec.toNat_ofNat, BitVec.toNat_ofNat, Nat.mod_eq_of_lt hcode, Nat.mod_eq_of_lt hlt]
  simp only [v, hv]
  exact ⟨trivial, getLsbD_ofNat_of (by omega) (by omega), getLsbD_ofNat_of (by omega) (by omega), getLsbD_ofNat_of (by omega) (by omega), trivial,
    extract_ofNat (by omega) (by omega), extract_ofNat (by omega) (by omega), extract_ofNat (by omega) (by simp; omega),
    extract_ofNat (by omega) (by simp; omega), extract_ofNat (by omega) (by simp; omega)⟩

theorem SameBytes.of_eq {s t : State} (h : t.mem.bytes = s.mem.bytes) : SameBytes s t := fun a => by rw [h]

/-- Settles O39: PUT by what its placement says, FREE by its ID, QUERY by the fields of its word. -/
theorem stashPutFreeQuery : Obligations.StashPutFreeQuery := by
  refine ⟨?_, ?_, ?_⟩
  · intro s ent l h hfree hw b u p id tok e drops hd hl hc
    have hdr : ¬ drops → putDrops s ent = false := fun hn => Bool.eq_false_iff.mpr fun hp => hn ((putDrops_iff s ent).mp hp)
    refine ⟨fun hdrops => ?_, fun v line hn hv => ?_, fun v hn hv => ?_⟩
    · exact ⟨_, sthPut_drops h hfree hw hd hl hc ((putDrops_iff s ent).mpr hdrops), putDropped_spec s ent l⟩
    · intro d spills
      have hgo := sthPut_places h hfree hw hd hl hc (hdr hn) hv
      have hsp := putSpills_placed l hv
      have hwr : [(putEmit s ent l v line).writes].flatten = (putData s e line l (stepField s ent.ctx)).writes := by
        rw [List.flatten_singleton]
        exact putEmit_writes l hv
      by_cases hs : spills
      · obtain ⟨hmode, hroom, hcheck⟩ := hs
        rw [if_pos ⟨hmode, hroom⟩, hcheck] at hsp
        obtain ⟨⟨hst, hline, hsize, helig, hmb, hoth, hord, hpeak, hbytes, dn, hinfl⟩, hdcopy, hdoff, hdptr, hjob⟩ :=
          putLeft_spills l hv hsp [(putEmit s ent l v line).writes]
        exact ⟨_, _, hgo, hst, hline, hsize, helig, hmb, hoth, hord, hpeak, hbytes, hinfl, rfl,
          fun hcp => hwr.trans (putData_copies hcp ..), fun _ => hwr, fun hns => absurd ⟨hmode, hroom, hcheck⟩ hns,
          fun _ => ⟨hdcopy, hdoff, hdptr, hjob⟩⟩
      · have hne : putSpills (putPlaced s ent l v line) (putEnt s ent l) ≠ some 0 := by
          rw [hsp]
          split
          · next hmr => exact fun hz => hs ⟨hmr.1, hmr.2, Option.some.inj hz⟩
          · nofun
        obtain ⟨⟨hst, hline, hsize, helig, hmb, hoth, hord, hpeak, hbytes, dn, hinfl⟩, hdcopy⟩ :=
          putLeft_stays l hv hne [(putEmit s ent l v line).writes]
        exact ⟨_, _, hgo, hst, hline, hsize, helig, hmb, hoth, hord, hpeak, hbytes, hinfl, rfl,
          fun hcp => hwr.trans (putData_copies hcp ..), fun _ => hwr, fun _ => hdcopy, fun hss => absurd hss hs⟩
    · obtain ⟨hents, hord, hcnt, hpeak, hfailed, hwait, hcont, hbytes⟩ := sthFull_spec v 0 (putId ent)
      have hf := sthOver_frame (sthFull v 0 (putId ent)) s.opId
      obtain ⟨kfailed, kwait⟩ := qOf_over (sthFull v 0 (putId ent)) s.opId
      have hpv : StashFrame (putStart s ent) v := place_frame hv nofun
      have hsth : (sthOver (sthFull v 0 (putId ent)) s.opId).sth = (sthFull v 0 (putId ent)).sth := (congrArg State.sth hf :)
      refine ⟨_, sthPut_fills h hfree hw hd hl hc (hdr hn) hv, fun k => (entOf_congr hsth k).trans (hents k), ?_, ?_, ?_, ?_, ?_, ?_, ?_⟩
      · rw [hsth, hord]
      · rw [hsth, hcnt, hpv.fullCnt, (putStart_kept s ent).1]
      · rw [hsth, hpeak, hpv.mbpeak, (putStart_kept s ent).1]
      · rw [kfailed, hfailed]
      · rw [kwait, hwait]
      · exact (congrArg (fun x : State => x.flt.cont) hf).trans hcont
      · exact .of_eq ((congrArg (fun x : State => x.mem.bytes) hf).trans (hbytes.trans (((putStart_agree s ent).trans hpv.agree).bytes)))
  · intro s ent h hfree hsub hfs id
    refine ⟨fun hid hst => ⟨_, sthFree_one h hfree hsub hfs hid hst, ?_, fun k hk => ?_, ?_, ?_⟩, fun hid hb => ?_⟩
    · rw [entOf_unplace, entOf_setEnt, if_pos rfl]
    · rw [entOf_unplace, entOf_setEnt, if_neg hk]
      exact entOf_congr (left_sth ..) k
    · show List.filter _ (left s eSTH ent).sth.order = _
      rw [left_sth]
    · rw [← left_opId s eSTH ent]; rfl
    · obtain ⟨hents, hord, hdptr, -, hbytes⟩ := sthClear_spec (putInfl (left s eSTH ent) eSTH ent none true)
      exact ⟨_, sthFree_all h hfree hsub hfs hid hb, hents, hord, hdptr, sthClear_hwm _, fun a => (hbytes a).trans (by
        show memByte (left s eSTH ent).mem.bytes a = _
        rw [left_mem])⟩
  · intro s ent h hfree hsub hfs id e hid hl
    obtain ⟨hst, hrest⟩ := queryWord_fields hl
    refine ⟨_, sthQuery_goes h hfree hsub hfs hid, hst.trans ?_, hrest⟩
    cases e.st <;> rfl

end Sys2Proof.Machine
end
section
/-! PROOFS. GET of the stash mover, and the last block of a GET in place (09 R227; 13 R328). -/

namespace Sys2Proof.Machine

/-! What a GET gives its destination. -/

/-- What a GET writes depends on no more than random bits do. -/
theorem Agree.getData {s t : State} (h : Agree s t) (mem : List Host.Cell) (e : StEnt) (base : Nat) (l : Layout) (step : BitVec 48)
    (have_ : Nat → Nat → Bool) : (getData t mem e base l step have_).writes = (Machine.getData s mem e base l step have_).writes := by
  have hm : EmitAlike { s := s } { s := t } := ⟨h.man, rfl⟩
  unfold Machine.getData
  dsimp only
  split
  · exact (hm.copyTensor ..).writes
  · exact (hm.putTensor ..).writes

theorem Agree.getCause {s t : State} (h : Agree s t) (e : StEnt) (l : Layout) : getCause t e l = Machine.getCause s e l := by
  unfold Machine.getCause
  rw [h.inParts]

theorem getData_frame (s : State) (mem : List Host.Cell) (e : StEnt) (base : Nat) (l : Layout) (step : BitVec 48) (have_ : Nat → Nat → Bool) :
    (getData s mem e base l step have_).s = { s with wgh := (getData s mem e base l step have_).s.wgh } := by
  unfold getData
  dsimp only
  split
  · exact copyTensor_frame { s := s } ..
  · exact putTensor_frame { s := s } ..

/-- A GET that gives its destination the entry's bytes copies them element by element. -/
theorem getData_copies {e : StEnt} {l : Layout} (hc : getCopies e l = true) (s : State) (mem : List Host.Cell) (base : Nat) (step : BitVec 48) :
    (getData s mem e base l step (fun _ _ => true)).writes =
      (copyPairs (entLayout e base) l).map (fun q => (q.2.1, memBytes mem q.1 q.2.2)) := by
  unfold getData
  dsimp only
  rw [if_pos hc, copyTensor_spec, Emit.writes, List.append_nil, List.reverse_reverse]

/-! How a GET goes on. -/

/-- The entry that GET, FREE and QUERY name. -/
def getId (ent : QEntry) : Nat := (ent.a.extractLsb' 0 16).toNat

/-- The state in which a GET has read its descriptor, when it reads one. -/
def getRead (s : State) (ent : QEntry) : State :=
  if getReads (left s eSTH ent) ent then touchAt (left s eSTH ent) ent.b.toNat else left s eSTH ent

/-- The state in which a GET is in flight. -/
def getStart (s : State) (ent : QEntry) : State := putInfl (getRead s ent) eSTH ent none false

/-- How a GET goes on when the placement of its entry has ended. -/
def getPlaced (s : State) (ent : QEntry) : State × Placed → State
  | (v, .full) => sthOver (sthFull v 1 (getId ent)) s.opId
  | (v, .refused) => sthOver v s.opId
  | (v, .at_ line) => sthOver (depotRead v s.opId (getId ent) (entOf s (getId ent)) none line (stepField s ent.ctx)) s.opId

/-- The state in which a GET has read a local entry. -/
def getSeen (s : State) (ent : QEntry) : State :=
  touchLayout (getStart s ent) rqSTH (entLayout (entOf s (getId ent)) (lineAddr s (entOf s (getId ent)).line))

/-- What a GET of a local entry writes. -/
def getEmit (s : State) (ent : QEntry) (l : Layout) : Emit :=
  getData (getSeen s ent) s.mem.bytes (entOf s (getId ent)) (lineAddr s (entOf s (getId ent)).line) l (stepField s ent.ctx) (fun _ _ => true)

theorem getRead_reads (s : State) (ent : QEntry) : Reads (left s eSTH ent) (getRead s ent) := by
  unfold getRead
  split
  · exact touchAt_reads ..
  · exact .refl _

theorem getStart_agree (s : State) (ent : QEntry) : Agree s (getStart s ent) :=
  ((left_agree ..).trans (getRead_reads ..).agree).trans (putInfl_agree ..)

theorem getStart_kept (s : State) (ent : QEntry) : (getStart s ent).sth = s.sth ∧ (getStart s ent).str = s.str ∧
    (getStart s ent).core = s.core ∧ (getRead s ent).opId = s.opId :=
  have h := getRead_reads s ent
  ⟨h.sth.trans (left_sth ..), h.str.trans (left_str ..), h.core.trans (left_core ..), h.opId.trans (left_opId ..)⟩

theorem getStart_infl (s : State) (ent : QEntry) :
    ({ ent := ent, id := s.opId, wb := none, done := false } : Infl) ∈ (qOf (getStart s ent) eSTH).infl := by
  have h := mem_infl_put (getRead s ent) eSTH ent none false
  rw [(getStart_kept s ent).2.2.2] at h
  exact h

theorem getReads_congr {s t : State} (h : t.sth = s.sth) (ent : QEntry) : getReads t ent = getReads s ent := by
  unfold getReads idCause
  simp only [entOf_congr h]

section Get
variable {s : State} {ent : QEntry} (h : Head s eSTH 1 ent) (hfree : sthFree s = true) (hw : spansWait s (getSpans s ent) = false)
  (hc : getFails (getRead s ent) ent = 0)
include h hfree hw hc

/-- A GET that passes its checks is in flight, and goes on by the state of its entry. -/
theorem sthGet_goes : execSthGet s = .next (settled (
    if (entOf s (getId ent)).st = .dropped then markDone ((getStart s ent).modSth (fun h => { h with dropget := h.dropget + 1 })) eSTH s.opId
    else if (entOf s (getId ent)).st = .lcl then
      if ent.b ≠ 0 then finishWith (getEmit s ent ((sthLayout (getRead s ent) ent).getD {})).s eSTH s.opId
          [(getEmit s ent ((sthLayout (getRead s ent) ent).getD {})).writes] []
      else markDone (setEnt (getStart s ent) (getId ent) { entOf s (getId ent) with pinned := true }) eSTH s.opId
    else if ent.b ≠ 0 then
      sthOver (depotRead (getStart s ent) s.opId (getId ent) (entOf s (getId ent)) (some ((sthLayout (getRead s ent) ent).getD {})) 0
        (stepField s ent.ctx)) s.opId
    else getPlaced s ent (place (getStart s ent) s.opId (entOf s (getId ent)).size.toNat)) eSTH) := by
  have hid : ent.a.toNat % 65536 = getId ent := id_eq ent
  obtain ⟨hsth, -, -, hop⟩ := getStart_kept s ent
  have hent : entOf (getRead s ent) (getId ent) = entOf s (getId ent) := entOf_congr hsth _
  have ha := getStart_agree s ent
  have hline := lineAddr_congr ha.man
  have hstep := ha.stepField ent.ctx
  have hbytes : (getSeen s ent).mem.bytes = s.mem.bytes := ((touchSpans_reads ..).bytes).trans ha.bytes
  rw [execSthGet, dispatchMem_goes h hfree hw]
  refine congrArg (fun t => Host.Outcome.next (settled t eSTH)) ?_
  have hread : (if getReads (left s eSTH ent) ent = true then touchAt (left s eSTH ent) ent.b.toNat else left s eSTH ent) = getRead s ent := rfl
  have hstart : putInfl (getRead s ent) eSTH ent none false = getStart s ent := rfl
  have hseen : touchLayout (getStart s ent) rqSTH (entLayout (entOf s (getId ent)) (lineAddr s (entOf s (getId ent)).line)) = getSeen s ent := rfl
  simp only [hread, hid, hent, hop, hc, ne_eq, not_true_eq_false, if_false, hstart, hline, hstep, hseen, hbytes]
  cases (entOf s (getId ent)).st <;> rfl

end Get

/-! The checks of a GET. -/

/-- A GET to a destination reads its descriptor. -/
theorem getRead_layout {s : State} {ent : QEntry} {l : Layout} (hl : ldescAt s ent.b.toNat = true)
    (hlay : readLayout (left s eSTH ent) ent.b.toNat = some l) : sthLayout (getRead s ent) ent = some l := by
  have hr := getRead_reads s ent
  rw [sthLayout, ((left_agree s eSTH ent).trans hr.agree).ldescAt, if_pos hl, hr.agree.readLayout, hlay]

section Checks
variable {s : State} {ent : QEntry} (hsub : ent.sub = 0) (hfs : ent.fs = 0) (hid : getId ent < 1024) (hst : (entOf s (getId ent)).st ≠ .empty)
include hsub hfs hid hst

theorem getRead_idCause : idCause (getRead s ent) ent false true = 0 := by
  have he : ent.a.toNat % 65536 = getId ent := id_eq ent
  refine idCause_zero hsub hfs (by rw [he]; omega) fun _ => .inr ?_
  rw [he, entOf_congr (getStart_kept s ent).1 (t := getRead s ent)]
  exact hst

theorem getReads_iff : getReads (left s eSTH ent) ent = true ↔ ent.b ≠ 0 ∧ (entOf s (getId ent)).st ≠ .dropped := by
  have he : ent.a.toNat % 65536 = getId ent := id_eq ent
  have hc : idCause s ent false true = 0 := idCause_zero hsub hfs (by rw [he]; omega) fun _ => .inr (by rw [he]; exact hst)
  rw [getReads_congr (left_sth ..), getReads, hc, he]
  simp

/-- A GET that reads no descriptor passes its checks. -/
theorem getFails_unread (hr : ¬ (ent.b ≠ 0 ∧ (entOf s (getId ent)).st ≠ .dropped)) : getFails (getRead s ent) ent = 0 := by
  have hread : getReads (getRead s ent) ent = false := by
    rw [getReads_congr (getRead_reads s ent).sth]
    exact Bool.eq_false_iff.mpr fun h => hr ((getReads_iff hsub hfs hid hst).mp h)
  simp [getFails, hread, getRead_idCause hsub hfs hid hst]

/-- A GET to a destination passes its checks when its contents do. -/
theorem getFails_read {l : Layout} (hb : ent.b ≠ 0) (hd : (entOf s (getId ent)).st ≠ .dropped) (hl : ldescAt s ent.b.toNat = true)
    (hlay : readLayout (left s eSTH ent) ent.b.toNat = some l) (hc : getCause (left s eSTH ent) (entOf s (getId ent)) l = 0) :
    getFails (getRead s ent) ent = 0 := by
  have hr := getRead_reads s ent
  have hlay' := getRead_layout hl hlay
  have hread : getReads (getRead s ent) ent = true := by
    rw [getReads_congr (getRead_reads s ent).sth]
    exact (getReads_iff hsub hfs hid hst).mpr ⟨hb, hd⟩
  have hld : ldescAt (getRead s ent) ent.b.toNat = true := (((left_agree s eSTH ent).trans hr.agree).ldescAt _).trans hl
  have hcause : getCause (getRead s ent) (entOf (getRead s ent) (ent.a.toNat % 65536)) l = 0 := by
    rw [id_eq, entOf_congr (getStart_kept s ent).1 (t := getRead s ent), hr.agree.getCause]
    exact hc
  simp [getFails, hread, hld, hlay', getRead_idCause hsub hfs hid hst, hcause]

/-- A GET in place reads no descriptor. -/
theorem getStart_unread (hb : ent.b = 0) : getStart s ent = putInfl (left s eSTH ent) eSTH ent none false := by
  have hr : getReads (left s eSTH ent) ent = false :=
    Bool.eq_false_iff.mpr fun hr => ((getReads_iff hsub hfs hid hst).mp hr).1 hb
  rw [getStart, getRead, if_neg (by rw [hr]; nofun)]

end Checks

section Runs
variable {s : State} {ent : QEntry} (hsub : ent.sub = 0) (hfs : ent.fs = 0) (hid : getId ent < 1024)
  (h : Head s eSTH 1 ent) (hfree : sthFree s = true) (hw : spansWait s (getSpans s ent) = false)
include hsub hfs hid h hfree hw

theorem sthGet_dropped (hd : (entOf s (getId ent)).st = .dropped) : execSthGet s =
    .next (settled (markDone ((getStart s ent).modSth (fun h => { h with dropget := h.dropget + 1 })) eSTH s.opId) eSTH) := by
  have hf := getFails_unread hsub hfs hid (by rw [hd]; nofun) fun hr => hr.2 hd
  rw [sthGet_goes h hfree hw hf, if_pos hd]

theorem sthGet_pins (hl : (entOf s (getId ent)).st = .lcl) (hb : ent.b = 0) : execSthGet s =
    .next (settled (markDone (setEnt (getStart s ent) (getId ent) { entOf s (getId ent) with pinned := true }) eSTH s.opId) eSTH) := by
  have hf := getFails_unread hsub hfs hid (by rw [hl]; nofun) fun hr => hr.1 hb
  rw [sthGet_goes h hfree hw hf, if_neg (by rw [hl]; nofun), if_pos hl, if_neg (not_not_intro hb)]

theorem sthGet_places (hd : (entOf s (getId ent)).st = .depot) (hb : ent.b = 0) : execSthGet s =
    .next (settled (getPlaced s ent (place (getStart s ent) s.opId (entOf s (getId ent)).size.toNat)) eSTH) := by
  have hf := getFails_unread hsub hfs hid (by rw [hd]; nofun) fun hr => hr.1 hb
  rw [sthGet_goes h hfree hw hf, if_neg (by rw [hd]; nofun), if_neg (by rw [hd]; nofun), if_neg (not_not_intro hb)]

theorem sthGet_placed (hd : (entOf s (getId ent)).st = .depot) (hb : ent.b = 0) {v : State} {line : Nat}
    (hv : place (getStart s ent) s.opId (entOf s (getId ent)).size.toNat = (v, .at_ line)) : execSthGet s =
    .next (settled (sthOver (depotRead v s.opId (getId ent) (entOf s (getId ent)) none line (stepField s ent.ctx)) s.opId) eSTH) := by
  rw [sthGet_places hsub hfs hid h hfree hw hd hb, hv]
  rfl

theorem sthGet_full (hd : (entOf s (getId ent)).st = .depot) (hb : ent.b = 0) {v : State}
    (hv : place (getStart s ent) s.opId (entOf s (getId ent)).size.toNat = (v, .full)) : execSthGet s =
    .next (settled (sthOver (sthFull v 1 (getId ent)) s.opId) eSTH) := by
  rw [sthGet_places hsub hfs hid h hfree hw hd hb, hv]
  rfl

section Read
variable {l : Layout} (hb : ent.b ≠ 0) (hl : ldescAt s ent.b.toNat = true) (hlay : readLayout (left s eSTH ent) ent.b.toNat = some l)
  (hc : getCause (left s eSTH ent) (entOf s (getId ent)) l = 0)
include hb hl hlay hc

theorem sthGet_copies (hd : (entOf s (getId ent)).st = .lcl) :
    execSthGet s = .next (settled (finishWith (getEmit s ent l).s eSTH s.opId [(getEmit s ent l).writes] []) eSTH) := by
  have hf := getFails_read hsub hfs hid (by rw [hd]; nofun) hb (by rw [hd]; nofun) hl hlay hc
  rw [sthGet_goes h hfree hw hf, if_neg (by rw [hd]; nofun), if_pos hd, if_pos hb, getRead_layout hl hlay, Option.getD_some]

theorem sthGet_fetches (hd : (entOf s (getId ent)).st = .depot) : execSthGet s = .next (settled (sthOver (depotRead (getStart s ent) s.opId (getId ent)
    (entOf s (getId ent)) (some l) 0 (stepField s ent.ctx)) s.opId) eSTH) := by
  have hf := getFails_read hsub hfs hid (by rw [hd]; nofun) hb (by rw [hd]; nofun) hl hlay hc
  rw [sthGet_goes h hfree hw hf, if_neg (by rw [hd]; nofun), if_neg (by rw [hd]; nofun), if_pos hb, getRead_layout hl hlay, Option.getD_some]

end Read

end Runs

/-! What a GET leaves. -/

/-- A depot read that passes its region check: the transfer, and where its blocks go. -/
theorem depotRead_goes {s : State} {op id : Nat} {e : StEnt} {dst : Option Layout} {line : Nat} {step : BitVec 48}
    (hc : regionCheck s s.core.cur (depotReg s) .get e.doff (depotBlocks e) = 0) : depotRead s op id e dst line step =
    { s with
      str := { s.str with jobs := s.str.jobs ++ [jobOf s op .sth .get s.core.cur (depotReg s) e.doff 0 (depotBlocks e) none none] }
      sth := { s.sth with rd := some { id := op, ent := id, dst := dst, left := depotBlocks e, line := line, stepField := step } } } := by
  unfold depotRead
  dsimp only
  rw [if_neg (not_not_intro hc), newJob_jobs]
  rfl

/-- A GET that reads its entry from the depot, in the state that its placement, if it has one, leaves. -/
theorem depotRead_over {s v : State} (hbytes : v.mem.bytes = s.mem.bytes) {op id : Nat} {e : StEnt} {dst : Option Layout} {line : Nat} {step : BitVec 48}
    (hc : regionCheck v v.core.cur (depotReg v) .get e.doff (depotBlocks e) = 0) : let t := sthOver (depotRead v op id e dst line step) op
    ∃ j r, t.str.jobs = v.str.jobs ++ [j] ∧ j.user = .sth ∧ j.kind = .get ∧ j.id = op ∧ j.blk = e.doff ∧ j.n = depotBlocks e ∧
      t.sth.rd = some r ∧ r.ent = id ∧ r.dst = dst ∧ r.line = line ∧ r.left = depotBlocks e ∧
      (∀ k, entOf t k = entOf v k) ∧ t.sth.order = v.sth.order ∧ SameBytes s t := by
  intro t
  have hf : t = { depotRead v op id e dst line step with q := t.q } := sthOver_frame ..
  have hg := depotRead_goes hc (op := op) (id := id) (dst := dst) (line := line) (step := step)
  generalize depotRead v op id e dst line step = w at hf hg
  have hstr : t.str = _ := (congrArg State.str hf :).trans (congrArg State.str hg :)
  have hsth : t.sth = _ := (congrArg State.sth hf :).trans (congrArg State.sth hg :)
  have hmem : t.mem = v.mem := (congrArg State.mem hf :).trans (congrArg State.mem hg :)
  have hents : t.sth.ents = v.sth.ents := (congrArg Sth.ents hsth :)
  exact ⟨jobOf v op .sth .get v.core.cur (depotReg v) e.doff 0 (depotBlocks e) none none,
    { id := op, ent := id, dst := dst, left := depotBlocks e, line := line, stepField := step }, congrArg Str.jobs hstr, rfl, rfl, rfl, rfl, rfl,
    congrArg Sth.rd hsth, rfl, rfl, rfl, rfl, fun k => by rw [entOf, hents]; rfl, (congrArg Sth.order hsth :), .of_eq (by rw [hmem, hbytes])⟩

section Left
variable {s : State} {ent : QEntry}

/-- A GET of a dropped entry counts. -/
theorem getDropped_spec : let t := markDone ((getStart s ent).modSth (fun h => { h with dropget := h.dropget + 1 })) eSTH s.opId
    t.sth.dropget = s.sth.dropget + 1 ∧ (∀ k, entOf t k = entOf s k) ∧ (∃ x ∈ (qOf t eSTH).infl, x.ent = ent ∧ x.done = true ∧ x.wr = []) ∧
      SameBytes s t := by
  intro t
  obtain ⟨hsth, -⟩ := getStart_kept s ent
  refine ⟨by rw [← hsth]; rfl, fun k => entOf_congr hsth k, ⟨_, mem_infl_mod (fun x => { x with done := true }) (getStart_infl s ent) rfl, rfl, rfl, rfl⟩, ?_⟩
  exact .of_eq (getStart_agree s ent).bytes

/-- A GET of a local entry in place pins it. -/
theorem getPinned_spec : let t := markDone (setEnt (getStart s ent) (getId ent) { entOf s (getId ent) with pinned := true }) eSTH s.opId
    entOf t (getId ent) = { entOf s (getId ent) with pinned := true } ∧ (∀ k, k ≠ getId ent → entOf t k = entOf s k) ∧
      (∃ x ∈ (qOf t eSTH).infl, x.ent = ent ∧ x.done = true ∧ x.wr = []) ∧ SameBytes s t := by
  intro t
  have hmark : ∀ k, entOf t k = entOf (setEnt (getStart s ent) (getId ent) { entOf s (getId ent) with pinned := true }) k := fun _ => rfl
  refine ⟨?_, fun k hk => ?_, ⟨_, mem_infl_mod (fun x => { x with done := true }) (getStart_infl s ent) rfl, rfl, rfl, rfl⟩, ?_⟩
  · rw [hmark, entOf_setEnt, if_pos rfl]
  · rw [hmark, entOf_setEnt, if_neg hk]
    exact entOf_congr (getStart_kept s ent).1 k
  · exact .of_eq (getStart_agree s ent).bytes

/-- A GET of a local entry to a destination has everything done but its writings. -/
theorem getLocal_spec (l : Layout) : let w := getEmit s ent l
    let t := finishWith w.s eSTH s.opId [w.writes] []
    (∀ k, entOf t k = entOf s k) ∧ SameBytes s t ∧ ∃ x ∈ (qOf t eSTH).infl, x.ent = ent ∧ x.done = true ∧ x.wr = [w.writes] := by
  intro w t
  have hws : w.s = { getSeen s ent with wgh := w.s.wgh } := getData_frame ..
  have hr : Reads (getStart s ent) (getSeen s ent) := touchSpans_reads ..
  have hsth : w.s.sth = s.sth := by
    rw [hws]
    exact hr.sth.trans (getStart_kept s ent).1
  have hbytes : w.s.mem.bytes = s.mem.bytes := by
    rw [hws]
    exact hr.bytes.trans (getStart_agree s ent).bytes
  have hq : w.s.q = (getStart s ent).q := by
    rw [hws]
    exact hr.q
  have hinfl : ({ ent := ent, id := s.opId, wb := none, done := false } : Infl) ∈ (qOf w.s eSTH).infl := by
    rw [qOf, hq]
    exact getStart_infl s ent
  exact ⟨fun k => entOf_congr hsth k, .of_eq hbytes,
    _, mem_infl_mod (fun x => { x with done := true, wr := [w.writes], lanes := [] }) hinfl rfl, rfl, rfl, rfl⟩

/-- What a GET of a local entry writes. -/
theorem getEmit_writes (l : Layout) : (getEmit s ent l).writes =
    (getData s s.mem.bytes (entOf s (getId ent)) (lineAddr s (entOf s (getId ent)).line) l (stepField s ent.ctx) (fun _ _ => true)).writes := by
  have hr : Reads (getStart s ent) (getSeen s ent) := touchSpans_reads ..
  exact ((getStart_agree s ent).trans hr.agree).getData ..

end Left

/-! The last block of a GET in place. -/

/-- The last block of a GET in place lands in the entry's lines, and the entry is local and pinned. -/
theorem depotLand_last {s : State} {d : SthRead} (hrd : s.sth.rd = some d) (hdst : d.dst = none) (hleft : d.left = 1) (j : StrJob) (i : Nat)
    (b : List Byte) : depotLand s j i (some b) =
    makeLocal ((creditSin (memWr (s.modSth (fun h => { h with rd := some { d with left := 0, data := d.data ++ [(i, b)] } })) rqSTH
      (lineAddr s d.line + 512 * i) (b.take (128 * (entOf s d.ent).size.toNat - 512 * i))) (lineAddr s d.line + 512 * i) j.region.toNat false
      (j.blk + i) b).modSth (fun h => { h with rd := none })) d.ent d.line { entOf s d.ent with pinned := true } := by
  unfold depotLand
  rw [hrd]
  dsimp only
  rw [hleft, hdst]
  rfl

theorem depotLand_lands {s : State} {d : SthRead} (hrd : s.sth.rd = some d) (hdst : d.dst = none) (hleft : d.left = 1) (hd : NoDouble s) (j : StrJob)
    {i : Nat} {b : List Byte} (hlen : b.length = 512) (htop : lineAddr s d.line + 512 * i + 512 ≤ memTop) :
    let t := depotLand s j i (some b)
    Stored s t (lineAddr s d.line + 512 * i) (b.take (128 * (entOf s d.ent).size.toNat - 512 * i)) ∧
      entOf t d.ent = { entOf s d.ent with st := .lcl, line := d.line, pinned := true } ∧ (∀ k, k ≠ d.ent → entOf t k = entOf s k) ∧
      t.sth.order = s.sth.order ++ [d.ent] ∧ t.sth.rd = none ∧ t.sth.clearPend = s.sth.clearPend := by
  intro t
  have ht : t = _ := depotLand_last hrd hdst hleft j i b
  generalize hbs : b.take (128 * (entOf s d.ent).size.toNat - 512 * i) = bs at ht ⊢
  have hbl : bs.length ≤ 512 := by rw [← hbs, List.length_take, hlen]; omega
  generalize hu : s.modSth (fun h => { h with rd := some { d with left := 0, data := d.data ++ [(i, b)] } }) = u at ht
  have hus : u.mem = s.mem ∧ u.sth = { s.sth with rd := u.sth.rd } := by rw [← hu]; exact ⟨rfl, rfl⟩
  obtain ⟨humem, husth⟩ := hus
  have hstored : Stored u (memWr u rqSTH (lineAddr s d.line + 512 * i) bs) (lineAddr s d.line + 512 * i) bs :=
    memWr_stored rqSTH (by omega) ((hd.of_ecc (by rw [humem])).hasDouble ..)
  have hwsth : (memWr u rqSTH (lineAddr s d.line + 512 * i) bs).sth = u.sth := by rw [memWr_frame]
  generalize memWr u rqSTH (lineAddr s d.line + 512 * i) bs = w at ht hstored hwsth
  generalize hv : (creditSin w (lineAddr s d.line + 512 * i) j.region.toNat false (j.blk + i) b).modSth (fun h => { h with rd := none }) = v at ht
  have hvs : v.mem = w.mem ∧ v.sth = { w.sth with rd := none } := by rw [← hv]; exact ⟨rfl, rfl⟩
  obtain ⟨hvmem, hvsth⟩ := hvs
  rw [hwsth, husth] at hvsth
  obtain ⟨hf, hself, hoth, hord, -, -, hrd', hclear⟩ := makeLocal_spec v d.ent d.line { entOf s d.ent with pinned := true }
  rw [← ht] at hf hself hoth hord hrd' hclear
  have htmem : t.mem = v.mem := (congrArg State.mem hf :)
  have hents : v.sth.ents = s.sth.ents := by rw [hvsth]
  refine ⟨fun x => ?_, hself, fun k hk => (hoth k hk).trans ?_, ?_, ?_, ?_⟩
  · rw [htmem, hvmem, hstored x, humem]
  · rw [entOf, hents]; rfl
  · rw [hord, hvsth]
  · rw [hrd', hvsth]
  · rw [hclear, hvsth]

theorem sthSettle_idle {s : State} (h : s.sth.clearPend = false) : sthSettle s = s := by simp [sthSettle, h]

/-- The end of a transfer changes no more of the mover, where none of its reads and no CLEAR waits. -/
theorem endJob_sth {s : State} (hrd : s.sth.rd = none) (hclear : s.sth.clearPend = false) (j : StrJob) : (endJob s j).sth = s.sth := by
  unfold endJob
  generalize ht : s.modStr _ = t
  have hts : t.sth = s.sth := by rw [← ht]; rfl
  cases j.user with
  | str => exact hts
  | sth =>
    dsimp only
    generalize hu : (if j.dead then t.modSth fun h => { h with rd := none } else t) = u
    have hus : u.sth = s.sth := by
      rw [← hu]
      split
      · show { t.sth with rd := none } = s.sth
        rw [hts, ← hrd]
      · exact hts
    have hw : (if depotBusy u || u.sth.rd.isSome then u else markDone u eSTH j.id).sth = s.sth := by
      split <;> exact hus
    rw [sthSettle_idle (by rw [hw]; exact hclear), hw]
  | fac =>
    dsimp only
    split <;> exact hts
  | jrnl => exact hts

/-- The count of landed blocks changes no more of the mover, where none of its reads and no CLEAR waits. -/
theorem landed_sth {s : State} (hrd : s.sth.rd = none) (hclear : s.sth.clearPend = false) (j : StrJob) : (landed s j).sth = s.sth := by
  unfold landed
  split
  · rfl
  · unfold putJob
    dsimp only
    split
    · exact (endJob_sth (by exact hrd) (by exact hclear) _).trans rfl
    · rfl

/-- The block of a GET lands with the mover. -/
theorem takeRdat_sth {s : State} {p : StrPacket} {r : StrRead} {j : StrJob} {b : List Byte} (hstop : s.sec.stop = false) (hlost : r.lost = false)
    (hstatus : h0Status p.h0 = 0) (hj : s.str.jobs.find? (fun x => decide (x.id = r.job) && decide (x.kind = .get)) = some j) (huser : j.user = .sth)
    (hopen : gcmOpen (keyOf s r.retired) (streamIv r.ctxIv r.region r.epoch r.block) [] (blockBytes p.data) (tagBytes p.tag) = some b) :
    takeRdat s r p = progress (landed (depotLand ((blkChecked (readOver s r)).modStr fun x => { x with rdBlk := x.rdBlk + 1 }) j r.i (some b)) j) := by
  have hkey (f : Str → Str) : keyOf (blkChecked (s.modStr f)) r.retired = keyOf s r.retired := rfl
  unfold takeRdat
  dsimp only
  rw [if_neg (by simp [hstop, hlost]), if_neg (by simp [hstatus]), hkey, hopen]
  simp only [State.modStr_str, hj]
  unfold landBlock
  rw [huser]
  rfl

theorem rdatWaits_sth {s : State} {r : StrRead} {j : StrJob} {d : SthRead}
    (hj : s.str.jobs.find? (fun x => decide (x.id = r.job) && decide (x.kind = .get)) = some j) (huser : j.user = .sth) (hrd : s.sth.rd = some d)
    (hdst : d.dst = none) (hz : s.mem.zeroing = false) (hm : memWaits s (lineAddr s d.line + 512 * r.i) 512 = false) : rdatWaits s r = false := by
  unfold rdatWaits landAddr
  rw [hj]
  dsimp only
  rw [huser, hz]
  simp [hrd, hdst, hm]

/-- The last block of a GET in place. -/
theorem takeRdat_last {s : State} {p : StrPacket} {r : StrRead} {j : StrJob} {d : SthRead} {b : List Byte} (hd : NoDouble s) (hstop : s.sec.stop = false)
    (hlost : r.lost = false) (hstatus : h0Status p.h0 = 0)
    (hj : s.str.jobs.find? (fun x => decide (x.id = r.job) && decide (x.kind = .get)) = some j) (huser : j.user = .sth)
    (hrd : s.sth.rd = some d) (hdst : d.dst = none) (hleft : d.left = 1) (hclear : s.sth.clearPend = false)
    (hopen : gcmOpen (keyOf s r.retired) (streamIv r.ctxIv r.region r.epoch r.block) [] (blockBytes p.data) (tagBytes p.tag) = some b)
    (htop : lineAddr s d.line + 512 * r.i + 512 ≤ memTop) : let t := takeRdat s r p
    Stored s t (lineAddr s d.line + 512 * r.i) (b.take (128 * (entOf s d.ent).size.toNat - 512 * r.i)) ∧
      entOf t d.ent = { entOf s d.ent with st := .lcl, line := d.line, pinned := true } ∧ (∀ k, k ≠ d.ent → entOf t k = entOf s k) ∧
      t.sth.order = s.sth.order ++ [d.ent] ∧ t.sth.rd = none := by
  intro t
  have ht : t = _ := takeRdat_sth hstop hlost hstatus hj huser hopen
  generalize hv : (blkChecked (readOver s r)).modStr _ = v at ht
  have hk : v.sth = s.sth ∧ v.mem = s.mem ∧ v.man = s.man := by rw [← hv]; exact ⟨rfl, rfl, rfl⟩
  obtain ⟨hvsth, hvmem, hvman⟩ := hk
  have hline : lineAddr v d.line = lineAddr s d.line := lineAddr_congr hvman _
  have hent : ∀ k, entOf v k = entOf s k := entOf_congr hvsth
  obtain ⟨hstored, hself, hoth, hord, hnone, hidle⟩ := depotLand_lands (by rw [hvsth, hrd]) hdst hleft (hd.of_ecc (by rw [hvmem])) j
    (by rw [gcmOpen_length hopen, blockBytes_length]) (by rw [hline]; exact htop)
  rw [hline, hent] at hstored
  rw [hent] at hself
  generalize depotLand v j r.i (some b) = w at ht hstored hself hoth hord hnone hidle
  have hsth : t.sth = w.sth := by
    rw [ht]
    exact landed_sth hnone (by rw [hidle, hvsth, hclear]) j
  have hmem : t.mem = w.mem := by
    rw [ht]
    exact (landed_job w j).mem
  refine ⟨fun x => ?_, (entOf_congr hsth _).trans hself, fun k hk => (entOf_congr hsth k).trans ((hoth k hk).trans (hent k)), ?_, ?_⟩
  · rw [hmem, hstored x, hvmem]
  · rw [hsth, hord, hvsth]
  · rw [hsth, hnone]

/-- A GET in place that finds no room for its entry. -/
theorem getFull_spec {s v : State} {ent : QEntry} {n : Nat} (hv : place (getStart s ent) s.opId n = (v, .full)) :
    let t := sthOver (sthFull v 1 (getId ent)) s.opId
    (∀ k, entOf t k = entOf v k) ∧ t.sth.fullCnt = s.sth.fullCnt + 1 ∧ (qOf t eSTH).failed = true ∧ (qOf t eSTH).wait = [] ∧
      t.flt.cont = true ∧ SameBytes s t := by
  intro t
  have hpv := place_frame hv nofun
  obtain ⟨hents, -, hcnt, -, hfailed, hwait, hcont, hbytes⟩ := sthFull_spec v 1 (getId ent)
  have hf := sthOver_frame (sthFull v 1 (getId ent)) s.opId
  obtain ⟨kfailed, kwait⟩ := qOf_over (sthFull v 1 (getId ent)) s.opId
  have hsth : t.sth = (sthFull v 1 (getId ent)).sth := (congrArg State.sth hf :)
  refine ⟨fun k => (entOf_congr hsth k).trans (hents k), ?_, kfailed.trans hfailed, kwait.trans hwait, ?_, ?_⟩
  · rw [hsth, hcnt, hpv.fullCnt, (getStart_kept s ent).1]
  · exact (congrArg (fun x : State => x.flt.cont) hf).trans hcont
  · exact .of_eq ((congrArg (fun x : State => x.mem.bytes) hf).trans (hbytes.trans ((getStart_agree s ent).trans hpv.agree).bytes))

/-- Settles O40: GET by the state of its entry and by its destination, the last block of a GET in place by what lands with it. -/
theorem stashGet : Obligations.StashGet := by
  refine ⟨?_, ?_⟩
  · intro s ent h hfree hw hsub hfs u id e hid
    refine ⟨fun hst => ⟨_, sthGet_dropped hsub hfs hid h hfree hw hst, getDropped_spec⟩,
      fun hst hb => ⟨_, sthGet_pins hsub hfs hid h hfree hw hst hb, getPinned_spec⟩,
      fun l hb hl hlay hc => ⟨fun hst => ?_, fun hst hk => ?_⟩, ?_⟩
    · obtain ⟨hents, hbytes, x, hx, hxent, hdone, hwr⟩ := getLocal_spec (s := s) (ent := ent) l
      have hflat : x.wr.flatten = (getEmit s ent l).writes := by rw [hwr, List.flatten_singleton]
      exact ⟨_, x, sthGet_copies hsub hfs hid h hfree hw hb hl hlay hc hst, hents, hbytes, hx, hxent, hdone,
        fun hcp => hflat.trans ((getEmit_writes l).trans (getData_copies hcp ..)), fun _ => hflat.trans (getEmit_writes l)⟩
    · obtain ⟨-, hstr, hcore, -⟩ := getStart_kept s ent
      have ha := getStart_agree s ent
      obtain ⟨j, r, hjobs, huser, hkind, hjid, hblk, hn, hrd, hrent, hrdst, -, hrleft, -, -, hbytes⟩ :=
        depotRead_over (s := s) (v := getStart s ent) ha.bytes (op := s.opId) (id := getId ent) (e := entOf s (getId ent)) (dst := some l) (line := 0)
          (step := stepField s ent.ctx) (by rw [regionCheck_congr ha.man, depotReg_congr ha.man, hcore]; exact hk)
      rw [hstr] at hjobs
      exact ⟨_, j, r, sthGet_fetches hsub hfs hid h hfree hw hb hl hlay hc hst, hjobs, huser, hkind, hjid, hblk, hn, hrd, hrent, hrdst, hrleft, hbytes⟩
    · intro p hst hb
      have hp : getStart s ent = p := getStart_unread hsub hfs hid (by rw [show (entOf s (getId ent)).st = _ from hst]; nofun) hb
      refine ⟨fun v line hv hk => ?_, fun v hv => ?_⟩
      · rw [← hp] at hv
        have hbytes := ((getStart_agree s ent).trans (place_frame hv nofun).agree).bytes
        obtain ⟨j, r, hjob⟩ := depotRead_over (s := s) hbytes (op := s.opId) (id := getId ent) (e := entOf s (getId ent)) (dst := none) (line := line)
          (step := stepField s ent.ctx) hk
        exact ⟨_, j, r, sthGet_placed hsub hfs hid h hfree hw hst hb hv, hjob⟩
      · rw [← hp] at hv
        exact ⟨_, sthGet_full hsub hfs hid h hfree hw hst hb hv, getFull_spec hv⟩
  · intro s p r j d b hunits hk hstatus hw hstop hz hd hr hlost hj huser hrd hdst hleft hclear hopen e a hm htop
    exact ⟨_, rdatReceived_takes ((strTakes_iff s).mpr (.inl hunits)) hk hw hr (rdatWaits_sth (s := spend s 7 32) hj huser hrd hdst hz hm),
      takeRdat_last (s := spend s 7 32) (hd.of_ecc rfl) hstop hlost (h0Status_zero.mpr hstatus) hj huser hrd hdst hleft hclear hopen htop⟩

end Sys2Proof.Machine
end
section
/-! PROOFS. A read of the bale queue (08 R209, R214; 06 R160). -/

namespace Sys2Proof.Machine

/-- An issue that goes on changes no operation in flight. -/
theorem infl_unstall (s : State) (e : Nat) : (qOf (unstall s) e).infl = (qOf s e).infl := by
  unfold unstall
  split
  · split
    · rfl
    · next r _ =>
      split
      · rfl
      · split
        · rfl
        · next ent _ =>
          have hq : qOf (advance (enqueue s r.e ent) (lenOf r.f.ext)) e = qOf (modQ s r.e (fun q => { q with wait := q.wait ++ [ent] })) e := by
            rw [advance_coreFrame, enqueue, armHead_frame]
            rfl
          rw [hq, qOf_modQ]
          split
          · next he => rw [he]
          · rfl
  · rfl

/-- A chain operation without micro-ops. -/
def emptyChain (id done avail count : Nat) : VRun :=
  { id := id, prog := [], rd := { count := count }, scal := 0, done := done, avail := avail, wait := 0, red := [], touched := [], stepField := 0 }

/-- Operation 1 has its first element to come and reads two bales more, and the operations before and behind it have one number: the one before
has all of its elements, the one behind waits for a bale. -/
def twinChains : State :=
  { vec := { runs := [emptyChain 2 256 256 256, emptyChain 1 0 1 513, emptyChain 2 0 0 256] }
    arr := { bq := [{ pos := 0, rcd := 0, codes := [] }] }
    q := [(eVEC, { infl := [{ ent := waitingStep, id := 1, wb := none, done := false }] })] }

/-- The operations in flight of the vector engine that a command finds done. -/
def vecDone : Res → List Bool
  | .next t => (qOf t eVEC).infl.map (fun x => x.done)
  | _ => []

theorem twinChains_done : vecDone (exec .baleRead twinChains) = [true] := by decide

/-- Refutes O33: operation 1 has read 257 of its 513 elements and is done all the same. The statement has the number of the reading operation its own,
but not those of the others: where two of them share a number, each a-cycle writes the later one's place to both, and the first that then waits for
a bale is not operation 1. -/
theorem not_baleRead : ¬ Obligations.BaleRead := by
  intro h
  obtain ⟨t, hex, -, -, -, -, -, -, hq, -⟩ := h.1 twinChains (emptyChain 1 0 1 513) { pos := 0, rcd := 0, codes := [] } rfl rfl rfl rfl (by decide)
  have hdone := twinChains_done
  rw [hex] at hdone
  have hinfl : (qOf (progress (unstall t)) eVEC).infl = (qOf twinChains eVEC).infl := by
    refine (infl_unstall t eVEC).trans ?_
    rw [qOf, hq (by decide)]
    rfl
  rw [vecDone, hinfl] at hdone
  exact absurd hdone (by decide)

end Sys2Proof.Machine
end
section
/-! PROOFS. The chain's a-cycles: what they keep, and how far each operation's beats have entered (08 R214). -/

namespace Sys2Proof.Machine

/-! What the chain can touch. -/

/-- What the chain's a-cycles can touch: memory with its accounts, what a fault touches, the weighers, the watchman's count, and the vector engine. -/
def ChainFrame (s t : State) : Prop :=
  t = { s with mem := t.mem, gov := t.gov, ldg := t.ldg, flt := t.flt, fac := t.fac, wgh := t.wgh, syn := t.syn, vec := t.vec }

theorem ChainFrame.trans {s t u : State} (h : ChainFrame s t) (k : ChainFrame t u) : ChainFrame s u := by
  unfold ChainFrame at *
  rw [k, h]

theorem AccessFrame.chain {s t : State} (h : AccessFrame s t) : ChainFrame s t := by
  unfold AccessFrame at h
  unfold ChainFrame
  rw [h]

theorem modVec_chain (s : State) (f : Vec → Vec) : ChainFrame s (s.modVec f) := rfl

theorem progress_chain (s : State) : ChainFrame s (progress s) := rfl

/-- A step of the chain that keeps every operation in it, and the count of beats. -/
structure ChainKept (s t : State) : Prop where
  frame : ChainFrame s t
  runs : t.vec.runs = s.vec.runs
  beats : t.vec.beats = s.vec.beats
  ops : t.vec.ops = s.vec.ops

theorem ChainKept.refl (s : State) : ChainKept s s := ⟨rfl, rfl, rfl, rfl⟩

theorem ChainKept.trans {s t u : State} (h : ChainKept s t) (k : ChainKept t u) : ChainKept s u :=
  ⟨h.frame.trans k.frame, k.runs.trans h.runs, k.beats.trans h.beats, k.ops.trans h.ops⟩

theorem AccessFrame.chainKept {s t : State} (h : AccessFrame s t) : ChainKept s t := by
  have hv : t.vec = s.vec := by rw [h]
  exact ⟨h.chain, by rw [hv], by rw [hv], by rw [hv]⟩

theorem putLanes_chain (s : State) (ls : List (Nat × Word)) : ChainKept s (putLanes s ls) := by
  rw [putLanes_frame]
  exact ⟨rfl, rfl, rfl, rfl⟩

/-! Micro-ops. -/

/-- The part of an operation that its beats' micro-ops do not touch, its beats left out. -/
def VRun.bare (r : VRun) : VRun := { r with beats := [], red := [], touched := [] }

/-- What a micro-op keeps. -/
structure UopKept (b c : Beat) : Prop where
  state : c.s = { b.s with wgh := c.s.wgh, vec := { b.s.vec with runm := c.s.vec.runm } }
  run : c.r = { b.r with red := c.r.red, touched := c.r.touched }

theorem UopKept.refl (b : Beat) : UopKept b b := ⟨rfl, rfl⟩

theorem UopKept.trans {a b c : Beat} (h : UopKept a b) (k : UopKept b c) : UopKept a c := by
  obtain ⟨hs, hr⟩ := h
  obtain ⟨ks, kr⟩ := k
  exact ⟨by rw [ks, hs], by rw [kr, hr]⟩

theorem mapSlot_kept (b : Beat) (dst : Nat) (f : Lane → Word) : UopKept b (b.mapSlot dst f) := ⟨rfl, rfl⟩

theorem fold_kept (r : VRun) (op k i : Nat) (v : Word) : r.fold op k i v = { r with red := (r.fold op k i v).red } := rfl

/-- Reductions one after another touch the accumulators alone. -/
theorem foldRuns_kept {α : Type} {f : VRun → α → VRun} (hf : ∀ r x, f r x = { r with red := (f r x).red }) (l : List α) (r : VRun) :
    l.foldl f r = { r with red := (l.foldl f r).red } :=
  foldl_related (R := fun r q : VRun => q = { r with red := q.red }) (fun _ => rfl) (fun h k => by rw [k, h]) hf l r

theorem reduce_kept (b : Beat) (k : Nat) (w : Word) : UopKept b (b.reduce k w) := by
  unfold Beat.reduce
  dsimp only
  split
  · refine ⟨rfl, ?_⟩
    dsimp only
    rw [foldRuns_kept (fun r row => ?_)]
    split
    · exact fold_kept ..
    · rfl
  · refine ⟨rfl, ?_⟩
    dsimp only
    rw [foldRuns_kept (fun r row => fold_kept ..)]

theorem clear_kept (b : Beat) (w : Word) : UopKept b (b.clear w) := by
  unfold Beat.clear
  split <;> exact ⟨rfl, rfl⟩

theorem runm_kept (b : Beat) (w : Word) : UopKept b (b.runm w) := by
  unfold Beat.runm
  dsimp only
  refine UopKept.trans ?_ (mapSlot_kept ..)
  refine (clear_kept b w).trans ?_
  refine foldl_related (R := UopKept) .refl .trans (fun b row => ?_) _ _
  exact ⟨rfl, rfl⟩

theorem putCode_frame (e : Emit) (l : Layout) (r c code : Nat) : EmitFrame e (putCode e l r c code) := rfl

theorem store_kept (b : Beat) (w : Word) : UopKept b (b.store w) := by
  have hemit : ∀ {e : Emit}, EmitFrame { s := b.s, wr := b.wr } e → UopKept b { b with s := e.s, wr := e.wr } := fun {e} h => by
    refine ⟨?_, rfl⟩
    show e.s = _
    rw [h]
  unfold Beat.store
  dsimp only
  split
  · refine hemit ?_
    split
    · refine foldl_related (R := EmitFrame) (fun _ => rfl) EmitFrame.trans (fun t a => ?_) _ _
      split
      · rfl
      · exact putBlock_frame ..
    · refine foldl_related (R := EmitFrame) (fun _ => rfl) EmitFrame.trans (fun t a => ?_) _ _
      split
      · exact putElem_frame ..
      · exact putCode_frame ..
  · exact ⟨rfl, rfl⟩
  · exact .refl b

theorem uop_kept (b : Beat) (k : Nat) (w : Word) : UopKept b (b.uop k w) := by
  unfold Beat.uop
  dsimp only
  split
  · exact mapSlot_kept ..
  · exact mapSlot_kept ..
  · exact mapSlot_kept ..
  · exact mapSlot_kept ..
  · exact reduce_kept ..
  · exact runm_kept ..
  · exact mapSlot_kept ..
  · exact store_kept ..

/-! Beats. -/

theorem beatCycle_kept (x : State × VRun) (b : VBeat) : ChainKept x.1 (beatCycle x b).1 ∧ (beatCycle x b).2.bare = x.2.bare := by
  unfold beatCycle
  split
  · exact ⟨((memWrJoined_access ..).chainKept.trans (putLanes_chain ..)).trans ⟨rfl, rfl, rfl, rfl⟩, rfl⟩
  · split
    · exact ⟨.refl _, rfl⟩
    · next p _ =>
      dsimp only
      have hk := uop_kept { s := touchSpans x.1 rqVRD (b.reads x.2), r := x.2, bale := b.bale, ls := b.ls, wr := b.wr, lanes := b.lanes } p.1 p.2
      have ht := (touchSpans_access x.1 rqVRD (b.reads x.2)).chainKept
      obtain ⟨hs, hr⟩ := hk
      refine ⟨ht.trans ?_, ?_⟩
      · rw [hs]
        exact ⟨rfl, rfl, rfl, rfl⟩
      · rw [hr]
        rfl

theorem beatCycles_kept (bs : List VBeat) (x : State × VRun) : ChainKept x.1 (bs.foldl beatCycle x).1 ∧ (bs.foldl beatCycle x).2.bare = x.2.bare :=
  foldl_related (R := fun x y : State × VRun => ChainKept x.1 y.1 ∧ y.2.bare = x.2.bare) (fun _ => ⟨.refl _, rfl⟩)
    (fun h k => ⟨h.1.trans k.1, k.2.trans h.2⟩) beatCycle_kept bs x

/-- The beats of an operation move: its own places in the chain take it as it then is. -/
theorem runCycle_spec (s : State) (r : VRun) : ∃ y, y.bare = r.bare ∧ ChainFrame s (runCycle s r) ∧
    (runCycle s r).vec.runs = s.vec.runs.map (fun z => if z.id = r.id then y else z) ∧
    (runCycle s r).vec.beats = s.vec.beats ∧ (runCycle s r).vec.ops = s.vec.ops := by
  obtain ⟨⟨hf, hruns, hbeats, hops⟩, hbare⟩ := beatCycles_kept r.beats (s, { r with beats := [] })
  refine ⟨_, hbare, ChainFrame.trans (u := runCycle s r) hf rfl, ?_, hbeats, hops⟩
  show List.map _ (r.beats.foldl beatCycle (s, { r with beats := [] })).1.vec.runs = _
  rw [hruns]

theorem moveBeats_frame (s : State) : ChainFrame s (moveBeats s) ∧ (moveBeats s).vec.beats = s.vec.beats ∧ (moveBeats s).vec.ops = s.vec.ops :=
  foldl_related (R := fun s t : State => ChainFrame s t ∧ t.vec.beats = s.vec.beats ∧ t.vec.ops = s.vec.ops) (fun s => ⟨rfl, rfl, rfl⟩)
    (fun h k => ⟨h.1.trans k.1, k.2.1.trans h.2.1, k.2.2.trans h.2.2⟩)
    (fun s r => by obtain ⟨y, -, hf, -, hb, ho⟩ := runCycle_spec s r; exact ⟨hf, hb, ho⟩) _ _

theorem countBeat_frame (s : State) (r : VRun) : ChainFrame s (countBeat s r) ∧ (countBeat s r).vec.runs = s.vec.runs := by
  unfold countBeat
  split <;> exact ⟨rfl, rfl⟩

theorem enterBeats_spec (s : State) : ChainFrame s (enterBeats s) ∧ (enterBeats s).vec.runs = s.vec.runs.map VRun.enter := by
  have h := foldl_related (R := fun s t : State => ChainFrame s t ∧ t.vec.runs = s.vec.runs) (fun s => ⟨rfl, rfl⟩)
    (fun h k => ⟨h.1.trans k.1, k.2.trans h.2⟩) countBeat_frame s.vec.runs s
  refine ⟨ChainFrame.trans (u := enterBeats s) h.1 rfl, ?_⟩
  show List.map VRun.enter (s.vec.runs.foldl countBeat s).vec.runs = _
  rw [h.2]

theorem chainCycle_frame (s : State) : ChainFrame s (chainCycle s) := (enterBeats_spec s).1.trans (moveBeats_frame _).1

theorem chainCycles_frame (n : Nat) (s : State) : ChainFrame s (chainCycles n s) := by
  induction n generalizing s with
  | zero => rfl
  | succ n ih => exact (chainCycle_frame s).trans (ih _)

theorem enterRun_frame (id k : Nat) (s : State) : ChainFrame s (enterRun id k s) := by
  induction k generalizing s with
  | zero => rfl
  | succ k ih =>
    unfold enterRun
    split
    · rfl
    · split
      · exact (chainCycles_frame ..).trans (ih _)
      · rfl

theorem forceEntry_frame (s : State) (id : Nat) : ChainFrame s (forceEntry s id) := by
  unfold forceEntry
  split
  · rfl
  · exact enterRun_frame ..

theorem forceAll_frame (s : State) : ChainFrame s (forceAll s) :=
  foldl_related (R := ChainFrame) (fun _ => rfl) ChainFrame.trans (fun s (r : VRun) => forceEntry_frame s r.id) _ _

/-! How far the beats of one operation have entered. -/

/-- Operation id is in the chain, and every place that has its number has it as this. -/
def BareAt (id : Nat) (b : VRun) (s : State) : Prop := (∃ y ∈ s.vec.runs, y.id = id) ∧ ∀ y ∈ s.vec.runs, y.id = id → y.bare = b

/-- The operation after one a-cycle, its beats left out. -/
def VRun.entered (b : VRun) : VRun := b.enter.bare

theorem enter_bare (r : VRun) : r.enter.bare = r.bare.entered := by
  unfold VRun.entered VRun.enter
  rw [show r.bare.enters = r.enters from rfl]
  split <;> rfl

theorem enter_id (r : VRun) : r.enter.id = r.id := by
  unfold VRun.enter
  split <;> rfl

theorem BareAt.runCycle {id : Nat} {b : VRun} {s : State} (h : BareAt id b s) {r : VRun} (hr : r.id = id → r.bare = b) : BareAt id b (runCycle s r) := by
  obtain ⟨⟨y, hy, hyid⟩, hall⟩ := h
  obtain ⟨x, hbare, -, hruns, -⟩ := runCycle_spec s r
  have hxid : x.id = r.id := (congrArg VRun.id hbare :)
  rw [BareAt, hruns]
  refine ⟨⟨_, List.mem_map_of_mem hy, ?_⟩, fun z hz hzid => ?_⟩
  · split
    · next he => rw [hxid, ← he, hyid]
    · exact hyid
  · obtain ⟨z', hz', rfl⟩ := List.mem_map.mp hz
    by_cases he : z'.id = r.id
    · rw [if_pos he] at hzid ⊢
      rw [hbare]
      exact hr (hxid.symm.trans hzid)
    · rw [if_neg he] at hzid ⊢
      exact hall z' hz' hzid

theorem BareAt.runCycles {id : Nat} {b : VRun} (l : List VRun) {s : State} (h : BareAt id b s) (hl : ∀ r ∈ l, r.id = id → r.bare = b) :
    BareAt id b (l.foldl Machine.runCycle s) := by
  induction l generalizing s with
  | nil => exact h
  | cons r l ih => exact ih (h.runCycle (hl r List.mem_cons_self)) fun q hq => hl q (List.mem_cons_of_mem _ hq)

theorem BareAt.chainCycle {id : Nat} {b : VRun} {s : State} (h : BareAt id b s) : BareAt id b.entered (chainCycle s) := by
  obtain ⟨⟨y, hy, hyid⟩, hall⟩ := h
  have hin : BareAt id b.entered (enterBeats s) := by
    rw [BareAt, (enterBeats_spec s).2]
    refine ⟨⟨_, List.mem_map_of_mem hy, (enter_id y).trans hyid⟩, fun z hz hzid => ?_⟩
    obtain ⟨z', hz', rfl⟩ := List.mem_map.mp hz
    rw [enter_bare, hall z' hz' ((enter_id z').symm.trans hzid)]
  exact hin.runCycles _ hin.2

theorem BareAt.chainCycles {id : Nat} {b : VRun} (n : Nat) {s : State} (h : BareAt id b s) : BareAt id (VRun.entered^[n] b) (chainCycles n s) := by
  induction n generalizing s b with
  | zero => exact h
  | succ n ih =>
    rw [Function.iterate_succ_apply]
    exact ih h.chainCycle

theorem BareAt.found {id : Nat} {b : VRun} {s : State} (h : BareAt id b s) : ∃ r, vecRunOf s id = some r ∧ r.bare = b := by
  obtain ⟨⟨y, hy, hyid⟩, hall⟩ := h
  match hf : vecRunOf s id with
  | none => exact absurd hyid (by simpa using List.find?_eq_none.mp hf y hy)
  | some r => exact ⟨r, rfl, hall r (List.mem_of_find?_eq_some hf) (by simpa using List.find?_some hf)⟩

/-- An operation, its beats left out, of which the elements up to d have entered, with w a-cycles to the next beat. -/
def VRun.upTo (b : VRun) (d w : Nat) : VRun := { b.bare with done := d, wait := w }

theorem nextLanes_length (r : VRun) : r.nextLanes.length = min 64 (r.avail - r.done) := by simp [VRun.nextLanes]

theorem enters_iff (r : VRun) : r.enters = true ↔ r.wait = 0 ∧ r.done < r.avail := by simp [VRun.enters]

theorem entered_of_enters {b : VRun} (h : b.enters = true) : ∃ w, b.entered = b.upTo (b.done + min 64 (b.avail - b.done)) w := by
  unfold VRun.entered VRun.enter
  rw [if_pos h, ← nextLanes_length]
  exact ⟨_, rfl⟩

theorem entered_of_not {b : VRun} (h : ¬ b.enters = true) : b.entered = b.upTo b.done (b.wait - 1) := by
  unfold VRun.entered VRun.enter
  rw [if_neg h]
  rfl

/-- When its interval is over, the next beat of an operation has entered. -/
theorem entered_interval (n : Nat) {b : VRun} (hw : b.wait = n) (hd : b.done < b.avail) :
    ∃ w, VRun.entered^[n + 1] b = b.upTo (b.done + min 64 (b.avail - b.done)) w := by
  induction n generalizing b with
  | zero => exact entered_of_enters ((enters_iff b).mpr ⟨hw, hd⟩)
  | succ n ih =>
    have hne : ¬ b.enters = true := fun h => by rw [((enters_iff b).mp h).1] at hw; cases hw
    rw [Function.iterate_succ_apply, entered_of_not hne, hw]
    exact ih (b := b.upTo b.done n) rfl hd

/-- What a-cycles make of an operation: more of its elements have entered, as far as its source lets them. -/
def Grown (b c : VRun) : Prop := ∃ d w, c = b.upTo d w ∧ b.done ≤ d ∧ d ≤ max b.done b.avail

theorem Grown.trans {a b c : VRun} (h : Grown a b) (k : Grown b c) : Grown a c := by
  obtain ⟨d, w, rfl, hlo, hhi⟩ := h
  obtain ⟨d', w', rfl, klo, khi⟩ := k
  refine ⟨d', w', rfl, hlo.trans klo, khi.trans ?_⟩
  show max d a.avail ≤ _
  omega

theorem Grown.entered (b : VRun) : Grown b b.entered := by
  by_cases h : b.enters = true
  · obtain ⟨w, hw⟩ := entered_of_enters h
    have := (enters_iff b).mp h
    exact ⟨_, w, hw, by omega, by omega⟩
  · exact ⟨_, _, entered_of_not h, Nat.le_refl _, by omega⟩

theorem BareAt.bare {id : Nat} {b : VRun} {s : State} (h : BareAt id b s) : b.bare = b := by
  obtain ⟨⟨y, hy, hyid⟩, hall⟩ := h
  rw [← hall y hy hyid]
  rfl

theorem BareAt.grown_self {id : Nat} {b : VRun} {s : State} (h : BareAt id b s) : Grown b b :=
  ⟨b.done, b.wait, h.bare.symm, Nat.le_refl _, by omega⟩

theorem BareAt.chainCycles_grown {id : Nat} {b : VRun} (n : Nat) {s : State} (h : BareAt id b s) :
    ∃ c, BareAt id c (Machine.chainCycles n s) ∧ Grown b c := by
  induction n generalizing s b with
  | zero => exact ⟨b, h, h.grown_self⟩
  | succ n ih =>
    obtain ⟨c, hc, hg⟩ := ih h.chainCycle
    exact ⟨c, hc, (Grown.entered b).trans hg⟩

theorem BareAt.enterRun_grown {id : Nat} {b : VRun} (other k : Nat) {s : State} (h : BareAt id b s) :
    ∃ c, BareAt id c (enterRun other k s) ∧ Grown b c := by
  induction k generalizing s b with
  | zero => exact ⟨b, h, h.grown_self⟩
  | succ k ih =>
    unfold enterRun
    split
    · exact ⟨b, h, h.grown_self⟩
    · split
      · obtain ⟨c, hc, hg⟩ := h.chainCycles_grown _
        obtain ⟨d, hd, hg'⟩ := ih hc
        exact ⟨d, hd, hg.trans hg'⟩
      · exact ⟨b, h, h.grown_self⟩

theorem BareAt.forceEntry_grown {id : Nat} {b : VRun} (other : Nat) {s : State} (h : BareAt id b s) :
    ∃ c, BareAt id c (forceEntry s other) ∧ Grown b c := by
  unfold forceEntry
  split
  · exact ⟨b, h, h.grown_self⟩
  · exact h.enterRun_grown ..

/-- The beats of an operation enter until its source lets no more enter. -/
theorem BareAt.enterRun_all {id : Nat} {b : VRun} (k : Nat) {s : State} (h : BareAt id b s) (hk : b.avail - b.done ≤ 64 * k) :
    ∃ c, BareAt id c (enterRun id k s) ∧ Grown b c ∧ c.done = max b.done b.avail := by
  induction k generalizing s b with
  | zero => exact ⟨b, h, h.grown_self, by omega⟩
  | succ k ih =>
    obtain ⟨r, hr, hb⟩ := h.found
    have hdone : r.done = b.done := (congrArg VRun.done hb :)
    have havail : r.avail = b.avail := (congrArg VRun.avail hb :)
    have hwait : r.wait = b.wait := (congrArg VRun.wait hb :)
    unfold enterRun
    rw [hr]
    dsimp only
    rw [hdone, havail, hwait]
    split
    · next hlt =>
      obtain ⟨w, hw⟩ := entered_interval b.wait rfl hlt
      have hc := h.chainCycles (b.wait + 1)
      rw [hw] at hc
      obtain ⟨c, hc', hg, hcd⟩ := ih hc (by show b.avail - (b.done + min 64 (b.avail - b.done)) ≤ _; omega)
      refine ⟨c, hc', Grown.trans ⟨_, w, rfl, by omega, by omega⟩ hg, hcd.trans ?_⟩
      show max (b.done + min 64 (b.avail - b.done)) b.avail = _
      omega
    · exact ⟨b, h, h.grown_self, by omega⟩

theorem BareAt.forceEntry_all {id : Nat} {b : VRun} {s : State} (h : BareAt id b s) :
    ∃ c, BareAt id c (forceEntry s id) ∧ Grown b c ∧ c.done = max b.done b.avail := by
  obtain ⟨r, hr, hb⟩ := h.found
  have hdone : r.done = b.done := (congrArg VRun.done hb :)
  have havail : r.avail = b.avail := (congrArg VRun.avail hb :)
  unfold forceEntry
  rw [hr]
  dsimp only
  rw [hdone, havail]
  refine h.enterRun_all _ ?_
  unfold ceilDiv
  omega

/-- Where every operation's beats enter in turn, those of each have all entered. -/
theorem BareAt.forceEach {id : Nat} {b : VRun} (l : List VRun) {s : State} (h : BareAt id b s) :
    ∃ c, BareAt id c (l.foldl (fun t r => forceEntry t r.id) s) ∧ Grown b c ∧ ((∃ r ∈ l, r.id = id) → c.done = max b.done b.avail) := by
  induction l generalizing s b with
  | nil => exact ⟨b, h, h.grown_self, fun ⟨r, hr, _⟩ => absurd hr List.not_mem_nil⟩
  | cons q l ih =>
    rw [List.foldl_cons]
    by_cases hq : q.id = id
    · rw [hq]
      obtain ⟨c, hc, ⟨d, w, rfl, hlo, hhi⟩, hcd⟩ := h.forceEntry_all
      obtain ⟨c', hc', ⟨d', w', rfl, hlo', hhi'⟩, -⟩ := ih hc
      have hd : d = max b.done b.avail := hcd
      have hlo'' : d ≤ d' := hlo'
      have hhi'' : d' ≤ max d b.avail := hhi'
      exact ⟨_, hc', ⟨d', w', rfl, by omega, by omega⟩, fun _ => by show d' = _; omega⟩
    · obtain ⟨c, hc, ⟨d, w, rfl, hlo, hhi⟩⟩ := h.forceEntry_grown q.id
      obtain ⟨c', hc', ⟨d', w', rfl, hlo', hhi'⟩, hall⟩ := ih hc
      have hlo'' : d ≤ d' := hlo'
      have hhi'' : d' ≤ max d b.avail := hhi'
      refine ⟨_, hc', ⟨d', w', rfl, by omega, by omega⟩, fun ⟨r, hr, hrid⟩ => ?_⟩
      obtain rfl | hr := List.mem_cons.mp hr
      · exact absurd hrid hq
      · refine (hall ⟨r, hr, hrid⟩).trans ?_
        show max d b.avail = _
        omega

end Sys2Proof.Machine
end
section
/-! PROOFS. The dispatch of a chain operation (08 R209, R214 to R216). -/

namespace Sys2Proof.Machine

theorem ChainFrame.opId {s t : State} (h : ChainFrame s t) : t.opId = s.opId := (congrArg State.opId h :)
theorem ChainFrame.man {s t : State} (h : ChainFrame s t) : t.man = s.man := (congrArg State.man h :)
theorem ChainFrame.q {s t : State} (h : ChainFrame s t) : t.q = s.q := (congrArg State.q h :)

/-- The state in which a chain operation has found the beats before it entered, and that in which it has read what it checks. -/
def chainForced (s : State) (ent : QEntry) : State := forceAll (left s eVEC ent)
def chainChecked (s : State) (ent : QEntry) (x : ChainSrc) : State := touchSpans (chainForced s ent) rqVRD (runReads (chainForced s ent) x)

theorem chainForced_opId (s : State) (ent : QEntry) : (chainForced s ent).opId = s.opId := (forceAll_frame _).opId.trans (left_opId ..)

theorem chainForced_man (s : State) (ent : QEntry) : (chainForced s ent).man = s.man := (forceAll_frame _).man.trans (left_man ..)

/-- A chain operation that passes its checks begins. -/
theorem chainOp_goes {s : State} {ent : QEntry} {fn : Nat} {src : State → QEntry → ChainSrc} {resv bad : State → QEntry → Bool} (h : Head s eVEC fn ent)
    (hfree : chainFree s ent = true) (hw : spansWait s (chainSpans s (src s ent)) = false) {x : ChainSrc} (hx : src (chainForced s ent) ent = x)
    (hc : (runCause (chainChecked s ent x) x.addr x.count x.progAt x.prog (resv (chainChecked s ent x) ent) (bad (chainChecked s ent x) ent)).1 = 0) :
    chainOp s fn src resv bad = .next (settled (startRun (chainChecked s ent x) ent x.prog (runDescOf (chainChecked s ent x) x.addr x.count) (7 + fn)) eVEC) := by
  have hx' : src (forceAll (left s eVEC ent)) ent = x := hx
  rw [chainOp, dispatchMem_goes h hfree hw]
  refine congrArg (fun t => Host.Outcome.next (settled t eVEC)) ?_
  dsimp only
  rw [hx']
  exact if_neg (not_not_intro hc)

/-- A chain operation as the statement writes it. -/
def chainRunOf (s : State) (ent : QEntry) (prog : List Word) (rd : RunDesc) (first : Nat) : VRun :=
  { id := s.opId, prog := prog, rd := rd, scal := ent.b, done := 0, avail := if (rd.ins.getD 0 .none).isBale then 0 else rd.count
    wait := first, red := [], touched := [], stepField := stepField (chainForced s ent) ent.ctx }

section Starts
variable {s u : State} {ent : QEntry} (hu : Reads (chainForced s ent) u) (prog : List Word) (rd : RunDesc) (first : Nat)
include hu

theorem newRun_eq : newRun u ent prog rd first = chainRunOf s ent prog rd first := by
  rw [newRun, hu.opId, chainForced_opId, hu.agree.stepField]; rfl

/-- What the start of a chain operation keeps, and the operation that it puts in flight. -/
theorem startRun_spec : let t := startRun u ent prog rd first
    t.opId = s.opId + 1 ∧ t.mem = u.mem ∧ t.vec = { u.vec with runs := u.vec.runs ++ (if rd.count = 0 then [] else [chainRunOf s ent prog rd first]) } ∧
      ({ ent := ent, id := s.opId, wb := none, done := decide (rd.count = 0 ∨ (rd.ins.getD 0 .none).isBale = false) } : Infl) ∈ (qOf t eVEC).infl := by
  intro t
  have hop : u.opId = s.opId := hu.opId.trans (chainForced_opId ..)
  have hdone : decide ((newRun u ent prog rd first).avail = rd.count) = decide (rd.count = 0 ∨ (rd.ins.getD 0 .none).isBale = false) := by
    refine decide_eq_decide.mpr ?_
    show (if (rd.ins.getD 0 .none).isBale then 0 else rd.count) = rd.count ↔ _
    cases (rd.ins.getD 0 .none).isBale <;> simp [eq_comm]
  have hput := mem_infl_put u eVEC ent none (decide ((newRun u ent prog rd first).avail = rd.count))
  rw [hdone, hop] at hput
  have ht : t = if rd.count = 0 then putInfl u eVEC ent none (decide (rd.count = 0 ∨ (rd.ins.getD 0 .none).isBale = false))
      else (putInfl u eVEC ent none (decide (rd.count = 0 ∨ (rd.ins.getD 0 .none).isBale = false))).modVec
        (fun v => { v with runs := v.runs ++ [chainRunOf s ent prog rd first] }) := by
    unfold t startRun
    dsimp only
    rw [hdone, newRun_eq hu]
  rw [ht]
  split
  · exact ⟨congrArg (· + 1) hop, rfl, by rw [List.append_nil]; rfl, hput⟩
  · exact ⟨congrArg (· + 1) hop, rfl, rfl, hput⟩

end Starts

/-- The operations before it whose numbers are their own have all of their beats entered. -/
theorem chainForced_done {s : State} {ent : QEntry} {z : VRun} (hz : z ∈ s.vec.runs) (huniq : ∀ k ∈ s.vec.runs, k.id = z.id → k = z)
    {w : VRun} (hw : w ∈ (chainForced s ent).vec.runs) (hid : w.id = z.id) : w.done = max z.done z.avail := by
  have hb : BareAt z.id z.bare (left s eVEC ent) := by
    rw [BareAt, left_vec]
    exact ⟨⟨z, hz, rfl⟩, fun y hy hyid => by rw [huniq y hy hyid]⟩
  obtain ⟨c, hc, -, hcd⟩ := hb.forceEach (left s eVEC ent).vec.runs
  have hwc : w.bare = c := hc.2 w hw hid
  refine (congrArg VRun.done hwc :).trans (hcd ⟨z, ?_, rfl⟩)
  rw [left_vec]
  exact hz

/-- Without an operation in the chain, none has beats to enter. -/
theorem chainForced_idle {s : State} (ent : QEntry) (h : s.vec.runs = []) : chainForced s ent = left s eVEC ent := by
  rw [chainForced, forceAll, left_vec, h]; rfl

/-- What the dispatch of a chain operation that passes its checks leaves. -/
theorem startRun_leaves {s u : State} {ent : QEntry} (hu : Reads (chainForced s ent) u) (prog : List Word) (rd : RunDesc) (first : Nat) :
    let v := chainForced s ent
    let t := startRun u ent prog rd first
    ∃ y, t.opId = s.opId + 1 ∧ SameBytes v t ∧ t.vec.v = v.vec.v ∧ t.vec.runm = v.vec.runm ∧
      t.vec.runs = v.vec.runs ++ (if rd.count = 0 then [] else [chainRunOf s ent prog rd first]) ∧
      y ∈ (qOf t eVEC).infl ∧ y.ent = ent ∧ y.id = s.opId ∧ y.wr = [] ∧ y.lanes = [] ∧
      y.done = decide (rd.count = 0 ∨ (rd.ins.getD 0 .none).isBale = false) ∧
      (∀ z ∈ s.vec.runs, (∀ k ∈ s.vec.runs, k.id = z.id → k = z) → ∀ w ∈ t.vec.runs, w.id = z.id → w.id ≠ s.opId → w.done = max z.done z.avail) ∧
      (s.vec.runs = [] → SameBytes s t ∧ t.vec.v = s.vec.v ∧ t.vec.runm = s.vec.runm) := by
  intro v t
  obtain ⟨hop, hmem, hvec, hinfl⟩ := startRun_spec hu prog rd first
  rw [hu.vec] at hvec
  have hruns : t.vec.runs = v.vec.runs ++ (if rd.count = 0 then [] else [chainRunOf s ent prog rd first]) := (congrArg Vec.runs hvec :)
  have hv : t.vec.v = v.vec.v := (congrArg Vec.v hvec :)
  have hrunm : t.vec.runm = v.vec.runm := (congrArg Vec.runm hvec :)
  have hbytes : t.mem.bytes = v.mem.bytes := (congrArg Mem.bytes hmem :).trans hu.bytes
  refine ⟨_, hop, .of_eq hbytes, hv, hrunm, hruns, hinfl, rfl, rfl, rfl, rfl, rfl, fun z hz huniq w hw hid hne => ?_, fun hnil => ?_⟩
  · rw [hruns] at hw
    obtain hw | hw := List.mem_append.mp hw
    · exact chainForced_done hz huniq hw hid
    · split at hw
      · exact absurd hw List.not_mem_nil
      · rw [List.mem_singleton.mp hw] at hne
        exact absurd rfl hne
  · have hl : v = left s eVEC ent := chainForced_idle ent hnil
    rw [hl] at hbytes hv hrunm
    rw [left_mem] at hbytes
    rw [left_vec] at hv hrunm
    exact ⟨.of_eq hbytes, hv, hrunm⟩

/-! The operands of a RUN and of a PROG. -/

theorem presetOn_congr {s t : State} (h : t.man = s.man) (p : Nat) : presetOn t p = presetOn s p := by rw [presetOn, cfgBits_congr h]; rfl
theorem stagesOf_congr {s t : State} (h : t.man = s.man) (p : Nat) : stagesOf t p = stagesOf s p := cfgBits_congr h ..

theorem chainChecked_man (s : State) (ent : QEntry) (x : ChainSrc) : (chainChecked s ent x).man = s.man :=
  (touchSpans_reads ..).man.trans (chainForced_man ..)

/-- The operands of VEC.RUN, and its own conditions of the causes RESV and PROGRAM. -/
def runSrc (t : State) (ent : QEntry) : ChainSrc := ⟨ent.d.toNat, ent.a.toNat % 2 ^ 32, true, [], presetWords t (ent.sub.toNat % 16)⟩
def runResv (ent : QEntry) : Bool := decide (16 ≤ ent.sub.toNat) || decide (bitsOf ent.fs.toNat 16 0 ≠ 0)
def runBad (t : State) (ent : QEntry) : Bool :=
  !presetOn t (ent.sub.toNat % 16) || decide (stagesOf t (ent.sub.toNat % 16) = 0) || decide (8 < stagesOf t (ent.sub.toNat % 16))

/-- Those of VEC.PROG. -/
def progResv (ent : QEntry) : Bool := decide (ent.sub ≠ 0) || decide (bitsOf ent.fs.toNat 16 5 ≠ 0)
def progBad (ent : QEntry) : Bool := decide (progLen ent = 0) || decide (16 < progLen ent)

theorem vecRun_goes {s : State} {ent : QEntry} (h : Head s eVEC 0 ent) (hfree : chainFree s ent = true)
    (hw : spansWait s (chainSpans s (runSrc s ent)) = false) {x : ChainSrc} (hx : runSrc (chainForced s ent) ent = x)
    (hc : (runCause (chainChecked s ent x) x.addr x.count x.progAt x.prog (runResv ent) (runBad s ent)).1 = 0) :
    execVecRun s = .next (settled (startRun (chainChecked s ent x) ent x.prog (runDescOf (chainChecked s ent x) x.addr x.count) 7) eVEC) := by
  have hbad : runBad (chainChecked s ent x) ent = runBad s ent := by
    rw [runBad, presetOn_congr (chainChecked_man ..), stagesOf_congr (chainChecked_man ..)]; rfl
  rw [← hbad] at hc
  exact chainOp_goes (src := runSrc) (resv := fun _ ent => runResv ent) (bad := runBad) h hfree hw hx hc

theorem vecProg_goes {s : State} {ent : QEntry} (h : Head s eVEC 1 ent) (hfree : chainFree s ent = true)
    (hw : spansWait s (chainSpans s (progSrc s ent)) = false) {x : ChainSrc} (hx : progSrc (chainForced s ent) ent = x)
    (hc : (runCause (chainChecked s ent x) x.addr x.count x.progAt x.prog (progResv ent) (progBad ent)).1 = 0) :
    execVecProg s = .next (settled (startRun (chainChecked s ent x) ent x.prog (runDescOf (chainChecked s ent x) x.addr x.count) 8) eVEC) :=
  chainOp_goes (src := progSrc) (resv := fun _ ent => progResv ent) (bad := fun _ ent => progBad ent) h hfree hw hx hc

end Sys2Proof.Machine
end
section
/-! PROOFS. The chain with one operation of a LOAD and one more micro-op (08 R197, R199, R214). -/

namespace Sys2Proof.Machine

/-- A chain operation of a LOAD into slot dst and one more micro-op, by what its elements load and what the second micro-op makes of each block of 64:
what it stores, the latest first, the lanes, and the accumulators. -/
structure LoadOp where
  r : VRun
  dst : Nat
  val : Nat → Word
  wr : Nat → Writes
  lanes : Nat → List (Nat × Word)
  red : Nat → Tab (Option Word) → Tab (Option Word)

namespace LoadOp
variable (c : LoadOp)

/-- The number of elements, and block n of them as its beat enters and as it leaves the LOAD. -/
def count : Nat := c.r.avail - c.r.done
def block (n : Nat) : List Lane := ({ c.r with done := c.r.done + 64 * n } : VRun).nextLanes
def loaded (n : Nat) : List Lane := (c.block n).map (fun l => l.setSlot c.dst (c.val l.e))

/-- The beat of block n, a of whose a-cycles are over. -/
def beatAt (n a : Nat) : VBeat :=
  { age := a, ls := if a = 0 then c.block n else c.loaded n, bale := c.r.bale
    wr := if a ≤ 3 then [] else c.wr n, lanes := if a ≤ 3 then [] else c.lanes n }

/-- What the first blocks have written, in order, and the accumulators that they leave. -/
def written (n : Nat) : Writes := (List.range n).flatMap (fun m => (c.wr m).reverse)
def laned (n : Nat) : List (Nat × Word) := (List.range n).flatMap c.lanes
def redTo (n : Nat) : Tab (Option Word) := (List.range n).foldl (fun t m => c.red m t) []

/-- The state in which the first n blocks have landed. -/
structure LandedTo (s : State) (n : Nat) (x : State) : Prop where
  frame : ChainFrame s x
  clean : NoDouble x
  bytes : Landed s x (c.written n)
  lanes : x.vec.v = (c.laned n).foldl (fun m p => tabSet 0 m p.1 p.2) s.vec.v

/-- The program does in every block what is said of it. -/
structure Acts (s : State) (ld op : Word) : Prop where
  prog : c.r.prog = [ld, op]
  load : ∀ (x : State) (y : VRun) (b n : Nat), b ≤ n → 64 * n < c.count → c.LandedTo s b x → y.rd = c.r.rd →
    Beat.uop { s := x, r := y, bale := c.r.bale, ls := c.block n } 0 ld = { s := x, r := y, bale := c.r.bale, ls := c.loaded n }
  act : ∀ (x : State) (y : VRun) (n : Nat), x.man = s.man → y.rd = c.r.rd → y.stepField = c.r.stepField →
    ∃ g, Beat.uop { s := x, r := y, bale := c.r.bale, ls := c.loaded n } 1 op =
      { s := { x with wgh := g }, r := { y with red := c.red n y.red }, bale := c.r.bale, ls := c.loaded n, wr := c.wr n, lanes := c.lanes n }
  inMem : ∀ n, 64 * n < c.count → InMemory (c.wr n)

variable {c}

/-! What leaves the landed blocks as they are, and the landing of one more. -/

theorem LandedTo.start {s : State} (h : NoDouble s) : c.LandedTo s 0 s := ⟨rfl, h, fun _ => rfl, rfl⟩

theorem LandedTo.touch {s x : State} {n : Nat} (h : c.LandedTo s n x) (req : Nat) (sp : List (Nat × Nat)) : c.LandedTo s n (touchSpans x req sp) := by
  obtain ⟨hf, hd, hb, hl⟩ := h
  have hr := touchSpans_reads x req sp
  exact ⟨hf.trans hr.access.chain, touchSpans_noDouble hd req sp, hb.of_mem rfl hr.bytes, by rw [hr.vec, hl]⟩

/-- A change of what the chain may touch besides memory and the registers. -/
theorem LandedTo.of_kept {s x y : State} {n : Nat} (h : c.LandedTo s n x) (hf : ChainFrame x y) (hm : y.mem = x.mem) (hv : y.vec.v = x.vec.v) :
    c.LandedTo s n y :=
  ⟨h.frame.trans hf, h.clean.of_ecc (by rw [hm]), h.bytes.of_mem rfl (by rw [hm]), by rw [hv, h.lanes]⟩

theorem putLanes_v (s : State) (ls : List (Nat × Word)) : (putLanes s ls).vec.v = ls.foldl (fun m p => tabSet 0 m p.1 p.2) s.vec.v := by
  unfold putLanes
  split
  · next h => rw [h]; rfl
  · rfl

theorem putLanes_mem (s : State) (ls : List (Nat × Word)) : (putLanes s ls).mem = s.mem := by rw [putLanes_frame]

/-- The state in which the beat of block n has landed. -/
def landBlock (c : LoadOp) (x : State) (n : Nat) : State := progress (putLanes (memWrJoined x rqVWR (c.wr n).reverse) (c.lanes n))

theorem inMemory_reverse {ws : Writes} (h : InMemory ws) : InMemory ws.reverse := fun w hw => h w (List.mem_reverse.mp hw)

theorem LandedTo.land {s x : State} {n : Nat} (h : c.LandedTo s n x) (hin : InMemory (c.wr n)) : c.LandedTo s (n + 1) (c.landBlock x n) := by
  obtain ⟨hf, hd, hb, hl⟩ := h
  have hacc := memWrJoined_access x rqVWR (c.wr n).reverse
  have hvec : (memWrJoined x rqVWR (c.wr n).reverse).vec = x.vec := by rw [hacc]
  have hm : (c.landBlock x n).mem = (memWrJoined x rqVWR (c.wr n).reverse).mem := putLanes_mem ..
  refine ⟨hf.trans ((hacc.chain.trans (putLanes_chain ..).frame).trans (progress_chain _)), ?_, ?_, ?_⟩
  · exact (memWrJoined_noDouble hd rqVWR (c.wr n).reverse).of_ecc (by rw [hm])
  · rw [written, List.range_succ, List.flatMap_append, List.flatMap_singleton]
    exact hb.trans ((memWrJoined_landed hd rqVWR (inMemory_reverse hin)).of_mem rfl (by rw [hm]))
  · rw [laned, List.range_succ, List.flatMap_append, List.flatMap_singleton, List.foldl_append]
    show (putLanes _ _).vec.v = _
    rw [putLanes_v, hvec, hl]
    rfl

/-! A beat on one a-cycle. -/

/-- An operation as it is in the chain: its program and descriptor are those of the operation that began. -/
structure Goes (c : LoadOp) (y : VRun) : Prop where
  prog : y.prog = c.r.prog
  rd : y.rd = c.r.rd
  step : y.stepField = c.r.stepField

section Cycle
variable {s : State} {ld op : Word} (hc : c.Acts s ld op) {x : State} {y : VRun} (hy : c.Goes y) {b n : Nat}
include hc hy

theorem lands_iff (m a : Nat) : (c.beatAt m a).lands y = decide (8 ≤ a) := by
  rw [VBeat.lands, hy.prog, hc.prog]
  rfl

theorem meets_eq (m a : Nat) : (c.beatAt m a).meets y = if a = 0 then some (0, ld) else if a = 3 then some (1, op) else none := by
  rw [VBeat.meets, hy.prog, hc.prog]
  show (if a % 3 = 0 then ([ld, op][a / 3]?).map _ else none) = _
  by_cases h0 : a = 0
  · subst h0; simp [beatAt]
  by_cases h3 : a = 3
  · subst h3; simp [beatAt]
  rw [if_neg h0, if_neg h3]
  split
  · rw [List.getElem?_eq_none (by show 2 ≤ a / 3; omega)]
    rfl
  · rfl

theorem beatCycle_lands {a : Nat} (ha : a = 8) : beatCycle (x, y) (c.beatAt n a) = (c.landBlock x n, y) := by
  subst ha
  unfold beatCycle
  rw [lands_iff hc hy]
  rfl

theorem beatCycle_moves {a : Nat} (ha : a < 8) (h0 : a ≠ 0) (h3 : a ≠ 3) :
    beatCycle (x, y) (c.beatAt n a) = (x, { y with beats := y.beats ++ [c.beatAt n (a + 1)] }) := by
  have hb : ({ c.beatAt n a with age := a + 1 } : VBeat) = c.beatAt n (a + 1) := by
    unfold beatAt
    simp only [h0, if_false, Nat.add_eq_zero_iff, Nat.one_ne_zero, and_false]
    by_cases h : a ≤ 3
    · rw [if_pos h, if_pos h, if_pos (show a + 1 ≤ 3 by omega), if_pos (show a + 1 ≤ 3 by omega)]
    · rw [if_neg h, if_neg h, if_neg (show ¬ a + 1 ≤ 3 by omega), if_neg (show ¬ a + 1 ≤ 3 by omega)]
  unfold beatCycle
  rw [lands_iff hc hy, meets_eq hc hy, if_neg h0, if_neg h3, ← hb]
  rw [if_neg (by simp; omega)]
  rfl

theorem beatCycle_loads (hx : c.LandedTo s b x) (hb : b ≤ n) (hn : 64 * n < c.count) : ∃ x', c.LandedTo s b x' ∧ ChainKept x x' ∧
    beatCycle (x, y) (c.beatAt n 0) = (x', { y with beats := y.beats ++ [c.beatAt n 1] }) := by
  have ht := hx.touch rqVRD ((c.beatAt n 0).reads y)
  refine ⟨_, ht, (touchSpans_access ..).chainKept, ?_⟩
  unfold beatCycle
  rw [lands_iff hc hy, meets_eq hc hy]
  have hload := hc.load _ y b n hb hn ht hy.rd
  dsimp only
  rw [if_neg (by decide), if_pos rfl]
  dsimp only
  rw [show (c.beatAt n 0).ls = c.block n from rfl, show (c.beatAt n 0).wr = [] from rfl, show (c.beatAt n 0).lanes = [] from rfl,
    show (c.beatAt n 0).bale = c.r.bale from rfl, hload]
  rfl

theorem beatCycle_acts (hx : c.LandedTo s b x) : ∃ x', c.LandedTo s b x' ∧ ChainKept x x' ∧
    beatCycle (x, y) (c.beatAt n 3) = (x', { y with beats := y.beats ++ [c.beatAt n 4], red := c.red n y.red }) := by
  have ht := hx.touch rqVRD ((c.beatAt n 3).reads y)
  obtain ⟨g, hact⟩ := hc.act _ y n ht.frame.man hy.rd hy.step
  refine ⟨_, ht.of_kept (y := { touchSpans x rqVRD ((c.beatAt n 3).reads y) with wgh := g }) rfl rfl rfl,
    (touchSpans_access ..).chainKept.trans ⟨rfl, rfl, rfl, rfl⟩, ?_⟩
  unfold beatCycle
  rw [lands_iff hc hy, meets_eq hc hy]
  dsimp only
  rw [if_neg (by decide), if_neg (by decide), if_pos rfl]
  dsimp only
  rw [show (c.beatAt n 3).ls = c.loaded n from rfl, show (c.beatAt n 3).wr = [] from rfl, show (c.beatAt n 3).lanes = [] from rfl,
    show (c.beatAt n 3).bale = c.r.bale from rfl, hact]
  rfl

end Cycle

/-! The beats of the operation on one a-cycle. -/

theorem Goes.moved {y : VRun} (h : c.Goes y) (bs : List VBeat) (t : Tab (Option Word)) : c.Goes { y with beats := bs, red := t } := ⟨h.prog, h.rd, h.step⟩

section Move
variable {s : State} {ld op : Word} (hc : c.Acts s ld op)
include hc

/-- A beat that does not land yet. -/
theorem beatCycle_ages {x : State} {y : VRun} {b n a : Nat} (hy : c.Goes y) (hx : c.LandedTo s b x) (hb : b ≤ n) (hn : 64 * n < c.count) (ha : a < 8) :
    ∃ x', c.LandedTo s b x' ∧ ChainKept x x' ∧ beatCycle (x, y) (c.beatAt n a) =
      (x', { y with beats := y.beats ++ [c.beatAt n (a + 1)], red := if a = 3 then c.red n y.red else y.red }) := by
  by_cases h0 : a = 0
  · subst h0
    exact beatCycle_loads hc hy hx hb hn
  by_cases h3 : a = 3
  · subst h3
    exact beatCycle_acts hc hy hx
  · rw [if_neg h3]
    exact ⟨x, hx, .refl x, beatCycle_moves hc hy ha h0 h3⟩

/-- Beats that do not land yet, oldest first. -/
theorem beats_age (A : Nat → Nat) (k : Nat) {x : State} {y : VRun} {b n : Nat} (hy : c.Goes y) (hx : c.LandedTo s b x) (hb : b ≤ n)
    (hA : ∀ m, n ≤ m → m < n + k → A m < 8 ∧ 64 * m < c.count) : ∃ x', c.LandedTo s b x' ∧ ChainKept x x' ∧
    ((List.range' n k).map (fun m => c.beatAt m (A m))).foldl beatCycle (x, y) =
      (x', { y with
        beats := y.beats ++ (List.range' n k).map (fun m => c.beatAt m (A m + 1))
        red := (List.range' n k).foldl (fun t m => if A m = 3 then c.red m t else t) y.red }) := by
  induction k generalizing x y n with
  | zero => exact ⟨x, hx, .refl x, by simp⟩
  | succ k ih =>
    obtain ⟨h8, hlt⟩ := hA n (Nat.le_refl n) (by omega)
    obtain ⟨x', hx', hk', heq⟩ := beatCycle_ages hc hy hx hb hlt h8
    obtain ⟨x'', hx'', hk'', heq'⟩ := ih (hy.moved _ _) hx' (Nat.le_succ_of_le hb) fun m hm hm' => hA m (by omega) (by omega)
    refine ⟨x'', hx'', hk'.trans hk'', ?_⟩
    rw [List.range'_succ, List.map_cons, List.foldl_cons, heq, heq', List.map_cons, List.foldl_cons, List.append_assoc]
    rfl

end Move

/-- Of blocks that are met once each, one at most meets the second micro-op. -/
theorem foldl_meets {A : Nat → Nat} {f : Nat} {g : Nat → Tab (Option Word) → Tab (Option Word)} {l : List Nat} (hnd : l.Nodup)
    (h3 : ∀ m ∈ l, A m = 3 → m = f) (t : Tab (Option Word)) :
    l.foldl (fun t m => if A m = 3 then g m t else t) t = if f ∈ l ∧ A f = 3 then g f t else t := by
  induction l generalizing t with
  | nil => simp
  | cons m l ih =>
    obtain ⟨hm, hnd'⟩ := List.nodup_cons.mp hnd
    have ih' := fun t => ih hnd' (fun k hk => h3 k (List.mem_cons_of_mem _ hk)) t
    rw [List.foldl_cons, ih']
    by_cases ha : A m = 3
    · obtain rfl := h3 m List.mem_cons_self ha
      simp [ha, hm]
    · rw [if_neg ha]
      by_cases hf : f = m
      · subst hf
        simp [ha, hm]
      · simp [hf]

/-- The operation in the chain: blocks below b have landed, those from b to d are in it with their ages, and those below f have met the second micro-op. -/
def running (c : LoadOp) (b f d : Nat) (A : Nat → Nat) (w : Nat) : VRun :=
  { c.r with
    done := min (c.r.done + 64 * d) c.r.avail, wait := w
    beats := (List.range' b (d - b)).map (fun m => c.beatAt m (A m)), red := c.redTo f }

/-- A state of the chain with the operation alone in it, its beats at least lo a-cycles old. -/
structure InChain (c : LoadOp) (s : State) (lo b f d : Nat) (A : Nat → Nat) (w : Nat) (x : State) : Prop where
  landed : c.LandedTo s b x
  runs : x.vec.runs = [c.running b f d A w]
  le : b ≤ f ∧ f ≤ d
  last : ∀ m, m < d → 64 * m < c.count
  ages : ∀ m, b ≤ m → m < d → lo ≤ A m ∧ A m ≤ 8 ∧ (4 ≤ A m ↔ m < f)
  decr : ∀ m n, b ≤ m → m < n → n < d → A n < A m

section Move
variable {s : State} {ld op : Word} (hc : c.Acts s ld op) {lo b f d : Nat} {A : Nat → Nat} {w : Nat} {x : State}

/-- The block that meets the second micro-op is the first that has not met it. -/
theorem InChain.meets (h : c.InChain s lo b f d A w x) {m : Nat} (hb : b ≤ m) (hd : m < d) (h3 : A m = 3) : m = f := by
  obtain ⟨-, -, hf⟩ := h.ages m hb hd
  by_contra hne
  have hlt : f < m := by omega
  have := h.decr f m h.le.1 hlt hd
  have := (h.ages f h.le.1 (by omega)).2.2
  omega

include hc

/-- The beats of the operation move: the oldest lands when its time has come, and the others age. -/
theorem InChain.beats (h : c.InChain s lo b f d A w x) : ∃ b' x', c.LandedTo s b' x' ∧ ChainKept x x' ∧
    (b' = b ∧ (∀ m, b ≤ m → m < d → A m < 8) ∨ b' = b + 1 ∧ b < d ∧ A b = 8) ∧
    (c.running b f d A w).beats.foldl beatCycle (x, { c.running b f d A w with beats := [] }) =
      (x', { c.running b f d A w with
        beats := (List.range' b' (d - b')).map (fun m => c.beatAt m (A m + 1))
        red := (List.range' b (d - b)).foldl (fun t m => if A m = 3 then c.red m t else t) (c.redTo f) }) := by
  have hy : c.Goes { c.running b f d A w with beats := [] } := ⟨rfl, rfl, rfl⟩
  by_cases h8 : b < d ∧ A b = 8
  · obtain ⟨hbd, h8⟩ := h8
    have hin := hc.inMem b (h.last b hbd)
    obtain ⟨x', hx', hk', heq⟩ := beats_age hc A (d - (b + 1)) hy (h.landed.land hin) (Nat.le_refl (b + 1)) fun m hm hm' =>
      ⟨by have := h.decr b m (Nat.le_refl b) (by omega) (by omega); omega, h.last m (by omega)⟩
    refine ⟨b + 1, x', hx', ChainKept.trans ?_ hk', .inr ⟨rfl, hbd, h8⟩, ?_⟩
    · exact (((memWrJoined_access ..).chainKept.trans (putLanes_chain ..)).trans ⟨rfl, rfl, rfl, rfl⟩)
    · have hsplit : List.range' b (d - b) = b :: List.range' (b + 1) (d - (b + 1)) := by
        rw [← List.range'_succ]
        congr 1
        omega
      have hland := beatCycle_lands hc hy (x := x) (n := b) h8
      show List.foldl beatCycle _ (List.map _ _) = _
      rw [hsplit, List.map_cons, List.foldl_cons, hland, heq, List.foldl_cons, if_neg (show ¬ A b = 3 by omega)]
      rfl
  · have hlt : ∀ m, b ≤ m → m < d → A m < 8 := fun m hm hd => by
      obtain ⟨-, hle, -⟩ := h.ages m hm hd
      by_contra hge
      obtain rfl | hbm := Nat.eq_or_lt_of_le hm
      · exact h8 ⟨hd, by omega⟩
      · have := h.decr b m (Nat.le_refl b) hbm hd
        have := h.ages b (Nat.le_refl b) (by omega)
        omega
    obtain ⟨x', hx', hk', heq⟩ := beats_age hc A (d - b) hy h.landed (Nat.le_refl b) fun m hm hm' =>
      ⟨hlt m hm (by omega), h.last m (by omega)⟩
    exact ⟨b, x', hx', hk', .inl ⟨rfl, hlt⟩, heq⟩

theorem InChain.move (h : c.InChain s lo b f d A w x) : ∃ b' f', c.InChain s (lo + 1) b' f' d (fun m => A m + 1) w (moveBeats x) := by
  obtain ⟨b', x', hx', hk', hb', heq⟩ := h.beats hc
  have hred : (List.range' b (d - b)).foldl (fun t m => if A m = 3 then c.red m t else t) (c.redTo f) =
      c.redTo (if f < d ∧ A f = 3 then f + 1 else f) := by
    rw [foldl_meets List.nodup_range' fun m hm h3 => by
      rw [List.mem_range'_1] at hm
      exact h.meets hm.1 (by omega) h3]
    have hmem : f ∈ List.range' b (d - b) ↔ f < d := by
      rw [List.mem_range'_1]
      have := h.le
      omega
    simp only [hmem]
    split
    · rw [redTo, redTo, List.range_succ, List.foldl_append]
      rfl
    · rfl
  obtain ⟨hbf, hfd⟩ := h.le
  have hle : b ≤ b' ∧ b' ≤ f := by
    obtain ⟨rfl, -⟩ | ⟨rfl, hbd, h8⟩ := hb'
    · exact ⟨Nat.le_refl _, hbf⟩
    · have := (h.ages b (Nat.le_refl b) hbd).2.2
      omega
  have hlt : ∀ m, b' ≤ m → m < d → A m < 8 := fun m hm hd => by
    obtain ⟨rfl, hall⟩ | ⟨rfl, hbd, h8⟩ := hb'
    · exact hall m hm hd
    · have := h.decr b m (Nat.le_refl b) (by omega) hd
      omega
  have hmove : moveBeats x = x'.modVec (fun v => { v with runs := [c.running b' (if f < d ∧ A f = 3 then f + 1 else f) d (fun m => A m + 1) w] }) := by
    rw [moveBeats, h.runs, List.foldl_cons, List.foldl_nil, runCycle, heq, hred]
    dsimp only
    rw [State.modVec, hk'.runs, h.runs, List.map_singleton, if_pos rfl]
    rfl
  refine ⟨b', if f < d ∧ A f = 3 then f + 1 else f, ?_⟩
  rw [hmove]
  refine ⟨hx'.of_kept (modVec_chain ..) rfl rfl, rfl, ?_, h.last, fun m hm hd => ?_, fun m n hm hmn hn => ?_⟩
  · split <;> omega
  · obtain ⟨hlo, -, hf⟩ := h.ages m (by omega) hd
    refine ⟨by omega, hlt m hm hd, ?_⟩
    by_cases h3 : A m = 3
    · obtain rfl := h.meets (by omega) hd h3
      rw [if_pos ⟨hd, h3⟩]
      omega
    · split
      · next hf3 =>
        obtain ⟨hfd', hf3⟩ := hf3
        by_cases hmf : m = f
        · exact absurd (hmf ▸ hf3) h3
        · omega
      · omega
  · have := h.decr m n (by omega) hmn hn
    omega

end Move

end LoadOp

end Sys2Proof.Machine
end
section
/-! PROOFS. The end of an operation alone in the chain: its beats, and of a LOAD with one more micro-op what has landed (08 R214). -/

namespace Sys2Proof.Machine

/-! The count of beats of an operation alone in the chain. -/

/-- An operation alone in the chain, its beats left out, and the count of beats. -/
structure SoleAt (b : VRun) (k : Word) (x : State) : Prop where
  sole : ∃ y, x.vec.runs = [y] ∧ y.bare = b
  beats : x.vec.beats = k

theorem countBeat_beats (s : State) (r : VRun) : (countBeat s r).vec.beats = if r.enters then s.vec.beats + 1 else s.vec.beats := by
  unfold countBeat
  split <;> rfl

theorem countBeat_kept (s : State) (r : VRun) : (countBeat s r).mem = s.mem ∧ (countBeat s r).vec.v = s.vec.v ∧ (countBeat s r).vec.ops = s.vec.ops := by
  unfold countBeat
  split <;> exact ⟨rfl, rfl, rfl⟩

theorem enterBeats_kept (s : State) : (enterBeats s).mem = s.mem ∧ (enterBeats s).vec.v = s.vec.v ∧ (enterBeats s).vec.ops = s.vec.ops :=
  foldl_related (R := fun s t : State => t.mem = s.mem ∧ t.vec.v = s.vec.v ∧ t.vec.ops = s.vec.ops) (fun _ => ⟨rfl, rfl, rfl⟩)
    (fun h k => ⟨k.1.trans h.1, k.2.1.trans h.2.1, k.2.2.trans h.2.2⟩) countBeat_kept s.vec.runs s

theorem chainCycle_ops (s : State) : (chainCycle s).vec.ops = s.vec.ops := (moveBeats_frame _).2.2.trans (enterBeats_kept s).2.2

theorem chainCycles_ops (n : Nat) (s : State) : (chainCycles n s).vec.ops = s.vec.ops := by
  induction n generalizing s with
  | zero => rfl
  | succ n ih => exact (ih _).trans (chainCycle_ops s)

theorem enterRun_ops (id k : Nat) (s : State) : (enterRun id k s).vec.ops = s.vec.ops := by
  induction k generalizing s with
  | zero => rfl
  | succ k ih =>
    unfold enterRun
    split
    · rfl
    · split
      · exact (ih _).trans (chainCycles_ops ..)
      · rfl

section Sole
variable {b : VRun} {k : Word} {x : State} (h : SoleAt b k x)
include h

theorem SoleAt.bareAt : BareAt b.id b x := by
  obtain ⟨⟨y, hy, rfl⟩, -⟩ := h
  rw [BareAt, hy]
  exact ⟨⟨y, List.mem_singleton_self y, rfl⟩, fun z hz _ => by rw [List.mem_singleton.mp hz]⟩

theorem SoleAt.cycle : SoleAt b.entered (if b.enters then k + 1 else k) (chainCycle x) := by
  obtain ⟨⟨y, hy, rfl⟩, rfl⟩ := h
  have hruns : (enterBeats x).vec.runs = [y.enter] := by rw [(enterBeats_spec x).2, hy]; rfl
  have hbeats : (enterBeats x).vec.beats = if y.enters then x.vec.beats + 1 else x.vec.beats := by
    rw [← countBeat_beats]
    unfold enterBeats
    rw [hy]
    rfl
  obtain ⟨z, hz, -, hzruns, hzbeats, -⟩ := runCycle_spec (enterBeats x) y.enter
  have hmove : chainCycle x = runCycle (enterBeats x) y.enter := by
    rw [chainCycle, moveBeats, hruns]
    rfl
  rw [hmove]
  refine ⟨⟨z, ?_, hz.trans (enter_bare y)⟩, hzbeats.trans hbeats⟩
  rw [hzruns, hruns, List.map_singleton, if_pos rfl]

end Sole

theorem SoleAt.interval (n : Nat) {b : VRun} {k : Word} {x : State} (h : SoleAt b k x) (hw : b.wait = n) (hd : b.done < b.avail) :
    ∃ w, SoleAt (b.upTo (b.done + min 64 (b.avail - b.done)) w) (k + 1) (chainCycles (n + 1) x) := by
  induction n generalizing b x with
  | zero =>
    have he : b.enters = true := (enters_iff b).mpr ⟨hw, hd⟩
    obtain ⟨w, hw'⟩ := entered_of_enters he
    have hc := h.cycle
    rw [hw', if_pos he] at hc
    exact ⟨w, hc⟩
  | succ n ih =>
    have hne : ¬ b.enters = true := fun he => by rw [((enters_iff b).mp he).1] at hw; cases hw
    have hc := h.cycle
    rw [entered_of_not hne, if_neg hne, hw] at hc
    exact ih (b := b.upTo b.done n) hc rfl hd

/-- The beats of the operation enter, and each is counted. -/
theorem SoleAt.enterRun (m : Nat) {b : VRun} {k : Word} {x : State} (h : SoleAt b k x) (hm : b.avail - b.done ≤ 64 * m) :
    ∃ d w, SoleAt (b.upTo d w) (k + BitVec.ofNat 32 (ceilDiv (b.avail - b.done) 64)) (enterRun b.id m x) ∧ b.avail ≤ d := by
  induction m generalizing b k x with
  | zero =>
    have hz : ceilDiv (b.avail - b.done) 64 = 0 := by unfold ceilDiv; omega
    rw [hz, BitVec.add_zero]
    refine ⟨b.done, b.wait, ?_, by omega⟩
    rw [show b.upTo b.done b.wait = b from h.bareAt.bare]
    exact h
  | succ m ih =>
    obtain ⟨r, hr, hb⟩ := h.bareAt.found
    have hdone : r.done = b.done := (congrArg VRun.done hb :)
    have havail : r.avail = b.avail := (congrArg VRun.avail hb :)
    have hwait : r.wait = b.wait := (congrArg VRun.wait hb :)
    unfold Machine.enterRun
    rw [hr]
    dsimp only
    rw [hdone, havail, hwait]
    split
    · next hlt =>
      obtain ⟨w, hw⟩ := h.interval b.wait rfl hlt
      obtain ⟨d, w', hs, hd⟩ := ih hw (by show b.avail - (b.done + min 64 (b.avail - b.done)) ≤ _; omega)
      refine ⟨d, w', ?_, hd⟩
      have hk : k + 1 + BitVec.ofNat 32 (ceilDiv (b.avail - (b.done + min 64 (b.avail - b.done))) 64) =
          k + BitVec.ofNat 32 (ceilDiv (b.avail - b.done) 64) := by
        have hcd : ceilDiv (b.avail - b.done) 64 = 1 + ceilDiv (b.avail - (b.done + min 64 (b.avail - b.done))) 64 := by unfold ceilDiv; omega
        rw [hcd, BitVec.ofNat_add, BitVec.add_assoc]
        rfl
      rw [← hk]
      exact hs
    · have hz : ceilDiv (b.avail - b.done) 64 = 0 := by unfold ceilDiv; omega
      rw [hz, BitVec.add_zero]
      refine ⟨b.done, b.wait, ?_, by omega⟩
      rw [show b.upTo b.done b.wait = b from h.bareAt.bare]
      exact h

/-- When all have entered, the chain moves on without another. -/
theorem SoleAt.late (n : Nat) {b : VRun} {k : Word} {x : State} (h : SoleAt b k x) (hd : b.avail ≤ b.done) :
    ∃ w, SoleAt (b.upTo b.done w) k (chainCycles n x) := by
  induction n generalizing b x with
  | zero =>
    refine ⟨b.wait, ?_⟩
    rw [show b.upTo b.done b.wait = b from h.bareAt.bare]
    exact h
  | succ n ih =>
    have hne : ¬ b.enters = true := fun he => by have := ((enters_iff b).mp he).2; omega
    have hc := h.cycle
    rw [entered_of_not hne, if_neg hne] at hc
    exact ih (b := b.upTo b.done (b.wait - 1)) hc hd

/-- The operation leaves the chain empty, and its beats are counted. -/
theorem endRun_sole {s : State} {r : VRun} (hs : s.vec.runs = [r]) : (endRun s r.id).vec.runs = [] ∧
    (endRun s r.id).vec.beats = s.vec.beats + BitVec.ofNat 32 (ceilDiv (r.avail - r.done) 64) ∧ (endRun s r.id).vec.ops = s.vec.ops ∧
    ChainFrame s (endRun s r.id) := by
  have h : SoleAt r.bare s.vec.beats s := ⟨⟨r, hs, rfl⟩, rfl⟩
  have hfound : vecRunOf s r.id = some r := by rw [vecRunOf, hs]; simp
  have hforce : forceEntry s r.id = enterRun r.id (ceilDiv (r.avail - r.done) 64) s := by rw [forceEntry, hfound]
  obtain ⟨d, w, hent, hd⟩ := h.enterRun (ceilDiv (r.avail - r.done) 64) (by
    show r.avail - r.done ≤ 64 * ceilDiv (r.avail - r.done) 64
    unfold ceilDiv
    omega)
  obtain ⟨w', ⟨⟨y, hy, hyb⟩, hbeats⟩⟩ := hent.late (3 * r.prog.length + 2) hd
  have hyid : y.id = r.id := (congrArg VRun.id hyb :)
  have hend : endRun s r.id = putLanes ((chainCycles (3 * r.prog.length + 2) (forceEntry s r.id)).modVec (fun v => { v with
      runs := v.runs.filter (fun x => decide (x.id ≠ r.id)) }))
        (((vecRunOf (chainCycles (3 * r.prog.length + 2) (forceEntry s r.id)) r.id).map redResults).getD []) := by
    rw [endRun, hfound]
  rw [hend, hforce, putLanes_frame]
  refine ⟨?_, hbeats, ?_, ?_⟩
  · show List.filter _ (chainCycles _ _).vec.runs = []
    rw [show (chainCycles (3 * r.prog.length + 2) (enterRun r.id (ceilDiv (r.avail - r.done) 64) s)).vec.runs = [y] from hy]
    simp [hyid]
  · exact (chainCycles_ops ..).trans (enterRun_ops ..)
  · exact ChainFrame.trans ((enterRun_frame ..).trans (chainCycles_frame ..)) rfl

/-! What has landed when a LOAD with one more micro-op ends. -/

namespace LoadOp
variable {c : LoadOp} {s : State}

theorem InChain.start (hs : s.vec.runs = [c.r]) (hd : NoDouble s) (hb : c.r.beats = []) (hr : c.r.red = []) (hle : c.r.done ≤ c.r.avail) :
    c.InChain s 1 0 0 0 (fun _ => 0) c.r.wait s := by
  refine ⟨.start hd, ?_, ⟨Nat.le_refl _, Nat.le_refl _⟩, nofun, nofun, nofun⟩
  rw [hs]
  refine congrArg (fun r => [r]) ?_
  have hdone : min (c.r.done + 64 * 0) c.r.avail = c.r.done := by omega
  unfold running
  rw [hdone, show (List.range' 0 (0 - 0)).map (fun m => c.beatAt m 0) = c.r.beats from hb.symm, show c.redTo 0 = c.r.red from hr.symm]

section Enter
variable {lo b f d : Nat} {A : Nat → Nat} {w : Nat} {x : State}

theorem running_enters (h : (c.running b f d A w).enters = true) : c.r.done + 64 * d < c.r.avail := by
  have hlt : min (c.r.done + 64 * d) c.r.avail < c.r.avail := ((enters_iff _).mp h).2
  omega

/-- A beat of the next block enters the chain. -/
theorem running_enter (h : (c.running b f d A w).enters = true) (hbd : b ≤ d) :
    ∃ w', (c.running b f d A w).enter = c.running b f (d + 1) (fun m => if m = d then 0 else A m) w' := by
  have hlt := running_enters h
  have hdone : min (c.r.done + 64 * d) c.r.avail = c.r.done + 64 * d := by omega
  have hlanes : (c.running b f d A w).nextLanes = c.block d := by
    unfold VRun.nextLanes running block
    dsimp only
    rw [hdone]
    rfl
  have hlen : (c.block d).length = min 64 (c.r.avail - (c.r.done + 64 * d)) := nextLanes_length _
  have hnew : min (c.r.done + 64 * d) c.r.avail + (c.block d).length = min (c.r.done + 64 * (d + 1)) c.r.avail := by omega
  have hbeats : (List.range' b (d + 1 - b)).map (fun m => c.beatAt m (if m = d then 0 else A m)) =
      (List.range' b (d - b)).map (fun m => c.beatAt m (A m)) ++ [{ ls := c.block d, bale := c.r.bale }] := by
    have hsub : d + 1 - b = d - b + 1 := by omega
    rw [hsub, List.range'_1_concat, List.map_append, List.map_singleton, Nat.add_sub_of_le hbd, if_pos rfl]
    refine congrArg₂ (· ++ ·) (List.map_congr_left fun m hm => ?_) rfl
    rw [List.mem_range'_1] at hm
    rw [if_neg (by omega)]
  refine ⟨max ((c.running b f d A w).lineTime (c.block d)) ((c.running b f d A w).dt2Time (c.block d)) - 1, ?_⟩
  unfold VRun.enter
  rw [if_pos h]
  dsimp only
  rw [hlanes]
  unfold running at hlanes ⊢
  dsimp only
  rw [hnew, hbeats]

theorem InChain.enter (h : c.InChain s lo b f d A w x) (hlo : 1 ≤ lo) (he : (c.running b f d A w).enters = true) :
    ∃ A' w', c.InChain s 0 b f (d + 1) A' w' (enterBeats x) := by
  obtain ⟨hbf, hfd⟩ := h.le
  obtain ⟨w', hent⟩ := running_enter (c := c) he (hbf.trans hfd)
  obtain ⟨hmem, hv, -⟩ := enterBeats_kept x
  obtain ⟨hframe, hruns⟩ := enterBeats_spec x
  have hlt := running_enters (c := c) he
  refine ⟨fun m => if m = d then 0 else A m, w', h.landed.of_kept hframe hmem hv, ?_, ⟨hbf, by omega⟩,
    fun m hm => ?_, fun m hm hmd => ?_, fun m n hm hmn hn => ?_⟩
  · rw [hruns, h.runs, List.map_singleton, hent]
  · unfold count
    omega
  · by_cases hmd' : m = d
    · rw [if_pos hmd']
      omega
    · rw [if_neg hmd']
      have := h.ages m hm (by omega)
      omega
  · have hm' : m ≠ d := by omega
    rw [if_neg hm']
    by_cases hnd : n = d
    · rw [if_pos hnd]
      have := h.ages m hm (by omega)
      omega
    · rw [if_neg hnd]
      exact h.decr m n hm hmn (by omega)

theorem InChain.wait (h : c.InChain s lo b f d A w x) (he : ¬ (c.running b f d A w).enters = true) : c.InChain s lo b f d A (w - 1) (enterBeats x) := by
  obtain ⟨hmem, hv, -⟩ := enterBeats_kept x
  obtain ⟨hframe, hruns⟩ := enterBeats_spec x
  refine ⟨h.landed.of_kept hframe hmem hv, ?_, h.le, h.last, h.ages, h.decr⟩
  rw [hruns, h.runs, List.map_singleton, VRun.enter, if_neg he]
  rfl

theorem InChain.weaken (h : c.InChain s lo b f d A w x) {k : Nat} (hk : k ≤ lo) : c.InChain s k b f d A w x :=
  ⟨h.landed, h.runs, h.le, h.last, fun m hm hmd => ⟨hk.trans (h.ages m hm hmd).1, (h.ages m hm hmd).2⟩, h.decr⟩

end Enter

/-- The operation is in the chain, between a-cycles. -/
def Chained (c : LoadOp) (s x : State) : Prop := ∃ b f d A w, c.InChain s 1 b f d A w x

section Cycles
variable {ld op : Word} (hc : c.Acts s ld op)
include hc

theorem Chained.cycle {x : State} (h : c.Chained s x) : c.Chained s (chainCycle x) := by
  obtain ⟨b, f, d, A, w, h⟩ := h
  by_cases he : (c.running b f d A w).enters = true
  · obtain ⟨A', w', h'⟩ := h.enter (Nat.le_refl 1) he
    obtain ⟨b'', f'', h''⟩ := h'.move hc
    exact ⟨b'', f'', _, _, _, h''⟩
  · obtain ⟨b', f', h'⟩ := (h.wait he).move hc
    exact ⟨b', f', _, _, _, h'.weaken (by omega)⟩

theorem Chained.cycles (n : Nat) {x : State} (h : c.Chained s x) : c.Chained s (chainCycles n x) := by
  induction n generalizing x with
  | zero => exact h
  | succ n ih => exact ih (h.cycle hc)

theorem Chained.enterRun (id k : Nat) {x : State} (h : c.Chained s x) : c.Chained s (Machine.enterRun id k x) := by
  induction k generalizing x with
  | zero => exact h
  | succ k ih =>
    unfold Machine.enterRun
    split
    · exact h
    · split
      · exact ih (h.cycles hc _)
      · exact h

theorem Chained.forceEntry (id : Nat) {x : State} (h : c.Chained s x) : c.Chained s (Machine.forceEntry x id) := by
  unfold Machine.forceEntry
  split
  · exact h
  · exact h.enterRun hc ..

/-- When all blocks have entered, the beats grow older with every a-cycle. -/
theorem InChain.late (n : Nat) {lo b f d : Nat} {A : Nat → Nat} {w : Nat} {x : State} (h : c.InChain s lo b f d A w x)
    (hall : c.r.avail ≤ c.r.done + 64 * d) : ∃ b' f' A' w', c.InChain s (lo + n) b' f' d A' w' (chainCycles n x) := by
  induction n generalizing lo b f A w x with
  | zero => exact ⟨b, f, A, w, h⟩
  | succ n ih =>
    have hne : ¬ (c.running b f d A w).enters = true := fun he => by have := running_enters he; omega
    obtain ⟨b', f', h'⟩ := (h.wait hne).move hc
    obtain ⟨b'', f'', A'', w'', h''⟩ := ih h'
    exact ⟨b'', f'', A'', w'', by rwa [show lo + (n + 1) = lo + 1 + n by omega]⟩

/-- What a LOAD with one more micro-op leaves at its end: all of its blocks have landed, and their accumulators give its RED results. -/
theorem endRun_landed (hs : s.vec.runs = [c.r]) (hd : NoDouble s) (hb : c.r.beats = []) (hr : c.r.red = []) (hle : c.r.done ≤ c.r.avail) :
    ∃ n x, c.LandedTo s n x ∧ c.count ≤ 64 * n ∧ (∀ m, m < n → 64 * m < c.count) ∧ ∃ u, u.mem = x.mem ∧ u.vec.v = x.vec.v ∧
      endRun s c.r.id = putLanes u (redResults { c.r with red := c.redTo n }) := by
  have hfound : vecRunOf s c.r.id = some c.r := by rw [vecRunOf, hs]; simp
  have hsole : SoleAt c.r.bare s.vec.beats s := ⟨⟨c.r, hs, rfl⟩, rfl⟩
  obtain ⟨e, he, ⟨de, we, rfl, -, -⟩, hed⟩ := hsole.bareAt.forceEntry_all
  obtain ⟨b, f, d, A, w, h⟩ : c.Chained s (Machine.forceEntry s c.r.id) := Chained.forceEntry hc c.r.id ⟨0, 0, 0, _, _, .start hs hd hb hr hle⟩
  have hall : c.r.avail ≤ c.r.done + 64 * d := by
    have hy : (c.running b f d A w).bare = c.r.bare.upTo de we := he.2 _ (by
      rw [show (Machine.forceEntry s c.r.bare.id).vec.runs = _ from h.runs]
      exact List.mem_singleton_self _) rfl
    have hmin : min (c.r.done + 64 * d) c.r.avail = de := (congrArg VRun.done hy :)
    have hde : de = max c.r.done c.r.avail := hed
    omega
  have hlen : 3 * c.r.prog.length + 2 = 8 := by rw [hc.prog]; rfl
  obtain ⟨b', f', A', w', h'⟩ := h.late hc 8 hall
  have hbd : b' = d := by
    obtain ⟨hbf, hfd⟩ := h'.le
    by_contra hne
    have := h'.ages b' (Nat.le_refl _) (by omega)
    omega
  subst hbd
  have hfb : f' = b' := by have := h'.le; omega
  subst hfb
  generalize hx : chainCycles 8 (Machine.forceEntry s c.r.id) = x at h'
  refine ⟨f', x, h'.landed, by unfold count; omega, h'.last, x.modVec (fun v => { v with runs := v.runs.filter (fun y => decide (y.id ≠ c.r.id)) }), rfl, rfl, ?_⟩
  rw [endRun, hfound]
  dsimp only
  rw [hlen, hx, vecRunOf, h'.runs]
  have hfind : [c.running f' f' f' A' w'].find? (fun r => decide (r.id = c.r.id)) = some (c.running f' f' f' A' w') := by simp [running]
  rw [hfind]
  rfl

end Cycles

end LoadOp

end Sys2Proof.Machine
end
section
/-! PROOFS. A LOAD from local memory with one more micro-op, element by element (08 R197, R199, R204, R208). -/

namespace Sys2Proof.Machine

/-! The elements of the beats. -/

/-- The elements of block n of count elements. -/
def chainElems (count n : Nat) : List Nat := (List.range (min 64 (count - 64 * n))).map (64 * n + ·)

theorem chainElems_flatten (count n : Nat) : (List.range n).flatMap (chainElems count) = List.range (min (64 * n) count) := by
  induction n with
  | zero => simp
  | succ n ih =>
    rw [List.range_succ, List.flatMap_append, List.flatMap_singleton, ih, chainElems]
    by_cases h : 64 * n ≤ count
    · rw [show min (64 * (n + 1)) count = min (64 * n) count + min 64 (count - 64 * n) by omega, List.range_add, Nat.min_eq_left h]
    · rw [show count - 64 * n = 0 by omega, show min (64 * (n + 1)) count = min (64 * n) count by omega]
      simp

theorem mem_chainElems {count n e : Nat} : e ∈ chainElems count n ↔ 64 * n ≤ e ∧ e < 64 * n + 64 ∧ e < count := by
  simp only [chainElems, List.mem_map, List.mem_range]
  constructor
  · rintro ⟨i, hi, rfl⟩
    omega
  · rintro ⟨h1, h2, h3⟩
    exact ⟨e - 64 * n, by omega, by omega⟩

/-- Element e of a chain operation without a bale, and with a value in a slot. -/
def elemLane (r : VRun) (e : Nat) : Lane := { e := e, row := (r.rd.place 0 e).1, col := (r.rd.place 0 e).2, t := [0, 0, 0, 0] }
def elemWith (r : VRun) (dst : Nat) (val : Nat → Word) (e : Nat) : Lane := (elemLane r e).setSlot dst (val e)

theorem slot_elemWith {r : VRun} {dst : Nat} (h : dst < 4) (val : Nat → Word) (e : Nat) : (elemWith r dst val e).slot dst = val e := by
  interval_cases dst <;> rfl

theorem uDst_lt (w : Word) : uDst w < 4 := Nat.mod_lt _ (by decide)

/-! What is read of memory. -/

theorem memNat_congr {m m' : List Host.Cell} {a n : Nat} (h : ∀ x, a ≤ x → x < a + n → memByte m' x = memByte m x) : memNat m' a n = memNat m a n := by
  rw [memNat, memBytes_congr h]; rfl

theorem widen_congr {m m' : List Host.Cell} (h : ∀ a, memByte m' a = memByte m a) (l : Layout) (r c : Nat) : l.widen m' r c = l.widen m r c := by
  have hnat : ∀ a n, memNat m' a n = memNat m a n := fun a n => memNat_congr fun x _ _ => h x
  unfold Layout.widen Layout.exact Layout.value mxCode
  simp only [h, hnat]

theorem widen_congr_elem {m m' : List Host.Cell} {l : Layout} (hmx : l.isMx = false) {r c : Nat}
    (h : ∀ k, k < l.width / 8 → memByte m' (l.elemAddr r c + k) = memByte m (l.elemAddr r c + k)) : l.widen m' r c = l.widen m r c := by
  have hnat : memNat m' (l.elemAddr r c) (l.width / 8) = memNat m (l.elemAddr r c) (l.width / 8) := memNat_congr fun x hx hlt => by
    have := h (x - l.elemAddr r c) (by omega)
    rwa [Nat.add_sub_cancel' hx] at this
  unfold Layout.widen Layout.exact Layout.value
  rw [hmx, hnat]
  rfl

theorem fmtWidth_le (c : Nat) : fmtWidth c ≤ 32 := by
  unfold fmtWidth fmtOf
  split
  · next f h => split at h <;> cases h <;> decide
  · exact Nat.le_refl _

theorem Layout.width_le (l : Layout) : l.width ≤ 32 := by
  unfold Layout.width
  split
  · exact fmtWidth_le _
  · decide
  · decide
  · exact Nat.le_refl _

theorem codeBytes_length (w code : Nat) : (codeBytes w code).length = w / 8 := by simp [codeBytes, leBytes]

/-- A byte that no writing takes in stays. -/
theorem bytesAfter_of_outside {x : Nat} (b : Byte) {ws : Writes} (h : ∀ w ∈ ws, ¬ (w.1 ≤ x ∧ x < w.1 + w.2.length)) : bytesAfter x b ws = b := by
  induction ws generalizing b with
  | nil => rfl
  | cons w ws ih =>
    rw [bytesAfter, List.foldl_cons, byteAfter, if_neg (h w List.mem_cons_self)]
    exact ih b fun v hv => h v (List.mem_cons_of_mem _ hv)

/-! The two micro-ops. -/

section Types
variable (b : Beat) (k : Nat) {w : Word}

theorem uop_of_load (h : uType w = 0) : b.uop k w = b.mapSlot (uDst w) (b.load w) := by rw [Beat.uop, h]; rfl
theorem uop_of_red (h : uType w = 4) : b.uop k w = b.reduce k w := by rw [Beat.uop, h]; rfl
theorem uop_of_store (h : uType w = 7) : b.uop k w = b.store w := by rw [Beat.uop, h]; rfl

end Types

/-- A LOAD and one more micro-op, by what this makes of the elements of a block. -/
def elemOp (r : VRun) (dst : Nat) (val : Nat → Word) (wr : List Nat → Writes) (lanes : List Nat → List (Nat × Word))
    (red : List Nat → Tab (Option Word) → Tab (Option Word)) : LoadOp :=
  { r := r, dst := dst, val := val, wr := fun n => wr (chainElems r.rd.count n), lanes := fun n => lanes (chainElems r.rd.count n)
    red := fun n => red (chainElems r.rd.count n) }

/-- The value that a LOAD gives of element e. -/
def loadVal (s : State) (r : VRun) (l : Layout) (e : Nat) : Word := l.widen s.mem.bytes (r.rd.place 0 e).1 (r.rd.place 0 e).2

/-- A chain operation alone in the chain, none of whose beats has entered, that loads from memory and has one more micro-op. -/
structure ChainLoad (s : State) (r : VRun) (ld op : Word) (l : Layout) : Prop where
  alone : s.vec.runs = [r]
  bale : r.bale = none
  done : r.done = 0
  avail : r.avail = r.rd.count
  beats : r.beats = []
  red : r.red = []
  clean : NoDouble s
  prog : r.prog = [ld, op]
  load : uType ld = 0
  input : uSrc ld = 0
  all : ld.getLsbD 8 = false
  source : uSrc op = uDst ld
  layout : r.rd.ins.getD 0 .none = .mem l

section Elements
variable {s : State} {r : VRun} {ld op : Word} {l : Layout} (h : ChainLoad s r ld op l) {wr : List Nat → Writes}
  {lanes : List Nat → List (Nat × Word)} {red : List Nat → Tab (Option Word) → Tab (Option Word)}

theorem ChainLoad.of_left (n : Nat) (h : ChainLoad s r ld op l) : ChainLoad (withoutInfl s eVEC n) r ld op l :=
  ⟨h.alone, h.bale, h.done, h.avail, h.beats, h.red, h.clean, h.prog, h.load, h.input, h.all, h.source, h.layout⟩

include h

theorem ChainLoad.count {dst : Nat} {val : Nat → Word} : (elemOp r dst val wr lanes red).count = r.rd.count := by
  show r.avail - r.done = _
  rw [h.done, h.avail]
  rfl

theorem ChainLoad.block {dst : Nat} {val : Nat → Word} (n : Nat) :
    (elemOp r dst val wr lanes red).block n = (chainElems r.rd.count n).map (elemLane r) := by
  unfold LoadOp.block VRun.nextLanes chainElems
  dsimp only [elemOp]
  rw [h.bale, h.done, h.avail, Nat.zero_add, List.map_map]
  rfl

theorem ChainLoad.loaded {dst : Nat} {val : Nat → Word} (n : Nat) :
    (elemOp r dst val wr lanes red).loaded n = (chainElems r.rd.count n).map (elemWith r dst val) := by
  rw [LoadOp.loaded, h.block, List.map_map]
  rfl

/-- Micro-op 0 gives the values of the elements. -/
theorem ChainLoad.uop_load {x : State} {y : VRun} {n : Nat} (hy : y.rd = r.rd) (val : Nat → Word)
    (hval : ∀ e ∈ chainElems r.rd.count n, l.widen x.mem.bytes (r.rd.place 0 e).1 (r.rd.place 0 e).2 = val e) :
    Beat.uop { s := x, r := y, bale := r.bale, ls := (chainElems r.rd.count n).map (elemLane r) } 0 ld =
      { s := x, r := y, bale := r.bale, ls := (chainElems r.rd.count n).map (elemWith r (uDst ld) val) } := by
  rw [uop_of_load _ 0 h.load, Beat.mapSlot, List.map_map]
  refine congrArg (fun ls => ({ s := x, r := y, bale := r.bale, ls := ls } : Beat)) (List.map_congr_left fun e he => ?_)
  refine congrArg ((elemLane r e).setSlot (uDst ld)) ?_
  unfold Beat.load
  dsimp only
  rw [h.all, h.input, hy, h.layout]
  exact hval e he

/-- The program does in every block what its two micro-ops do. -/
theorem ChainLoad.acts
    (hload : ∀ (x : State) (b n : Nat), b ≤ n → 64 * n < r.rd.count → (elemOp r (uDst ld) (loadVal s r l) wr lanes red).LandedTo s b x →
      ∀ e ∈ chainElems r.rd.count n, loadVal x r l e = loadVal s r l e)
    (hact : ∀ (x : State) (y : VRun) (es : List Nat), x.man = s.man → y.rd = r.rd → y.stepField = r.stepField →
      ∃ g, Beat.uop { s := x, r := y, bale := r.bale, ls := es.map (elemWith r (uDst ld) (loadVal s r l)) } 1 op =
        { s := { x with wgh := g }, r := { y with red := red es y.red }, bale := r.bale, ls := es.map (elemWith r (uDst ld) (loadVal s r l))
          wr := wr es, lanes := lanes es })
    (hin : ∀ n, InMemory (wr (chainElems r.rd.count n))) : (elemOp r (uDst ld) (loadVal s r l) wr lanes red).Acts s ld op := by
  refine ⟨h.prog, fun x y b n hb hn hx hy => ?_, fun x y n hm hy hst => ?_, fun n _ => hin n⟩
  · rw [h.block, h.loaded]
    rw [h.count] at hn
    exact h.uop_load hy _ (hload x b n hb hn hx)
  · rw [h.loaded]
    exact hact x y (chainElems r.rd.count n) hm hy hst

end Elements

/-! STORE into registers, STORE into memory, and RED SUM. -/

section Second
variable {s : State} {r : VRun} {ld op : Word} {l : Layout} (h : ChainLoad s r ld op l)
include h

theorem ChainLoad.slot (val : Nat → Word) (e : Nat) : (elemWith r (uDst ld) val e).slot (uSrc op) = val e := by
  rw [h.source]
  exact slot_elemWith (uDst_lt ld) val e

theorem ChainLoad.uop_storeReg {k : Nat} (ht : uType op = 7) (h8 : op.getLsbD 8 = false) (ho : r.rd.outs.getD 0 .none = .reg k) {x : State} {y : VRun}
    (hy : y.rd = r.rd) (val : Nat → Word) (es : List Nat) :
    Beat.uop { s := x, r := y, bale := r.bale, ls := es.map (elemWith r (uDst ld) val) } 1 op =
      { s := x, r := y, bale := r.bale, ls := es.map (elemWith r (uDst ld) val), lanes := es.map (fun e => (64 * k + e, val e)) } := by
  rw [uop_of_store _ 1 ht]
  unfold Beat.store
  dsimp only
  rw [bitsOf_bit, h8, hy]
  dsimp only [Bool.toNat_false]
  rw [ho]
  dsimp only
  rw [List.nil_append, List.map_map]
  refine congrArg (fun ls => ({ s := x, r := y, bale := r.bale, ls := es.map (elemWith r (uDst ld) val), lanes := ls } : Beat))
    (List.map_congr_left fun e _ => ?_)
  refine Prod.ext ?_ (h.slot val e)
  show 64 * (k + e / 64) + e % 64 = 64 * k + e
  omega

/-- The writing of element e by a STORE into a tensor. -/
def storeOf (s : State) (r : VRun) (o : Layout) (val : Nat → Word) (e : Nat) : Nat × List Byte :=
  (o.elemAddr (r.rd.place 0 e).1 (r.rd.place 0 e).2, codeBytes o.width (narrowCode o.fmt o.s
    (roundingOf o.sr (rndOf s o r.stepField) (o.index (r.rd.place 0 e).1 (r.rd.place 0 e).2)) (val e)).code)

theorem ChainLoad.uop_storeMem {o : Layout} (ht : uType op = 7) (h8 : op.getLsbD 8 = false) (ho : r.rd.outs.getD 0 .none = .mem o)
    (hmx : o.isMx = false) (hk : o.kind = 0) {x : State} {y : VRun} (hm : x.man = s.man) (hy : y.rd = r.rd) (hst : y.stepField = r.stepField)
    (val : Nat → Word) (es : List Nat) :
    ∃ g, Beat.uop { s := x, r := y, bale := r.bale, ls := es.map (elemWith r (uDst ld) val) } 1 op =
      { s := { x with wgh := g }, r := y, bale := r.bale, ls := es.map (elemWith r (uDst ld) val), wr := (es.map (storeOf s r o val)).reverse } := by
  have hput := putPlaces_writes o r.stepField (fun ln : Lane => (ln.row, ln.col)) (fun ln => ln.slot (uSrc op)) (es.map (elemWith r (uDst ld) val)) { s := x }
  generalize he : (es.map (elemWith r (uDst ld) val)).foldl (fun e q =>
    putElem e o r.stepField (q.row, q.col).1 (q.row, q.col).2 (q.slot (uSrc op))) { s := x } = e at hput
  obtain ⟨hs, hw⟩ := hput
  refine ⟨e.s.wgh, ?_⟩
  rw [uop_of_store _ 1 ht]
  unfold Beat.store
  dsimp only
  rw [bitsOf_bit, h8, hy]
  dsimp only [Bool.toNat_false]
  rw [ho]
  dsimp only
  rw [hst]
  simp only [hmx, hk, Bool.false_eq_true, if_false, if_true]
  rw [he]
  have hwr : e.wr = (es.map (storeOf s r o val)).reverse := by
    rw [hw, List.append_nil, List.map_map]
    refine congrArg List.reverse (List.map_congr_left fun i _ => ?_)
    dsimp only [Function.comp_apply]
    rw [h.slot val i, rndOf_congr hm]
    rfl
  rw [hwr, hs]

omit h in
theorem redSum_fields (h0 : op.extractLsb' 8 4 = 0) : bitsOf op.toNat 9 8 = 0 ∧ bitsOf op.toNat 11 10 = 0 := by
  have h0' : bitsOf op.toNat 11 8 = 0 := by rw [bitsOf_toNat, h0]; rfl
  unfold bitsOf at *
  omega

/-- The accumulators after the elements of a RED SUM. -/
def sumInto (val : Nat → Word) (es : List Nat) (t : Tab (Option Word)) : Tab (Option Word) :=
  es.foldl (fun t e => tabMod none t (64 + e % 64) (fun a => some (fAdd (a.getD 0) (val e)))) t

theorem ChainLoad.uop_sum (ht : uType op = 4) (h0 : op.extractLsb' 8 4 = 0) {x : State} {y : VRun} (val : Nat → Word) (es : List Nat) :
    Beat.uop { s := x, r := y, bale := r.bale, ls := es.map (elemWith r (uDst ld) val) } 1 op =
      { s := x, r := { y with red := sumInto val es y.red }, bale := r.bale, ls := es.map (elemWith r (uDst ld) val) } := by
  have hop : bitsOf op.toNat 9 8 = 0 ∧ bitsOf op.toNat 11 10 = 0 := redSum_fields h0
  rw [uop_of_red _ 1 ht]
  unfold Beat.reduce
  dsimp only
  rw [hop.1, hop.2, if_neg (by decide)]
  refine congrArg (fun z => ({ s := x, r := z, bale := r.bale, ls := es.map (elemWith r (uDst ld) val) } : Beat)) ?_
  induction es generalizing y with
  | nil => rfl
  | cons e es ih =>
    rw [List.map_cons, List.foldl_cons, ih]
    rw [if_neg (by decide), h.slot val e]
    rfl

end Second

end Sys2Proof.Machine
end
section
/-! PROOFS. What LOAD and STORE, and LOAD and RED SUM, leave at their end (08 R199, R204, R208, R214). -/

namespace Sys2Proof.Machine

/-! Consecutive lanes. -/

theorem tabGet_setRange (base count : Nat) (val : Nat → Word) (v : Tab Word) (j : Nat) :
    tabGet 0 (((List.range count).map (fun e => (base + e, val e))).foldl (fun m p => tabSet 0 m p.1 p.2) v) j =
      if base ≤ j ∧ j < base + count then val (j - base) else tabGet 0 v j := by
  induction count with
  | zero =>
    rw [if_neg (by omega)]
    rfl
  | succ n ih =>
    rw [List.range_succ, List.map_append, List.foldl_append]
    refine (tabGet_set ..).trans ?_
    rw [ih]
    by_cases hj : j = base + n
    · rw [if_pos hj, if_pos (by omega), hj, Nat.add_sub_cancel_left]
    · rw [if_neg hj]
      by_cases hr : base ≤ j ∧ j < base + n
      · rw [if_pos hr, if_pos (by omega)]
      · rw [if_neg hr, if_neg (by omega)]

theorem map_chainElems {α : Type} (f : Nat → α) (count n : Nat) :
    (List.range n).flatMap (fun m => (chainElems count m).map f) = (List.range (min (64 * n) count)).map f := by
  rw [← chainElems_flatten, List.map_flatMap]

/-! The accumulators of RED SUM. -/

/-- Accumulator i holds the sum of the elements of its lane, in their order. -/
theorem tabGet_sumInto (val : Nat → Word) (es : List Nat) (t : Tab (Option Word)) {i : Nat} :
    tabGet none (sumInto val es t) (64 + i) =
      (es.filter (fun e => decide (e % 64 = i))).foldl (fun (acc : Option Word) e => some (fAdd (acc.getD 0) (val e))) (tabGet none t (64 + i)) := by
  induction es generalizing t with
  | nil => rfl
  | cons e es ih =>
    have hset : tabGet none (tabMod none t (64 + e % 64) (fun a => some (fAdd (a.getD 0) (val e)))) (64 + i) =
        if e % 64 = i then some (fAdd ((tabGet none t (64 + i)).getD 0) (val e)) else tabGet none t (64 + i) := by
      rw [tabMod, tabGet_set]
      by_cases h : e % 64 = i
      · rw [if_pos h, if_pos (by omega), h]
      · rw [if_neg h, if_neg (by omega)]
    refine (ih _).trans ?_
    rw [hset, List.filter_cons]
    by_cases h : e % 64 = i
    · rw [if_pos h, if_pos (decide_eq_true h)]
      rfl
    · rw [if_neg h, if_neg (by simpa using h)]

/-- The lanes of a register of a lane 0 and of zeros behind it. -/
theorem regLanes_first (v : Nat) (a : Word) :
    regLanes v (a :: List.replicate 63 0) = (List.range 64).map (fun i => (64 * v + i, if i = 0 then a else 0)) :=
  regLanes_range v 64 fun i => if i = 0 then a else 0

section Ends
variable {s : State} {r : VRun} {ld op : Word} {l : Layout} (h : ChainLoad s r ld op l)

/-- Where the blocks before have written nothing, the elements are as they were. -/
theorem loadVal_of_landed {c : LoadOp} {x : State} {b : Nat} (hx : c.LandedTo s b x) (hw : c.written b = []) (e : Nat) :
    loadVal x r l e = loadVal s r l e := by
  have hb := hx.bytes
  rw [hw] at hb
  exact widen_congr hb ..

include h

/-- What has landed at the end of the operation, of whose RED results none may be. -/
theorem ChainLoad.ends {wr : List Nat → Writes} {lanes : List Nat → List (Nat × Word)} {red : List Nat → Tab (Option Word) → Tab (Option Word)}
    (hc : (elemOp r (uDst ld) (loadVal s r l) wr lanes red).Acts s ld op) :
    let c := elemOp r (uDst ld) (loadVal s r l) wr lanes red
    ∃ n x u, c.LandedTo s n x ∧ min (64 * n) r.rd.count = r.rd.count ∧ u.mem = x.mem ∧ u.vec.v = x.vec.v ∧
      endRun s r.id = putLanes u (redResults { r with red := c.redTo n }) := by
  obtain ⟨n, x, hx, hle, -, u, hm, hv, hend⟩ := LoadOp.endRun_landed hc h.alone h.clean h.beats h.red (by
    show r.done ≤ r.avail
    rw [h.done]
    exact Nat.zero_le _)
  rw [h.count] at hle
  exact ⟨n, x, u, hx, by omega, hm, hv, hend⟩

theorem ChainLoad.redResults_store (ht : uType op = 7) (t : Tab (Option Word)) : redResults { r with red := t } = [] := by
  unfold redResults
  dsimp only
  rw [h.prog]
  simp [h.load, ht]

theorem ChainLoad.redResults_sum (ht : uType op = 4) (h0 : op.extractLsb' 8 4 = 0) (t : Tab (Option Word)) :
    redResults { r with red := t } = regLanes (op.extractLsb' 12 5).toNat
      ((laneTree fAdd ((List.range 64).map (fun i => tabGet none t (64 + i)))).getD 0 :: List.replicate 63 0) := by
  obtain ⟨hop, hred⟩ := redSum_fields h0
  have hadd : redOp 0 = fAdd := rfl
  unfold redResults
  dsimp only
  rw [h.prog]
  have hvr : bitsOf op.toNat 16 12 = (op.extractLsb' 12 5).toNat := bitsOf_toNat op 16 12
  simp [h.load, ht, hop, hred, hadd, hvr, redStart]

/-- LOAD and STORE into registers. -/
theorem ChainLoad.storesReg {k : Nat} (ht : uType op = 7) (h8 : op.getLsbD 8 = false) (ho : r.rd.outs.getD 0 .none = .reg k) :
    SameBytes s (endRun s r.id) ∧ ∀ j, tabGet 0 (endRun s r.id).vec.v j =
      if 64 * k ≤ j ∧ j < 64 * k + r.rd.count then loadVal s r l (j - 64 * k) else tabGet 0 s.vec.v j := by
  have hc : (elemOp r (uDst ld) (loadVal s r l) (fun _ => []) (fun es => es.map (fun e => (64 * k + e, loadVal s r l e))) (fun _ t => t)).Acts s ld op :=
    h.acts (fun x b n _ _ hx e _ => loadVal_of_landed hx (by simp [LoadOp.written, elemOp]) e)
      (fun x y es _ hy _ => ⟨x.wgh, h.uop_storeReg ht h8 ho hy _ es⟩) nofun
  obtain ⟨n, x, u, hx, hn, hm, hv, hend⟩ := h.ends hc
  rw [h.redResults_store ht] at hend
  have hu : endRun s r.id = u := hend
  constructor
  · have hb := hx.bytes
    rw [show LoadOp.written _ n = [] by simp [LoadOp.written, elemOp]] at hb
    rw [hu]
    exact fun a => (congrArg (fun m : Mem => memByte m.bytes a) hm).trans (hb a)
  · intro j
    rw [hu, hv, hx.lanes]
    refine Eq.trans ?_ (tabGet_setRange (64 * k) r.rd.count (loadVal s r l) s.vec.v j)
    rw [LoadOp.laned, ← hn]
    exact congrArg (fun ps => tabGet 0 (List.foldl (fun m p => tabSet 0 m p.1 p.2) s.vec.v ps) j)
      (map_chainElems (fun e => (64 * k + e, loadVal s r l e)) r.rd.count n)

omit h in
/-- The elements of a tensor apart from what the operation writes are read as they were, and those of one block always are. -/
theorem loads_apart {o : Layout} {c : LoadOp} (hw : ∀ n, c.written n = (List.range (min (64 * n) r.rd.count)).map (storeOf s r o (loadVal s r l)))
    (hapart : r.rd.count ≤ 64 ∨ (l.isMx = false ∧ ∀ e e' k k', e < r.rd.count → e' < r.rd.count → k < 4 → k' < 4 →
      l.elemAddr (r.rd.place 0 e).1 (r.rd.place 0 e).2 + k ≠ o.elemAddr (r.rd.place 0 e').1 (r.rd.place 0 e').2 + k'))
    {x : State} {b n : Nat} (hbn : b ≤ n) (hn : 64 * n < r.rd.count) (hx : c.LandedTo s b x) {e : Nat} (he : e < r.rd.count) :
    loadVal x r l e = loadVal s r l e := by
  obtain h64 | ⟨hmx, hne⟩ := hapart
  · obtain rfl : b = 0 := by omega
    exact loadVal_of_landed hx rfl e
  · refine widen_congr_elem hmx fun k hk => ?_
    have hlw := l.width_le
    have how := o.width_le
    refine (hx.bytes _).trans (bytesAfter_of_outside _ fun w hwm => ?_)
    rw [hw, List.mem_map] at hwm
    obtain ⟨e', he', rfl⟩ := hwm
    have he'' := List.mem_range.mp he'
    rw [storeOf, codeBytes_length]
    rintro ⟨hlo, hhi⟩
    refine hne e e' k (l.elemAddr (r.rd.place 0 e).1 (r.rd.place 0 e).2 + k - o.elemAddr (r.rd.place 0 e').1 (r.rd.place 0 e').2) he (by omega)
      (by omega) ?_ ?_
    all_goals dsimp only at hlo hhi; omega

/-- LOAD and STORE into a tensor. -/
theorem ChainLoad.storesMem {o : Layout} (ht : uType op = 7) (h8 : op.getLsbD 8 = false) (ho : r.rd.outs.getD 0 .none = .mem o)
    (hmx : o.isMx = false) (hk : o.kind = 0)
    (hapart : r.rd.count ≤ 64 ∨ (l.isMx = false ∧ ∀ e e' k k', e < r.rd.count → e' < r.rd.count → k < 4 → k' < 4 →
      l.elemAddr (r.rd.place 0 e).1 (r.rd.place 0 e).2 + k ≠ o.elemAddr (r.rd.place 0 e').1 (r.rd.place 0 e').2 + k'))
    (hin : InMemory ((List.range r.rd.count).map (storeOf s r o (loadVal s r l)))) :
    Landed s (endRun s r.id) ((List.range r.rd.count).map (storeOf s r o (loadVal s r l))) ∧ (endRun s r.id).vec.v = s.vec.v := by
  have hw : ∀ n, (elemOp r (uDst ld) (loadVal s r l) (fun es => (es.map (storeOf s r o (loadVal s r l))).reverse) (fun _ => []) (fun _ t => t)).written n =
      (List.range (min (64 * n) r.rd.count)).map (storeOf s r o (loadVal s r l)) := fun n => by
    rw [← map_chainElems, LoadOp.written]
    simp only [elemOp, List.reverse_reverse]
  have hc : (elemOp r (uDst ld) (loadVal s r l) (fun es => (es.map (storeOf s r o (loadVal s r l))).reverse) (fun _ => []) (fun _ t => t)).Acts s ld op := by
    refine h.acts (fun x b n hbn hn hx e he => loads_apart hw hapart hbn hn hx (mem_chainElems.mp he).2.2)
      (fun x y es hm hy hst => h.uop_storeMem ht h8 ho hmx hk hm hy hst _ es) fun n w hwm => hin w ?_
    obtain ⟨e, he, rfl⟩ := List.mem_map.mp (List.mem_reverse.mp hwm)
    exact List.mem_map_of_mem (List.mem_range.mpr (mem_chainElems.mp he).2.2)
  obtain ⟨n, x, u, hx, hn, hm, hv, hend⟩ := h.ends hc
  rw [h.redResults_store ht] at hend
  have hu : endRun s r.id = u := hend
  have hb := hx.bytes
  rw [hw, hn] at hb
  rw [hu]
  refine ⟨hb.of_mem rfl (by rw [hm]), ?_⟩
  rw [hv, hx.lanes, show LoadOp.laned _ n = [] by simp [LoadOp.laned, elemOp]]
  rfl

/-- LOAD and RED SUM. -/
theorem ChainLoad.sums (ht : uType op = 4) (h0 : op.extractLsb' 8 4 = 0) : SameBytes s (endRun s r.id) ∧
    ∀ j, tabGet 0 (endRun s r.id).vec.v j =
      if j = 64 * (op.extractLsb' 12 5).toNat then
        (laneTree fAdd ((List.range 64).map (fun k => ((List.range r.rd.count).filter (fun e => decide (e % 64 = k))).foldl
          (fun (acc : Option Word) e => some (fAdd (acc.getD 0) (loadVal s r l e))) none))).getD 0
      else if 64 * (op.extractLsb' 12 5).toNat < j ∧ j < 64 * (op.extractLsb' 12 5).toNat + 64 then 0 else tabGet 0 s.vec.v j := by
  have hc : (elemOp r (uDst ld) (loadVal s r l) (fun _ => []) (fun _ => []) (sumInto (loadVal s r l))).Acts s ld op :=
    h.acts (fun x b n _ _ hx e _ => loadVal_of_landed hx (by simp [LoadOp.written, elemOp]) e)
      (fun x y es _ _ _ => ⟨x.wgh, h.uop_sum ht h0 _ es⟩) nofun
  obtain ⟨n, x, u, hx, hn, hm, hv, hend⟩ := h.ends hc
  have hred : (elemOp r (uDst ld) (loadVal s r l) (fun _ => []) (fun _ => []) (sumInto (loadVal s r l))).redTo n =
      sumInto (loadVal s r l) (List.range r.rd.count) [] := by
    rw [← hn, ← chainElems_flatten]
    exact List.foldl_flatMap.symm
  have hxv : x.vec.v = s.vec.v := by
    rw [hx.lanes, show LoadOp.laned _ n = [] by simp [LoadOp.laned, elemOp]]
    rfl
  rw [h.redResults_sum ht h0, hred] at hend
  simp only [tabGet_sumInto] at hend
  constructor
  · have hb := hx.bytes
    rw [show LoadOp.written _ n = [] by simp [LoadOp.written, elemOp]] at hb
    rw [hend]
    exact fun a => (congrArg (fun m : Mem => memByte m.bytes a) ((LoadOp.putLanes_mem ..).trans hm)).trans (hb a)
  · intro j
    rw [hend, LoadOp.putLanes_v, regLanes_first, hv, hxv]
    refine (tabGet_setRange ..).trans ?_
    by_cases hj : j = 64 * (op.extractLsb' 12 5).toNat
    · rw [if_pos (by omega), if_pos hj, if_pos (by omega)]
      rfl
    · rw [if_neg hj]
      by_cases hr : 64 * (op.extractLsb' 12 5).toNat < j ∧ j < 64 * (op.extractLsb' 12 5).toNat + 64
      · rw [if_pos (by omega), if_pos hr, if_neg (by omega)]
      · rw [if_neg hr, if_neg (by omega)]

end Ends

end Sys2Proof.Machine
end
section
/-! PROOFS. Chain operations: their dispatch, and their retirement (08 R197, R199, R204, R208, R209, R214 to R216). -/

namespace Sys2Proof.Machine

/-! The retirement of an operation alone in the chain. -/

section Retire
variable {s : State} {n : Nat} {x : Infl} {r : VRun} (hruns : s.vec.runs = [r]) (hid : r.id = x.id) (hwr : x.wr = []) (hlanes : x.lanes = [])
  (hunits : x.units = [])
include hruns hid

theorem vecRunOf_sole : vecRunOf s x.id = some r := by
  rw [vecRunOf, hruns]
  simp [hid]

include hwr

theorem exec_engineRetire_chain (hon : unitsOn s = true) (hx : (qOf s eVEC).infl[n]? = some x) (hdone : x.done = true) (hord : inOrder s eVEC n x = true)
    (hsp : spansWait s r.rd.spans = false) : exec (.engineRetire 1 n) s = .next (retire s eVEC n x) := by
  have hlast : lastSpans s eVEC x = r.rd.spans := by
    rw [lastSpans, vecRunOf_sole hruns hid, Infl.spans, hwr]
    rfl
  have hx' : (qOf s (1 : BitVec 3).toNat).infl[n]? = some x := hx
  rw [show exec (.engineRetire 1 n) s = execEngineRetire 1 n s from rfl, execEngineRetire, hx']
  simp only [whenMem, show lastSpans s (1 : BitVec 3).toNat x = r.rd.spans from hlast, hon, hdone, show inOrder s (1 : BitVec 3).toNat n x = true from hord,
    hsp, Bool.and_true, if_true, Bool.false_eq_true, if_false]
  rfl

include hlanes hunits

omit hruns in
theorem landLast_chain : landLast (withoutInfl s eVEC n) eVEC x = endRun (withoutInfl s eVEC n) r.id := by
  rw [landLast, hwr, hlanes, hunits, ← hid]
  rfl

/-- What the retirement of an operation alone in the chain leaves of its queue and of the engine. -/
theorem retire_chain : let t := retire s eVEC n x
    t.vec.runs = [] ∧ (qOf t eVEC).infl = (qOf s eVEC).infl.eraseIdx n ∧
      t.vec.beats = s.vec.beats + BitVec.ofNat 32 (ceilDiv (r.avail - r.done) 64) ∧ t.vec.ops = s.vec.ops + 1 ∧
      t.mem = (endRun (withoutInfl s eVEC n) r.id).mem ∧ t.vec.v = (endRun (withoutInfl s eVEC n) r.id).vec.v := by
  intro t
  have hland := landLast_chain (s := s) (n := n) hid hwr hlanes hunits
  obtain ⟨hmem, hv, -⟩ := retire_kept (s := s) (e := eVEC) (i := n) (x := x)
  rw [hland] at hmem hv
  have heff : ∀ u : State, retireEffect u eVEC x = u.modVec (fun v => { v with ops := v.ops + 1 }) := fun u => by
    simp [retireEffect, eVEC, eWGH, eFAC]
  obtain ⟨hr, hb, ho, hframe⟩ := endRun_sole (s := withoutInfl s eVEC n) hruns
  have hvec : t.vec = { (endRun (withoutInfl s eVEC n) r.id).vec with ops := (endRun (withoutInfl s eVEC n) r.id).vec.ops + 1 } := by
    unfold t
    rw [retire_eq, hland, heff, retireProgress_frame, (signalMany_frame ..).vec, writeback_frame]
    rfl
  have hq : t.q = (withoutInfl s eVEC n).q := by
    unfold t
    rw [retire_eq, hland, retireProgress_frame, (signalMany_frame ..).q, retireEffect_frame, writeback_frame]
    exact hframe.q
  refine ⟨by rw [hvec]; exact hr, ?_, by rw [hvec]; exact hb, ?_, hmem, hv⟩
  · rw [qOf, hq, ← listDrop_eq_eraseIdx]
    exact congrArg EngQ.infl ((qOf_modQ s eVEC eVEC _).trans (if_pos rfl))
  · rw [hvec]
    exact congrArg (· + 1) ho

end Retire

/-- Settles O32: a dispatch finds the beats before it entered and begins its operation; a retirement lets the beats of an operation alone in the chain
enter and land, and what LOAD and STORE, and LOAD and RED SUM, make of the elements of each block adds up over the blocks. -/
theorem vectorChains : Obligations.VectorChains := by
  refine ⟨?_, ?_⟩
  · intro s ent i fn hi h p n a srcOf resv bad hfree hw v x u rd hc bale r
    obtain ⟨rfl, rfl⟩ | ⟨rfl, rfl⟩ : (i = Instr.vecRun ∧ fn = 0) ∨ (i = Instr.vecProg ∧ fn = 1) := by simpa using hi
    · have hsrc : ∀ z : State, srcOf z = runSrc z ent := fun z => by
        simp [srcOf, runSrc, a, p]
      have hbad : bad = runBad s ent := by simp [bad, p, runBad]
      have hresv : resv = runResv ent := by
        simp [resv, runResv, bitsOf_toNat, ← BitVec.toNat_inj]
      obtain ⟨y, hy⟩ := startRun_leaves (s := s) (ent := ent) (u := u) (touchSpans_reads ..) x.prog rd 7
      rw [hresv, hbad] at hc
      rw [hsrc] at hw
      exact ⟨_, y, vecRun_goes h hfree hw (hsrc v).symm hc, hy⟩
    · have hn : n = min (progLen ent) 16 := by simp [n, progLen, bitsOf_toNat]
      have hsrc : ∀ z : State, srcOf z = progSrc z ent := fun z => by
        simp [srcOf, progSrc, a, hn]
      have hbad : bad = progBad ent := by
        simp [bad, progBad, progLen, bitsOf_toNat, ← BitVec.toNat_inj]
      have hresv : resv = progResv ent := by
        simp [resv, progResv, bitsOf_toNat, ← BitVec.toNat_inj]
      obtain ⟨y, hy⟩ := startRun_leaves (s := s) (ent := ent) (u := u) (touchSpans_reads ..) x.prog rd 8
      rw [hresv, hbad] at hc
      rw [hsrc] at hw
      exact ⟨_, y, vecProg_goes h hfree hw (hsrc v).symm hc, hy⟩
  · intro s n x r ld op l hon hx hdone hord hwr hlanes hunits hruns hid hbale hd0 havail hbeats hred hsp hclean hprog hld hin hall hsrc hlay count at_ val
    have h : ChainLoad (withoutInfl s eVEC n) r ld op l :=
      ChainLoad.of_left n ⟨hruns, hbale, hd0, havail, hbeats, hred, hclean, hprog, hld, hin, hall, hsrc, hlay⟩
    obtain ⟨htruns, hinfl, htb, hto, hmem, hv⟩ := retire_chain (n := n) hruns hid hwr hlanes hunits
    have hcount : ceilDiv (r.avail - r.done) 64 = (count + 63) / 64 := by rw [hd0, havail]; rfl
    rw [hcount] at htb
    have hbytes : (retire s eVEC n x).mem.bytes = (endRun (withoutInfl s eVEC n) r.id).mem.bytes := by rw [hmem]
    refine ⟨_, exec_engineRetire_chain hruns hid hwr hon hx hdone hord hsp, htruns, hinfl, htb, hto, fun k ht h8 ho => ?_,
      ?_, fun ht h0 => ?_⟩
    · obtain ⟨hsame, hreg⟩ := h.storesReg ht h8 ho
      refine ⟨fun a => ?_, fun j => ?_⟩
      · rw [hbytes]
        exact hsame a
      · rw [hv]
        exact hreg j
    · intro o ht h8 ho hmx hk hapart ws hws
      obtain ⟨hland, hkept⟩ := h.storesMem ht h8 ho hmx hk hapart hws
      exact ⟨hland.of_mem rfl hbytes, hv.trans hkept⟩
    · obtain ⟨hsame, hreg⟩ := h.sums ht h0
      refine ⟨fun a => ?_, fun j => ?_⟩
      · rw [hbytes]
        exact hsame a
      · rw [hv]
        exact hreg j

end Sys2Proof.Machine
end
